-- ==== Sys2Proof/Word.lean ====
section
/-!
DEFINITION. The word types of the W9: 32-bit register words and microwords, bytes of memory, 64-bit values.
Bit-field and saturation helpers stand in Machine/Bits.lean.
-/
namespace Sys2Proof

/-- A 32-bit register word (R11) or microword (R275). -/
abbrev Word := BitVec 32

/-- One byte of memory, of a frame or of an image. -/
abbrev Byte := BitVec 8

/-- A 64-bit quantity: the timebase (R5), a fold word (R23), a serial (R413). -/
abbrev Dword := BitVec 64

end Sys2Proof
end

