-- ==== Sys2Proof/Syntax.lean ====
section
/-!
DEFINITION. The commands of the W9, one constructor of `Instr` per row of the operation table, with the operands
that the step takes from outside the block: what a host wrote, what a fetch returned, what a frame carried,
what the pixel datapath and the codec standards produced. Every operand that the spec's rules compute is computed by
the machine and is no operand.
-/
namespace Sys2Proof

/-- The data of a BAR0 write (R337): fewer than 4 bytes, whole words in address order, or poisoned (R330). -/
inductive WData where
  | short (v : Word)
  | words (vs : List Word)
  | poisoned (v : Word)
deriving DecidableEq, Repr

/-- What the fetch of a pattern image ended with (R42, R427 step 2). -/
inductive FetchResult where
  | failed
  | fetched (image : List Byte)
deriving DecidableEq, Repr

/-- One element of a hint plane as read (Table 6.3): raw x and y, the auxiliary byte. -/
structure HintElem where
  x : BitVec 16
  y : BitVec 16
  aux : Byte
deriving DecidableEq, Repr

/-- What the scheduler reads when it considers a picture (R94, R113, R176), and what lookahead found (R101). -/
structure AdmitIn where
  /-- The 64-byte source descriptor (Table 5.2). -/
  entry : List Byte := []
  /-- The 64-byte hint descriptor (Table 6.1). -/
  hint : List Byte := []
  /-- DECODE: the chunk descriptors from the input head on (Table 9.2), and the bytes of each of space 0. -/
  chunks : List (List Byte) := []
  chunkBytes : List (List Byte) := []
  /-- Hierarchy level of the picture in its mini-GOP: 0 for P, l ≥ 1 for a B picture (R106). -/
  bLevel : Nat := 0
  /-- Lookahead detected a scene cut here (R151). -/
  cutDetected : Bool := false
  /-- Lookahead complexity of the picture (R139). -/
  complexity : Nat := 0
  /-- Lookahead QP offset of a heavily referenced ARCHIVE picture, 0 to 4 downwards (R143). -/
  laOffset : Nat := 0
  /-- Lookahead detected a fade (Tables 5.5 and 5.6, weighted prediction). -/
  fade : Bool := false
  /-- The picture's global vector from the lookahead, in 1/16 pixel (Table 6.5). -/
  glob : Option (Int × Int) := none
  /-- The source picture where it is not in HBM: the lines of each source plane (Table 5.1). -/
  lines : List (List (List Byte)) := []
  /-- The lines of the hint planes, elements left to right (R114). -/
  hints : List (List HintElem) := []
  /-- The entries within the tail that the lookahead reads are owned by the W9 (R102). -/
  aheadOwned : Bool := true
deriving DecidableEq, Repr

/-- An input line of a unit that failed its label or arrived poisoned (R259, Table 12.4). -/
inductive InputKind where
  | source | hint (row col n : Nat) | encRef (pic : Nat) | bulk | decBits | decRef
deriving DecidableEq, Repr

structure InputFail where
  kind : InputKind
  /-- The line, so that a second failure on the same line is known. -/
  line : Nat
deriving DecidableEq, Repr

/-- One coding-tree unit as the datapath coded it: bits when coded normally, bits when coded threadbare, and the activity
offset that ENC_QUANT.aq_strength gave it (R143, R145). -/
structure CtuIn where
  bits : Nat
  tb : Nat
  aq : Int := 0
deriving DecidableEq, Repr

/-- What the motion field keeps of a 16×16 block (R123): for an inter block its vector in 1/16 pixel and the distance in pictures
of its reference; and the size of the coding block that holds it, in luma samples (R127). -/
structure ColVec where
  inter : Bool := false
  x : Int := 0
  y : Int := 0
  dist : Int := 1
  size : Nat := 16
deriving DecidableEq, Repr

/-- What the mode decision made of one 16×16 block, in coding order: its column and row in units of 16 luma samples, whether it is
coded inter where R125 leaves that open, and the size of its coding block. Its vector is the search's (R128). -/
structure MotionBlock where
  bx : Nat := 0
  by_ : Nat := 0
  inter : Bool := true
  size : Nat := 16
  /-- The codec's first vector predictor for each reference, the nearest first, in 1/16 pixel (Table 6.5 PRED). -/
  preds : List (Option (Int × Int)) := []
deriving DecidableEq, Repr

/-- A parameter set, sequence header or picture-level set as the decoder parses it (Tables 9.1 and 9.4). -/
structure SetIn where
  /-- A picture-level set; else a sequence-level one. -/
  ofPic : Bool := false
  id : Nat := 0
  /-- The identifier lies in the codec's range. -/
  idOk : Bool := true
  /-- It names something that Table 9.1 excludes: field coding, a multilayer or range-extension profile, large-scale tiles. -/
  excluded : Bool := false
  /-- Profile as its bit of Table 5.4. -/
  profile : Nat := 0
  /-- 0 4:0:0, 1 4:2:0, 2 4:2:2, 3 4:4:4. -/
  chroma : Nat := 1
  depth : Nat := 8
  width : Nat := 0
  height : Nat := 0
  /-- CTU size in luma samples (H.264: 16). -/
  ctu : Nat := 64
  dpb : Nat := 1
  cols : Nat := 1
  rows : Nat := 1
deriving DecidableEq, Repr

/-- A syntax error in a part, as its kind (err_kind) and the place of its CTU in the part. -/
structure PartErr where
  at_ : Nat
  kind : Nat
deriving DecidableEq, Repr

/-- A part as the decoder parses it (R189): its CTUs in order, by raster address; whether it is inter and its active references in the
longer list; its first syntax error. -/
structure PartIn where
  ctus : List Nat := []
  inter : Bool := false
  active : Nat := 0
  err : Option PartErr := none
deriving DecidableEq, Repr

/-- What the parse of one access unit found (R173 to R195); what follows from it is the machine's. -/
structure DecResult where
  sets : List SetIn := []
  hasPicture : Bool := true
  /-- The picture header parsed, and the sets it refers to. -/
  headerOk : Bool := true
  seqId : Nat := 0
  picId : Option Nat := none
  shown : Bool := true
  key : Bool := false
  /-- Output order within the coded sequence that the last key picture began. -/
  poc : Int := 0
  recoveryDone : Bool := false
  parts : List PartIn := []
  /-- For each inter-predicted CTU, the DPB entries, by picture number, that its prediction blocks read. -/
  reads : List (Nat × List Nat) := []
  /-- CTUs whose prediction reads a reference line that failed its label (R188). -/
  grey : List Nat := []
  /-- Pictures the unit needs and the DPB lacks, by number and output order (R193). -/
  missing : List (Nat × Int) := []
  /-- Size of the cropped picture: conformance window, or AV1 render size (R181). -/
  width : Nat := 0
  height : Nat := 0
  /-- Primaries, transfer, matrix and full range as signalled (Table 9.5 colour, bits 24:0). -/
  colour : Nat := 0
  /-- AV1: the picture carries film grain parameters (R175). -/
  grain : Bool := false
  /-- Syntax errors outside the parts. -/
  otherErrs : Nat := 0
  /-- The coded picture's planes Y, Cb, Cr: lines of samples at the stream's depth. Those of darned CTUs are the machine's (R192). -/
  planes : List (List (List Nat)) := []
  /-- Luma column and line at which the cropped picture begins. -/
  cropX : Nat := 0
  cropY : Nat := 0
  /-- The picture's first reference of list 0 (AV1: LAST). -/
  list0 : Option Nat := none
  /-- The vector of each decoded inter CTU (R192). -/
  vecs : List (Nat × Int × Int) := []
  /-- Pictures that the codec's output process outputs at this commit, in output order (R182). -/
  outputs : List Nat := []
  /-- Pictures decoded but never output, which return their slots (R182). -/
  discards : List Nat := []
  /-- Pictures that leave the DPB at this commit. -/
  removes : List Nat := []
  isRef : Bool := true
deriving DecidableEq, Repr

/-- Kinds of packets of an encode unit, in the order of Table 8.2: delimiter, parameter sets or sequence header, the SEI messages or
metadata OBUs, the AV1 frame header, the slice or tile group, filler. -/
inductive PktKind where
  | aud | sets | bufPeriod | picTiming | recPoint | hdr | frame | slice | filler
deriving DecidableEq, Repr

/-- A packet that the entropy coder writes (R158): for AV1 its OBU header with the extension, and its payload; for the other codecs
the NAL unit header and the payload before emulation prevention. -/
structure Pkt where
  kind : PktKind := .slice
  hdr : List Byte := []
  body : List Byte := []
deriving DecidableEq, Repr

/-- What a tile's paths produced for the unit it finished (R242): the two symbol streams and the two sample streams
whose check values the commit check compares, the tests that are not such a comparison, the coded sizes. -/
structure UnitResult where
  parseOk : Bool := true
  storeOk : Bool := true
  boundsOk : Bool := true
  scalerOk : Bool := true
  symsCoder : List Word := []
  symsProof : List Word := []
  pixPrimary : List (BitVec 16) := []
  pixMirror : List (BitVec 16) := []
  /-- Bits of the picture-level packets and of the band or part header (R145, R159). -/
  hdrBits : Nat := 0
  rows : List (List CtuIn) := []
  /-- The packets that the coder can write for the unit (R158); which of them are written is the machine's (R159). -/
  pkts : List Pkt := []
  motion : List MotionBlock := []
  /-- The frame-end CDFs of the unit (AV1, Table 8.1). -/
  cdf : List Byte := []
  dec : DecResult := {}
deriving DecidableEq, Repr

/-- The tile faults of R248 other than the watchdog. -/
inductive TileFaultKind where
  | storeParity | windowWord
deriving DecidableEq, Repr

/-- The steps of a self-test at which it can end (Table 12.3). -/
inductive SelfTestEnd where
  | pass | logicFail | memoryFail | reloadFail
deriving DecidableEq, Repr

/-- What the MAC and the filters read in a received Ethernet frame (Table 10.2). -/
structure EthFrame where
  fcsOk : Bool := true
  /-- Bytes of the frame, tag and FCS included. -/
  length : Nat := 64
  dstMac : BitVec 48 := 0
  secondTag : Bool := false
  isPause : Bool := false
  /-- IP: 0 none, 4 or 6. -/
  ip : Nat := 0
  ipBad : Bool := false
  isUdp : Bool := false
  udpBad : Bool := false
  dstIp : List Byte := []
  dstUdp : Nat := 0
  pt : Nat := 0
  ssrc : Word := 0
  marker : Bool := false
  rtpTs : Word := 0
  /-- Extended sequence number of ST 2110-20. -/
  seq : Nat := 0
  /-- Sample Row Data segments: row, first pixel offset, data. -/
  srd : List (Nat × Nat × List Byte) := []
  /-- A Sample Row Data header extends past the packet. -/
  srdOverrun : Bool := false
  /-- The frame without its FCS. -/
  payload : List Byte := []
deriving DecidableEq, Repr

/-- A bucket of the mangle (R223). -/
inductive BucketId where
  | sub (n : Nat) | svc (n : Nat) | port (p : Nat)
deriving DecidableEq, Repr

/-- What happened to the packet that a port selected on its way out. -/
inductive EgressCheck where
  /-- The line label verified and the loopback compare agreed. -/
  | good
  /-- A hamper line of the packet failed its label (R171). -/
  | labelFail
  /-- The loopback compare failed once and the second framing agreed (R214). -/
  | loopOnce
  /-- The loopback compare failed twice (R214). -/
  | loopTwice
deriving DecidableEq, Repr

/-- One error event that a block's error pins report (R263). -/
structure FaultEv where
  cls : Nat
  unit : Nat := 0
  n : Nat := 1
  detail : Word := 0
  ses : Nat := 0
deriving DecidableEq, Repr

/-- A line request to a memory controller (R295). -/
inductive LineOp where
  /-- Read; `errs` is the pattern of symbol errors that the lanes added: position in the codeword (R256) and error value. -/
  | read (errs : List (Nat × Byte))
  | write (data : List Byte) (label : Word)
deriving DecidableEq, Repr

/-- The result of a sweep on one line channel (R300, R301). -/
structure SweepResult where
  pass : Bool
  worst : Nat := 0
  achieved : Nat := 0
  /-- Full sweep: the trained (read tap, write tap, reference code) of each of the 72 lanes. -/
  lanes : List (Nat × Nat × Nat) := []
deriving DecidableEq, Repr

/-- How the data of a DMA descriptor fared on its way (Table 16.4): every beat arrived; beat `n` of the move was corrupted
in flight, so that its label fails or it is poisoned; the PCIe port reported an error after `n` bytes. -/
inductive DmaEnd where
  | good | labelFail (n : Nat) | hostError (n : Nat)
deriving DecidableEq, Repr

/-- The 16-byte frame header of Table 18.2. -/
structure LineHdr where
  flags : Nat := 0
  dst : Nat := 0
  src : Nat := 0
  seq : Nat := 0
  hops : Nat := 0
deriving DecidableEq, Repr

namespace Machine

/-- History of the last picture of a kind (R142). -/
structure KindHist where
  rowBits : List Nat := []
  bits : Nat := 0
  qpSum : Int := 0
  qpCnt : Nat := 0
deriving DecidableEq, Repr

/-- Rate-control state of a session (R135 to R153). -/
structure Rc where
  /-- Fullness F, in units of 1/1,441,440,000 bit (R135). -/
  f : Int := 0
  /-- D of Table 7.2, in the same units. -/
  d : Int := 0
  /-- c of the last committed pictures, newest first, at most 64, and what the last LIVE picture gives the next one as its
  c, in 1/2^20; 0 before any (Table 7.2). -/
  cs : List Nat := []
  lastC : Nat := 0
  /-- History by kind of Table 7.2: 0 P, 1 key, 2 cut, 3 first after INVALIDATE_REF, 3 + l for B at level l. No row bits:
  the weights fall back (R142). -/
  hist : List (Nat × KindHist) := []
  /-- Pictures since the last key picture (R96). -/
  sinceKey : Nat := 0
  /-- The next picture must be a key picture (R111, R152, R249). -/
  forceKey : Bool := true
  /-- The next key picture carries new parameter sets or a new sequence header: the first, and those of R111 and R152. -/
  newSets : Bool := true
  /-- B pictures since the last other one, as admitted (R106). -/
  sinceP : Nat := 0
  /-- Committed pictures since the long-term reference was taken (R150). -/
  sinceLtr : Nat := 0
deriving DecidableEq, Repr

/-- Motion state of a session (R123, R129, R132). -/
structure Motion where
  demoted : Bool := false
  /-- Consecutive counted pictures below trust_low (R129). -/
  low : Nat := 0
  agree : Nat := 0
  hintless : Bool := false
  clamped : Nat := 0
  hintMissing : Nat := 0
  hintRejected : Nat := 0
  invalid : Nat := 0
  demotions : Nat := 0
  /-- The co-located motion field of the last committed picture (R123): by 16×16 block, row by row with 1024 to a row. Empty before
  one since START and after a repeated failure of a bulk-state read (R259). -/
  coloc : List (Nat × ColVec) := []
  /-- The global vector of the last LIVE picture that had hints, in 1/16 pixel (Table 6.5). -/
  glob : Option (Int × Int) := none
deriving DecidableEq, Repr

/-- An entry of the decoder's picture buffer (R193, R194). -/
structure DpbEntry where
  pic : Nat := 0
  tainted : Bool := false
  darned : Bool := false
  /-- Marked as never received (R195). -/
  gone : Bool := false
  /-- The reference buffer that it names; none for mid-grey (R187, R193). -/
  buf : Option Nat := none
  /-- Its coded sequence, and its output order in it. -/
  cvs : Nat := 0
  poc : Int := 0
  /-- What the buffer holds: planes of lines of samples; nothing stands for mid-grey. -/
  planes : List (List (List Nat)) := []
deriving DecidableEq, Repr

end Machine

/-- The session that a migration's bulk state describes (R70, R364); the spec gives no byte layout of it, so the frame's
operand carries it decoded: configuration, numbering, references, rate control, motion trust and field, decoder entries and
the counters that a fold shows. -/
structure MigBulk where
  running : Bool := false
  foldGen : Word := 0
  cfgSeq : Word := 0
  /-- SES_CFG_SEQ of the configuration in force and of the set that waits (R60, R61). -/
  forceSeq : Word := 0
  pendSeq : Word := 0
  cfg : List (Nat × Word) := []
  pend : Option (List (Nat × Word)) := none
  /-- SES_LEVEL.expert, and a reversion that waits (R63). -/
  level : Bool := false
  revert : Bool := false
  nextPic : Nat := 0
  lastPic : Nat := 0
  pictures : Nat := 0
  dropped : Nat := 0
  abandoned : Nat := 0
  replays : Nat := 0
  migrations : Nat := 0
  patchMoves : Nat := 0
  tbPictures : Nat := 0
  cuts : Nat := 0
  recoveries : Nat := 0
  bufLimited : Nat := 0
  /-- Class words of the last committed picture (R155, R198). -/
  cwords : List (Nat × Word) := []
  refs : List Nat := []
  ltr : Option Nat := none
  /-- The refresh cycle in progress and the recovery state (R68, R69, R148). -/
  refresh : Option (Nat × Nat) := none
  areas : List (Nat × Nat) := []
  cycle : Nat := 0
  refNext : Nat := 0
  recPend : Bool := false
  recNext : Bool := false
  invalN : Option Nat := none
  /-- Rate-control accumulators and history (R144), motion trust and co-located field (R123, R129). -/
  rc : Machine.Rc := {}
  me : Machine.Motion := {}
  /-- AV1: the CDFs kept with the references, by picture (Table 8.1). -/
  cdfs : List (Nat × List Byte) := []
  /-- The source of the last picture (R101). -/
  lastSource : List (List (List Nat)) := []
  lastCoded : List (List (List Nat)) := []
  /-- DECODE: the decoder's picture buffer, its buffers, its parameter sets and the coded sequences begun. -/
  dpb : List Machine.DpbEntry := []
  buffers : Nat := 0
  sets : List SetIn := []
  cvs : Nat := 0
  shown : List (List (List Nat)) := []
deriving DecidableEq, Repr

/-- The payload of a migration control frame (R364). -/
inductive MigMsg where
  | openReq (srcSes cls group w h : Nat) | accepted | refused | done (crc : Word) (bulk : MigBulk)
deriving DecidableEq, Repr

/-- What boot step 3 reads of the flash (R387, R388). -/
structure FirmwareIn where
  image : List Byte
  /-- The board record of the flash: subsystem vendor ID in bits 15:0 and subsystem device ID in bits 31:16 (R423). -/
  board : Word := 0xFFFFFFFF
deriving DecidableEq, Repr

/-- What the cycle budget of the unit on a tile is reckoned from (R185, R189): the coded luma samples P, and of a gang member its CTUs and
those of the whole picture. -/
structure BudgetIn where
  tile : Nat
  samples : Nat
  part : Nat
  whole : Nat
deriving DecidableEq, Repr

/-- A section of a patch image (Table 14.3). -/
structure PatchSection where
  key : Word
  /-- Redirects: match relative to the program, target relative to the section. -/
  redirects : List (Nat × Nat)
  words : List Word
deriving DecidableEq, Repr

/-- What boot step 5 reads of the flash (R285): no image, or its bytes. -/
inductive PatchIn where
  | noImage
  | image (bytes : List Byte)
deriving DecidableEq, Repr

/-- A summary entry of Table 18.4, its eight words. -/
structure Summary where
  w0 : Word := 0
  devices : Nat := 0
  running : Nat := 0
  tiles : Nat := 0
  free : Nat := 0
  dropped : Nat := 0
  hottest : Nat := 0
  fault : Nat := 0
deriving DecidableEq, Repr

/-- The clothesline ports. -/
inductive LinePort where
  | up | down | trunk
deriving DecidableEq, Repr

/-- A frame that the link layer drops or answers with a NAK (R357). -/
inductive FrameErr where
  | badCrc (seq : Nat) | unknownType | mustBeZero
deriving DecidableEq, Repr

/-- The commands, one per row of the operation table. `fn` is the function whose BAR0 carried a write: 0 the PF, 1 to 63 a
VF; for a session command `n` is the record number in the PF's window or the alias number in the VF's (R333). -/
inductive Instr where
  | registerWrite (fn off : Nat) (d : WData)
  | ignoredCountClear (fn off : Nat) (v : Word)
  | counterClear (fn off : Nat) (v : Word)
  | timebaseTick
  | loadFull
  | loadPiece
  | abortLoad
  | clearPattern
  | clearDone
  | fetchDone (r : FetchResult)
  | validationDone
  | storeLoadDone (fails : List Nat)
  | quietWindowOpen
  | quietWindowClose (fails : List Nat)
  | pressTimeout
  | openSession (fn n : Nat) (arg : BitVec 24)
  | configure (fn n : Nat) (arg : BitVec 24)
  | start (fn n : Nat) (arg : BitVec 24)
  | pause (fn n : Nat) (arg : BitVec 24)
  | resume (fn n : Nat) (arg : BitVec 24)
  | drain (fn n : Nat) (arg : BitVec 24)
  | close (fn n : Nat) (arg : BitVec 24)
  | migrateOut (fn n : Nat) (arg : BitVec 24)
  | migrateIn (fn n : Nat) (arg : BitVec 24)
  | invalidateRef (fn n : Nat) (arg : BitVec 24)
  | forceRecovery (fn n : Nat) (arg : BitVec 24)
  | sesLevelWrite (fn n : Nat) (v : Word)
  | inTailWrite (fn n : Nat) (v : Word)
  | hintTailWrite (fn n : Nat) (v : Word)
  | outHeadWrite (fn n : Nat) (v : Word)
  | ringInRowsWrite (fn n : Nat) (v : Word)
  | migrationStateCopy (ses : Nat)
  | migrationComplete (ses : Nat)
  | migrationTimeout (ses : Nat)
  | pictureAdmission (ses : Nat) (a : AdmitIn)
  | unitDispatch (panel : Nat) (inputs : List InputFail)
  | tileIdleOff (tile : Nat)
  | quadrantPllStop (q : Nat)
  | move (tile : Nat)
  | issue (tile : Nat)
  | wait (tile : Nat) (holds : Bool)
  | branch (tile : Nat) (flag : Bool)
  | loop (tile : Nat)
  | commit (tile : Nat) (r : UnitResult)
  | yield (tile : Nat)
  | trap (tile : Nat) (r : UnitResult)
  | routineAbandon (tile : Nat)
  | tileWatchdog (tile : Nat)
  | tileFault (tile : Nat) (k : TileFaultKind)
  | selfTestDone (tile : Nat) (e : SelfTestEnd)
  | retire (tile : Nat)
  | retest (tile : Nat)
  | scrubRead (stack : Nat) (errs : List (Nat × Byte))
  | hostUnitDelivery (ses : Nat) (bad : Option Nat)
  | outBufHeadWrite (fn n : Nat) (v : Word)
  | decWinRelease (fn n : Nat) (v : Word)
  | budgetStop (b : BudgetIn)
  | ethLinkUp (port : Nat)
  | ethLinkDown (port : Nat)
  | failback (sub : Nat)
  | ethFrameReceive (port : Nat) (frame : List Byte)
  | ingestCloseTimeout (flow : Nat)
  | htxTailWrite (port : Nat) (v : Word)
  | flowLoad (v : Word)
  | flowCommit (v : Word)
  | creditRise (b : BucketId)
  | packetSelect (port : Nat) (htx : List Byte) (chk : EgressCheck)
  | unitStale (sub : Nat)
  | subLoad (v : Word)
  | subCommit (v : Word)
  | subFlush (v : Word)
  | svcLoad (v : Word)
  | svcCommit (v : Word)
  | portShapeWrite (port : Nat) (v : Word)
  | gateChange (port : Nat) (v : Word)
  | gateCancel (port : Nat) (v : Word)
  | gateListStart (port : Nat)
  | gateEntryAdvance (port : Nat)
  | faultEvent (evs : List FaultEv)
  | panelResetDone (panel : Nat) (fails : List Nat)
  | faultAcknowledge (hi : Bool) (v : Word)
  | firstClear (v : Word)
  | faultCfgWrite (v : Word)
  | faultWindowWrite (v : Word)
  | faultInject (v : Word)
  | lintEntryWrite
  | freeze (v : Word)
  | unfreeze (v : Word)
  | snap (v : Word)
  | lintClear (v : Word)
  | lintSramError
  | memRequest (addr : Nat) (op : LineOp) (caErrs : Nat)
  | rowCloseTimeout (stack chan rank bank : Nat)
  | stackTempReport (stack temp : Nat)
  | bankRefresh (stack rank : Nat)
  | rankPowerDown (stack rank : Nat)
  | rankSelfRefresh (stack rank : Nat)
  | loadWindow (stack : Nat) (loads : List Nat) (margins : List (Nat × Nat × Nat))
  | freqChangeRequest (stack : Nat) (v : Word)
  | freqChangeDone (stack : Nat)
  | fullSweep (stack : Nat) (v : Word)
  | marginSweep (stack : Nat) (v : Word)
  | sweepAbort (stack : Nat) (v : Word)
  | sweepDone (stack : Nat) (r : SweepResult)
  | caParityError (stack chan : Nat) (again : Bool)
  | dsetFlagsWrite (stack : Nat) (v : Word)
  | dmaTailWrite (chan : Nat) (v : Word)
  | descriptorStart (chan : Nat) (desc : List Byte) (data : List Byte)
  | burstStart (chan : Nat)
  | descriptorWriteback (chan : Nat) (e : DmaEnd)
  | dmaAbort (chan : Nat) (v : Word)
  | dmaEnable (chan : Nat) (v : Word)
  | dmaReqSet (v : Word)
  | dmaReqClear (v : Word)
  | inboxFlush (tile : Nat) (v : Word)
  | arbiterGrant (stack : Nat) (eligible : BitVec 16)
  | arbSeedWrite (stack : Nat) (v : Word)
  | cvuData8 (u : Nat) (v : Word)
  | cvuData16 (u : Nat) (v : Word)
  | cvuData32 (u : Nat) (v : Word)
  | cvuResultRead (u : Nat)
  | cvuStart (u : Nat) (v : Word)
  | cvuCtlWrite (u : Nat) (v : Word)
  | pcieLinkDown
  | vfFlr (vf : Nat)
  | pfFlr
  | vfEnableClear
  | flrComplete (vf : Nat)
  | vfSessWrite (vf : Nat) (v : Word)
  | bktEnable (fn : Nat) (v : Word)
  | bktHeadWrite (fn : Nat) (v : Word)
  | msixModerationExpiry (fn : Nat)
  | msixUnmask (fn : Nat) (enable fnMask vecMask : Bool)
  | bktMaskWrite (fn : Nat) (v : Word)
  | hifClaim
  | hifEoi (v : Word)
  | pendEnWrite (v : Word)
  | pendingSourceAssert (src : Nat) (detail : Word) (ses : Nat)
  | pendingSourceDeassert (src : Nat)
  | hprHeadWrite (fn : Nat) (v : Word)
  | peg (h : LineHdr) (addr : Nat)
  | pegReq (p : LinePort) (h : LineHdr) (serial : Dword) (manager : Bool)
  | pegAck (p : LinePort) (h : LineHdr) (serial : Dword)
  | pegNak (p : LinePort) (h : LineHdr) (full : Bool)
  | timeSync (p : LinePort) (h : LineHdr)
  | timeResp (h : LineHdr) (t2 t3 : Nat)
  | timeSyncTimer
  | migCtl (p : LinePort) (h : LineHdr) (ses : Nat) (m : MigMsg)
  | migData (p : LinePort) (h : LineHdr) (ses : Nat) (payload : List Byte)
  | note (p : LinePort) (h : LineHdr) (detail : Word)
  | agg (p : LinePort) (h : LineHdr) (round : Nat) (level : Nat) (sum : Summary)
  | pkt (p : LinePort) (h : LineHdr) (sub : Nat) (payload : List Byte)
  | linkAck (p : LinePort) (seq : Nat)
  | linkNak (p : LinePort) (seq : Nat)
  | linkAckTimer (p : LinePort)
  | lineLinkDown (p : LinePort)
  | lineLinkUp (p : LinePort)
  | aggRound
  | lineTablePublish
  | linPeg (v : Word)
  | linRequest (v : Word)
  | linRelease (v : Word)
  | standby (v : Word)
  | standbyEntry
  | warm (v : Word)
  | cold (v : Word)
  | warmResetDone
  | powerOnReset
  | perst
  | firmwareVerifyDone (f : FirmwareIn)
  | bootComplete (patch : PatchIn)
  | wake
  | wakeNEdge
  | wakeTimer
  | wakeDone (copyOk storeOk : Bool)
  | domainSleepWrite (d : Nat) (v : Word)
  | stackSleep (stack : Nat)
  | quadrantSleep (q : Nat)
  | tempSample (h f0 f1 : Nat)
  | quadrantStepUp (q : Nat)
  | quadrantPllLoss (q : Nat) (supply : Bool)
  | tbAdjWrite (v : Word)
  | tbSlewWrite (v : Word)
  | tbStepWrite (v : Word)
  | ppsInEdge
  | ppsOutPulse
  | supplyExcursion (rail mv : Nat) (us : Nat)
  | refClockLost
  | importKey (v : Word)
  | clearSlot (v : Word)
  | provision (v : Word)
  | revoke (v : Word)
  | svnCommit (v : Word)
  | lockDebug (v : Word)
  | unlockDebug (v : Word)
  | pmuClear (v : Word)
  | pmuEvtWrite (tile : Option Nat) (k : Nat) (v : Word)
  | thresholdEvent (n value : Nat)
  | pmuThrAck (hi : Bool) (v : Word)
  | preciseSample (tile latency : Nat) (ctu : Word)
  | sampleHeadWrite (v : Word)
  | bwWindowBoundary (totals : List Nat)
  | i2cStatus
  | i2cTemp
  | i2cVolts
  | i2cSerial
  | i2cTimebase
  | resetRelease
  | deadlinePass (ses : Nat) (a : AdmitIn)
  | coreReloadDone
  | secCommandDone (blob : List Byte) (nonce : Word)
  | stackWakeDone (stack : Nat)
  | lineFrameError (p : LinePort) (e : FrameErr)
  | pcieLinkUp (speed width : Nat) (flit : Bool)
deriving DecidableEq, Repr

end Sys2Proof
end

