-- ==== Sys2Proof/Decode.lean ====
section
/-!
DEFINITION. The command that a word of the operation table spells. The table gives no row any bits: a command of the W9 is a
BAR0 write, an event or a frame, and no word spells one.
-/
namespace Sys2Proof

/-- The command that a table word spells: none, since the table gives no bits. -/
def decodeTableWord (_nbits _w : Nat) : Option Instr := none

end Sys2Proof
end

