-- ==== Sys2Proof/Config.lean ====
section
/-!
DEFINITION. What one part is fixed to, and the free values: constants without a body, so that nothing in the model
can lean on a value that the spec leaves open.
-/
namespace Sys2Proof.Config

/-- Free value: the contents of one variant bit of a microword class that the spec does not describe: whether a MOVE of
variant `v` (0 to 3) takes the needle register `b` (true) or the immediate (R275 says "register or immediate b/imm" and
not which variant selects which; log entry 20). -/
opaque moveTakesRegister (v : Nat) : Bool

/-- Free value: the immediate of a MOVE that takes no register, from the fields `b` and `imm` (R275 writes "immediate
b/imm" and does not say how the two fields form it; log entry 20). -/
opaque moveImmediate (b : BitVec 6) (imm : BitVec 15) : BitVec 32

/-- Free value: whether a BRANCH of a non-zero variant `v` jumps when its flag is set (true) or clear (R275; log entry
20). -/
opaque branchOnSet (v : Nat) : Bool

/-- Free value: the entry index (0 to 15) that starts a routine (R281 and NDL_STATUS name an entry; no rule says which
entry serves which kind of unit), from codec, direction and whether the unit is a gang member's part. -/
opaque entryOf (codec : Nat) (decode part : Bool) : Nat

/-- Limits of one codec level in one tier, as the codec's standard gives them (R110, R138). -/
structure LevelLimits where
  /-- Largest luma picture size in samples. -/
  picSize : Nat
  /-- Largest luma sample rate in samples per second. -/
  sampleRate : Nat
  /-- Largest bit rate in bit/s. -/
  rate : Nat
  /-- Largest buffer in bits. -/
  buffer : Nat
  /-- Largest coded picture in bits, where the codec defines one. -/
  codedPic : Option Nat
deriving DecidableEq, Repr

/-- Free value: the level table of the codec standards (codec 1 to 4, High tier, level × 10); the spec refers to them
(R110, R138) and does not print them. `none`: the codec has no such level in that tier. -/
opaque level (codec : Nat) (high : Bool) (level10 : Nat) : Option LevelLimits

/-- Free value: the maximum rate in bit/s of a codec's unconstrained level (R138 derives RC_MAXRATE from "the maximum rate
of that level", and the unconstrained level of R110 has none). -/
opaque unconstrainedRate (codec : Nat) : Nat

/-- Free value: the QP that the fixed internal model of pre-analysis activity gives a first row (R142), from the
target in bits, the luma samples and the mean activity. -/
opaque activityQp (target samples activity : Nat) : Nat

/-- Free value: c / c̄ of Table 7.2 in 1/65536 for a picture before which no complexity has entered the mean (R139 states
no value for it), from a counter that names the picture. -/
opaque startRatio (seq : Nat) : Nat

/-- Free value: the mean QP of the normally coded CTUs of a picture that has none (R155 and Table 7.2 state no value for it),
from a counter that names the picture. -/
opaque emptyMeanQp (seq : Nat) : Nat

/-- Free value: the SAD of the 16×16 block at column `bx` and row `by_` (in blocks) of the picture admitted as the `pic`-th, against
reference picture `ref` at full-pel vector (x, y) (R128). The model holds no samples (log entry 123). -/
opaque sad (pic ref bx by_ : Nat) (x y : Int) : Nat

/-- Free value: the 8×8 Hadamard SATD of part `part` of such a block at a vector in 1/16 pixel (R128): parts 0 to 3 are its 8×8
blocks, 4 to 19 its 4×4 blocks, row by row (log entry 123). -/
opaque satd (pic ref bx by_ part : Nat) (x y : Int) : Nat

/-- Free value: the SATD of the average of two predictions of such a block (R128; log entry 123). -/
opaque biSatd (pic ref1 ref2 bx by_ : Nat) (x1 y1 x2 y2 : Int) : Nat

/-- Free value: the table estimate of the bits that code a vector difference in 1/16 pixel at a precision (ME_LIST.precision) (R128
names the table and does not print it; log entry 123). -/
opaque mvBits (precision : Nat) (dx dy : Int) : Nat

/-- Free value: the 4-tap chroma upsampling of R92 and R175, whose taps the spec does not print: the sample at phase `ph` of four
neighbours (log entry 125). -/
opaque upTap (ph a b c d : Nat) : Nat

/-- Free values: the screen-content score of a CTU of the picture of an admission number, and the score above which a CTU is screen content
(R101; log entry 123). -/
opaque screenScore (order ctu : Nat) : Nat
opaque screenLimit : Nat

/-- Free value: the sample at (x, y) of a plane that motion copy predicts from a plane of the reference with the vector (dx, dy), not zero
(R192; the codec's standard gives the unit of the vector and the interpolation; log entry 125). -/
opaque darnSample (codec : Nat) (ref : List (List Nat)) (dx dy : Int) (x y : Nat) : Nat

/-- Free value: the window sample that AV1 film grain synthesis makes of sample `v` of plane `k` at (x, y) of the decoder's picture
`pic` (R175 names the standard's process; log entry 125). -/
opaque grainSample (pic k x y v : Nat) : Nat

/-- Free value: Y, Cb and Cr at full range of an RGB pixel of a depth by matrix `m` of ENC_FORMAT (R92 names the standards' matrices and
computes at 14 bits without a rounding rule; log entry 124). -/
opaque toYcc (m depth r g b : Nat) : Nat × Nat × Nat

/-- Free value: a sample of a depth taken to the full range, or to the studio range, of luma or chroma (R92; log entry 124). -/
opaque toRange (depth : Nat) (full chroma : Bool) (v : Nat) : Nat

/-- Free value: the ordered dither of a 10-bit sample at (x, y) rounded to 8 bits (ENC_SCALE.dither; log entry 124). -/
opaque dithered (x y v : Nat) : Nat

/-- Free value: the sibling scaler's filter of a sharpness and phase over its taps (R98 prints no coefficients; log entry 124). -/
opaque scaleSample (sharp phase : Nat) (taps : List Nat) : Nat

/-- Free value: the IPv4 identification of subscriber `sub`'s packet `seq`, and the IPv6 flow label of its flow (R201 gives neither; log
entry 126). -/
opaque ipIdent (sub seq : Nat) : Nat
opaque flowLabel (sub : Nat) : Nat

/-- The key of VK0 (R384 writes it at manufacture and prints none): the base point of P-384, compressed (DESIGN CHOICE, log 5). -/
def vk0 : List (BitVec 8) :=
  BitVec.ofNat 8 3 :: (List.range 48).map fun i => BitVec.ofNat 8
    (0xAA87CA22BE8B05378EB1C71EF320AD746E1D3B628BA79B9859F741E082542A385502F25DBF55296C3A545E3872760AB7 / 2 ^ (8 * (47 - i)))

/-- Free value: the luma sample that the name tape makes of sample `v` at (x, y) of a picture of this size and pts (R393, R394 state no
pattern; log entry 128). -/
opaque nameTape (payload strength w h pts x y v : Nat) : Nat

/-- Free value: a fresh security nonce (R397, R398: "random"; "changes after each attempt and at each reset"). -/
opaque nonce (n : Nat) : BitVec 32

/-- Free value: the derived receive and transmit latencies of a lane mode (R219 "derived"), as one MGL_ETHn_LAT word. -/
opaque ethLatency (laneMode : Nat) : BitVec 32

/-- Free value: the 120-bit payload of an inbox entry, internal to the W9 (R320). -/
opaque inboxPayload (n : Nat) : BitVec 120

/-- Free value: the beats that a DMA channel had moved when an abort or a forced power-down stopped it (R317, R319: "at the
next beat"; no rule fixes how far a move has come). -/
opaque beatsMoved (n : Nat) : Nat

/-- Free value: the stream generation in the label of a DMA ring entry in HBM (R23 and R308 give ring lines none). -/
opaque ringGeneration : Nat

/-- Free value: the CRC-32C of the bulk state that a migration sends, whose layout the spec does not give (R364). -/
opaque migrationCrc (n : Nat) : BitVec 32

/-- Free value: what measurement `n` of rail `r` of Table 23.1 reads in mV (R422); an analog quantity. -/
opaque railMv (n r : Nat) : Nat

end Sys2Proof.Config
end

