-- ==== Sys2Proof/Machine/Table.lean ====
section
/-!
DEFINITION. Sparse tables: a list of key and value pairs with strictly rising keys that lists no entry equal to what
an unlisted key reads as, so that equal contents are equal data. Memory, the register file and every numbered group of
units are such tables.
-/
namespace Sys2Proof.Machine

/-- A sparse table from natural numbers. -/
abbrev Tbl (α : Type) := List (Nat × α)

/-- The entry of key `k`; `d` is what an unlisted key reads as. -/
def tget {α : Type} (d : α) : Tbl α → Nat → α
  | [], _ => d
  | (k', v) :: t, k => if k' = k then v else tget d t k

/-- Remove key `k`. -/
def tdel {α : Type} : Tbl α → Nat → Tbl α
  | [], _ => []
  | (k', v) :: t, k => if k' = k then tdel t k else (k', v) :: tdel t k

/-- Insert `(k, v)` at its place among rising keys, replacing an entry of `k`. -/
def tins {α : Type} (k : Nat) (v : α) : Tbl α → Tbl α
  | [] => [(k, v)]
  | (k', v') :: t =>
    if k < k' then (k, v) :: (k', v') :: t
    else if k' = k then (k, v) :: t
    else (k', v') :: tins k v t

/-- Write `v` at key `k` and keep the canonical form: writing what an unlisted key reads as removes the entry. -/
def tset {α : Type} [DecidableEq α] (d : α) (k : Nat) (v : α) (t : Tbl α) : Tbl α :=
  if v = d then tdel t k else tins k v t

/-- Every key of `t` lies above `k`. -/
def tabove {α : Type} (k : Nat) (t : Tbl α) : Bool := t.all fun e => decide (k < e.1)

/-- The canonical form: keys strictly rising, no entry equal to the default. -/
def twf {α : Type} [DecidableEq α] (d : α) : Tbl α → Bool
  | [] => true
  | (k, v) :: t => decide (v ≠ d) && tabove k t && twf d t

end Sys2Proof.Machine
end

