-- ==== Sys2Proof/Machine/Bits.lean ====
section
/-!
DEFINITION. Bit fields of 32-bit words, saturating counts, roundings, little-endian bytes and the CRC of R22.
-/
namespace Sys2Proof.Machine

/-- Bits `hi` down to `lo` of a natural number. -/
def nfld (n hi lo : Nat) : Nat := n / 2 ^ lo % 2 ^ (hi + 1 - lo)

/-- Bits `hi` down to `lo` of a word. -/
def fld (w : Word) (hi lo : Nat) : Nat := nfld w.toNat hi lo

/-- Bit `n` of a word. -/
def bit (w : Word) (n : Nat) : Bool := w.getLsbD n

/-- A truth value as a bit. -/
def b2n (b : Bool) : Nat := if b then 1 else 0

/-- A word from fields: (lowest bit, value) pairs whose ranges do not overlap. -/
def mkWord : List (Nat × Nat) → Word
  | [] => 0
  | (lo, v) :: t => BitVec.ofNat 32 (v * 2 ^ lo) ||| mkWord t

/-- A word from a natural number. -/
def w32 (n : Nat) : Word := BitVec.ofNat 32 n

/-- The low word of a 64-bit quantity. -/
def loW (n : Nat) : Word := BitVec.ofNat 32 n

/-- The high word of a 64-bit quantity. -/
def hiW (n : Nat) : Word := BitVec.ofNat 32 (n / 2 ^ 32)

/-- A 64-bit quantity from its two words. -/
def joinW (lo hi : Word) : Nat := lo.toNat + hi.toNat * 2 ^ 32

/-- Keep the bits of `m` (R12: reserved bits stay zero). -/
def maskW (m : Nat) (w : Word) : Word := w &&& BitVec.ofNat 32 m

/-- A saturating count. -/
def satAdd (max n k : Nat) : Nat := min max (n + k)

/-- A 32-bit counter that saturates (R90, R261 and the other blocks' counters). -/
def satIncW (w : Word) (k : Nat) : Word := w32 (min 0xFFFFFFFF (w.toNat + k))

/-- Division rounded up. -/
def ceilDiv (a b : Nat) : Nat := (a + b - 1) / b

/-- A word read as a signed number. -/
def sW (w : Word) : Int := w.toInt

/-- A signed number in a field of `n` bits. -/
def sFld (v n : Nat) : Int := if v < 2 ^ (n - 1) then (v : Int) else (v : Int) - 2 ^ n

/-- A number modulo 2^64 (R5). -/
def mod64 (n : Int) : Nat := (n % 2 ^ 64).toNat

/-- Round a rational `a / b` (b > 0) to the nearest whole number, halves away from zero. -/
def roundDiv (a : Int) (b : Nat) : Int :=
  if 0 ≤ a then (2 * a + b) / (2 * b) else -((2 * (-a) + b) / (2 * b))

/-- Clamp to a range. -/
def clampI (v lo hi : Int) : Int := if v < lo then lo else if hi < v then hi else v

/-- Little-endian bytes of `v`. -/
def leBytes : Nat → Nat → List Byte
  | 0, _ => []
  | n + 1, v => BitVec.ofNat 8 v :: leBytes n (v / 256)

/-- The number that little-endian bytes spell. -/
def leNat : List Byte → Nat
  | [] => 0
  | b :: t => b.toNat + 256 * leNat t

/-- Bytes `off` to `off + n - 1` as a little-endian number; bytes past the end read zero. -/
def leAt (bs : List Byte) (off n : Nat) : Nat := leNat ((bs.drop off).take n)

/-- Signed little-endian field of `n` bytes. -/
def leAtI (bs : List Byte) (off n : Nat) : Int := sFld (leAt bs off n) (8 * n)

/-- All bytes of a range are zero. -/
def zerosAt (bs : List Byte) (off n : Nat) : Bool := ((bs.drop off).take n).all fun b => b == 0

/-- One bit step of a reflected CRC register. -/
def crcBit (poly : BitVec 32) (c : BitVec 32) : BitVec 32 :=
  if c.getLsbD 0 then (c >>> 1) ^^^ poly else c >>> 1

/-- One byte step of the reflected CRC-32C register; 0x82F6_3B78 is 0x1EDC_6F41 reflected (R22). -/
def crcByte (c : BitVec 32) (b : Byte) : BitVec 32 :=
  let c := c ^^^ b.setWidth 32
  let f := crcBit 0x82F63B78
  f (f (f (f (f (f (f (f c)))))))

/-- CRC-32C of R22 over bytes: initial value and final XOR 0xFFFF_FFFF. -/
def crc32c (bs : List Byte) : Word := (bs.foldl crcByte 0xFFFFFFFF) ^^^ 0xFFFFFFFF

/-- One bit step of the CRC-8 register of x^8 + x^2 + x + 1. -/
def crc8Bit (c : Byte) : Byte := if c.getLsbD 7 then (c <<< 1) ^^^ 0x07 else c <<< 1

/-- The SMBus PEC over bytes (R422): CRC-8, x^8 + x^2 + x + 1, from 0. -/
def crc8 (bs : List Byte) : Byte :=
  bs.foldl (fun c b => crc8Bit (crc8Bit (crc8Bit (crc8Bit (crc8Bit (crc8Bit (crc8Bit (crc8Bit (c ^^^ b))))))))) 0

/-- The care label of a line (R22): the 64 data bytes, then the fold word least significant byte first. -/
def careLabel (data : List Byte) (foldWord : Nat) : Word := crc32c (data ++ leBytes 8 foldWord)

/-- The fold word of R23: line address in bits 63:24, stream generation in bits 23:8. -/
def foldWord (phys gen : Nat) : Nat := (phys / 64 % 2 ^ 40) * 2 ^ 24 + (gen % 2 ^ 16) * 2 ^ 8

/-- Rebase a label to a new address or generation without the data (R24). -/
def rebase (label : Word) (foldOld foldNew : Nat) : Word :=
  let z := List.replicate 64 (0 : Byte)
  label ^^^ crc32c (z ++ leBytes 8 (foldOld ^^^ foldNew)) ^^^ crc32c (z ++ leBytes 8 0)

/-- Every index below `n`, ascending. -/
def upto (n : Nat) : List Nat := List.range n

/-- Some bit of a mask is set at `k`. -/
def nbit (m k : Nat) : Bool := m.testBit k

/-- The set bits of a mask below `n`, ascending. -/
def setBits (m n : Nat) : List Nat := (upto n).filter fun k => nbit m k

/-- Population count below `n`. -/
def popCount (m n : Nat) : Nat := (setBits m n).length

/-- Write element `i` of a list. -/
def setNth {α : Type} (l : List α) (i : Nat) (v : α) : List α := l.set i v

/-- Insertion of a number into an ascending list. -/
def insAsc (v : Int) : List Int → List Int
  | [] => [v]
  | h :: t => if v ≤ h then v :: h :: t else h :: insAsc v t

/-- Sort numbers ascending, without repeats. -/
def sortNat (l : List Nat) : List Nat := l.foldr (fun v t => if t.contains v then t else t.takeWhile (· < v) ++ v :: t.dropWhile (· < v)) []

/-- Sort ascending. -/
def sortAsc (l : List Int) : List Int := l.foldr insAsc []

/-- The lower median of R118: position floor((n − 1) / 2) in ascending order. -/
def lowerMedian (l : List Int) : Option Int := (sortAsc l)[(l.length - 1) / 2]?

/-- The floor of the sixth root of `n`, bit by bit from bit `k - 1` down. -/
def root6 (n : Nat) : Nat → Nat → Nat
  | 0, r => r
  | k + 1, r => if (r + 2 ^ k) ^ 6 ≤ n then root6 n k (r + 2 ^ k) else root6 n k r

/-- The best of `c` and the points `ps` by `cost`: `c` keeps ties, then the point listed first. -/
def bestOf {α : Type} (cost : α → Nat) (ps : List α) (c : α) : α := ps.foldl (fun b q => if cost q < cost b then q else b) c

/-- Insertion into a list that rises by `cost`, after those of equal cost. -/
def insCost {α : Type} (cost : α → Nat) (v : α) : List α → List α
  | [] => [v]
  | h :: t => if cost v < cost h then v :: h :: t else h :: insCost cost v t

/-- The `k` of lowest cost, ties to the earlier position. -/
def lowest {α : Type} (cost : α → Nat) (k : Nat) (l : List α) : List α := (l.foldl (fun a v => insCost cost v a) []).take k

end Sys2Proof.Machine
end

