-- ==== Sys2Proof/Machine/State.lean ====
section
/-!
DEFINITION. The state of the W9: every register, counter, table, queue and mode that the spec names, as plain data,
with the queue of waiting commands and the list of what the device has sent out. A field's default is its value
right after a power-on reset; where the spec states none, the field's docstring names the log entry that chose it.
Plain registers (R11) and saturating counters are held in `State.regs` by their BAR0 offset, the others in typed fields.
-/
namespace Sys2Proof.Machine

/-- Reasons for a fault. The W9's own faults (R262) are state and commands, so no meaning of this model faults; the
constructor is there for the interface. Safe: nothing raises it. -/
inductive Fault where
  /-- Raised by nothing. Safe. -/
  | none
deriving DecidableEq, Repr

/-- Reasons for a refusal. -/
inductive Refusal where
  /-- Raised by an arm of `exec` whose command has no meaning yet. Safe: the run stops. -/
  | notModelled (mnemonic : String)
deriving DecidableEq, Repr

/-- Device modes (R3), in the order of their codes (PAT_LAST_IGN). -/
inductive Mode where
  | standby | primed | woven | running | press | safe
deriving DecidableEq, Repr

/-- Where the device is between power-on and service (R371 to R375): held in reset (R416), boot steps 1 to 3, steps 4 to
6, ended by a rejected firmware (R388), in service, in a warm reset (R374), in STANDBY (R372), waking (R373). -/
inductive Life where
  | held | boot | train | rejected | up | warm | standby | waking
deriving DecidableEq, Repr

/-- Session states (R57), in the order of their codes. -/
inductive Ses where
  | closed | opened | ready | running | paused | draining | migrating
deriving DecidableEq, Repr

/-- A program entry of a pattern (R36). -/
structure Prog where
  codec : Nat := 0
  decode : Bool := false
  profiles : Nat := 0
  check : Word := 0
  words : List Word := []
deriving DecidableEq, Repr

/-- A PANELS entry in force (R35) with the programs it selects. -/
structure Panel where
  tiles : Nat := 0
  classes : Nat := 0
  effort : Nat := 0
  partition : Nat := 0
  ports : Nat := 0
  ingest : Nat := 0
  maxSes : Nat := 0
  maxW : Nat := 0
  maxH : Nat := 0
  progMask : Nat := 0
  progs : List Prog := []
deriving DecidableEq, Repr

/-- A MEMORY region (R37). -/
structure Region where
  mask : Nat := 0
  start : Nat := 0
  count : Nat := 0
deriving DecidableEq, Repr

/-- The structure that a pattern sets (R32 to R40). -/
structure Pattern where
  /-- PAT_SERIAL (R44); 0 when no pattern is in force. Reset 0. -/
  serial : Word := 0
  /-- ROLES entries by tile (R34), shown in PAT_ROLEn (R51). Reset 0. -/
  roles : Tbl Word := []
  /-- Panels P0 to P15 (R35). Reset empty. -/
  panels : Tbl Panel := []
  /-- Regions 0 to 16 (R37). Reset none. -/
  regions : Tbl Region := []
  /-- Lane modes of Eth0 and Eth1 (R38, R199). Reset off. -/
  lane : Tbl Nat := []
  /-- Enabled clothesline ports: bit 0 UP, 1 DOWN, 2 TRUNK (R38). Reset 0. -/
  lines : Nat := 0
  /-- Quadrant caps in 100 MHz (R38). Reset 0. -/
  caps : Tbl Nat := []
  /-- HBM rate caps of F0 and F1 (R38). Reset 0. -/
  hbmCap : Tbl Nat := []
  /-- Hamper page count (R38, HMP_PAGES). Reset 0. -/
  pages : Nat := 0
deriving DecidableEq, Repr

/-- The pattern loader (R41 to R52, R428). -/
structure Loader where
  /-- PAT_STATUS.busy (R428). Reset 0. -/
  busy : Bool := false
  /-- PAT_STATUS.phase (R428). Reset 0. -/
  phase : Nat := 0
  /-- PAT_STATUS.reject (R44). Reset 0. -/
  reject : Nat := 0
  /-- PAT_STATUS.pressing (R51). Reset 0. -/
  pressing : Nat := 0
  /-- The command in progress is a LOAD_PIECE (R48). -/
  piece : Bool := false
  /-- The command in progress is a CLEAR (R52). -/
  clearing : Bool := false
  /-- The image fetched into the device region (R41). -/
  image : List Byte := []
  /-- The structure that step 4 of Table 2.6 or step 3 of Table 2.8 brings in. -/
  next : Pattern := {}
  /-- The rollback copy (R48 step 2). -/
  rollback : Pattern := {}
  /-- Roles of every tile at the start of the quiet window, for the rollback of R50. -/
  rollTiles : List (Nat × (Nat × Nat × Bool)) := []
  /-- Stitch time of press step 3 (R50). -/
  drainAt : Nat := 0
  /-- Images kept in the device region for a wake (R373): the last full pattern, then each piece. -/
  kept : List (List Byte) := []
deriving DecidableEq, Repr

/-- A stage of work on one tile: which unit of which picture (R75). -/
structure UnitRef where
  ses : Nat := 0
  pic : Nat := 0
  idx : Nat := 0
deriving DecidableEq, Repr

/-- The needle of a tile (R275 to R289). -/
structure Needle where
  /-- NDL_STATUS.state (R289). Reset 0. -/
  state : Nat := 0
  /-- NDL_STATUS.program (R289). Reset 0. -/
  prog : Nat := 0
  /-- NDL_STATUS.entry (R289). Reset 0. -/
  entry : Nat := 0
  /-- NDL_STATUS.committed (R289). Reset 0. -/
  committed : Bool := false
  /-- NDL_PC as last issued (R288, R289). Reset 0. -/
  shown : Word := 0
  /-- NDL_LAST_ABANDON (R289). Reset 0. -/
  lastAbandon : Word := 0
  /-- Address of the next fetch (R276). Reset 0 (DESIGN CHOICE, log 2). -/
  pc : Nat := 0
  /-- The needle registers (R275): 64, named by a 6-bit field. Reset 0 (DESIGN CHOICE, log 2). -/
  gpr : Tbl Word := []
  /-- Loops in progress: first word, last word, passes left (R275). -/
  loops : List (Nat × Nat × Nat) := []
  /-- The datapath operation last started on each unit (R275 ISSUE). -/
  issued : Tbl (Nat × Word) := []
deriving DecidableEq, Repr

/-- Codes of DEP_TILE.state (R261). -/
inductive Role where
  | unused | active | spare | selfTest | retired
deriving DecidableEq, Repr

/-- Power states of a tile (R376): off, nap, or running a unit or self-test. -/
inductive TPower where
  | off | nap | run
deriving DecidableEq, Repr

/-- A tile: dependability state, needle, stores, inbox and check results. -/
structure Tile where
  /-- DEP_TILE.state (R261). Reset unused. -/
  role : Role := .unused
  /-- The role that a passed self-test returns to (R252). -/
  back : Role := .unused
  /-- DEP_TILE.panel (R261). Reset 0. -/
  panel : Nat := 0
  /-- DEP_TILE.promoted (R261). Reset 0. -/
  promoted : Bool := false
  /-- DEP_TILE.result (R261). Reset 0. -/
  result : Nat := 0
  /-- DEP_TILE.strikes (R261). Reset 0. -/
  strikes : Nat := 0
  /-- Power state (R376). Reset off. -/
  power : TPower := .off
  /-- Time at which the tile last became idle (R87). -/
  since : Nat := 0
  /-- The unit that it runs; DEP_TILE.busy (R261). -/
  work : Option UnitRef := none
  /-- The other members of its gang run the same picture (R86). -/
  gang : List Nat := []
  /-- An accepted RETIRE that waits for the unit (R254). -/
  retireReq : Bool := false
  /-- Abandonment causes that reached the needle and wait for its boundary (R281), bit per code of Table 14.2. -/
  abandon : Nat := 0
  /-- The self-test in progress is a RETEST (R255). -/
  retest : Bool := false
  ndl : Needle := {}
  /-- The reference pictures, with their session, whose windows its 768 KiB window store holds (R121). Reset empty. -/
  window : List (Nat × Nat) := []
  /-- Control store (R276). Reset cleared (R284). -/
  store : Tbl Word := []
  /-- Patch RAM (R276). Reset cleared (R284). -/
  patch : Tbl Word := []
  /-- NDL_REDIRk (R283, R289). Reset 0. -/
  redir : Tbl Word := []
  /-- NDL_STORE_CHK (R289). Reset 0. -/
  storeChk : Word := 0
  /-- NDL_PATCH_ID (R289). Reset 0. -/
  patchId : Word := 0
  /-- NDL_PATCH_ST (R289). Reset 0. -/
  patchSt : Word := 0
  /-- The inbox, oldest entry first (R320). -/
  inbox : List (BitVec 128) := []
  /-- TIL_INBOX_STAT.mid_item (R328). Reset 0. -/
  midItem : Bool := false
  /-- RCT_STATUS, RCT_SYM, RCT_SYM_PROOF, RCT_PIX, RCT_PIX_MIRROR (R414). Reset 0. -/
  rct : Tbl Word := []
  /-- Microwords issued since the last precise sample (R405). -/
  sampCnt : Nat := 0
  /-- The sample jitter LFSR (R405). Reset 1 (DESIGN CHOICE, log 2). -/
  lfsr : BitVec 31 := 1
deriving DecidableEq, Repr

/-- A quadrant's clock (R379, R380). -/
structure Quad where
  /-- The PLL runs. Reset stopped. -/
  pll : Bool := false
  /-- PWR_QDn_CLK.mhz (R383). Reset 0. -/
  mhz : Nat := 0
  /-- Time of the last thermal step (R380). -/
  stepAt : Option Nat := none
  /-- Time from which no governing die was at or above 97 °C (R380). -/
  coolAt : Option Nat := none
deriving DecidableEq, Repr

/-- A domain request of PWR_DOMd (R377, R378, R383). -/
structure Dom where
  /-- PWR_DOMd_CTL.sleep. Reset 0. -/
  sleep : Bool := false
  /-- PWR_DOMd_CTL.force. Reset 0. -/
  force : Bool := false
  /-- PWR_DOMd_ST.state. Reset 0. -/
  st : Nat := 0
  /-- PWR_DOMd_ST.holder. Reset 0. -/
  holder : Nat := 0
deriving DecidableEq, Repr

/-- Device power, reset, thermal and timebase state (R371 to R383). -/
structure Power where
  /-- Boot, wake and reset progress (R371). After a power-on reset the device holds itself in reset (R416). -/
  life : Life := .held
  /-- SAFE holds (R268). Reset clear. -/
  safe : Bool := false
  /-- Thermal trip: every domain but AON gated, THERMTRIP_N asserted (R380). Reset clear. -/
  tripped : Bool := false
  /-- The balls I2C_ADDR1 and I2C_ADDR0 as sampled at power-on, bits 1 and 0 (R422). They are strapped low: the spec gives no
  level (DESIGN CHOICE, log 1). -/
  straps : Nat := 0
  /-- Subsystem vendor ID in bits 15:0 and subsystem device ID in bits 31:16 of every function (Table 17.1, R423). They are 0
  until boot step 3 reads them (DESIGN CHOICE, log 2). -/
  subsys : Word := 0
  /-- PWR_STATUS.reset (R383). Reset 0. -/
  lastReset : Nat := 0
  /-- PWR_STATUS.wake (R383). Reset 3. -/
  lastWake : Nat := 3
  /-- PWR_STATUS.standby_pending (R372). Reset 0. -/
  standbyPend : Bool := false
  /-- A pattern was in force at entry to STANDBY (R373). -/
  wakeLoad : Bool := false
  /-- Domain requests by d (R383). -/
  doms : Tbl Dom := []
  /-- Quadrants Q0 to Q3. -/
  quads : Tbl Quad := []
  /-- PWR_TEMP: °C of H, F0, F1 (R383). Reset 0. -/
  temp : Tbl Nat := []
  /-- Class 25 has been raised since the last sample below 97 °C, by die (R380). Reset clear. -/
  hot : Tbl Bool := []
  /-- PWR_TB_ADJ (R381). Reset 0. -/
  adj : Word := 0
  /-- The 32-bit fraction carried between ticks (R381). Reset 0. -/
  frac : Nat := 0
  /-- PWR_TB_SLEW: the remainder (R381). Reset 0. -/
  slew : Int := 0
  /-- AON ticks since the last slewed stitch (R381). -/
  slewTicks : Nat := 0
  /-- A STEP that the next tick applies (R381). -/
  step : Option Int := none
  /-- PWR_TB_STEP_LO as last written (R381). Reset 0. -/
  stepLo : Word := 0
  /-- PWR_PPS_IN (R382). Reset 0. -/
  ppsIn : Nat := 0
  /-- The timebase crossed a PPS_OUT point whose pulse has not been sent yet (R382). -/
  ppsDue : Bool := false
  /-- Stitch time of the last rise of PPS_OUT. -/
  ppsRise : Option Nat := none
deriving DecidableEq, Repr

/-- Counting and escalation state of one class and unit (R263). -/
structure FltUnit where
  /-- FLT_CSTAT.cnt. Reset 0. -/
  cnt : Nat := 0
  /-- Time at which the window opened. -/
  opened : Nat := 0
  /-- FLT_CSTAT.last. Reset 0. -/
  last : Nat := 0
  /-- FLT_CSTAT.unacked. Reset 0. -/
  unacked : Bool := false
deriving DecidableEq, Repr

/-- The fault collector (R262 to R269). -/
structure Collector where
  /-- FLT_STATUS (R264). Reset 0. -/
  status : BitVec 64 := 0
  /-- FLT_FIRST (R264). Reset 0. -/
  firstWord : Word := 0
  /-- FLT_FIRST_TIME (R264). Reset 0. -/
  firstTime : Nat := 0
  /-- FLT_FIRST_DETAIL (R264). Reset 0. -/
  firstDetail : Word := 0
  /-- FLT_CFG by class (R269). Reset Table 13.1. -/
  cfg : Tbl Word := []
  /-- FLT_WINDOW by class, 48 bits (R269). Reset Table 13.1. -/
  window : Tbl Nat := []
  /-- The low word written to FLT_WINDOW_LO, which the HI write applies (R269). -/
  winLo : Option Word := none
  /-- Counting state by class × 64 + unit (R263). -/
  units : Tbl FltUnit := []
  /-- The AON latches of classes 2, 3 and 4 (R268). Reset 0 at power-on. -/
  aon : Nat := 0
deriving DecidableEq, Repr

/-- A lint entry (Table 13.3). -/
structure LintEntry where
  vals : List Word := []
  time : Nat := 0
  trig : Word := 0
  seq : Word := 0
deriving DecidableEq, Repr

/-- A trigger that waits in the queue (R271). -/
structure LintTrig where
  trig : Word := 0
  time : Nat := 0
  set : Nat := 0
  /-- The first fatal event, whose entry freezes the trap (R272). -/
  fatal : Bool := false
deriving DecidableEq, Repr

/-- The lint trap (R270 to R274). -/
structure Lint where
  /-- SRAM entries by index (R270). Reset zero. -/
  sram : Tbl LintEntry := []
  /-- Pocket entries by index (R273). Reset zero. -/
  pocketE : Tbl LintEntry := []
  /-- LNT_STATUS.next. Reset 0. -/
  next : Nat := 0
  /-- LNT_STATUS.wrapped. Reset 0. -/
  wrapped : Bool := false
  /-- LNT_STATUS.frozen. Reset 0. -/
  frozen : Bool := false
  /-- LNT_STATUS.pocket. Reset 0. -/
  pocket : Bool := false
  /-- LNT_STATUS.pnext. Reset 0. -/
  pnext : Nat := 0
  /-- Sequence number of the last entry (Table 13.3). Reset 0. -/
  seq : Word := 0
  /-- Triggers waiting, oldest first (R271). -/
  queue : List LintTrig := []
  /-- The first fatal event after the reset has been taken (R272). Reset clear. -/
  fatalSeen : Bool := false
deriving DecidableEq, Repr

/-- A basket record (Table 17.3). -/
structure BktRec where
  src : Nat := 0
  typ : Nat := 0
  count : Nat := 1
  detail : Word := 0
  time : Nat := 0
  ses : Nat := 0
deriving DecidableEq, Repr

/-- A function's basket, hold, MSI-X state and host packet ring (R344 to R349, R353). -/
structure Func where
  /-- BKT_CTL.enable. Reset 0. -/
  enable : Bool := false
  /-- BKT_BASE_LO. Reset 0. -/
  baseLo : Word := 0
  /-- BKT_BASE_HI. Reset 0. -/
  baseHi : Word := 0
  /-- BKT_SIZE. Reset 0. -/
  size : Nat := 0
  /-- BKT_HEAD. Reset 0. -/
  head : Nat := 0
  /-- BKT_TAIL.tail. Reset 0. -/
  tail : Nat := 0
  /-- BKT_TAIL.phase. Reset 0. -/
  phase : Bool := false
  /-- BKT_MOD. Reset 0. -/
  mod : Word := 0
  /-- BKT_LOST.lost. Reset 0. -/
  lost : Nat := 0
  /-- BKT_LOST.masked. Reset 0. -/
  masked : Nat := 0
  /-- BKT_MASK. Reset 0. -/
  mask : Nat := 0
  /-- The hold, oldest first (R347); BKT_HELD is its length. Reset empty. -/
  hold : List BktRec := []
  /-- The basket is armed (R348). Reset clear. -/
  armed : Bool := false
  /-- Time of the last message (R348). -/
  lastMsg : Option Nat := none
  /-- A message that waits for BKT_MOD (R348). -/
  msgDue : Bool := false
  /-- The pending bit of the PBA (R332). Reset 0. -/
  pba : Bool := false
  /-- MSI-X Enable of the capability (R348). Reset clear. -/
  msixEn : Bool := false
  /-- Function Mask of the capability (R348). Reset clear. -/
  fnMask : Bool := false
  /-- The table entry of R332: message address and data words. Reset 0 (PRESUMED, log 3). -/
  table : Tbl Word := []
  /-- Vector Control mask bit (R332). Reset 1 (PRESUMED, log 3). -/
  vecMask : Bool := true
  /-- HIF_HPR_LO. Reset 0. -/
  hprLo : Word := 0
  /-- HIF_HPR_HI. Reset 0. -/
  hprHi : Word := 0
  /-- HIF_HPR_SIZE. Reset 0. -/
  hprSize : Nat := 0
  /-- HIF_HPR_HEAD. Reset 0. -/
  hprHead : Nat := 0
  /-- HIF_HPR_TAIL. Reset 0. -/
  hprTail : Nat := 0
deriving DecidableEq, Repr

/-- Assertions of a pending-bit source since its bit was set (R352). -/
structure PendInfo where
  count : Nat := 0
  detail : Word := 0
  time : Nat := 0
  ses : Nat := 0
deriving DecidableEq, Repr

/-- The host port (R329 to R353). -/
structure Hif where
  /-- HIF_LINK (R353). Reset 0. -/
  link : Word := 0
  /-- HIF_PEND (R353). Reset 0. -/
  pend : Nat := 0
  /-- HIF_PEND_EN (R353). Reset 0x1F. -/
  pendEn : Nat := 0x1F
  /-- Level sources in service (R352). Reset 0. -/
  inService : Nat := 0
  /-- Level sources asserted (R351). Reset 0. -/
  asserted : Nat := 0
  /-- Assertions since pending was set, by source (R352). -/
  info : Tbl PendInfo := []
  /-- Functions by number: 0 the PF, 1 to 63 the VFs. -/
  fns : Tbl Func := []
  /-- VFs with an FLR in progress (R335). -/
  flr : List Nat := []
  /-- The HI words that 4-byte reads of LO latched: register offset and value (R337). Reset none. -/
  latch : List (Nat × Word) := []
deriving DecidableEq, Repr

/-- States of a unit of work (R83, R88). -/
inductive UState where
  /-- A LIVE band whose row token is absent. -/
  | waitRow
  | ready
  | running
  /-- A band whose COMMIT has issued and takes effect once every earlier band has committed (R62), or a gang part whose picture
  commits when the last member finishes (R86). -/
  | parked
  | committed
deriving DecidableEq, Repr

/-- The rate-control accumulators of R62 and R144: the row plan's progress, the QP and the threadbare state. -/
structure Acc where
  /-- s of R145: bits written, headers included. -/
  total : Nat := 0
  /-- Bits of each row coded, in row order (S_j is their sum). -/
  rowBits : List Nat := []
  /-- Row QPs, in row order. -/
  rowQps : List Int := []
  /-- Row and column of the first threadbare CTU. -/
  tb : Option (Nat × Nat) := none
  /-- The cap was reached: every CTU to the end of the picture or part is threadbare. -/
  capHit : Bool := false
  /-- Rows that hold threadbare CTUs. -/
  tbRows : Nat := 0
  /-- Sum of the QPs of normally coded CTUs, and their number. -/
  qpSum : Int := 0
  qpCnt : Nat := 0
deriving DecidableEq, Repr

/-- A unit of work: a LIVE band, a picture of another class, or a gang part (R75, R250). -/
structure WUnit where
  idx : Nat := 0
  st : UState := .ready
  tile : Nat := 0
  /-- Attempts begun (R249). -/
  attempts : Nat := 0
  /-- The next attempt ranks as a replay (R83). -/
  replay : Bool := false
  /-- The tile on which the unit failed last (R247), or none. -/
  failedOn : List Nat := []
  /-- Input lines that failed once (R259). -/
  lost : List Nat := []
  /-- Code the band threadbare from its first CTU (R259). -/
  allTb : Bool := false
  /-- A re-code of a committed unit (R171). -/
  recode : Bool := false
  /-- A re-coded unit failed its label once more: it is not re-coded again (R171). -/
  recoded : Bool := false
  /-- DECODE: the cycle budget ran out in this attempt (R185). -/
  budget : Bool := false
  /-- Time of the wake for this attempt (R185). -/
  woke : Nat := 0
  /-- DECODE: bitstream lines of the access unit that failed, and whether a reference line did (R188). -/
  bitLost : List Nat := []
  refLost : Bool := false
  /-- Bytes of the committed unit, packets included; of a ganged picture its lead part holds all of them (R165). -/
  bytes : Nat := 0
  /-- Where the bytes of this unit or part begin in the pages, and how many they are. -/
  at_ : Nat := 0
  own : Nat := 0
  /-- Pages of the committed unit, with their generations (R163). -/
  pages : List (Nat × Nat) := []
  /-- The accumulators of a gang part (R141, R250). -/
  acc : Acc := {}
  /-- Filler bytes of the unit (R136). -/
  filler : Nat := 0
  /-- Packets of the committed unit (Table 8.3). -/
  packets : Nat := 0
  /-- What the COMMIT of a parked band, or of a gang part whose picture waits for other parts (R86), released. -/
  result : Option UnitResult := none
deriving DecidableEq, Repr

/-- Motion of the units of a picture that have committed: blocks counted and agreeing (R129), candidates clamped (R122), an
invalid element met, the motion field and the 16×16 hints (R119, R123). -/
structure PicMotion where
  counted : Nat := 0
  agreed : Nat := 0
  clamped : Nat := 0
  invalid : Bool := false
  /-- By 16×16 block, row by row with 1024 to a row. -/
  field : Tbl ColVec := []
  /-- The vectors of a block's four 8×8 blocks, and of its sixteen 4×4 blocks where those are searched (R128). -/
  subs : Tbl (List (Int × Int)) := []
  /-- A lower rank: log2 of the partition estimate of a block (R127). -/
  seeds : Tbl Nat := []
deriving DecidableEq, Repr

/-- The hint planes that a picture is coded with (R114): the descriptor's fmt word and jitter, whether there is an auxiliary plane,
and the lines of elements that the fetch brought, without those whose line failed its label (R259). -/
structure HintPlane where
  fmt : Nat := 0
  jx : Int := 0
  jy : Int := 0
  aux : Bool := false
  lines : List (List (Option HintElem)) := []
deriving DecidableEq, Repr

/-- A picture admitted and not yet ended (R78). -/
structure Pic where
  /-- Picture number (R67). -/
  num : Nat := 0
  /-- Order of admission over the device. -/
  order : Nat := 0
  /-- Deadline; none for an ARCHIVE picture without one (R76). -/
  deadline : Option Nat := none
  ready : Nat := 0
  pts : Nat := 0
  /-- Input entry, and the hint entry with it. -/
  inIdx : Nat := 0
  /-- Input entries of the access unit (R177); 1 for an encode session. -/
  entries : Nat := 1
  /-- Source space of the descriptor (Table 5.3). -/
  space : Nat := 0
  /-- The configuration in force at admission (R61). -/
  cfg : Tbl Word := []
  cfgSeq : Word := 0
  key : Bool := false
  cut : Bool := false
  recovery : Bool := false
  /-- First picture after an INVALIDATE_REF (R139). -/
  afterInval : Bool := false
  /-- Start or member of a refresh cycle: index of the picture in it (R148). -/
  refresh : Option Nat := none
  repeated : Bool := false
  /-- 0 for P, l for B at level l (R106). -/
  bLevel : Nat := 0
  laOffset : Nat := 0
  complexity : Nat := 0
  /-- c of Table 7.2 in 1/2^20; none for a LIVE picture before which no picture was coded. -/
  c : Option Nat := none
  /-- Owner bits of the input entry are cleared already (R94). -/
  freed : Bool := false
  /-- The hint planes of the picture (R117). -/
  hint : Option HintPlane := none
  /-- Its source picture as the descriptor gives it, and in the coded format: planes Y, Cb, Cr of lines of samples (R91, R92). -/
  source : List (List (List Nat)) := []
  /-- The coded form of the picture before, for the static map of one that is still arriving (R101). -/
  before : List (List (List Nat)) := []
  coded : List (List (List Nat)) := []
  /-- The static map of its rank-0 source, and the mean activity (R101). -/
  statics : List Nat := []
  activity : Nat := 0
  /-- The lookahead's global vector on the grid of its rank-0 source (Table 6.5). -/
  glob : Option (Int × Int) := none
  /-- A picture of a refresh cycle: the pictures of the cycle admitted before it, by number, with their index (R149). -/
  areas : List (Nat × Nat) := []
  /-- A lower rank: width and height of rank 0, whose hints it uses (R126). -/
  top : Option (Nat × Nat) := none
  /-- Trust state in force at admission (R129). -/
  demoted : Bool := false
  /-- References it may use, newest first (R68, R106). -/
  refs : List Nat := []
  /-- An INVALIDATE_REF after its admission bars it as a reference (R68). -/
  noRef : Bool := false
  /-- The cycle that `refresh` counts in (R149). -/
  cycle : Nat := 0
  /-- Pictures dropped after this one and before the next admitted one (R135). -/
  dropsAfter : Nat := 0
  /-- The hint entry to give back, and its space (R94, R116). -/
  hintIdx : Option (Nat × Nat) := none
  /-- The ingest flow and RTP timestamp of a space-2 source (R207). -/
  ing : Option (Nat × Word) := none
  /-- t in 1/1,441,440,000 bit and the cap in bits (R139, R140). -/
  target : Nat := 0
  cap : Nat := 0
  /-- The cap came from F or the level (R155 kind bit 5). -/
  limited : Bool := false
  /-- First-row QP (R142). -/
  q0 : Int := 0
  /-- Row weights of the plan (R142). -/
  weights : List Nat := []
  /-- Shares of the cap by gang part (R141). -/
  gang : Nat := 1
  units : List WUnit := []
  acc : Acc := {}
  /-- Motion of the committed units (R123, R129). -/
  mot : PicMotion := {}
  /-- A lower rank: rank 0's committed motion field of the picture (R126). -/
  hand : Tbl ColVec := []
  /-- Reserved pages not yet filled (R164). -/
  pages : List Nat := []
  /-- The picture carries parameter sets or a sequence header whatever ENC_FLAGS.ps_every_key says (R111). -/
  newSets : Bool := false
  /-- Lookahead detected a fade here. -/
  fade : Bool := false
  /-- A page of it has failed twice: it counts as dropped (R171). -/
  gaveUp : Bool := false
  /-- Admitted flagged late (Table 4.2). -/
  late : Bool := false
  /-- The last attempt of a unit failed: later bands are not sent (R249). -/
  doomed : Bool := false
  /-- DECODE: reserved slot, access-unit bytes. -/
  slot : Nat := 0
  /-- DECODE: space-1 input entries whose owner bits clear at the commit (R178). -/
  heldIn : List Nat := []
  auBytes : Nat := 0
  truncated : Bool := false
  /-- DECODE: the bytes of the access unit as the bitstream buffer or HBM holds them (R178), and where bytes are missing (R179, R180). -/
  bits : List Byte := []
  breaks : List Nat := []
deriving DecidableEq, Repr

/-- A picture decoded into a slot and not yet output (R182), with its record's fields (Table 9.5). -/
structure DecOut where
  pic : Nat := 0
  slot : Nat := 0
  width : Nat := 0
  height : Nat := 0
  flags : Nat := 0
  pts : Nat := 0
  darned : Nat := 0
  tainted : Nat := 0
  commit : Nat := 0
  ctus : Nat := 0
  colour : Word := 0
  cvs : Nat := 0
  poc : Int := 0
  /-- The stage in bulk state of a picture for a window in host memory (R183): the lines by their offset in the slot. -/
  stage : List (Nat × List Byte) := []
  /-- The coded picture's planes (R192). -/
  planes : List (List (List Nat)) := []
deriving DecidableEq, Repr

/-- Decode state of a session (R173 to R198). -/
structure Dec where
  /-- Slots: 0 free, 1 reserved, 2 written, 3 held (R182). -/
  slots : Tbl Nat := []
  /-- The generation of each slot (R23). -/
  slotGen : Tbl Nat := []
  /-- Parameter sets in force (R191). -/
  sets : List SetIn := []
  /-- Reference buffers (R187), and the generation of each (R23). -/
  buffers : Nat := 0
  bufGen : Tbl Nat := []
  /-- Coded sequences begun. -/
  cvs : Nat := 0
  /-- The access unit at the head has waited for a slot (R182). -/
  slotWait : Bool := false
  written : List DecOut := []
  /-- Planes of the picture output most recently (R192). -/
  shown : List (List (List Nat)) := []
  dpb : List DpbEntry := []
  darnedRefs : Nat := 0
  outputs : Nat := 0
  concealPics : Nat := 0
  syntaxErrs : Nat := 0
  budgetStops : Nat := 0
  truncations : Nat := 0
  badChunks : Nat := 0
  undecodable : Nat := 0
  setsRejected : Nat := 0
  slotWaits : Nat := 0
  lastDarned : Nat := 0
  lastTainted : Nat := 0
  lastSize : Word := 0
  errPos : Word := 0xFFFFFFFF
  errKind : Nat := 0
deriving DecidableEq, Repr

/-- Picture types that the encoder signals (R106). -/
inductive PicType where
  | idr | idrNLp | idrWRadl | keyFrame | p | b
deriving DecidableEq, Repr

/-- How a unit of work is packed (R107, R109). -/
inductive UnitForm where
  | slice | independentSegment | rasterSlice | tile (cols : Nat)
deriving DecidableEq, Repr

/-- What the rules fix of the syntax that a picture's packets carry, beyond what its blocks chose. -/
structure PicSyntax where
  pic : Nat := 0
  type : PicType := .p
  /-- References, and whether one is the long-term reference (R106). -/
  refs : List Nat := []
  longTerm : Option Nat := none
  form : UnitForm := .slice
  /-- Independent units: bands, or gang parts (R107, R109). -/
  units : Nat := 1
  /-- In-loop filters cross unit boundaries (R108, R109): AV1 only. -/
  crossFilter : Bool := false
  /-- Luma lines at the bottom of a band that the next one filters and writes (R108). -/
  lateLines : Nat := 0
  /-- The level's code as signalled, and the tier (R110). -/
  level : Nat := 0
  tier : Bool := false
  /-- Coded size, and what the cropping takes off (R110). -/
  codedW : Nat := 0
  codedH : Nat := 0
  cropW : Nat := 0
  cropH : Nat := 0
  /-- Chroma sample location type 0, where the W9 filtered chroma down (R92). -/
  chromaLoc0 : Bool := false
  /-- The picture's QP on the codec's scale: base_q_idx for AV1, and the step of its delta-q (R134). -/
  qp : Int := 0
  qpStep : Nat := 1
  /-- Tools that the blocks may use, as ENC_TOOLS bits (R104). -/
  tools : Nat := 0
  /-- By name: those of an ordinary CTU, and of one of screen content; the effort level (R105). -/
  used : List String := []
  screenTools : List String := []
  effort : Nat := 0
  /-- CABAC, or for H.264 Constrained Baseline CAVLC (Table 8.1). -/
  cabac : Bool := true
  /-- AV1: primary_ref_frame is none and disable_frame_end_update_cdf is 1 (Table 8.1). -/
  noCdfUpdate : Bool := false
  /-- Temporal motion prediction is enabled (R149). -/
  tmvp : Bool := false
  /-- cbr_flag (R136). -/
  cbr : Bool := false
  /-- HRD parameters or decoder model: r in bit/s and B in bits (R137). -/
  hrd : Option (Nat × Nat) := none
  /-- Initial removal delay F / r in stitches of the buffering period that the picture carries (R137, R152). -/
  initDelay : Option Nat := none
  /-- recovery_frame_cnt of the recovery-point SEI (R149). -/
  recovery : Option Nat := none
  /-- ENC_HDR0 to 5 as sent (R92). -/
  hdr : Option (List Word) := none
deriving DecidableEq, Repr

/-- A unit of a delivery: its index, bytes, packets, and its pages with generations. -/
structure OutPart where
  idx : Nat := 0
  bytes : Nat := 0
  packets : Nat := 0
  pages : List (Nat × Nat) := []
deriving DecidableEq, Repr

/-- A committed unit, or a record alone, on its way to the host (R169, R170, R183). -/
structure OutItem where
  pic : Nat := 0
  band : Nat := 0
  bands : Nat := 1
  /-- The units to copy and release, in order. -/
  parts : List OutPart := []
  flags : Nat := 0
  pts : Nat := 0
  dts : Nat := 0
  commit : Nat := 0
  cfgSeq : Word := 0
  /-- Bytes are copied to the byte buffer (OUT_BIND.host). -/
  copy : Bool := false
  /-- A record follows. -/
  record : Bool := true
  /-- DECODE: the picture's record. -/
  dec : Option DecOut := none
deriving DecidableEq, Repr

/-- Bytes, packets and pages of a delivery. -/
def OutItem.bytes (o : OutItem) : Nat := (o.parts.map (·.bytes)).sum
def OutItem.packets (o : OutItem) : Nat := (o.parts.map (·.packets)).sum
def OutItem.pages (o : OutItem) : List (Nat × Nat) := o.parts.flatMap (·.pages)

/-- A migration in progress on one record (R70, R364). -/
structure Mig where
  /-- This record is the source. -/
  out : Bool := false
  peer : Nat := 0
  peerSes : Nat := 0
  started : Nat := 0
  /-- Source: 0 waiting for the rinse, 1 state copied or open sent, 3 done sent, 4 the destination is complete. Destination:
  0 armed, 2 open accepted, 3 state checked. -/
  phase : Nat := 0
  /-- Payloads received, in order, whose CRC-32C the done frame carries (R364). -/
  data : List Byte := []
  /-- The W9 issued it on entering SAFE (R365). -/
  auto : Bool := false
  /-- The source's class and group, which a destination takes at completion (R70). -/
  cls : Nat := 0
  group : Word := 0
deriving DecidableEq, Repr

/-- A session record and the session's bulk state (R53 to R74). -/
structure Session where
  /-- SES_STATE.state (R55). Reset CLOSED. -/
  st : Ses := .closed
  /-- SES_STATE.prior (R55). Reset 0. -/
  prior : Ses := .closed
  /-- SES_CLASS (R55). Reset 0. -/
  cls : Nat := 0
  /-- SES_PANEL (R55). Reset 0. -/
  panel : Nat := 0
  /-- SES_GROUP (R55). Reset 0. -/
  group : Word := 0
  /-- SES_LEVEL.expert (R56). Reset 0. -/
  level : Bool := false
  /-- SES_MIGRATE (R56). Reset 0. -/
  migrate : Word := 0
  /-- SES_IGNORED (R56). Reset 0. -/
  ignored : Nat := 0
  /-- SES_LAST_IGN: offset, value, state and reason words (R56). Reset 0. -/
  ignOff : Word := 0
  ignVal : Word := 0
  ignWhy : Word := 0
  /-- SES_CFG_SEQ (R56). Reset 0. -/
  cfgSeq : Word := 0
  /-- The staging copy by record offset (R53); reset values by offset (R112, R131, R154, R172, R197, R240, R398). -/
  staged : Tbl Word := []
  /-- The pending set (R60), Expert fields at their effective values; SES_STATE.cfg_pending. Reset none. -/
  pend : Option (Tbl Word) := none
  /-- SES_CFG_SEQ of the pending set, and of the configuration in force (R60, R74 cfg_seq). Reset 0. -/
  pendSeq : Word := 0
  forceSeq : Word := 0
  /-- The configuration in force (R61); none before the first CONFIGURE applies. -/
  force : Option (Tbl Word) := none
  /-- A reversion of the Expert fields waits for a rinse (R63). Reset clear. -/
  revert : Bool := false
  /-- IN_TAIL, HINT_TAIL, OUT_HEAD (R65) and the W9's own indices (R67). Reset 0. -/
  inTail : Nat := 0
  inHead : Nat := 0
  hintTail : Nat := 0
  hintHead : Nat := 0
  outHead : Nat := 0
  outTail : Nat := 0
  /-- Hint entries to consume unread once a tail write brings them within the tail (R117). -/
  hintOwed : Nat := 0
  /-- RING_IN_ROWS (R97): the value written, and the progress of the head picture and the next. Reset 0. -/
  rowsReg : Word := 0
  rows0 : Nat := 0
  rows1 : Nat := 0
  /-- The entry read when the head picture was first considered (R94), and whether it waits at test 2 or 3 (R79). -/
  seen : Option AdmitIn := none
  seenWait : Bool := false
  /-- Next picture number (R67). -/
  nextPic : Nat := 0
  /-- Number of the last admitted picture since START (R68). -/
  lastAdm : Option Nat := none
  /-- The end-of-stream flag has gone out in a record since DRAIN (R170). -/
  eosSent : Bool := false
  /-- Pictures admitted and not ended, in order of admission. -/
  pics : List Pic := []
  /-- Pictures whose committed units not every consumer has released: inputs are kept (R171). -/
  kept : List Pic := []
  /-- What the headers of the last coded picture say. -/
  syn : PicSyntax := {}
  /-- AV1: the frame-end CDFs kept with each reference, by picture (Table 8.1). -/
  cdfs : Tbl (List Byte) := []
  /-- The source of the last picture admitted (R101). -/
  lastSource : List (List (List Nat)) := []
  lastCoded : List (List (List Nat)) := []
  /-- The reference pictures' buffers (R23): buffer by picture number, from 1, and each buffer's generation; and the generation of each
  source slot, by input entry. -/
  refBuf : Tbl Nat := []
  refGen : Tbl Nat := []
  srcGen : Tbl Nat := []
  /-- Input entries posted before DRAIN that remain (R59). -/
  drainTo : Option Nat := none
  /-- Fold flags in_stall, eos, mig_failed (R74). Reset 0. -/
  inStall : Bool := false
  eos : Bool := false
  migFailed : Bool := false
  /-- recovery_pending (R69). Reset 0. -/
  recPend : Bool := false
  /-- A FORCE_RECOVERY waits for the next admission (R69). -/
  recNext : Bool := false
  /-- An INVALIDATE_REF waits for the next admission: its N (R68). -/
  invalN : Option Nat := none
  /-- Counters of the fold (R74). Reset 0. -/
  pictures : Nat := 0
  lastPic : Nat := 0
  band : Nat := 0
  bands : Nat := 0
  commitTime : Nat := 0
  commitSeq : Word := 0
  dropped : Nat := 0
  abandoned : Nat := 0
  replays : Nat := 0
  migrations : Nat := 0
  patchMoves : Nat := 0
  lastBytes : Nat := 0
  threadbare : Bool := false
  concealed : Bool := false
  /-- FOLD_GEN (R72). Reset 0. -/
  foldGen : Word := 0
  /-- The published fold and ME_STAT, by record offset (R72, R74, R132, R155, R198). Reset 0. -/
  fold : Tbl Word := []
  /-- Class words as of the last committed picture (R155, R198). -/
  cwords : Tbl Word := []
  /-- Encode counters of the class words. -/
  tbPictures : Nat := 0
  cuts : Nat := 0
  recoveries : Nat := 0
  bufLimited : Nat := 0
  /-- Usable committed references, newest first (R106). -/
  refs : List Nat := []
  /-- The long-term reference (R150). -/
  ltr : Option Nat := none
  /-- The refresh cycle: pictures committed of it, and its length (R148). -/
  refresh : Option (Nat × Nat) := none
  /-- The pictures of the current refresh cycle admitted so far, by number, with their index (R149). -/
  areas : List (Nat × Nat) := []
  /-- Number of the current refresh cycle, and the next picture of it to admit (R148). -/
  cycle : Nat := 0
  refNext : Nat := 0
  /-- Pictures of a lower rank that came with rank 0's admission and wait at test 2 or 3 (R28, R79). -/
  owed : List Pic := []
  rc : Rc := {}
  me : Motion := {}
  dec : Dec := {}
  /-- OUT_BUF_HEAD and OUT_BUF_FILL (R172). Reset 0. -/
  bufHead : Nat := 0
  bufFill : Nat := 0
  /-- Deliveries waiting, in commit order (R169). -/
  outq : List OutItem := []
  /-- OUT_PACE_D0 to D3 (R240). Reset 0. -/
  pace : Tbl Word := []
  mig : Option Mig := none
  /-- The bulk state that a migration over the line brought, checked (R364). -/
  migBulk : Option MigBulk := none
deriving DecidableEq, Repr

/-- A hamper page record (R163). -/
structure HPage where
  held : Bool := false
  refs : Nat := 0
  gen : Nat := 0
  fill : Nat := 0
  /-- The next page of its unit. -/
  next : Option Nat := none
deriving DecidableEq, Repr

/-- A bucket (R223 to R226). -/
structure Bucket where
  c : Int := 0
  a : Nat := 0
  /-- Time up to which the accumulator has grown. -/
  at_ : Nat := 0
deriving DecidableEq, Repr

/-- How a queued packet is framed (R210, R343, R369). -/
inductive PktForm where
  /-- Unit bytes as they are. -/
  | raw
  /-- Whole units of these sizes, slots apart. -/
  | whole (ns : List Nat)
  /-- A fragment of the unit with this header: its first, its last. -/
  | frag (hdr : List Byte) (lead last : Bool)
deriving DecidableEq, Repr

/-- A packet of a queued unit (R221). -/
structure EPkt where
  /-- Payload bytes. -/
  bytes : Nat := 0
  /-- The unit bytes that it carries. -/
  at_ : Nat := 0
  cover : Nat := 0
  form : PktForm := .raw
deriving DecidableEq, Repr

/-- A unit in a subscriber's queue (R221). -/
structure QUnit where
  ses : Nat := 0
  pic : Nat := 0
  band : Nat := 0
  consumer : Nat := 0
  commit : Nat := 0
  /-- The packets still to send. -/
  pkts : List EPkt := []
  /-- The codec; where its length slots lie that start codes replace (R343); a key picture with a sequence header (Table 10.6). -/
  codec : Nat := 0
  slots : List Nat := []
  newSeq : Bool := false
  /-- Unit bytes sent. -/
  sent : Nat := 0
  /-- No packet has been sent. -/
  fresh : Bool := true
  /-- The unit is the last of its picture; it belongs to a key picture; it is the first of its picture. -/
  lastOfPic : Bool := false
  key : Bool := false
  firstOfPic : Bool := false
  pts : Nat := 0
  live : Bool := false
  pages : List (Nat × Nat) := []
deriving DecidableEq, Repr

/-- A mangle subscriber with its egress flow (R208, R220, R241). -/
structure Sub where
  /-- MGL_SUB_DATA0 to 3 as committed (R241). Reset 0. -/
  d : Tbl Word := []
  bucket : Bucket := {}
  queue : List QUnit := []
  /-- Egress flow entry in force and the committed entry (R208, R219). Reset zero. -/
  flow : List Byte := []
  flowNext : List Byte := []
  /-- An entry has been committed (R211). -/
  hasFlow : Bool := false
  /-- RTP sequence number (R209) and rollover counter (R212). -/
  seq : Nat := 0
  roc : Nat := 0
  /-- The flow runs on its backup port (R217). -/
  moved : Bool := false
  /-- The flow stopped on an empty key slot or at its index limit (R213). -/
  stopped : Bool := false
  limit : Bool := false
deriving DecidableEq, Repr

/-- A mangle service (R220, R227, R241). -/
structure Svc where
  /-- MGL_SVC_DATA0 and 1 as committed. Reset 0. -/
  d0 : Word := 0
  d1 : Word := 0
  /-- MGL_SVC_DATA2 as committed. Reset weight 1. -/
  d2 : Word := 0x100
  bucket : Bucket := {}
  deficit : Nat := 0
  /-- Subscriber that took the last turn (R227). -/
  lastSub : Nat := 0
deriving DecidableEq, Repr

/-- The gate control of an Ethernet port (R236 to R238). -/
structure Gate where
  /-- The operating list: entries and length. Reset none. -/
  oper : Tbl Word := []
  operLen : Nat := 0
  operCycle : Nat := 0
  /-- GSTATUS.oper (R237). Reset 0. -/
  on : Bool := false
  /-- GSTATUS.entry. Reset 0. -/
  entry : Nat := 0
  /-- Start of the entry and of the cycle. -/
  entryAt : Nat := 0
  cycleAt : Nat := 0
  /-- GSTATUS.pending. Reset 0. -/
  pending : Bool := false
  /-- The pending change gates traffic. -/
  pendOn : Bool := false
  /-- GCHG (R237). Reset 0. -/
  chg : Nat := 0
deriving DecidableEq, Repr

/-- An Ethernet port (R199 to R219). -/
structure Eth where
  /-- MGL_ETHn_STATUS.link. Reset 0. -/
  link : Bool := false
  /-- MGL_ETHn_STATUS.fec_lock. Reset 0. -/
  fec : Bool := false
  /-- MGL_ETHn_STATUS.an_done. Reset 0. -/
  anDone : Bool := false
  /-- Time of the last link up (R217). -/
  upAt : Nat := 0
  /-- PUNT_TAIL, HTX_HEAD (R219). Reset 0. -/
  puntTail : Nat := 0
  htxHead : Nat := 0
  /-- MGL_ETHn_LAT when its Expert level is set (R219). -/
  lat : Option Word := none
  gate : Gate := {}
  /-- Service that holds the deficit round robin turn (R227). -/
  turn : Nat := 0
deriving DecidableEq, Repr

/-- An ingest picture in a source buffer (R205, R206). -/
structure IngPic where
  rtpTs : Word := 0
  /-- Time of its first packet (R206, R207). -/
  frame0 : Nat := 0
  /-- What has arrived of each row, as ST 2110-20 packs it. -/
  rows : Tbl (List (Option Byte)) := []
  closed : Bool := false
  taken : Bool := false
  lastSeq : Nat := 0
  /-- Sequence numbers received, each once. -/
  seqs : List Nat := []
  firstSeq : Nat := 0
deriving DecidableEq, Repr

/-- An ingest flow (R203 to R207). -/
structure Ingest where
  entry : List Byte := []
  pics : List IngPic := []
  /-- RTP timestamp of a picture that is being discarded whole (R206). -/
  skip : Option Word := none
  /-- Highest extended sequence number received. -/
  high : Nat := 0
deriving DecidableEq, Repr

/-- A DMA descriptor as read (Table 16.2). -/
structure Desc where
  src : Nat := 0
  dst : Nat := 0
  srcStride : Int := 0
  dstStride : Int := 0
  len : Nat := 0
  req : Nat := 0
  lines : Nat := 0
  srcGen : Nat := 0
  srcWbase : Nat := 0
  dstWbase : Nat := 0
  srcWsize : Nat := 0
  dstWsize : Nat := 0
  dstGen : Nat := 0
  burst : Nat := 0
  srcSpace : Nat := 0
  dstSpace : Nat := 0
deriving DecidableEq, Repr

/-- A DMA channel (R307 to R319, R328). -/
structure Chan where
  /-- CTL.enable. Reset 0. -/
  enable : Bool := false
  /-- CTL.live. Reset 0. -/
  live : Bool := false
  /-- CTL.ring_space. Reset 0. -/
  ringSpace : Bool := false
  /-- BASE_LO, BASE_HI, SIZE. Reset 0. -/
  baseLo : Word := 0
  baseHi : Word := 0
  size : Nat := 0
  /-- TAIL, HEAD, COUNT. Reset 0. -/
  tail : Nat := 0
  head : Nat := 0
  count : Nat := 0
  /-- STATUS.state. Reset 0. -/
  state : Nat := 0
  /-- STATUS.last. Reset 0. -/
  last : Nat := 0
  /-- The descriptor that moves, as checked, and its 64 bytes. -/
  desc : Option Desc := none
  raw : List Byte := []
  /-- What its source lines hold where the source is host memory, line after line. -/
  data : List Byte := []
  /-- Lines of the bursts started so far (R314). -/
  moved : Nat := 0
  /-- When the channel became ready for a mover, as its place in that order (R312); none while it asks for none. -/
  order : Option Nat := none
  /-- Clearing enable takes effect at the next descriptor boundary (R317). -/
  stopping : Bool := false
deriving DecidableEq, Repr

/-- A check-value unit (R325, R326, R328). -/
structure Cvu where
  /-- CTL. Reset 0x320. -/
  ctl : Word := 0x320
  /-- POLY. Reset 0x1EDC_6F41. -/
  poly : Dword := 0x1EDC6F41
  /-- INIT and XOR. Reset 0xFFFF_FFFF. -/
  init : Dword := 0xFFFFFFFF
  xor : Dword := 0xFFFFFFFF
  /-- FOLD. Reset 0. -/
  fold : Dword := 0
  /-- RESULT as last finished. Reset 0. -/
  result : Dword := 0
  /-- The running register, and STATUS.bytes. -/
  reg : Dword := 0xFFFFFFFF
  bytes : Nat := 0
  /-- A data write since start (R326). -/
  holds : Bool := false
deriving DecidableEq, Repr

/-- A stack's lottery arbiter (R322 to R324). -/
structure Arb where
  /-- The LFSR. Reset 1. -/
  lfsr : BitVec 31 := 1
  /-- Grants modulo 16. Reset 0 (DESIGN CHOICE, log 2). -/
  count : Nat := 0
  /-- Last floor-grant and no-ticket winners. Reset 15 (DESIGN CHOICE, log 2). -/
  lastFloor : Nat := 15
  lastRr : Nat := 15
deriving DecidableEq, Repr

/-- A bank of a line channel (R296). -/
structure Bank where
  open_ : Option Nat := none
  counter : Nat := 0
deriving DecidableEq, Repr

/-- A sweep in progress (R300, R301). -/
structure Sweep where
  margin : Bool := false
  chan : Nat := 0
  all : Bool := false
  inject : Nat := 0
  band : Nat := 0
deriving DecidableEq, Repr

/-- A line channel of a stack (R299, R302, R306). -/
structure LineChan where
  /-- Band of the delay set in use (R297). Reset 0. -/
  band : Nat := 0
  /-- It runs on a provisional set (R303). Reset clear. -/
  provisional : Bool := false
  /-- Band whose set the next refresh loads (R297). -/
  bandDue : Bool := false
  /-- MEMC_LANE_CNT by lane. Reset 0. -/
  lanes : Tbl Nat := []
  /-- MEMC_MARGIN. Reset 0. -/
  margin : Word := 0
  monitor : Bool := false
  /-- Class 24 has been raised for the set in use (R302). -/
  warned : Bool := false
  /-- The last margin sweep: rate, band, passed, achieved (R301). -/
  lastMargin : Option (Nat × Nat × Bool × Nat) := none
  banks : Tbl Bank := []
deriving DecidableEq, Repr

/-- An HBM stack and its controller (R290 to R306). -/
structure Stack where
  /-- MEM_STATUS.rate. Reset 0. -/
  rate : Nat := 0
  /-- MEM_STATUS.band. Reset 0. -/
  band : Nat := 0
  /-- MEM_STATUS.temp. Reset 0. -/
  temp : Nat := 0
  /-- The frequency change in steps 2 to 5 of Table 15.3: target and train (R303); MEM_STATUS.fchg. Reset none. -/
  chg : Option (Nat × Bool) := none
  /-- The frequency request that waits or is held (R303); MEM_STATUS.fpend. -/
  fpend : Option (Nat × Bool) := none
  /-- MEM_FREQ.target and live_guard. Reset 0, 1. -/
  target : Nat := 0
  guard : Bool := true
  /-- MEM_STATUS.unvalidated, low_margin, band_stale. Reset 0. -/
  unval : Bool := false
  lowMargin : Bool := false
  bandStale : Bool := false
  /-- MEM_STATUS.sr and pd: ranks in self-refresh and power-down. Reset 0. -/
  sr : Nat := 0
  pd : Nat := 0
  sweep : Option Sweep := none
  /-- MEM_TRAIN_ST. Reset 0. -/
  trainSt : Word := 0
  /-- MEM_TRAIN commands that wait for a reload of the control cores (Table 12.5). Reset empty. -/
  trainWait : List Word := []
  /-- MEM_LOAD. Reset 0. -/
  load : Nat := 0
  /-- Delay-set data by ((channel × 3 + rate) × 3 + band) × 128 + lane (R299). Reset 0. -/
  dset : Tbl Word := []
  /-- Delay-set flags by (channel × 3 + rate) × 3 + band: bit 0 valid, bit 1 validated. Reset 0. -/
  dflags : Tbl Nat := []
  chans : Tbl LineChan := []
  /-- Next bank to refresh, by rank (R297). Reset 0. -/
  nextBank : Tbl Nat := []
  /-- DEP_SCRUB_POS (R261). Reset 0. -/
  scrubPos : Nat := 0
  /-- Fenced at boot (R375). Reset clear. -/
  fenced : Bool := false
  /-- Rate that a failed boot sweep made its cap (R375). Reset none: 0. -/
  rateCap : Nat := 0
deriving DecidableEq, Repr

/-- The patch image held in the device region (R286). -/
structure PatchImg where
  /-- 0 no image, 1 applied, 2 rejected. -/
  status : Nat := 0
  serial : Word := 0
  sections : List PatchSection := []
deriving DecidableEq, Repr

/-- The security engine (R384 to R398). -/
structure Sec where
  /-- SEC_STATUS.busy: the command word that runs. Reset none. -/
  busy : Option Word := none
  /-- SEC_KEY_ARG as the running command took it. -/
  len : Nat := 0
  /-- SEC_STATUS.result. Reset 0. -/
  result : Nat := 0
  /-- SEC_STATUS.debug: 2 bits of OTP, UNLOCKED held until reset. Reset LOCKED, as shipped (Table 20.2). -/
  debug : Nat := 1
  /-- SEC_STATUS.boot. Reset 0. -/
  boot : Nat := 0
  /-- SEC_STATUS.svn. Reset 0. -/
  svn : Nat := 0
  /-- SEC_STATUS.counter: OTP fuses. Reset 0 (DESIGN CHOICE, log 5). -/
  counter : Nat := 0
  /-- SEC_NONCE. Reset random (free value, log 22). -/
  nonce : Word := Config.nonce 0
  /-- SRTP key slots: key and salt bytes; empty when unlisted (R390). Reset empty. -/
  keys : Tbl (List Byte) := []
  /-- VK slots: bit 4 written, bits 3:0 usage (R384). Reset VK0 with every usage (DESIGN CHOICE, log 5). -/
  vk : Tbl Nat := [(0, 0x1F)]
  /-- VK keys (R384, R386). Reset: VK0 holds the base point of P-384, the others none (DESIGN CHOICE, log 5). -/
  vkKey : Tbl (List Byte) := [(0, Config.vk0)]
  /-- The patch key (R384). Reset 32 zero bytes (DESIGN CHOICE, log 5). -/
  patchKey : List Byte := List.replicate 32 0
  /-- Revoke bits of the VK slots. Reset 0. -/
  revoked : Nat := 0
  /-- The OTK fuses are written (R384), and usable (Table 20.2). Reset clear, usable. -/
  otk : Bool := false
  otkOff : Bool := false
  /-- The OTK (R384). Reset empty. -/
  otkKey : List Byte := []
  /-- The patch image of boot step 5. -/
  patch : PatchImg := {}
  /-- The lockstep cores reload (Table 12.5). Reset clear. -/
  reloading : Bool := false
  /-- A security command that waits for the reload (R392). -/
  waiting : Option Word := none
deriving DecidableEq, Repr

/-- A clothesline frame (Table 18.2) with the values that its payload carries; the spec gives no byte layout of the
payloads of PEG, TIME, MIG_CTL, NOTE and PKT frames, so none is modelled. -/
structure LFrame where
  type : Nat := 0
  dst : Nat := 0
  src : Nat := 0
  flags : Nat := 0
  hops : Nat := 0
  info : List Nat := []
  /-- The bulk state of a MIG_DATA or MIG_CTL done frame (R364). -/
  bulk : Option MigBulk := none
deriving DecidableEq, Repr

/-- The link layer of one clothesline port (R357). -/
structure LinePortSt where
  /-- LIN_STATUS.links bit. Reset 0. -/
  up : Bool := false
  /-- Sequence number of the next frame sent and expected. Reset 0 (DESIGN CHOICE, log 2). -/
  txSeq : Nat := 0
  rxSeq : Nat := 0
  /-- Replay buffer: sequence number and frame, not acknowledged, oldest first; at most 64 (R357). -/
  replay : List (Nat × LFrame) := []
  /-- Frames that wait for room in the replay buffer (R357), oldest first. -/
  wait : List LFrame := []
  /-- The last of MIG and PKT frames sent was a MIG frame: they go in turn (R357). -/
  lastMig : Bool := false
  /-- The link has been up and went down (R366 kinds 2 and 3). -/
  lost : Bool := false
  /-- Replays of the oldest frame (R357). -/
  replays : Nat := 0
  /-- Frames received and not acknowledged (R357). -/
  unacked : Nat := 0
deriving DecidableEq, Repr

/-- The clothesline (R354 to R370). -/
structure Line where
  /-- LIN_CTL. Reset 0. -/
  ctl : Nat := 0
  /-- LIN_ADDR.addr and valid. Reset 0. -/
  addr : Nat := 0
  valid : Bool := false
  /-- LIN_STATUS.locked and holdover. Reset 0. -/
  locked : Bool := false
  holdover : Bool := false
  /-- LIN_OFFSET and LIN_DELAY. Reset 0. -/
  offset : Word := 0
  delay : Word := 0
  /-- Consecutive exchanges within 4 st (R363). -/
  good : Nat := 0
  /-- t1 of the exchange in progress (R362). -/
  t1 : Option Nat := none
  ports : Tbl LinePortSt := []
  /-- Serials by table entry (R359): positions 0 to 63 of a manager; on the system head line indices, and positions of
  line 0 from key 4096 on. Reset free. -/
  table : Tbl Dword := []
  /-- A PEG deferred while a session migrates (R360): destination address. -/
  pegDue : Option Nat := none
  /-- PEG_REQs that wait for an address (R361): port, serial, manager. -/
  reqDue : List (Nat × Dword × Bool) := []
  /-- Reports of the round in progress by entry, of level 0 (devices), 1 (lines), 2 (trunks): level × 4096 + entry. -/
  reports : Tbl Summary := []
  /-- Boundary of the round in progress, and pictures dropped since (R367). Reset 0. -/
  round : Nat := 0
  drops : Nat := 0
  /-- The line table of the round in progress has been published (R367). -/
  pubLine : Bool := true
  /-- Addresses of devices heard from over a link that has stayed up (R361, R367). -/
  reach : List Nat := []
  /-- Published tables by window offset: line 0, trunk 0x1000, system 0x2000 (R368). Reset 0. -/
  tables : Tbl Word := []
  /-- RX_TAIL. Reset 0. -/
  rxTail : Nat := 0
  /-- A SAFE migration round is in progress: moved and failed so far (R365). -/
  safeMoved : Nat := 0
  safeFailed : Nat := 0
  safeLeft : List Nat := []
deriving DecidableEq, Repr

/-- A precise sample (Table 21.2). -/
structure Sample where
  d0 : Word := 0
  d1 : Word := 0
  d2 : Word := 0
  d3 : Word := 0
deriving DecidableEq, Repr

/-- Performance counters (R399 to R408). -/
structure Pmu where
  /-- Counters by number: 0 to 63 global, 64 + tile × 8 + k of a tile (R401). Reset 0. -/
  cnt : Tbl Nat := []
  /-- Sticky ovf bits by the same number. Reset 0. -/
  ovf : Tbl Bool := []
  /-- PMU_THR (R404). Reset 0. -/
  thr : Nat := 0
  /-- Samples queued, oldest first (R406). -/
  queue : List Sample := []
  /-- The sample buffer by index. -/
  buf : Tbl Sample := []
  /-- PMU_SAMP_HEAD, _TAIL. Reset 0. -/
  head : Nat := 0
  tail : Nat := 0
  /-- PMU_BW_GEN, _START, the latched totals and the boundary of the window in progress (R407). Reset 0. -/
  bwGen : Word := 0
  bwStart : Nat := 0
  bw : Tbl Dword := []
  /-- The window in progress when PMU_BW_WIN was written is discarded (R407). -/
  bwFresh : Bool := false
  /-- Boundary at which the window in progress began. Reset 0. -/
  bwAt : Nat := 0
deriving DecidableEq, Repr

/-- What the device sends out, in the order of R340. -/
inductive Emit where
  /-- A basket record written to host memory: function, index, record, phase (R345). -/
  | basket (fn idx : Nat) (r : BktRec) (phase : Bool)
  /-- An MSI-X message of a function (R348). -/
  | msix (fn : Nat)
  /-- An output ring record: session, index, 64 bytes (R170). -/
  | record (ses idx : Nat) (bytes : List Byte)
  /-- A unit copied to the byte buffer: session, offset, bytes in the form of OUT_BIND.fmt (R169). -/
  | unitData (ses off : Nat) (bytes : List Byte)
  /-- A window copy: session, slot (R183). -/
  | windowCopy (ses slot : Nat) (lines : List (Nat × List Byte))
  /-- The owner bit of a ring entry cleared: session, ring (0 input, 1 hint), entry (R66). -/
  | ownerClear (ses ring idx : Nat)
  /-- A DMA write to host memory: channel, address, bytes (R311). -/
  | dmaData (chan addr : Nat) (bytes : List Byte)
  /-- A descriptor write-back: channel, entry, status, done (R316). -/
  | writeback (chan idx status done : Nat)
  /-- An RTP packet on an Ethernet port: port, subscriber, sequence number, RTP timestamp, marker, payload bytes,
  SRTP rollover counter if encrypted, key slot, and the frame (R208 to R213). -/
  | rtp (port sub seq ts : Nat) (marker : Bool) (bytes : Nat) (roc : Option Nat) (slot : Nat) (frame : List Byte)
  /-- A host transmit frame: port, ring entry, stamp if asked, the frame with its FCS (R216). -/
  | hostFrame (port idx : Nat) (stamp : Option Nat) (frame : List Byte)
  /-- A host transmit ring entry given back: port, entry (R216). -/
  | htxDone (port idx : Nat) (stamp : Nat)
  /-- A punted frame: port, index, length, flags, stamp, bytes (R202). -/
  | punt (port idx len flags stamp : Nat) (bytes : List Byte)
  /-- A host packet ring entry: function, index, 2,048 bytes (R343). -/
  | hpr (fn idx : Nat) (bytes : List Byte)
  /-- A clothesline frame: port, sequence number, frame (R357). -/
  | line (port seq : Nat) (f : LFrame)
  /-- A link acknowledge or NAK (R357). -/
  | linkCtl (port : Nat) (nak : Bool) (seq : Nat)
  /-- A LIN_RX ring entry: index, 16-byte header, payload (R369). -/
  | lineRx (idx : Nat) (hdr payload : List Byte)
  /-- An I2C answer without its PEC byte (R421). -/
  | i2c (bytes : List Byte)
  /-- A PPS_OUT pulse at a stitch time (R382). -/
  | pps (t : Nat)
  /-- THERMTRIP_N asserted (R380). -/
  | thermtrip
deriving DecidableEq, Repr

/-- The whole device. -/
structure State where
  /-- Commands that wait, first in first out: the model's own field. -/
  pending : List Instr := []
  /-- Which part this is (R1): true the MV-W9T-A144, false the MV-W9T-B072. Fixed by manufacture; reset A144 (DESIGN
  CHOICE, log 1). -/
  a144 : Bool := true
  /-- CTL_SERIAL, from OTP (R413). Reset 0 (DESIGN CHOICE, log 1). -/
  serial : Dword := 0
  /-- The stitch timebase (R5). Reset 0 (Table 19.2). -/
  now : Nat := 0
  /-- Plain registers and saturating counters by PF BAR0 offset, and a VF's ignore record by VF × 2^24 + offset (R11). -/
  regs : Tbl Word := []
  pat : Pattern := {}
  ldr : Loader := {}
  pwr : Power := {}
  flt : Collector := {}
  lnt : Lint := {}
  hif : Hif := {}
  sessions : Tbl Session := []
  tiles : Tbl Tile := []
  /-- Admission count: the order of the next admitted picture. -/
  admitted : Nat := 0
  /-- Panels in a panel reset (R267), as a mask. -/
  resetting : Nat := 0
  /-- Hamper pages by number (R163). Reset FREE. -/
  pages : Tbl HPage := []
  /-- HMP_LAST_DFREE (R172). Reset 0. -/
  lastDfree : Word := 0
  /-- HMP_FREE is at or above HMP_LOW, so a fall posts an event (R172). -/
  lowArmed : Bool := true
  /-- MGL_SUB_DATA0 to 3, MGL_SVC_DATA0 to 2 and MGL_FLOW_DATA0 to 15 are in `regs`. Subscribers by number. -/
  subs : Tbl Sub := []
  svcs : Tbl Svc := []
  /-- Port buckets by port code (R220). -/
  portBkt : Tbl Bucket := []
  eths : Tbl Eth := []
  ingest : Tbl Ingest := []
  chans : Tbl Chan := []
  /-- DMA_REQ lines (R314). Reset 0. -/
  dmaReq : Nat := 0
  cvus : Tbl Cvu := []
  arbs : Tbl Arb := []
  hbm : Tbl Stack := []
  /-- HBM data bytes by physical address (R292); an unlisted byte reads 0 (DESIGN CHOICE, log 6). -/
  mem : List Host.Cell := []
  /-- HBM side symbols by line address × 8 + i: 4 label bytes, then 4 check symbols (R256). Same rule. -/
  side : List Host.Cell := []
  /-- DEP_LAST_UNC (R261). Reset 0. -/
  lastUnc : Nat := 0
  sec : Sec := {}
  lin : Line := {}
  pmu : Pmu := {}
  /-- What the device has sent, oldest first: the model's own field. -/
  outbox : List Emit := []
  /-- Counter that names free values: the model's own field. Reset 0 (DESIGN CHOICE, log 21). -/
  freeCtr : Nat := 0
deriving DecidableEq, Repr

/-- The device right after a power-on reset: held in reset, STANDBY, timebase 0 (R371, Table 19.2). Registers that need
no boot read their reset values; the host cannot reach BAR0 before the boot ends. -/
def State.reset : State := {}

/-- The canonical form of HBM contents: addresses strictly rising, no byte equal to 0. -/
def Memory.wf (m : List Host.Cell) : Bool := twf 0 m

end Sys2Proof.Machine
end

