-- ==== Sys2Proof/Machine/Regs.lean ====
section
/-!
DEFINITION. The register file of plain registers, the device mode, and the ignore counts and last-ignored records of
every window (R9, R10, R410 to R412, R426).
-/
namespace Sys2Proof.Machine

/-- Reset values of the plain registers by PF BAR0 offset (the locator lines of chapters 2 to 22); 0 for every other. -/
def resetOf (off : Nat) : Word :=
  if off = 0x10018 then 0x55EAA100
  else if off = 0x20004 then 0x0015FEA0
  else if off = 0x20008 then 0x00DBF240
  else if off = 0x50040 then 0x00000201
  else if off = 0x50100 then 0x00040000
  else if off = 0x50104 then 0x00040004
  else if off = 0x50108 then 0x00040008
  else if off = 0x5010C then 0x00010010
  else if off = 0x50110 then 0x0002001C
  else if off = 0x50114 then 0x00020020
  else if off = 0x50118 then 0x000F0010
  else if off = 0x5011C then 0x000F0014
  else if off = 0x60604 then 0x00001000
  else if off = 0x60700 then 0x0015FEA0
  else if off = 0x9000C then 0x0015FEA0
  else if off = 0x90018 then 0x00DBF240
  else if off = 0xA0000 then 0x00000004
  else if 0xD0000 ≤ off ∧ off < 0xD0400 then
    let k := off % 0x100
    if k < 0x34 then 12
    else if k = 0x34 then 24
    else if k = 0x38 then 0x140
    else if k = 0x3C then 0x104
    else 0
  else if off = 0xE2018 then 0x00000100
  else if off = 0xE8024 ∨ off = 0xE9024 then 0x000005DC
  else if off = 0xE802C ∨ off = 0xE902C then 0x55EAA100
  else if off = 0xF0000 then 0x00000003
  else if off = 0xF0004 then 0x00020000
  else if off = 0xF0040 then 0x00010000
  else if 0x100000 ≤ off ∧ off < 0x200000 then
    let k := off % 0x40000
    if k = 0x08 then 0x04940040
    else if k = 0x0C then 0x00002000
    else if k = 0x10 then 0x00001248
    else if k = 0x14 then 0x0003552D
    else if k = 0x1C then 0x00000004
    else 0
  else 0

/-- Read a plain register. -/
def State.reg (s : State) (off : Nat) : Word := tget (resetOf off) s.regs off

/-- Write a plain register. -/
def State.setReg (s : State) (off : Nat) (v : Word) : State := { s with regs := tset (resetOf off) off v s.regs }

/-- Count into a saturating 32-bit counter. -/
def State.bump (s : State) (off : Nat) (k : Nat := 1) : State := s.setReg off (satIncW (s.reg off) k)

/-- The code of a mode (PAT_LAST_IGN.mode, PWR_STATUS.mode). -/
def Mode.code : Mode → Nat
  | .standby => 0 | .primed => 1 | .woven => 2 | .running => 3 | .press => 4 | .safe => 5

/-- The code of a session state (SES_STATE.state). -/
def Ses.code : Ses → Nat
  | .closed => 0 | .opened => 1 | .ready => 2 | .running => 3 | .paused => 4 | .draining => 5 | .migrating => 6

/-- Session `n`. -/
def State.ses (s : State) (n : Nat) : Session := tget {} s.sessions n

/-- Write session `n`. -/
def State.setSes (s : State) (n : Nat) (x : Session) : State := { s with sessions := tset {} n x s.sessions }

/-- Tile `n`. -/
def State.tile (s : State) (n : Nat) : Tile := tget {} s.tiles n

/-- Write tile `n`. -/
def State.setTile (s : State) (n : Nat) (x : Tile) : State := { s with tiles := tset {} n x s.tiles }

/-- Quadrant `q`. -/
def State.quad (s : State) (q : Nat) : Quad := tget {} s.pwr.quads q

/-- Write quadrant `q`. -/
def State.setQuad (s : State) (q : Nat) (x : Quad) : State :=
  { s with pwr := { s.pwr with quads := tset {} q x s.pwr.quads } }

/-- Domain request `d` (R383). -/
def State.dom (s : State) (d : Nat) : Dom := tget {} s.pwr.doms d

/-- Write domain request `d`. -/
def State.setDom (s : State) (d : Nat) (x : Dom) : State :=
  { s with pwr := { s.pwr with doms := tset {} d x s.pwr.doms } }

/-- Stack `n`. -/
def State.stack (s : State) (n : Nat) : Stack := tget {} s.hbm n

/-- Write stack `n`. -/
def State.setStack (s : State) (n : Nat) (x : Stack) : State := { s with hbm := tset {} n x s.hbm }

/-- Panel `p` of the pattern in force. -/
def State.panel (s : State) (p : Nat) : Panel := tget {} s.pat.panels p

/-- Function `n`: 0 the PF, 1 to 63 a VF. -/
def State.fn (s : State) (n : Nat) : Func := tget {} s.hif.fns n

/-- Write function `n`. -/
def State.setFn (s : State) (n : Nat) (x : Func) : State := { s with hif := { s.hif with fns := tset {} n x s.hif.fns } }

/-- Subscriber `n`. -/
def State.sub (s : State) (n : Nat) : Sub := tget {} s.subs n

/-- Write subscriber `n`. -/
def State.setSub (s : State) (n : Nat) (x : Sub) : State := { s with subs := tset {} n x s.subs }

/-- Ethernet port `p`. -/
def State.eth (s : State) (p : Nat) : Eth := tget {} s.eths p

/-- Write Ethernet port `p`. -/
def State.setEth (s : State) (p : Nat) (x : Eth) : State := { s with eths := tset {} p x s.eths }

/-- DMA channel `n`. -/
def State.chan (s : State) (n : Nat) : Chan := tget {} s.chans n

/-- Write DMA channel `n`. -/
def State.setChan (s : State) (n : Nat) (x : Chan) : State := { s with chans := tset {} n x s.chans }

/-- Tiles, stacks and quadrants that the part has (R1). -/
def State.nTiles (s : State) : Nat := if s.a144 then 52 else 26
def State.nStacks (s : State) : Nat := if s.a144 then 4 else 2
def State.nQuads (s : State) : Nat := if s.a144 then 4 else 2

/-- Quadrant of tile `t` (R15). -/
def quadOf (t : Nat) : Nat := t / 13

/-- Fabric die of quadrant `q` (R14): 0 F0, 1 F1. -/
def dieOf (q : Nat) : Nat := q / 2

/-- Some session is RUNNING. -/
def State.anyRunning (s : State) : Bool := s.sessions.any fun e => e.2.st == .running

/-- Every session is CLOSED. -/
def State.allClosed (s : State) : Bool := s.sessions.all fun e => e.2.st == .closed

/-- The mode in force (R371). -/
def State.mode (s : State) : Mode :=
  match s.pwr.life with
  | .up =>
    if s.pwr.safe then .safe
    else if s.ldr.pressing ≠ 0 then .press
    else if s.pat.serial = 0 then .primed
    else if s.anyRunning then .running
    else .woven
  | _ => .standby

/-- The device answers commands: it is out of boot, STANDBY, wake, warm reset and thermal trip. -/
def State.live (s : State) : Bool := s.pwr.life == .up && !s.pwr.tripped

/-- The device is in service and not in SAFE: units, sessions and ports do their work. -/
def State.work (s : State) : Bool := s.live && !s.pwr.safe

/-- The mode word of a last-ignored record (PAT_LAST_IGN, R51). -/
def State.ignMode (s : State) : Word := mkWord [(0, s.mode.code), (3, s.ldr.phase)]

/-- A command that is a write of a register of a running device. -/
def State.whenLive (s : State) (f : State → State) : State := if s.live then f s else s

/-- Count an ignored write at the count register `base` with the offset to record (R10): the count saturates at 0xFFFF,
and the record takes offset, value and mode. -/
def State.noteIgn (s : State) (base off : Nat) (v : Word) : State :=
  let s := s.setReg base (w32 (min 0xFFFF ((s.reg base).toNat + 1)))
  let s := s.setReg (base + 4) (w32 off)
  let s := s.setReg (base + 8) v
  s.setReg (base + 12) s.ignMode

/-- The count register of the window that holds PF offset `off`, and the offset that its record takes (R410 to R412). -/
def ignWindow (off : Nat) : Nat × Nat :=
  if off < 0x100000 then
    let b := off / 0x10000
    let o := off % 0x10000
    if b = 1 then (0x10020, o)
    else if b = 0xC then (0xC0230, o)
    else if b = 0xD then (0xD0430, o)
    else (b * 0x10000 + 0x30, o)
  else if off < 0x200000 then (off / 0x40000 * 0x40000 + 0x30, off % 0x40000 % 0x10000)
  else if off < 0x400000 then (off / 0x2000 * 0x2000 + 0x30, off % 0x2000)
  else (0x30, off)

/-- The window that holds PF offset `off` exists on the part (R2, R410): tile windows 52 to 63 never, those of an absent
tile, and the memory window of an absent or fenced stack, not. -/
def State.present (s : State) (off : Nat) : Bool :=
  if off < 0x100000 then true
  else if off < 0x200000 then
    let n := (off - 0x100000) / 0x40000
    decide (n < s.nStacks) && !(s.stack n).fenced
  else if off < 0x400000 then decide ((off - 0x200000) / 0x8000 < s.nTiles)
  else decide (off < 0x800000)

/-- A fenced stack's window ignores writes as under R2 (R375). -/
def State.ignored (s : State) (off : Nat) (v : Word) : State :=
  if s.present off then
    let w := ignWindow off
    s.noteIgn w.1 w.2 v
  else s.noteIgn 0x30 off v

/-- The ignore record of a VF's own window (R353). -/
def State.ignoredVf (s : State) (fn off : Nat) (v : Word) : State := s.noteIgn (fn * 2 ^ 24 + 0x30) off v

/-- Record an ignored write of a session record with its reason (R10, SES_LAST_IGN). -/
def State.ignoredSes (s : State) (n off : Nat) (v : Word) (reason : Nat) : State :=
  let x := s.ses n
  s.setSes n { x with
    ignored := min 0xFFFF (x.ignored + 1)
    ignOff := w32 (off % 0x400)
    ignVal := v
    ignWhy := mkWord [(0, x.st.code), (4, reason)] }

/-- The first session of a VF's range, and its length (HIF_VFn_SESS, R333). -/
def State.vfRange (s : State) (vf : Nat) : Nat × Nat :=
  let w := s.reg (0x31000 + 0x10 * vf)
  (fld w 11 0, fld w 25 16)

/-- The VF that owns session `n`, or 0 for the PF (R333). -/
def State.owner (s : State) (n : Nat) : Nat :=
  match (List.range 63).find? fun k =>
      let r := s.vfRange (k + 1)
      decide (r.1 ≤ n) && decide (n < r.1 + r.2) with
  | some k => k + 1
  | none => 0

/-- The session that record or alias `n` of function `fn` names (R333). -/
def State.sesOf (s : State) (fn n : Nat) : Option Nat :=
  if fn = 0 then (if n < 4096 then some n else none)
  else if fn < 64 then
    let r := s.vfRange fn
    if n < r.2 then some (r.1 + n) else none
  else none

/-- The panel field of a session applies: the session is open on panel `p`. -/
def Session.on (x : Session) (p : Nat) : Bool := x.st != .closed && x.panel == p

/-- Clock domain of a window is stopped (R338): a tile's quadrant PLL; the controller and arbiter of a stack that is asleep or
not yet awake again. -/
def State.stopped (s : State) (off : Nat) : Bool :=
  if 0x100000 ≤ off ∧ off < 0x200000 then (s.dom ((off - 0x100000) / 0x40000)).st == 1 || (s.dom ((off - 0x100000) / 0x40000)).st == 4
  else if 0x200000 ≤ off ∧ off < 0x400000 then !(s.quad (quadOf ((off - 0x200000) / 0x8000))).pll
  else if 0xD0000 ≤ off ∧ off < 0xD0400 then (s.dom ((off - 0xD0000) / 0x100)).st == 1 || (s.dom ((off - 0xD0000) / 0x100)).st == 4
  else false

end Sys2Proof.Machine
end

