-- ==== Sys2Proof/Machine/Tools.lean ====
section
/-!
DEFINITION. The coding tools of each codec (R104, Tables 5.5 to 5.8), the effort levels (R105, Table 5.9), and what intra block copy may
read.
-/
namespace Sys2Proof.Machine

/-- Table 5.5 to 5.8: chosen per block by cost, one value always signalled, never signalled. -/
inductive ToolStatus where
  | used | fixed | no
deriving DecidableEq, Repr

/-- Where a used tool applies: everywhere, in CTUs of screen content, in ganged pictures, with adaptive quantisation. -/
inductive ToolOnly where
  | every | screen | gang | aq
deriving DecidableEq, Repr

/-- A row of Tables 5.5 to 5.8: whether the session meets its condition, and its bit of ENC_TOOLS. -/
structure ToolRow where
  name : String
  status : ToolStatus
  cond : Bool
  bit : Option Nat := none
  only : ToolOnly := .every
deriving DecidableEq, Repr

/-- Table 5.5. -/
def h264Tools (profile effort cls : Nat) (_ : Bool) : List ToolRow :=
  let tho := decide (2 ≤ effort)
  let multi := decide (cls ≠ 0)
  [{ name := "CABAC", status := .fixed, cond := decide (profile ≠ 0), bit := none },
   { name := "CAVLC", status := .fixed, cond := profile == 0, bit := none },
   { name := "intra 4x4 and 16x16", status := .used, cond := true, bit := none },
   { name := "intra 8x8, 8x8 transform", status := .used, cond := decide (2 ≤ profile), bit := some 11 },
   { name := "inter partitions 16x16 to 8x8", status := .used, cond := true, bit := none },
   { name := "sub-8x8 partitions", status := .used, cond := tho, bit := some 3 },
   { name := "B slices, spatial direct", status := .used, cond := multi && decide (profile ≠ 0), bit := some 0 },
   { name := "explicit weighted prediction", status := .used, cond := multi && decide (profile ≠ 0), bit := some 1 },
   { name := "flat scaling matrices", status := .fixed, cond := true, bit := none },
   { name := "no deblocking across slices", status := .fixed, cond := cls == 0, bit := none },
   { name := "interlace, MBAFF, PAFF, FMO, ASO, redundant slices, SP/SI, lossless bypass", status := .no, cond := false, bit := none }]

/-- Table 5.6. -/
def hevcTools (profile effort cls : Nat) (c444 : Bool) : List ToolRow :=
  let std := decide (1 ≤ effort)
  let multi := decide (cls ≠ 0)
  [{ name := "CTU 64 or 32, CU 8 to 64, TU 4 to 32", status := .used, cond := true, bit := none },
   { name := "merge, AMVP", status := .used, cond := true, bit := none },
   { name := "TMVP", status := .used, cond := true, bit := some 2 },
   { name := "asymmetric partitions", status := .used, cond := std, bit := some 3 },
   { name := "weighted prediction", status := .used, cond := multi, bit := some 1 },
   { name := "B pictures", status := .used, cond := multi, bit := some 0 },
   { name := "transform skip with implicit RDPCM", status := .used, cond := decide (2 ≤ profile), bit := some 4, only := .screen },
   { name := "sign data hiding", status := .used, cond := std, bit := some 13 },
   { name := "cross-component prediction", status := .used, cond := decide (2 ≤ profile) && c444, bit := some 8 },
   { name := "intra block copy", status := .used, cond := profile == 3, bit := some 5 },
   { name := "palette", status := .used, cond := profile == 3, bit := some 6 },
   { name := "adaptive colour transform", status := .used, cond := profile == 3, bit := some 7 },
   { name := "SAO", status := .used, cond := true, bit := some 14 },
   { name := "tiles", status := .used, cond := true, bit := none, only := .gang },
   { name := "flat scaling lists", status := .fixed, cond := true, bit := none },
   { name := "WPP, dependent slices, PCM, extended precision, persistent Rice adaptation", status := .no, cond := false, bit := none }]

/-- Table 5.7. -/
def av1Tools (_ effort cls : Nat) (_ : Bool) : List ToolRow :=
  let std := decide (1 ≤ effort)
  let tho := decide (2 ≤ effort)
  let multi := decide (cls ≠ 0)
  [{ name := "superblock 64", status := .fixed, cond := true, bit := none },
   { name := "partitions NONE, SPLIT, HORZ, VERT", status := .used, cond := true, bit := none },
   { name := "HORZ_A/B, VERT_A/B, HORZ_4, VERT_4", status := .used, cond := tho, bit := some 3 },
   { name := "directional intra with angle delta, DC, smooth, Paeth", status := .used, cond := true, bit := none },
   { name := "CfL", status := .used, cond := true, bit := some 8 },
   { name := "filter intra", status := .used, cond := tho, bit := some 9 },
   { name := "palette", status := .used, cond := true, bit := some 6, only := .screen },
   { name := "intra block copy", status := .used, cond := true, bit := some 5, only := .screen },
   { name := "compound prediction", status := .used, cond := multi, bit := some 0 },
   { name := "global motion, translation only", status := .used, cond := cls == 2, bit := some 1 },
   { name := "switchable interpolation", status := .used, cond := std, bit := some 15 },
   { name := "transforms", status := .used, cond := true, bit := some 11 },
   { name := "delta-q", status := .used, cond := true, bit := none, only := .aq },
   { name := "deblocking", status := .used, cond := true, bit := none },
   { name := "CDEF", status := .used, cond := true, bit := some 14 },
   { name := "loop restoration", status := .used, cond := std, bit := some 12 },
   { name := "OBMC, warped motion, wedge, difference-weighted and inter-intra compound, quantisation matrices, superres, film grain, switch frames, reference scaling", status := .no, cond := false, bit := none }]

/-- Table 5.8. -/
def vvcTools (profile effort cls : Nat) (c444 : Bool) : List ToolRow :=
  let std := decide (1 ≤ effort)
  let tho := decide (2 ≤ effort)
  let multi := decide (cls ≠ 0)
  [{ name := "CTU 64", status := .fixed, cond := true, bit := none },
   { name := "quadtree with multi-type tree, dual tree in intra slices", status := .used, cond := true, bit := none },
   { name := "67 intra modes", status := .used, cond := true, bit := none },
   { name := "CCLM", status := .used, cond := true, bit := some 8 },
   { name := "multiple reference lines", status := .used, cond := std, bit := some 10 },
   { name := "matrix intra prediction", status := .used, cond := tho, bit := some 9 },
   { name := "merge, AMVP, AMVR, MMVD", status := .used, cond := true, bit := none },
   { name := "TMVP", status := .used, cond := true, bit := some 2 },
   { name := "BDOF, DMVR", status := .used, cond := multi, bit := some 0 },
   { name := "SMVD", status := .used, cond := multi && std, bit := some 0 },
   { name := "LFNST", status := .used, cond := std, bit := some 12 },
   { name := "MTS", status := .used, cond := tho, bit := some 11 },
   { name := "dependent quantisation", status := .used, cond := tho, bit := some 13 },
   { name := "joint CbCr", status := .used, cond := true, bit := some 4 },
   { name := "transform skip with BDPCM", status := .used, cond := true, bit := some 4, only := .screen },
   { name := "IBC", status := .used, cond := profile == 1 && c444, bit := some 5 },
   { name := "palette", status := .used, cond := profile == 1 && c444, bit := some 6 },
   { name := "ACT", status := .used, cond := profile == 1 && c444, bit := some 7 },
   { name := "deblocking", status := .used, cond := true, bit := none },
   { name := "SAO", status := .used, cond := true, bit := some 14 },
   { name := "ALF with CC-ALF", status := .used, cond := std, bit := some 15 },
   { name := "flat scaling lists", status := .fixed, cond := true, bit := none },
   { name := "ISP, affine, GPM, CIIP, SbTMVP, BCW, SBT, LMCS, subpictures, RPR", status := .no, cond := false, bit := none }]

/-- The rows of a codec. -/
def toolRows (codec profile effort cls : Nat) (c444 : Bool) : List ToolRow :=
  if codec = 1 then h264Tools profile effort cls c444
  else if codec = 2 then hevcTools profile effort cls c444
  else if codec = 3 then av1Tools profile effort cls c444
  else if codec = 4 then vvcTools profile effort cls c444
  else []

/-- The tools whose condition of Tables 5.5 to 5.8 a session meets, as ENC_TOOLS bits (R104, R112). Fades count as detected
in every session with lookahead statistics to come (DESIGN CHOICE, log 115). Classes: 0 LIVE, 1 NEAR, 2 ARCHIVE. -/
def toolSet (codec profile effort cls : Nat) (c444 : Bool) : Nat :=
  (toolRows codec profile effort cls c444).foldl (fun n t => match t.bit with
    | some k => if t.cond && !n.testBit k then n + 2 ^ k else n
    | none => n) 0

/-- The CTU is screen content: its score, from colour count and edge sharpness, exceeds what decides so (R101; the spec gives neither, log
123). -/
def screenCtu (order ctu : Nat) : Bool := decide (Config.screenLimit < Config.screenScore order ctu)

/-- A row applies in a CTU: its condition holds, ENC_TOOLS does not switch it off (`tools` are the bits in force), and it is where the row
says. -/
def ToolRow.applies (t : ToolRow) (tools : Nat) (screen ganged aq : Bool) : Bool :=
  t.status != .no && t.cond && (match t.bit with
    | some k => tools.testBit k
    | none => true) &&
    match t.only with
    | .every => true
    | .screen => screen
    | .gang => ganged
    | .aq => aq

/-- The first luma line that intra block copy of a CTU at line `y` may read (Table 5.6): of the current band in a LIVE session, whose first
line is `band`; else two CTU rows above. -/
def ibcFrom (cls ctu band y : Nat) : Nat := if cls = 0 then band else y / max 1 ctu * ctu - 2 * ctu

/-- An effort level (Table 5.9): rate in fifths of a pixel per cycle over 1, 2 or 4; partition depths evaluated, where 0 is all; intra
modes; rate-distortion candidates; RDOQ; passes that search the filters' parameters, where 0 takes fixed strengths from the QP. -/
structure Effort where
  slow : Nat
  depths : Nat
  pruned : Bool
  modes : Nat
  cands : Nat
  rdoq : Bool
  filterPasses : Nat
deriving DecidableEq, Repr

/-- Table 5.9. -/
def effortOf (e : Nat) : Effort :=
  if e = 0 then { slow := 1, depths := 2, pruned := false, modes := 3, cands := 2, rdoq := false, filterPasses := 0 }
  else if e = 1 then { slow := 2, depths := 0, pruned := true, modes := 6, cands := 4, rdoq := true, filterPasses := 1 }
  else { slow := 4, depths := 0, pruned := false, modes := 12, cands := 8, rdoq := true, filterPasses := 2 }

end Sys2Proof.Machine
end

