-- ==== Sys2Proof/Machine/Fields.lean ====
section
/-!
DEFINITION. The session record's configuration registers (Table 3.1): reset values, defined bits, Expert fields with the
values derived from the Basic ones (R7, R112, R131, R154, R197), and the fields that the rules read.
-/
namespace Sys2Proof.Machine

/-- Reset values of the staged registers, by record offset (chapters 5 to 9, 11, 20); 0 for every other. -/
def cfgReset (off : Nat) : Word :=
  if off = 0x04C ∨ off = 0x334 then 0x016E93C0
  else if off = 0x054 then 0x40
  else if off = 0x058 then 0x10000
  else if off = 0x05C then 0x16
  else if off = 0x100 then 0x6C
  else if off = 0x118 then 0x1C
  else if off = 0x11C then 0x1F1C1A
  else if off = 0x120 then 0x3300
  else if off = 0x200 then 0x11
  else if off = 0x240 then 0xF
  else if off = 0x288 then 6
  else if off = 0x308 then 0x20
  else if off = 0x320 then 0x616
  else 0

/-- Defined writable bits of the staged registers (R12); `none` where the offset holds no staged register. -/
def cfgMask (off : Nat) : Option Nat :=
  if off = 0x040 then some 0x1FFF7
  else if off = 0x044 ∨ off = 0x304 then some 0x3FFF3FFF
  else if off = 0x048 then some 0xFFF
  else if off = 0x04C ∨ off = 0x334 then some 0xFFFFFFFF
  else if off = 0x050 then some 0x3
  else if off = 0x054 then some 0x1FF
  else if off = 0x058 then some 0x3F7FFFFF
  else if off = 0x05C ∨ off = 0x094 ∨ off = 0x200 ∨ off = 0x20C then some 0x1F
  else if 0x060 ≤ off ∧ off ≤ 0x074 then some 0xFFFFFFFF
  else if off = 0x080 then some 0xFF3F
  else if off = 0x084 ∨ off = 0x090 ∨ off = 0x120 then some 0xFFFF
  else if off = 0x088 then some 0xFFFFFFFF
  else if off = 0x08C then some 0xFF1
  else if off = 0x100 ∨ off = 0x31C then some 0x7F
  else if 0x104 ≤ off ∧ off ≤ 0x114 then some 0xFFFFFFFF
  else if off = 0x118 then some 0x3F
  else if off = 0x11C ∨ off = 0x124 ∨ off = 0x144 then some 0xFFFFFF
  else if off = 0x140 then some 0xFF07
  else if off = 0x180 then some 0xFFFFFFFF
  else if off = 0x184 then some 0x371F
  else if off = 0x188 then some 0x10F1F
  else if off = 0x18C then some 0xFFFF07FF
  else if off = 0x190 then some 0x3
  else if off = 0x204 ∨ off = 0x2C0 ∨ off = 0x2D0 ∨ off = 0x2E0 ∨ off = 0x30C then some 0xFFFFFFC0
  else if off = 0x208 ∨ off = 0x2C4 ∨ off = 0x2D4 ∨ off = 0x2E4 ∨ off = 0x310 ∨ off = 0x314 ∨ off = 0x318 then
    some 0xFFFFFFFF
  else if 0x210 ≤ off ∧ off ≤ 0x21C then some 0x80000FFF
  else if off = 0x240 ∨ off = 0x288 then some 0xF
  else if off = 0x280 ∨ off = 0x284 then some 0xFFFFFFFF
  else if off = 0x2C8 ∨ off = 0x2D8 ∨ off = 0x2E8 then some 0x11F
  else if off = 0x300 then some 0x3F7
  else if off = 0x308 then some 0x33
  else if off = 0x320 then some 0x1F1F
  else if off = 0x324 then some 0x33F
  else none

/-- The staged registers in ascending record offset (R429). -/
def cfgOffsets : List Nat :=
  [0x040, 0x044, 0x048, 0x04C, 0x050, 0x054, 0x058, 0x05C, 0x060, 0x064, 0x068, 0x06C, 0x070, 0x074,
   0x080, 0x084, 0x088, 0x08C, 0x090, 0x094,
   0x100, 0x104, 0x108, 0x10C, 0x110, 0x114, 0x118, 0x11C, 0x120, 0x124, 0x140, 0x144]
  ++ [0x180, 0x184, 0x188, 0x18C, 0x190, 0x200, 0x204, 0x208, 0x20C, 0x210, 0x214, 0x218, 0x21C, 0x240,
   0x280, 0x284, 0x288, 0x2C0, 0x2C4, 0x2C8, 0x2D0, 0x2D4, 0x2D8, 0x2E0, 0x2E4, 0x2E8]
  ++ [0x300, 0x304, 0x308, 0x30C, 0x310, 0x314, 0x318, 0x31C, 0x320, 0x324, 0x334]

/-- Expert registers of the session record (Level column). -/
def expertOffsets : List Nat :=
  [0x080, 0x084, 0x088, 0x08C, 0x090, 0x094, 0x140, 0x144, 0x180, 0x184, 0x188, 0x18C, 0x190, 0x324]

/-- A register of the record is Expert. -/
def isExpert (off : Nat) : Bool := expertOffsets.contains off

/-- A field of a configuration set. -/
def cget (c : Tbl Word) (off : Nat) : Word := tget (cfgReset off) c off

/-- Write a field of a configuration set. -/
def cset (c : Tbl Word) (off : Nat) (v : Word) : Tbl Word := tset (cfgReset off) off v c

/-- Session classes (Table 3.2). -/
def clsLive : Nat := 0
def clsNear : Nat := 1
def clsArchive : Nat := 2
def clsDecode : Nat := 3

/-- Rank of a session in its sibling group: bits 11:9 of SES_GROUP (R55). -/
def Session.rank (x : Session) : Nat := fld x.group 11 9
/-- The session belongs to a sibling group. -/
def Session.member (x : Session) : Bool := bit x.group 12
/-- Sibling group number. -/
def Session.groupNo (x : Session) : Nat := fld x.group 8 0
/-- The session is a lower rendition of a group. -/
def Session.lower (x : Session) : Bool := x.member && x.rank != 0

/-- The value derived for an Expert register from the Basic fields of `c` (R7), class `cls`; `lower` for ranks 1 to 7. -/
def derived (c : Tbl Word) (cls : Nat) (lower : Bool) (off : Nat) : Word :=
  let codec := fld (cget c 0x040) 2 0
  let profile := fld (cget c 0x040) 7 4
  let effort := fld (cget c 0x050) 1 0
  let c444 := bit (cget c 0x048) 4
  let pick (a b d : Nat) : Nat := if effort = 0 then a else if effort = 1 then b else d
  if off = 0x080 then
    mkWord [(1, if codec = 1 then 4 else 3), (4, if codec = 4 then pick 1 2 3 else 0),
            (8, if codec = 3 then pick 0x03 0x03 0xFF else 0)]
  else if off = 0x084 then w32 (toolSet codec profile effort cls c444)
  else if off = 0x088 then 0x00082B55
  else if off = 0x08C then 1
  else if off = 0x090 then mkWord [(0, (effortOf effort).cands), (4, (effortOf effort).modes), (8, 64)]
  else if off = 0x094 then 8
  else if off = 0x140 then mkWord [(0, 2), (8, 64)]
  else if off = 0x144 then mkWord [(0, if cls = clsLive then 48 else 64), (8, 32), (16, 32)]
  else if off = 0x180 then if lower then 0xF0574316 else 0xF0574321
  else if off = 0x184 then
    mkWord [(0, pick 8 12 16), (8, pick 2 3 4), (12, if codec = 3 ∧ effort = 2 then 1 else 0)]
  else if off = 0x188 then
    if (cget c 0x2D0 ≠ 0 ∨ cget c 0x2D4 ≠ 0) ∨ lower then 0x10000 else 0
  else if off = 0x18C then 0x321903A4
  else if off = 0x190 then if lower then 3 else 0
  else if off = 0x324 then 8
  else 0

/-- The staged value of a register: the derived value of an Expert register while SES_LEVEL.expert is clear (R7). -/
def Session.stagedAt (x : Session) (off : Nat) : Word :=
  if isExpert off && !x.level then derived x.staged x.cls x.lower off else cget x.staged off

/-- The ENC_TOOLS bits that have a tool for codec `codec` (Tables 5.5 to 5.8). -/
def codecTools (codec : Nat) : Nat := toolSet codec (if codec = 4 then 1 else 3) 2 clsArchive true

/-- What a read of a staged register returns (R53): the staged value, but that min_cb of H.264 reads 4 and ENC_TOOLS bits without
a tool for the codec read 0 (R112). -/
def Session.readAt (x : Session) (off : Nat) : Word :=
  let v := x.stagedAt off
  let codec := fld (cget x.staged 0x040) 2 0
  if off = 0x080 ∧ codec = 1 then maskW 0xFFFFFFF1 v ||| 8
  else if off = 0x084 then maskW (codecTools codec) v
  else v

/-- The whole staging area with the Expert fields at their values: what CONFIGURE copies (R60). -/
def Session.effective (x : Session) : Tbl Word :=
  cfgOffsets.foldl (fun c off => cset c off (x.stagedAt off)) []

/-- A configuration with its Expert fields reverted to the values derived from its Basic fields (R63). -/
def revertCfg (c : Tbl Word) (cls : Nat) (lower : Bool) : Tbl Word :=
  expertOffsets.foldl (fun c' off => cset c' off (derived c cls lower off)) c

/-- Setting the level bit starts every staged Expert field from its derived value (R8). -/
def Session.unlock (x : Session) : Session :=
  { x with level := true, staged := expertOffsets.foldl (fun c off => cset c off (x.stagedAt off)) x.staged }

/-- The staging area is cleared (R59): Expert fields restart from their derived values where the level bit is set (R8). -/
def Session.restage (x : Session) : Session :=
  let y := { x with staged := [], level := false }
  if x.level then y.unlock else y

/-- The configuration in force, empty before the first CONFIGURE. -/
def Session.cfg (x : Session) : Tbl Word := x.force.getD []

/-- Width and height of ENC_SIZE or DEC_SIZE. -/
def cW (cls : Nat) (c : Tbl Word) : Nat := fld (cget c (if cls = clsDecode then 0x304 else 0x044)) 13 0
def cH (cls : Nat) (c : Tbl Word) : Nat := fld (cget c (if cls = clsDecode then 0x304 else 0x044)) 29 16

/-- Codec of a session: ENC_CODEC or DEC_CODEC. -/
def cCodec (cls : Nat) (c : Tbl Word) : Nat := fld (cget c (if cls = clsDecode then 0x300 else 0x040)) 2 0

/-- Picture period P: ENC_PERIOD or DEC_PERIOD (Table 4.1). -/
def cPeriod (cls : Nat) (c : Tbl Word) : Nat := (cget c (if cls = clsDecode then 0x334 else 0x04C)).toNat

/-- Nominal band lines (ENC_BAND). -/
def cBand (c : Tbl Word) : Nat := fld (cget c 0x054) 8 0

/-- The session codes or decodes 4:4:4, which counts each luma sample twice (R77); for DECODE, the window format. -/
def c444 (cls : Nat) (c : Tbl Word) : Bool :=
  if cls = clsDecode then decide (2 ≤ fld (cget c 0x308) 1 0) else bit (cget c 0x048) 4

/-- CTU height: 16 for H.264, 32 for HEVC with ctu32, else 64 (Table 7.3, R107). -/
def ctuSize (c : Tbl Word) : Nat :=
  let codec := fld (cget c 0x040) 2 0
  if codec = 1 then 16 else if codec = 2 ∧ bit (cget c 0x080) 0 then 32 else 64

/-- Bands per picture: for LIVE ceil(H / band_lines), else 1 (R107). -/
def cBands (cls : Nat) (c : Tbl Word) : Nat :=
  if cls = clsLive then ceilDiv (cH cls c) (max 1 (cBand c)) else 1

/-- CTU columns and rows of a picture. -/
def ctuCols (cls : Nat) (c : Tbl Word) : Nat := ceilDiv (cW cls c) (ctuSize c)
def ctuRows (cls : Nat) (c : Tbl Word) : Nat := ceilDiv (cH cls c) (ctuSize c)

/-- Table 7.3: inter bound, intra bound in bits and header bound in bytes. -/
def tbBounds (c : Tbl Word) : Nat × Nat × Nat :=
  let codec := fld (cget c 0x040) 2 0
  if codec = 1 then (4, 24, 24)
  else if codec = 2 then if ctuSize c = 32 then (6, 16, 32) else (12, 32, 32)
  else if codec = 3 then (16, 40, 32)
  else (12, 32, 40)

/-- Rate mode (RC_MODE.mode). -/
def rcMode (c : Tbl Word) : Nat := fld (cget c 0x100) 1 0

/-- A ring of the record: base, log2 of its entries, space (R65); `off` 0x2C0 input, 0x2D0 hint, 0x2E0 output. -/
def ringBase (c : Tbl Word) (off : Nat) : Nat := joinW (cget c off) (cget c (off + 4))
def ringSize (c : Tbl Word) (off : Nat) : Nat := 2 ^ fld (cget c (off + 8)) 4 0

/-- The session has an output ring; a hint ring. -/
def hasOutRing (c : Tbl Word) : Bool := decide (ringBase c 0x2E0 ≠ 0)
def hasHintRing (c : Tbl Word) : Bool := decide (ringBase c 0x2D0 ≠ 0)

/-- The 64-bit payload of the name tape in force (R393). -/
def ntPayload (c : Tbl Word) : Nat := joinW (cget c 0x280) (cget c 0x284)

/-- NT_CTL.echo: the low 16 bits of the CRC-32C of the payload in force (R395, R398). -/
def ntEcho (c : Tbl Word) : Nat := (crc32c (leBytes 8 (ntPayload c))).toNat % 0x10000

end Sys2Proof.Machine
end

