-- ==== Sys2Proof/Machine/Ops.lean ====
section
/-!
DEFINITION. The named operations that every block shares: what the device sends, baskets and MSI-X (R345 to R349),
pending-bit sources (R351, R352), HBM bytes and addresses (R292 to R294), the fold (R72 to R74) and session states.
-/
namespace Sys2Proof.Machine

/-- The function for which something is written to host memory (R334): 0 for the PF and for what is no host write. -/
def State.emitFn (s : State) : Emit → Nat
  | .basket fn _ _ _ => fn
  | .msix fn => fn
  | .record n _ _ => s.owner n
  | .unitData n _ _ => s.owner n
  | .windowCopy n _ _ => s.owner n
  | .ownerClear n _ _ => s.owner n
  | .hpr fn _ _ => fn
  | _ => 0

/-- Send something out, after everything already sent (R340). A VF under FLR makes no further write to host memory (R335). -/
def State.emit (s : State) (e : Emit) : State :=
  if !s.hif.flr.isEmpty && s.emitFn e != 0 && s.hif.flr.contains (s.emitFn e) then s else { s with outbox := s.outbox ++ [e] }

/-- A value that no rule fixes: its number, and the counter advanced. -/
def State.fresh (s : State) : State × Nat := ({ s with freeCtr := s.freeCtr + 1 }, s.freeCtr)

/-- The event register of counter `c` (R408): 0 to 63 global, 64 + tile × 8 + k a tile's. -/
def evtOff (c : Nat) : Nat := if c < 64 then 0x60100 + 4 * c else 0x204040 + 0x8000 * ((c - 64) / 8) + 4 * (c % 8)

/-- Counter `c` runs: PMU_CTL.run, or MSR_CTL.run of its tile. -/
def State.cntRuns (s : State) (c : Nat) : Bool :=
  bit (s.reg (if c < 64 then 0x60000 else 0x204000 + 0x8000 * ((c - 64) / 8))) 0

/-- Counter `c` counts the carries of the counter before it (R401). -/
def State.chained (s : State) (c : Nat) : Bool := c % (if c < 64 then 64 else 8) != 0 && bit (s.reg (evtOff (c - 1))) 14

/-- Add `k` to counter `c` (R401): native and W7 wraps set the sticky bit, a chained carry goes to the next counter. -/
def State.cntAdd (s : State) (c k : Nat) : Nat → State
  | 0 => s
  | fuel + 1 =>
    let e := s.reg (evtOff c)
    let w := if bit e 15 then 2 ^ 32 else 2 ^ 48
    let v := tget 0 s.pmu.cnt c % w + k
    let s := { s with pmu := { s.pmu with cnt := tset 0 c (v % w) s.pmu.cnt } }
    if v < w then s
    else if bit e 14 then s.cntAdd (c + 1) (v / w) fuel
    else { s with pmu := { s.pmu with ovf := tset false c true s.pmu.ovf } }

/-- Counters `cs` that run and select event `code` of `unit`, not in occupancy mode and not chained, count `k` (R399). -/
def State.cntEvent (s : State) (cs : List Nat) (code unit k : Nat) : State :=
  cs.foldl (fun s c =>
    let e := s.reg (evtOff c)
    if s.cntRuns c && fld e 7 0 == code && fld e 12 8 == unit && !bit e 13 && !s.chained c then s.cntAdd c k 64 else s) s

/-- An event of the hub happens `k` times (Table 21.1). -/
def State.count (s : State) (code unit : Nat) (k : Nat := 1) : State :=
  if bit (s.reg 0x60000) 0 then s.cntEvent (upto 64) code unit k else s

/-- An event of tile `t` happens (Table 21.1). -/
def State.countTile (s : State) (t code : Nat) : State := s.cntEvent ((upto 8).map (64 + t * 8 + ·)) code 0 1

/-- Records in a function's basket ring. -/
def Func.entries (f : Func) : Nat := 2 ^ f.size

/-- Free records: (HEAD − TAIL − 1) mod size (R346). -/
def Func.room (f : Func) : Nat := (f.head + 2 * f.entries - f.tail - 1) % f.entries

/-- Unread records lie in the ring or the hold. -/
def Func.unread (f : Func) : Bool := f.head != f.tail || !f.hold.isEmpty

/-- No mask keeps the message back (R348). -/
def Func.unmasked (f : Func) : Bool := f.msixEn && !f.fnMask && !f.vecMask

/-- Send or hold back function `fn`'s message: wait for BKT_MOD, else send, else set the pending bit (R348). -/
def State.message (s : State) (fn : Nat) : State :=
  let f := s.fn fn
  let wait := match f.lastMsg with
    | some t => decide (s.now < t + f.mod.toNat)
    | none => false
  if wait then s.setFn fn { f with msgDue := true }
  else if f.unmasked then (s.setFn fn { f with msgDue := false, lastMsg := some s.now }).emit (.msix fn)
  else s.setFn fn { f with msgDue := false, pba := true }

/-- Write one record at TAIL and advance it; the phase inverts at the end of a pass (R346); an armed basket sends its
message and is disarmed (R348). -/
def State.writeRec (s : State) (fn : Nat) (r : BktRec) : State :=
  let f := s.fn fn
  let s := s.emit (.basket fn f.tail r f.phase)
  let wrap := decide (f.entries ≤ f.tail + 1)
  let s := s.setFn fn { f with
    tail := if wrap then 0 else f.tail + 1
    phase := if wrap then !f.phase else f.phase
    armed := false }
  if f.armed then s.message fn else s

/-- Merge an event into a record of the hold with its source, type and session (R347). -/
def mergeRec (r : BktRec) : List BktRec → Option (List BktRec)
  | [] => none
  | h :: t =>
    if h.src = r.src ∧ h.typ = r.typ ∧ h.ses = r.ses then some ({ h with count := min 255 (h.count + r.count) } :: t)
    else (mergeRec r t).map (h :: ·)

/-- Post an event to function `fn`'s basket: mask group `grp` (R349, Table 17.4), then the ring, then the hold (R347). -/
def State.post (s : State) (fn : Nat) (grp : Option Nat) (r : BktRec) : State :=
  let f := s.fn fn
  let masked := match grp with
    | some g => nbit f.mask g
    | none => false
  if masked then s.setFn fn { f with masked := min 0xFFFF (f.masked + r.count) }
  else if !f.enable then s.setFn fn { f with lost := min 0xFFFF (f.lost + r.count) }
  else if f.hold.isEmpty && f.room != 0 then s.writeRec fn r
  else
    match mergeRec r f.hold with
    | some h => s.setFn fn { f with hold := h }
    | none =>
      if f.hold.length < 64 then s.setFn fn { f with hold := f.hold ++ [r] }
      else s.setFn fn { f with lost := min 0xFFFF (f.lost + r.count) }

/-- Write held records in order while the ring has room (R347). -/
def State.drainHold (s : State) (fn : Nat) : Nat → State
  | 0 => s
  | k + 1 =>
    let f := s.fn fn
    match f.hold with
    | [] => s
    | r :: t => if f.room = 0 then s else ((s.setFn fn { f with hold := t }).writeRec fn r).drainHold fn k

/-- A basket record with the present time. -/
def State.evRec (s : State) (src typ : Nat) (detail : Word) (ses : Nat := 0) : BktRec :=
  { src := src, typ := typ, count := 1, detail := detail, time := s.now % 2 ^ 48, ses := ses }

/-- Pending-bit sources that are level sources (Table 17.5): thermal. -/
def levelSource (n : Nat) : Bool := n == 1

/-- An assertion of pending-bit source `n` (R352): counted; unless in service, pending is set and an enabled source
writes a record, whose session is that of the first assertion since pending was set. -/
def State.assertSrc (s : State) (n : Nat) (detail : Word) (ses : Nat) : State :=
  let s := s.bump (0x30280 + 4 * n)
  if nbit s.hif.inService n then s
  else
    let old := if nbit s.hif.pend n then tget {} s.hif.info n else {}
    let i : PendInfo := if old.count = 0 then { count := 1, detail := detail, time := s.now % 2 ^ 48, ses := ses }
      else { old with count := min 255 (old.count + 1) }
    let s := { s with hif := { s.hif with pend := s.hif.pend ||| 2 ^ n, info := tset {} n i s.hif.info } }
    if nbit s.hif.pendEn n then
      s.post 0 none { src := 0x040 + n, typ := 3, count := 1, detail := detail, time := s.now % 2 ^ 48, ses := i.ses }
    else s

/-- Clear a pending bit with what it held. -/
def State.clearPend (s : State) (n : Nat) : State :=
  { s with hif := { s.hif with
      pend := s.hif.pend &&& (2 ^ 32 - 1 - 2 ^ n), info := tset {} n {} s.hif.info } }

/-- A level source de-asserts: an unclaimed request is withdrawn (R352). -/
def State.deassertSrc (s : State) (n : Nat) : State :=
  let s := { s with hif := { s.hif with asserted := s.hif.asserted &&& (2 ^ 32 - 1 - 2 ^ n) } }
  s.clearPend n

/-- A level source asserts at its rising level. -/
def State.raiseLevel (s : State) (n : Nat) (detail : Word) : State :=
  if nbit s.hif.asserted n then s
  else ({ s with hif := { s.hif with asserted := s.hif.asserted ||| 2 ^ n } }).assertSrc n detail 0

/-- Bits per stack in the linear view (R292). -/
def stackSpan : Nat := 0x900000000

/-- Size in bytes of region `r`'s window (R293). -/
def Region.size (r : Region) : Nat := popCount r.mask 4 * r.count * 2 ^ 28

/-- The region whose window holds device address `a`, with the offset in it (R293); `none` outside every window. -/
def regionOf (regions : Tbl Region) (a : Nat) : Option (Nat × Nat) :=
  if a < 0x100000000000 then none
  else
    let r := (a - 0x100000000000) / 0x4000000000
    let o := (a - 0x100000000000) % 0x4000000000
    if r ≤ 16 ∧ o < (tget {} regions r).size then some (r, o) else none

/-- The physical address of offset `o` of a region's window (R293). -/
def Region.phys (r : Region) (o : Nat) : Nat :=
  let st := setBits r.mask 4
  let l := o / 64
  let k := max 1 st.length
  (st.getD (l % k) 0) * stackSpan + r.start * 2 ^ 28 + l / k * 64 + o % 64

/-- The physical address of a device address, or `none` where the access never reaches a stack (R294). -/
def State.physOf (s : State) (a : Nat) : Option Nat :=
  (regionOf s.pat.regions a).map fun p => (tget {} s.pat.regions p.1).phys p.2

/-- An extent of device addresses lies within one MEMORY region 0 to 15 (R65, R95, R179, R181), and for a VF-owned session
within its HIF_VFn_REGIONS (R334); `own` is the owner. -/
def State.inRegion (s : State) (own : Nat) (lo hi : Int) : Bool :=
  if lo < 0 then false
  else match regionOf s.pat.regions lo.toNat with
    | none => false
    | some (r, o) =>
      decide (r < 16) && decide (lo ≤ hi) && decide (o + (hi - lo).toNat ≤ (tget {} s.pat.regions r).size) &&
        (own == 0 || bit (s.reg (0x31008 + 0x10 * own)) r)

/-- Read one byte of HBM by physical address. -/
def State.byte (s : State) (a : Nat) : Byte := tget 0 s.mem a

/-- Write one byte of HBM. -/
def State.setByte (s : State) (a : Nat) (v : Byte) : State := { s with mem := tset 0 a v s.mem }

/-- Read bytes of HBM from physical address `a`. -/
def State.bytes (s : State) (a n : Nat) : List Byte := (List.range n).map fun i => s.byte (a + i)

/-- Write bytes of HBM from physical address `a`. -/
def State.setBytes (s : State) (a : Nat) : List Byte → State
  | [] => s
  | b :: t => (s.setByte a b).setBytes (a + 1) t

/-- Read a side symbol of a line (R256): 0 to 3 the label, 4 to 7 the check symbols. -/
def State.sideAt (s : State) (line i : Nat) : Byte := tget 0 s.side (line * 8 + i)

/-- Write the side symbols of a line. -/
def State.setSide (s : State) (line : Nat) : Nat → List Byte → State
  | _, [] => s
  | i, b :: t => ({ s with side := tset 0 (line * 8 + i) b s.side }).setSide line (i + 1) t

/-- Pictures of session `n` that a PAUSE, a press or a migration holds (fold 0x3B8): posted entries not admitted. -/
def State.heldOf (s : State) (n : Nat) : Nat :=
  let x := s.ses n
  if x.st == .paused || x.st == .migrating || (nbit s.ldr.pressing x.panel && x.st == .running) then
    let sz := ringSize x.cfg 0x2C0
    min 255 ((x.inTail + sz - x.inHead % sz) % sz)
  else 0

/-- The words of the fold that every publication takes from the session (R74), by record offset. -/
def State.foldNow (s : State) (n : Nat) : List (Nat × Word) :=
  let x := s.ses n
  [(0x384, mkWord [(0, x.st.code), (8, b2n x.threadbare), (9, b2n x.concealed), (10, b2n x.eos),
      (11, b2n x.recPend), (12, b2n x.inStall), (13, b2n x.migFailed)]),
   (0x388, x.commitSeq), (0x38C, w32 x.pictures), (0x390, w32 (x.lastPic % 2 ^ 24)),
   (0x394, mkWord [(0, x.band % 65536), (16, x.bands % 65536)]),
   (0x398, loW x.commitTime), (0x39C, hiW x.commitTime),
   (0x3A0, w32 (min 0xFFFFFFFF x.dropped)), (0x3A4, w32 (min 0xFFFFFFFF x.abandoned)),
   (0x3A8, w32 (min 0xFFFFFFFF x.replays)),
   (0x3AC, mkWord [(0, min 0xFFFF x.migrations), (16, min 0xFFFF x.patchMoves)]),
   (0x3B0, w32 x.lastBytes),
   (0x3B4, mkWord [(0, x.inHead % 65536), (16, x.hintHead % 65536)]),
   (0x3B8, mkWord [(0, x.outTail % 65536), (16, min 255 x.pics.length), (24, s.heldOf n)])]

/-- Publish the fold of session `n` (R72): FOLD_GEN rises by one and the hidden copy becomes the visible one; the class
words are those of the last committed picture (R155, R198), and ME_STAT.gen takes the generation (R132). -/
def State.publish (s : State) (n : Nat) : State :=
  let x := s.ses n
  let g := x.foldGen + 1
  let f := (s.foldNow n).foldl (fun t e => tset 0 e.1 e.2 t) x.cwords
  let f := tset 0 0x380 g (tset 0 0x3FC g (tset 0 0x1F0 g f))
  s.setSes n { x with foldGen := g, fold := f }

/-- The ME_STAT words (R132). -/
def Motion.words (m : Motion) : Tbl Word :=
  [(0x1F4, mkWord [(0, m.agree), (8, b2n m.demoted), (9, b2n m.hintless), (16, m.clamped)]),
   (0x1F8, mkWord [(0, m.hintMissing), (16, m.hintRejected)]), (0x1FC, mkWord [(0, m.invalid), (16, m.demotions)])]

/-- The class words with the ME_STAT words as they are now; a DECODE session has none of these. -/
def Session.meWords (x : Session) : Tbl Word :=
  if x.cls = clsDecode then x.cwords else x.me.words.foldl (fun t e => tset 0 e.1 e.2 t) x.cwords

/-- Change the state of session `n` and publish (R72, R132); mig_failed clears at a state change (R71). -/
def State.setSt (s : State) (n : Nat) (st : Ses) : State :=
  let x := s.ses n
  (s.setSes n { x with st := st, prior := .closed, migFailed := false, cwords := x.meWords }).publish n

/-- Post the event of a state change without a command (R58, Table 17.4 source 0x100). -/
def State.postState (s : State) (n : Nat) (new old : Ses) (failed : Bool) : State :=
  s.post (s.owner n) (some 5)
    (s.evRec 0x100 5 (mkWord [(0, new.code), (4, old.code), (8, b2n failed)]) n)

/-- Program set words of a panel in PROGRAMS order (R36). -/
def Panel.words (p : Panel) : List Word := (p.progs.map (·.words)).flatten

/-- Base of program `i` of a panel's set in the control store (R276: consecutive bases, in PROGRAMS order). -/
def Panel.base (p : Panel) (i : Nat) : Nat := ((p.progs.take i).map (·.words.length)).foldl (· + ·) 0

end Sys2Proof.Machine
end

