-- ==== Sys2Proof/Machine/Hamper.lean ====
section
/-!
DEFINITION. The hamper's pages (R163 to R168): allocation, reservation, release, and HMP_FREE.
-/
namespace Sys2Proof.Machine

/-- Page `i`. -/
def State.page (s : State) (i : Nat) : HPage := tget {} s.pages i

/-- Write page `i`. -/
def State.setPage (s : State) (i : Nat) (p : HPage) : State := { s with pages := tset {} i p s.pages }

/-- HMP_HELD: pages HELD. -/
def State.heldPages (s : State) : Nat := (s.pages.filter fun e => e.2.held).length

/-- HMP_FREE: pages free and unreserved. -/
def State.freePages (s : State) : Nat := s.pat.pages - s.heldPages

/-- After pages were taken: one event per fall of HMP_FREE below HMP_LOW (R172, Table 17.4 source 0x082). -/
def State.checkLow (s : State) : State :=
  let low := (s.reg 0xB000C).toNat
  if low ≠ 0 ∧ s.freePages < low then
    if s.lowArmed then ({ s with lowArmed := false }).post 0 (some 3) (s.evRec 0x082 0 (w32 s.freePages)) else s
  else { s with lowArmed := true }

/-- The lowest `n` free pages at or above `i`, searching `fuel` pages (which free page a reservation takes is the model's
choice, log 7). -/
def State.pickFree (s : State) : Nat → Nat → Nat → List Nat
  | 0, _, _ => []
  | _, _, 0 => []
  | fuel + 1, i, n + 1 => if (s.page i).held then s.pickFree fuel (i + 1) (n + 1) else i :: s.pickFree fuel (i + 1) n

/-- Allocate a page: the generation rises, it is HELD, one reference for the reserving unit (R163). -/
def State.allocPage (s : State) (i : Nat) : State :=
  s.setPage i { held := true, refs := 1, gen := ((s.page i).gen + 1) % 65536, fill := 0, next := none }

/-- Grant a whole reservation of `n` pages or refuse it, which HMP_REFUSED counts (R79, R164). -/
def State.reserve (s : State) (n : Nat) : State × Option (List Nat) :=
  if s.freePages < n then (s.bump 0xB0010, none)
  else
    let ps := s.pickFree s.pat.pages 0 n
    ((ps.foldl State.allocPage s).checkLow, some ps)

/-- Return a page to FREE, keeping its generation. -/
def State.freePage (s : State) (i : Nat) : State :=
  s.setPage i { (s.page i) with held := false, refs := 0, fill := 0, next := none }

/-- Return pages to FREE. -/
def State.freeAll (s : State) (ps : List Nat) : State := (ps.foldl State.freePage s).checkLow

/-- One reference less; FREE at zero (R166). -/
def State.dropRef (s : State) (i : Nat) : State :=
  let p := s.page i
  if p.refs ≤ 1 then s.freePage i else s.setPage i { p with refs := p.refs - 1 }

/-- A release of a page that is FREE, or with another generation, is a double release (R167): it changes nothing but
HMP_DFREE and HMP_LAST_DFREE. Answers whether class 21 is to be raised. -/
def State.releasePage (s : State) (consumer : Nat) (pg : Nat × Nat) : State × Bool :=
  let p := s.page pg.1
  if p.held && p.gen == pg.2 then ((s.dropRef pg.1).checkLow, false)
  else (({ s with lastDfree := mkWord [(0, pg.1), (24, consumer)] }).bump 0xB0014, true)

/-- Fill the pages of a committed unit: `bytes` over pages `ps`, references `refs` each, linked in order (R163, R166). -/
def State.fillPages (s : State) (refs : Nat) : Nat → List Nat → State
  | _, [] => s
  | bytes, p :: t =>
    let s := s.setPage p { (s.page p) with refs := refs, fill := min 16384 bytes, next := t.head? }
    s.fillPages refs (bytes - 16384) t

/-- Pages with their generations. -/
def State.withGens (s : State) (ps : List Nat) : List (Nat × Nat) := ps.map fun p => (p, (s.page p).gen)

end Sys2Proof.Machine
end

