-- ==== Sys2Proof/Machine/Terms.lean ====
section
/-!
DEFINITION. The scheduling terms of Table 4.1, live_floor (R82), the order in which tiles are taken (R84, R247) and the
wake costs of Table 4.3.
-/
namespace Sys2Proof.Machine

/-- Stitches in a second (R4). -/
def second : Nat := 1441440000

/-- Clock of quadrant `q` in MHz for an estimate: the clock in force, or the cap it starts with when stopped (R77, R379). -/
def State.clock (s : State) (q : Nat) : Nat :=
  let x := s.quad q
  max 1 (if x.mhz = 0 then tget 0 s.pat.caps q * 100 else x.mhz)

/-- c of Table 4.1 in fifths of a cycle per pixel: 6, 12, 24 by effort; 3 for decode. -/
def cFifths (cls : Nat) (c : Tbl Word) : Nat :=
  if cls = clsDecode then 3 else 6 * 2 ^ min 2 (fld (cget c 0x050) 1 0)

/-- Luma samples counted once, or twice for 4:4:4 (R77). -/
def samples444 (cls : Nat) (c : Tbl Word) (n : Nat) : Nat := if c444 cls c then 2 * n else n

/-- t_code or t_pic of an area on `g` tiles at `mhz`, rounded up (Table 4.1). -/
def tArea (cls : Nat) (c : Tbl Word) (area mhz g : Nat) : Nat :=
  ceilDiv (samples444 cls c area * cFifths cls c * second) (5 * mhz * 1000000 * max 1 g)

/-- t_band: P × L / H rounded up (Table 4.1). -/
def tBand (cls : Nat) (c : Tbl Word) : Nat := ceilDiv (cPeriod cls c * cBand c) (max 1 (cH cls c))

/-- Lines of band `k`: the nominal band, or the remainder for the last (R107). -/
def bandLines (cls : Nat) (c : Tbl Word) (k : Nat) : Nat := min (cBand c) (cH cls c - k * cBand c)

/-- t_code of a nominal LIVE band, or t_pic of a picture, at `mhz` on `g` tiles. -/
def tUnit (cls : Nat) (c : Tbl Word) (mhz g : Nat) : Nat :=
  if cls = clsLive then tArea cls c (cW cls c * cBand c) mhz 1
  else tArea cls c (cW cls c * cH cls c) mhz g

/-- In-service active tiles of panel `p` (R252: a tile in self-test is out of service). -/
def State.active (s : State) (p : Nat) : List Nat :=
  (upto s.nTiles).filter fun t => (s.tile t).role == .active && (s.tile t).panel == p

/-- Spares warm for panel `p`. -/
def State.spares (s : State) (p : Nat) : List Nat :=
  (upto s.nTiles).filter fun t => (s.tile t).role == .spare && (s.tile t).panel == p

/-- A tile has no work and can take some. -/
def Tile.idle (t : Tile) : Bool := t.work.isNone && t.power != .run

/-- Rank of R84: 0 napping, or running, since it naps at its commit (R87); 1 off with its PLL running; 2 in a stopped quadrant. -/
def State.wakeRank (s : State) (t : Nat) : Nat :=
  if (s.tile t).power != .off then 0 else if (s.quad (quadOf t)).pll then 1 else 2

/-- Wake cost of a tile (Table 4.3). -/
def State.wakeCost (s : State) (t : Nat) : Nat :=
  match s.wakeRank t with
  | 0 => 58
  | 1 => 17298
  | _ => 36094

/-- The first tile in R84's order among `ts`: lowest rank, then lowest number. -/
def State.pickTile (s : State) (ts : List Nat) : Option Nat :=
  let free := ts.filter fun t => (s.tile t).idle && !(s.tile t).retireReq
  match free.find? fun t => s.wakeRank t == 0 with
  | some t => some t
  | none => match free.find? fun t => s.wakeRank t == 1 with
    | some t => some t
    | none => free.head?

/-- Nearness of R247 to tile `f`: 0 same quadrant, 1 same die, 2 the other die. -/
def nearness (f t : Nat) : Nat :=
  if quadOf f = quadOf t then 0 else if dieOf (quadOf f) = dieOf (quadOf t) then 1 else 2

/-- The first of `ts` by nearness to `f`, then by number (R247). -/
def nearest (f : Nat) (ts : List Nat) : Option Nat :=
  match ts.find? fun t => nearness f t == 0 with
  | some t => some t
  | none => match ts.find? fun t => nearness f t == 1 with
    | some t => some t
    | none => ts.head?

/-- The tile the scheduler expects to use for panel `p` (Table 4.1 t_wake): the next in R84's order, or the panel's lowest
in-service tile when all are busy. -/
def State.candidate (s : State) (p : Nat) : Nat :=
  match s.pickTile (s.active p) with
  | some t => t
  | none => (s.active p).headD 0

/-- RUNNING LIVE sessions of panel `p`. -/
def State.liveRunning (s : State) (p : Nat) : List (Nat × Session) :=
  s.sessions.filter fun e => e.2.st == .running && e.2.cls == clsLive && e.2.panel == p

/-- live_floor of panel `p`: ceil(2 × Σ t_code × B / P) over its RUNNING LIVE sessions, exactly (R82). -/
def State.floorOf (s : State) (p : Nat) : Nat :=
  let mhz := s.clock (quadOf (s.candidate p))
  let sum := (s.liveRunning p).foldl (fun (a : Nat × Nat) e =>
      let c := e.2.cfg
      let per := max 1 (cPeriod clsLive c)
      (a.1 * per + tUnit clsLive c mhz 1 * cBands clsLive c * a.2, a.2 * per)) (0, 1)
  ceilDiv (2 * sum.1) sum.2

/-- Recompute live_floor of panel `p` into SCH_FLOORp (R82, R90); the busy field is read live. -/
def State.refloor (s : State) (p : Nat) : State :=
  if p < 16 then s.setReg (0x20040 + 4 * p) (w32 (min 63 (s.floorOf p))) else s

/-- live_floor of panel `p` as last computed. -/
def State.liveFloor (s : State) (p : Nat) : Nat := fld (s.reg (0x20040 + 4 * p)) 5 0

/-- Panel `p` holds a LIVE session that is not CLOSED. -/
def State.holdsLive (s : State) (p : Nat) : Bool :=
  s.sessions.any fun e => e.2.on p && e.2.cls == clsLive

/-- The hard cap of a configuration in bytes: RC_CAP, or min(ceil(B / 8), 16,777,216) for zero (R154); `bBits` is B. -/
def hardCap (c : Tbl Word) (bBits : Nat) : Nat :=
  let v := (cget c 0x114).toNat
  if v ≠ 0 then v else min (ceilDiv bBits 8) 16777216

end Sys2Proof.Machine
end

