-- ==== Sys2Proof/Machine/LineOps.lean ====
section
/-!
DEFINITION. Sending and routing clothesline frames (R357, R358) and failover notices (R366).
-/
namespace Sys2Proof.Machine

/-- Frame types (Table 18.2). -/
def ftPeg : Nat := 0x01
def ftPegReq : Nat := 0x02
def ftPegAck : Nat := 0x03
def ftPegNak : Nat := 0x04
def ftTimeSync : Nat := 0x10
def ftTimeResp : Nat := 0x11
def ftMigCtl : Nat := 0x20
def ftMigData : Nat := 0x21
def ftNote : Nat := 0x30
def ftAgg : Nat := 0x40
def ftPkt : Nat := 0x50

/-- Port codes: 0 LINE-UP, 1 LINE-DOWN, 2 LINE-TRUNK (LIN_STATUS.links). -/
def LinePort.code : LinePort → Nat
  | .up => 0 | .down => 1 | .trunk => 2

/-- Port `p`'s link layer. -/
def State.lport (s : State) (p : Nat) : LinePortSt := tget {} s.lin.ports p

/-- Write port `p`'s link layer. -/
def State.setLport (s : State) (p : Nat) (x : LinePortSt) : State :=
  { s with lin := { s.lin with ports := tset {} p x s.lin.ports } }

/-- Precedence of a frame type at a port (R357): TIME, NOTE, PEG, AGG, then MIG and PKT. -/
def framePrec (type : Nat) : Nat :=
  if type = ftTimeSync ∨ type = ftTimeResp then 0
  else if type = ftNote then 1
  else if type ≤ 4 then 2
  else if type = ftAgg then 3
  else 4

/-- A MIG frame. -/
def isMig (type : Nat) : Bool := type == ftMigCtl || type == ftMigData

/-- Put a frame on the wire: next sequence number, and a copy in the replay buffer (R357). -/
def State.txFrame (s : State) (p : Nat) (f : LFrame) : State :=
  let x := s.lport p
  (s.setLport p { x with
    txSeq := (x.txSeq + 1) % 65536
    replay := x.replay ++ [(x.txSeq, f)]
    lastMig := if framePrec f.type = 4 then isMig f.type else x.lastMig }).emit (.line p x.txSeq f)

/-- Send a frame through port `p` while its replay buffer has room, else it waits; a port whose link is down is the end of
the chain: the frame is dropped and counted in LIN_DROP (R358). -/
def State.sendFrame (s : State) (p : Nat) (f : LFrame) : State :=
  let x := s.lport p
  if !x.up then s.bump 0x90080
  else if x.replay.length < 64 ∧ x.wait.isEmpty then s.txFrame p f
  else s.setLport p { x with wait := x.wait ++ [f] }

/-- The next waiting frame by precedence; MIG and PKT take turns. -/
def nextWait (x : LinePortSt) : Option LFrame :=
  match x.wait.find? fun f => framePrec f.type == 0 with
  | some f => some f
  | none => match x.wait.find? fun f => framePrec f.type == 1 with
    | some f => some f
    | none => match x.wait.find? fun f => framePrec f.type == 2 with
      | some f => some f
      | none => match x.wait.find? fun f => framePrec f.type == 3 with
        | some f => some f
        | none => match x.wait.find? fun f => isMig f.type != x.lastMig with
          | some f => some f
          | none => x.wait.head?

/-- Send waiting frames while the replay buffer has room. -/
def State.drainWait (s : State) (p : Nat) : Nat → State
  | 0 => s
  | k + 1 =>
    let x := s.lport p
    if 64 ≤ x.replay.length then s
    else match nextWait x with
      | none => s
      | some f => ((s.setLport p { x with wait := x.wait.erase f }).txFrame p f).drainWait p k

/-- The device is a manager; it is the system head (LIN_CTL). -/
def Line.manager (l : Line) : Bool := nbit l.ctl 0
def Line.head (l : Line) : Bool := nbit l.ctl 1 && nbit l.ctl 0

/-- Line index of an address: 64 × trunk + line (R355). -/
def lineIdx (a : Nat) : Nat := a / 64 % 4096

/-- The port towards `dst` for a frame that this device originates (R358). -/
def Line.route (l : Line) (dst : Nat) : Nat :=
  if !l.manager then 0
  else if lineIdx dst = lineIdx l.addr then 1
  else if lineIdx l.addr < lineIdx dst then 2
  else 0

/-- Send a frame of this device to address `dst` (R358). -/
def State.sendTo (s : State) (type dst : Nat) (flags : Nat) (info : List Nat) (bulk : Option MigBulk := none) : State :=
  s.sendFrame (s.lin.route dst) {
    type := type, dst := dst, src := s.lin.addr, flags := flags, hops := 0, info := info, bulk := bulk }

/-- The detail word of a notice (R366). -/
def noteDetail (addr kind fig : Nat) : Word := mkWord [(0, addr), (20, kind), (24, min 255 fig)]

/-- A failover notice about address `a` (R366): to the manager of that device's line and to the system head; where this
device is the receiver, it posts pending source 2 itself. A device without an address sends none. -/
def State.note (s : State) (a kind fig : Nat) : State :=
  let d := noteDetail a kind fig
  let mgr := lineIdx a * 64
  let go (s : State) (dst : Nat) : State :=
    if s.lin.addr = dst then s.assertSrc 2 d 0 else s.sendTo ftNote dst 0 [d.toNat]
  if !s.lin.valid then s
  else
    let s := go s mgr
    if mgr = 0 then s else go s 0

end Sys2Proof.Machine
end

