-- ==== Sys2Proof/Machine/Tiles.lean ====
section
/-!
DEFINITION. What happens to a tile: its stores (R284, R287), its inbox (R321), the abandonment of its routine (R280 to
R282) and the units of work that it runs.
-/
namespace Sys2Proof.Machine

/-- BAR0 base of tile `t`'s window (R412). -/
def tileBase (t : Nat) : Nat := 0x200000 + 0x8000 * t

/-- A list as a sparse table from 0. -/
def tblOf (ws : List Word) : Tbl Word := ((List.range ws.length).zip ws).filter fun e => e.2 != 0

/-- The bytes of microwords as stored (R36). -/
def wordBytes (ws : List Word) : List Byte := (ws.map fun w => leBytes 4 w.toNat).flatten

/-- Placement of patch sections (R287): for each program of a set, its base and the section of its check value. -/
def Panel.sections (p : Panel) (secs : List PatchSection) : List (Nat × PatchSection) :=
  ((List.range p.progs.length).zip p.progs).filterMap fun e =>
    (secs.find? fun x => x.key == e.2.check).map fun x => (p.base e.1, x)

/-- Patch RAM words in use and redirect slots of a program set (R287). -/
def Panel.patchUse (p : Panel) (secs : List PatchSection) : Nat × Nat :=
  (p.sections secs).foldl (fun a e => (a.1 + e.2.words.length, a.2 + e.2.redirects.length)) (0, 0)

/-- A section that applies to a program of the set has a match at or beyond the program's words (R286). -/
def Panel.patchBad (p : Panel) (secs : List PatchSection) : Bool :=
  p.progs.any fun g => (secs.find? fun x => x.key == g.check).any fun x => x.redirects.any fun r => decide (g.words.length ≤ r.1)

/-- The redirect words of the applied sections: each match relocated by its program's base, each target by its section's
placement (R287, R289). -/
def redirWords (at_ : Nat) : List (Nat × PatchSection) → List Word
  | [] => []
  | (base, x) :: t =>
    (x.redirects.map fun r => mkWord [(0, (base + r.1) % 0x4000), (16, (at_ + r.2) % 0x1000), (31, 1)])
      ++ redirWords (at_ + x.words.length) t

/-- Load a tile's control store, patch RAM and redirect slots with the program set of panel `p` (R284, R287). -/
def State.loadTile (s : State) (pan : Panel) (t : Nat) : State :=
  let secs := if s.sec.patch.status = 1 then pan.sections s.sec.patch.sections else []
  let words := (secs.map fun e => e.2.words).flatten
  let reds := redirWords 0 secs
  s.setTile t { s.tile t with
    store := tblOf pan.words
    storeChk := crc32c (wordBytes pan.words)
    patch := tblOf words
    redir := tblOf reds
    patchId := if secs.isEmpty then 0 else s.sec.patch.serial
    patchSt := mkWord [(0, s.sec.patch.status), (2, words.length), (16, reds.length)] }

/-- Clear a tile's stores (R284). -/
def Tile.cleared (t : Tile) : Tile := { t with store := [], patch := [], redir := [], storeChk := 0, window := [] }

/-- Empty the inbox of tile `t` (R321): each queued entry counts as dropped, the flush is counted; an item in the middle
loses its remaining entries on arrival. A dispatch order removed is its unit's, which the tile does not yet run. -/
def State.flushInbox (s : State) (t : Nat) : State :=
  let x := s.tile t
  let s := s.setTile t { x with inbox := [], midItem := false }
  (s.bump (tileBase t + 0x108)).bump (tileBase t + 0x10C) x.inbox.length

/-- Change the picture `num` of a session, wherever it is held. -/
def Session.modPic (x : Session) (num : Nat) (f : Pic → Pic) : Session :=
  { x with pics := x.pics.map (fun p => if p.num = num then f p else p)
           kept := x.kept.map (fun p => if p.num = num then f p else p) }

/-- Picture `num` of a session: in progress, or kept for a re-code. -/
def Session.pic? (x : Session) (num : Nat) : Option Pic :=
  match x.pics.find? fun p => p.num == num with
  | some p => some p
  | none => x.kept.find? fun p => p.num == num

/-- Change unit `idx` of a picture. -/
def Pic.modUnit (p : Pic) (idx : Nat) (f : WUnit → WUnit) : Pic :=
  { p with units := p.units.map fun u => if u.idx = idx then f u else u }

/-- Unit `idx` of a picture. -/
def Pic.unit? (p : Pic) (idx : Nat) : Option WUnit := p.units.find? fun u => u.idx == idx

/-- Change a session. -/
def State.modSes (s : State) (n : Nat) (f : Session → Session) : State := s.setSes n (f (s.ses n))

/-- Change a tile. -/
def State.modTile (s : State) (n : Nat) (f : Tile → Tile) : State := s.setTile n (f (s.tile n))

/-- Change the unit that a reference names. -/
def State.modUnit (s : State) (u : UnitRef) (f : WUnit → WUnit) : State :=
  s.modSes u.ses fun x => x.modPic u.pic fun p => p.modUnit u.idx f

/-- The picture and unit that a reference names. -/
def State.unitOf (s : State) (u : UnitRef) : Option (Pic × WUnit) :=
  match (s.ses u.ses).pic? u.pic with
  | some p => (p.unit? u.idx).map fun w => (p, w)
  | none => none

/-- The tile naps after its work (R87); the needle is idle. -/
def Tile.rest (t : Tile) (now : Nat) : Tile :=
  { t with work := none, gang := [], power := .nap, since := now, abandon := 0,
           ndl := { t.ndl with state := 0, gpr := [], loops := [], issued := [] } }

/-- Stop the routine of tile `t` for cause `c` of Table 14.2 (R281): the boundary address and the cause are recorded,
registers, loops and staging are dropped, the packet FIFO is flushed and counted (R162), and for causes 2 and 3 the inbox
too (R321). The unit is not touched here. -/
def State.stopRoutine (s : State) (t c : Nat) : State :=
  let x := s.tile t
  let had := x.work.isSome
  let s := s.setTile t { x.rest s.now with
    ndl := { x.ndl with state := 0, gpr := [], loops := [], issued := [], committed := false,
                        lastAbandon := mkWord [(0, fld x.ndl.shown 14 0), (16, c)] } }
  let s := s.bump (tileBase t + 0x2014)
  let s := if had then s.bump 0xB0018 else s
  if c = 2 ∨ c = 3 then s.flushInbox t else s

/-- A patch move of a unit (R248): it goes back to the queue as a replay, counted in the fold and in DEP_MOVES. -/
def State.patchMove (s : State) (u : UnitRef) (t : Option Nat) : State :=
  let s := s.modUnit u fun w => { w with
    st := .ready, replay := true
    failedOn := match t with
      | some t => [t]
      | none => w.failedOn }
  ((s.modSes u.ses fun x => { x with patchMoves := min 0xFFFF (x.patchMoves + 1) }).bump 0xF0014).count 5 0

/-- An ARCHIVE abandonment (R85, R48): the picture returns to the queue from its rinse, every part that does not still run with it;
counted once, as the first of its parts ends. -/
def State.archiveBack (s : State) (u : UnitRef) : State :=
  match (s.ses u.ses).pic? u.pic with
  | none => s
  | some p =>
    let again := p.units.any fun v => v.idx != u.idx && v.st == .ready && !v.replay
    let s := s.modSes u.ses fun x => x.modPic u.pic fun p => { p with units := p.units.map fun w =>
      if w.idx = u.idx ∨ w.st = .parked then
        { w with st := .ready, replay := false, result := none, attempts := w.attempts - 1 }
      else { w with replay := w.replay && w.st == .running } }
    if again then s
    else (s.modSes u.ses fun x => { x with abandoned := min 0xFFFFFFFF (x.abandoned + 1) }).bump 0x20024

/-- The needle of tile `t` acts on the abandonment requests it holds (R281): the lowest code is recorded and all take
effect. A unit already committed is restarted by none (R282). -/
def State.abandonTile (s : State) (t : Nat) : State :=
  let x := s.tile t
  let m := x.abandon
  match (List.range 6).find? fun c => nbit m c with
  | none => s
  | some c =>
    let s := s.stopRoutine t c
    match x.work with
    | none => s
    | some u =>
      if x.ndl.committed then s
      else if nbit m 1 then s.modUnit u fun w => { w with st := .ready }
      else if nbit m 3 then s.patchMove u none
      else s.archiveBack u

/-- Ask tile `t` to abandon its routine for cause `c`. -/
def State.askAbandon (s : State) (c t : Nat) : State :=
  if (s.tile t).work.isSome || (s.tile t).role == .selfTest then
    s.modTile t fun x => { x with abandon := x.abandon ||| 2 ^ c, ndl := { x.ndl with state := 3 } }
  else s

/-- Tiles that serve panel `p`: active in it or spare warm for it. -/
def State.serving (s : State) (p : Nat) : List Nat :=
  (upto s.nTiles).filter fun t =>
    ((s.tile t).role == .active || (s.tile t).role == .spare) && (s.tile t).panel == p

/-- Panel of a unit. -/
def State.unitPanel (s : State) (u : UnitRef) : Nat := (s.ses u.ses).panel

/-- Some unit of panel `p` runs on a tile. -/
def State.inFlight (s : State) (p : Nat) : Bool :=
  (upto s.nTiles).any fun t => match (s.tile t).work with
    | some u => s.unitPanel u == p && !(s.tile t).ndl.committed
    | none => false

/-- The role that a ROLES entry gives a tile (Table 2.3): active, spare or unused, with the panel served or kept warm. -/
def roleOf (w : Word) : Role × Nat :=
  if fld w 6 4 = 1 then (.active, fld w 3 0) else if fld w 6 4 = 2 then (.spare, fld w 19 16) else (.unused, 0)

/-- Start a quadrant's PLL at a frequency in MHz (R379). -/
def State.startPll (s : State) (q mhz : Nat) : State :=
  s.setQuad q { s.quad q with pll := true, mhz := mhz, stepAt := none, coolAt := none }

/-- A tile takes its role from a pattern (R255): a retired tile stays retired and takes no role; a tile in self-test takes
it when the self-test ends (R253). -/
def Tile.withRole (t : Tile) (w : Word) (now : Nat) : Tile :=
  let r := roleOf w
  if t.role == .retired then { t with back := .unused }
  else if t.role == .selfTest then { t with back := r.1, panel := r.2, promoted := false }
  else if r.1 == .unused then { t with
    role := .unused, panel := 0, promoted := false, power := .off, since := if t.power == .off then t.since else now, work := none
    window := [] }
  else { t with role := r.1, panel := r.2, promoted := false, since := now,
                power := if t.power == .off then .nap else t.power }

/-- The quiet window of a press is open and its step 6 needs tile `t`: requests to power it off, or to stop its quadrant's PLL, are
held until the window closes (R51). -/
def State.pressNeeds (s : State) (t : Nat) : Bool :=
  s.ldr.busy && s.ldr.phase == 5 && (roleOf (tget 0 s.ldr.next.roles t)).1 != .unused &&
    nbit s.ldr.pressing (roleOf (tget 0 s.ldr.next.roles t)).2

/-- Step 6 of a press needs a tile of quadrant `q`. -/
def State.pressNeedsQuad (s : State) (q : Nat) : Bool := (upto s.nTiles).any fun t => quadOf t == q && s.pressNeeds t

end Sys2Proof.Machine
end

