-- ==== Sys2Proof/Machine/Faults.lean ====
section
/-!
DEFINITION. The fault collector (R262 to R269), the lint-trap triggers (R271, R272), the reactions of Table 13.2: SAFE
(R268, R365), retirement and promotion (R254), panel resets (R267).
-/
namespace Sys2Proof.Machine

/-- Scope of a fault class (Table 13.1). -/
inductive Scope where
  | device | tile | panel | reserved
deriving DecidableEq, Repr

/-- Scope of class `k`. -/
def scopeOf (k : Nat) : Scope :=
  if (8 ≤ k ∧ k ≤ 12) ∨ k = 20 then .tile
  else if k = 32 ∨ k = 33 then .panel
  else if k ≤ 7 ∨ k = 13 ∨ k = 14 ∨ (16 ≤ k ∧ k ≤ 30) ∨ (40 ≤ k ∧ k ≤ 43) then .device
  else .reserved

/-- Base level of class `k` (Table 13.1). -/
def baseOf (k : Nat) : Nat :=
  if k ≤ 4 then 4
  else if k = 5 ∨ k = 6 ∨ k = 12 ∨ k = 32 ∨ k = 33 then 3
  else if k = 25 ∨ k = 28 ∨ k = 29 then 0
  else if (8 ≤ k ∧ k ≤ 10) ∨ (16 ≤ k ∧ k ≤ 20) ∨ k = 22 ∨ (40 ≤ k ∧ k ≤ 43) then 1
  else 2

/-- Default N of class `k`; 0 where counting is off (Table 13.1). -/
def thrOf (k : Nat) : Nat :=
  if k = 8 ∨ k = 20 then 3
  else if 9 ≤ k ∧ k ≤ 11 then 2
  else if 16 ≤ k ∧ k ≤ 18 then 64
  else if k = 19 ∨ k = 23 then 16
  else if k = 22 ∨ (40 ≤ k ∧ k ≤ 43) then 255
  else 0

/-- Reset value of FLT_CFG of class `k` (R269, Table 13.1). -/
def fltCfgReset (k : Nat) : Word :=
  if scopeOf k = .reserved then 0
  else mkWord [(0, baseOf k), (3, if k ≤ 4 then 4 else 3), (7, 1), (8, if thrOf k = 0 then 255 else thrOf k)]

/-- Reset value of FLT_WINDOW of class `k`. -/
def fltWinReset (k : Nat) : Nat := if thrOf k = 0 then 0 else second

/-- FLT_CFG of class `k`. -/
def State.fltCfg (s : State) (k : Nat) : Word := tget (fltCfgReset k) s.flt.cfg k

/-- FLT_WINDOW of class `k`. -/
def State.fltWin (s : State) (k : Nat) : Nat := tget (fltWinReset k) s.flt.window k

/-- Counting state of a class and unit. -/
def State.fltUnit (s : State) (k u : Nat) : FltUnit := tget {} s.flt.units (k * 64 + u)

/-- An event after the collector has settled it. -/
structure Settled where
  cls : Nat
  unit : Nat
  lvl : Nat
  escalated : Bool
  counted : Bool
  detail : Word
  ses : Nat
deriving DecidableEq, Repr

/-- The unit of an event is within its class's scope (R263, FLT_INJECT). -/
def State.unitOk (s : State) (k u : Nat) : Bool :=
  match scopeOf k with
  | .device => u == 0
  | .tile => decide (u < s.nTiles)
  | .panel => decide (u < 16)
  | .reserved => false

/-- Settle one event of class `k`, unit `u` with count `n` (R263). -/
def State.settle (s : State) (e : FaultEv) : State × Settled :=
  let k := e.cls
  let u := e.unit
  let cfg := s.fltCfg k
  let win := s.fltWin k
  let x := s.fltUnit k u
  let x := if win = 0 then x
    else
      let x := if x.cnt = 0 ∨ win ≤ s.now - x.opened then { x with opened := s.now, cnt := 0 } else x
      { x with cnt := min (x.cnt + e.n) 255 }
  let base := fld cfg 2 0
  let counts := decide (win ≠ 0) && decide (fld cfg 15 8 ≤ x.cnt)
  let lvl1 := if counts then max base 3 else base
  let lvl := if x.unacked then max lvl1 (min (x.last + 1) (fld cfg 5 3)) else lvl1
  let esc := decide (lvl1 < lvl)
  let s := { s with flt := { s.flt with
      units := tset {} (k * 64 + u) { x with last := lvl, unacked := true } s.flt.units
      status := s.flt.status ||| BitVec.ofNat 64 (2 ^ k)
      aon := if 2 ≤ k ∧ k ≤ 4 then s.flt.aon ||| 2 ^ k else s.flt.aon } }
  (s, { cls := k, unit := u, lvl := lvl, escalated := esc, counted := counts && decide (base < 3), detail := e.detail, ses := e.ses })

/-- The layout of FLT_FIRST, bits 30:0 (R269), with the escalation and counting bits of R266. -/
def Settled.word (e : Settled) (flags : Bool) : Word :=
  mkWord [(0, e.cls), (8, e.lvl), (11, b2n (flags && e.escalated)), (12, b2n (flags && e.counted)), (16, e.unit)]

/-- FLT_FIRST takes the first event while valid is clear (R264). -/
def State.recordFirst (s : State) (e : Settled) : State :=
  if bit s.flt.firstWord 31 then s
  else
    let w := e.word false ||| 0x80000000
    { s with flt := { s.flt with firstDetail := e.detail, firstTime := s.now, firstWord := w } }

/-- An event precedes another in R264's order: the higher level, then the lower class. -/
def Settled.before (a b : Settled) : Bool := decide (b.lvl < a.lvl) || (a.lvl == b.lvl && decide (a.cls ≤ b.cls))

/-- Insert an event in R264's order. -/
def insSettled (e : Settled) : List Settled → List Settled
  | [] => [e]
  | h :: t => if e.before h then e :: h :: t else h :: insSettled e t

/-- Register of LNT_TRIGn. -/
def trigReg (n : Nat) : Nat := 0x50040 + 4 * n

/-- Queue a lint trigger (R271): a frozen trap or a full queue counts it as missed; behind a fatal trigger it is missed. -/
def State.lintPush (s : State) (t : LintTrig) : State :=
  if s.lnt.frozen ∨ 4 ≤ s.lnt.queue.length ∨ (s.lnt.queue.any fun q => q.fatal) then s.bump 0x50008
  else { s with lnt := { s.lnt with queue := s.lnt.queue ++ [t] } }

/-- The unit field of an entry's trigger word (Table 13.3). -/
def lintUnit (k u : Nat) : Nat := if scopeOf k = .device then 127 else u

/-- The enabled slots that match a fault event (R274). -/
def State.faultSlots (s : State) (e : Settled) : List Nat :=
  (upto 16).filter fun n =>
    let w := s.reg (trigReg n)
    bit w 0 && decide (fld w 10 8 ≤ e.lvl) &&
      (fld w 3 2 == 0 || (fld w 3 2 == 1 && fld w 17 12 == e.cls))

/-- A slot fires: `once` clears its enable (R271). -/
def State.fireSlot (s : State) (n : Nat) : State :=
  let w := s.reg (trigReg n)
  if bit w 1 then s.setReg (trigReg n) (w &&& 0xFFFFFFFE) else s

/-- The lint triggers of a fault event (R271, R272): every matching slot; the first fatal event since reset always records
one entry, by its lowest matching slot, or by slot 0 and set 0 with bit 6 set. -/
def State.lintFault (s : State) (e : Settled) : State :=
  let slots := s.faultSlots e
  let word (n extra : Nat) : Word :=
    mkWord [(0, n), (6, extra), (8, e.cls), (16, e.lvl), (24, lintUnit e.cls e.unit)]
  let mk (s : State) (n : Nat) : LintTrig := { trig := word n 0, time := s.now, set := fld (s.reg (trigReg n)) 19 18 }
  if e.lvl = 4 ∧ ¬ s.lnt.fatalSeen then
    let f : LintTrig := match slots.head? with
      | some n => { mk s n with fatal := true }
      | none => { trig := word 0 1, time := s.now, set := 0, fatal := true }
    let s := match slots.head? with
      | some n => s.fireSlot n
      | none => s
    let s := { s with lnt := { s.lnt with fatalSeen := true, queue := s.lnt.queue ++ [f] } }
    slots.tail.foldl (fun s n => (s.lintPush (mk s n)).fireSlot n) s
  else slots.foldl (fun s n => (s.lintPush (mk s n)).fireSlot n) s

/-- Signalling of Table 13.2: always at levels 3 and 4; sig_low gates levels 0 and 1, sig_deg level 2 (R266). -/
def State.signal (s : State) (e : Settled) : State :=
  let cfg := s.fltCfg e.cls
  if 3 ≤ e.lvl ∨ (e.lvl = 2 ∧ bit cfg 7) ∨ (e.lvl < 2 ∧ bit cfg 6) then s.assertSrc 0 (e.word true) e.ses else s

/-- A session enters MIGRATING as a source (R59, R70). -/
def State.toMigrating (s : State) (n : Nat) (auto : Bool) : State :=
  let x := s.ses n
  let s := s.setSes n { x with
    st := .migrating, prior := x.st, migFailed := false
    mig := some { out := true, peer := fld x.migrate 17 0, peerSes := fld x.migrate 29 18, started := s.now, auto := auto } }
  s.publish n

/-- Members of the group of session `n`, in ascending number, that are not CLOSED (R64). -/
def State.members (s : State) (n : Nat) : List Nat :=
  let x := s.ses n
  (s.sessions.filter fun e => e.2.member && e.2.groupNo == x.groupNo && e.2.st != .closed).map (·.1)

/-- MIGRATE_OUT of session `n`; of rank 0, every member with it, whatever its state (R65). -/
def State.migrateOut (s : State) (n : Nat) (auto : Bool) : State :=
  let x := s.ses n
  if x.member then
    (s.members n).foldl (fun s m =>
      if (s.ses m).st == .migrating then s else s.toMigrating m auto) s
  else s.toMigrating n auto

/-- Sessions that the W9 migrates away on entering SAFE, ascending (R365). -/
def State.safeSessions (s : State) : List Nat :=
  (s.sessions.filter fun e =>
    (e.2.st == .running || e.2.st == .paused) && !e.2.lower && fld e.2.migrate 17 0 != 0
      && !(s.lin.valid && fld e.2.migrate 17 0 == s.lin.addr)).map (·.1)

/-- Notice kinds 1 and 7 once the SAFE migrations have ended (R365, R366). -/
def State.safeNotice (s : State) : State :=
  let s := s.note s.lin.addr 1 s.lin.safeMoved
  if s.lin.safeFailed = 0 then s else s.note s.lin.addr 7 s.lin.safeFailed

/-- Enter SAFE (R268): every tile's work ends at its next boundary without commit, a press or load ends without rollback
(R51), and the sessions armed for it migrate away (R365). -/
def State.enterSafe (s : State) : State :=
  let s := { s with
    pwr := { s.pwr with safe := true, standbyPend := false }
    ldr := { s.ldr with busy := false, phase := 0, pressing := 0, clearing := false }
    resetting := 0 }
  let s := (upto s.nTiles).foldl (fun s t => s.askAbandon 1 t) s
  let l := s.safeSessions
  let s := { s with lin := { s.lin with safeLeft := l, safeMoved := 0, safeFailed := 0 } }
  let s := l.foldl (fun s n => s.migrateOut n true) s
  if l.isEmpty then s.safeNotice else s

/-- The reaction of a device-scope event (Table 13.2): class 5 at level 3 resets the control cores; level 4 enters SAFE. -/
def State.reactDev (s : State) (e : Settled) : State :=
  if e.lvl = 4 then
    if s.pwr.safe ∨ s.pwr.life ≠ .up then s else s.enterSafe
  else if e.lvl = 3 ∧ e.cls = 5 then { s with sec := { s.sec with reloading := true } }
  else s

/-- Raise a device-scope event. -/
def State.raiseDev (s : State) (k : Nat) (detail : Word := 0) (ses : Nat := 0) : State :=
  let r := s.settle { cls := k, unit := 0, n := 1, detail := detail, ses := ses }
  let e := r.2
  (((r.1.recordFirst e).lintFault e).signal e).reactDev e

/-- Promote spare `t` to an active member (R254). -/
def State.promote (s : State) (t : Nat) : State :=
  ((s.modTile t fun x => { x with role := .active, promoted := true }).bump 0xF002C)

/-- After a retirement or promotion: class 14 when no warm spare is left for a panel with LIVE sessions, and live_floor
recomputed (R254). -/
def State.spareCheck (s : State) (p : Nat) : State :=
  let s := s.refloor p
  if (s.spares p).isEmpty && s.holdsLive p then s.raiseDev 14 else s

/-- Retire tile `t` (R254): powered off; for an active tile the nearest warm spare is promoted at once, a napping one before one
that is off (DEDUCED, log 40), or a busy one at the commit of its replay, which the retired tile's `back` remembers. -/
def State.retireTile (s : State) (t : Nat) : State :=
  let x := s.tile t
  if x.role == .retired || x.role == .unused then s
  else
    let s := match x.work with
      | some u =>
        let s := s.stopRoutine t 2
        if x.ndl.committed then s else s.patchMove u (some t)
      | none => s
    let was := if x.role == .selfTest then x.back else x.role
    let s := s.modTile t fun y => { y with
      role := .retired, back := .unused, promoted := false, power := .off, since := s.now, work := none, retireReq := false,
      retest := false, window := [], inbox := [], midItem := false, ndl := { y.ndl with state := 5 } }
    let s := s.bump 0xF0028
    if was == .active then
      let sp := s.spares x.panel
      let free := sp.filter fun k => (s.tile k).idle
      match (nearest t (free.filter fun k => (s.tile k).power == .nap)).orElse fun _ => nearest t free with
      | some k => (s.promote k).spareCheck x.panel
      | none =>
        if sp.isEmpty then s.spareCheck x.panel
        else (s.modTile t fun y => { y with back := .active }).refloor x.panel
    else s.spareCheck x.panel

/-- A spare's replay has committed: it takes the place of a retired tile that still waits for a promotion (R254). -/
def State.latePromotion (s : State) (k : Nat) : State :=
  let x := s.tile k
  if x.role != .spare then s
  else match (upto s.nTiles).find? fun t => (s.tile t).role == .retired && (s.tile t).back == .active && (s.tile t).panel == x.panel with
    | some t => ((s.modTile t fun y => { y with back := .unused }).promote k).spareCheck x.panel
    | none => s

/-- Start a panel reset (R267): admission and dispatch stop, units in flight are asked to abandon. A second one during
the reset starts nothing. A press of the panel has rolled back before. -/
def State.panelReset (s : State) (p : Nat) : State :=
  if nbit s.resetting p then s
  else
    let s := { s with resetting := s.resetting ||| 2 ^ p }
    (upto s.nTiles).foldl (fun s t => match (s.tile t).work with
      | some u => if s.unitPanel u = p then s.askAbandon 3 t else s
      | none => s) s

/-- The loader's done event (R44): source 0x080 with the reject code. -/
def State.postLoader (s : State) (reject : Nat) : State :=
  s.post 0 (some 1) (s.evRec 0x080 (if reject = 0 then 1 else 2) (w32 reject))

/-- The loader ends with a reject code and posts it (R44, R428). -/
def State.loaderEnd (s : State) (reject : Nat) : State :=
  ({ s with ldr := { s.ldr with busy := false, phase := 0, pressing := 0, reject := reject, image := [] } }).postLoader reject

/-- Roll a press back (R50): the earlier tile set and program sets return, reject code 0x10, PAT_SERIAL unchanged. -/
def State.rollBack (s : State) (reject : Nat) : State :=
  let mask := s.ldr.pressing
  let s :=
    if s.ldr.phase = 5 then
      let s := s.ldr.rollTiles.foldl (fun s e => s.modTile e.1 fun x =>
        if x.role == .retired || x.role == .selfTest then x
        else { x with
          role := (if e.2.1 = 1 then .active else if e.2.1 = 2 then .spare else .unused)
          panel := e.2.2.1, promoted := e.2.2.2
          power := if e.2.1 = 0 then .off else if x.power == .off then .nap else x.power }) s
      (upto 16).foldl (fun s p => if nbit mask p then
          (s.serving p).foldl (fun s t => s.loadTile (s.panel p) t) s else s) s
    else s
  s.loaderEnd reject

/-- The reaction of an event by scope and level (Table 13.2). -/
def State.react (s : State) (e : Settled) : State :=
  match scopeOf e.cls with
  | .tile => if e.lvl = 3 then s.retireTile e.unit else s
  | .panel =>
    if e.lvl = 3 then
      let s := if nbit s.ldr.pressing e.unit && !nbit s.resetting e.unit then s.rollBack 0x10 else s
      s.panelReset e.unit
    else s
  | _ => s.reactDev e

/-- Events of one class and one unit in a HUB cycle form one event, with the sum of their counts (R263). -/
def mergeEvs : List FaultEv → List FaultEv → List FaultEv
  | acc, [] => acc
  | acc, e :: t =>
    if acc.any fun a => a.cls == e.cls && a.unit == e.unit then
      mergeEvs (acc.map fun a => if a.cls = e.cls ∧ a.unit = e.unit then { a with n := a.n + e.n } else a) t
    else mergeEvs (acc ++ [e]) t

/-- The collector settles the events of one HUB cycle (R263 to R266): all latch; FLT_FIRST takes the first in R264's order;
triggers, signals and reactions follow in that order. Reserved classes and units out of scope never latch (R262). -/
def State.collect (s : State) (evs : List FaultEv) : State :=
  let r := (mergeEvs [] evs).foldl (fun (a : State × List Settled) e =>
      if a.1.unitOk e.cls e.unit then
        let b := a.1.settle e
        (b.1, insSettled b.2 a.2)
      else a) (s, [])
  let s := match r.2 with
    | [] => r.1
    | e :: _ => r.1.recordFirst e
  let s := r.2.foldl (fun s e => s.lintFault e) s
  r.2.foldl (fun s e => (s.signal e).react e) s

/-- Raise one event. -/
def State.raise (s : State) (k u : Nat) (detail : Word := 0) (ses : Nat := 0) : State :=
  s.collect [{ cls := k, unit := u, n := 1, detail := detail, ses := ses }]

end Sys2Proof.Machine
end

