-- ==== Sys2Proof/Machine/Operands.lean ====
section
/-!
DEFINITION. The operand forms that the W9 reads from rings and flow tables: the source descriptor (R93, R95), the hint
descriptor (R113, R117), the chunk descriptor (R176, R179), ingest and egress flow entries (R203, R208), each with the
tests that the rules put on it.
-/
namespace Sys2Proof.Machine

/-- The code of the first test that fails (R427, R429); `none` when all pass. -/
def firstFail : List (Bool × Nat) → Option Nat
  | [] => none
  | (ok, c) :: t => if ok then firstFail t else some c

/-- The owner bit of a 64-byte ring entry (R66): bit 7 of byte 63. -/
def ownerBit (e : List Byte) : Bool := (e.getD 63 0).getLsbD 7

/-- A source descriptor (Table 5.2). -/
structure SrcDesc where
  addr : List Nat
  stride : List Int
  pts : Nat
  deadline : Nat
  ready : Nat
  flags : Nat
deriving DecidableEq, Repr

/-- Read a source descriptor (Table 5.2). -/
def srcDesc (e : List Byte) : SrcDesc where
  addr := [leAt e 0x00 8, leAt e 0x08 8, leAt e 0x10 8]
  stride := [leAtI e 0x18 4, leAtI e 0x1C 4, leAtI e 0x20 4]
  pts := leAt e 0x24 8
  deadline := leAt e 0x2C 8
  ready := leAt e 0x34 8
  flags := leAt e 0x3C 4

/-- Fields of the flags word (Table 5.3). -/
def SrcDesc.space (d : SrcDesc) : Nat := nfld d.flags 1 0
def SrcDesc.forceKey (d : SrcDesc) : Bool := nbit d.flags 2
def SrcDesc.cut (d : SrcDesc) : Bool := nbit d.flags 3
def SrcDesc.noHint (d : SrcDesc) : Bool := nbit d.flags 4
def SrcDesc.rep (d : SrcDesc) : Bool := nbit d.flags 5

/-- Planes of a source format: line bytes and lines (Table 5.1). -/
def srcPlanes (fmt w h : Nat) : List (Nat × Nat) :=
  if fmt = 0 then [(w, h), (w, h / 2)]
  else if fmt = 1 then [(2 * w, h), (2 * w, h / 2)]
  else if fmt = 2 then [(w, h), (w, h), (w, h)]
  else if fmt = 3 then [(2 * w, h), (2 * w, h), (2 * w, h)]
  else if fmt = 4 ∨ fmt = 5 then [(4 * w, h)]
  else []

/-- Extent of a plane (R95, R310): a negative stride lies below the plane address. -/
def planeExtent (addr : Nat) (stride : Int) (lineBytes lines : Nat) : Int × Int :=
  let reach := stride * ((lines : Int) - 1)
  ((addr : Int) + min 0 reach, (addr : Int) + max 0 reach + (lineBytes : Int))

/-- An address and stride of a plane satisfy R91. -/
def planeAligned (addr : Nat) (stride : Int) (lineBytes : Nat) : Bool :=
  addr % 64 == 0 && stride % 64 == 0 && decide (lineBytes ≤ stride.natAbs)

/-- The descriptor is well formed for format `fmt` at `w` × `h` (R95). A format without planes needs space 2 (DEDUCED,
log 30). -/
def State.srcOk (s : State) (own cls fmt w h : Nat) (d : SrcDesc) : Bool :=
  let ps := srcPlanes fmt w h
  let at_ (i : Nat) := d.addr.getD i 0
  let st (i : Nat) := d.stride.getD i 0
  let used (i : Nat) := decide (i < ps.length)
  nfld d.flags 30 6 == 0 && d.space != 3 && (cls == clsLive || d.ready == 0) &&
  (if d.space = 2 then ps.isEmpty && [0, 1, 2].all fun i => at_ i == 0 && st i == 0
   else !ps.isEmpty && [0, 1, 2].all fun i =>
     let p := ps.getD i (0, 0)
     if used i then
       at_ i != 0 && planeAligned (at_ i) (st i) p.1 &&
         (d.space != 1 ||
           let x := planeExtent (at_ i) (st i) p.1 p.2
           s.inRegion own x.1 x.2)
     else at_ i == 0 && st i == 0)

/-- A hint descriptor (Table 6.1). -/
structure HintDesc where
  vaddr : Nat
  aaddr : Nat
  vstride : Int
  astride : Int
  fmt : Nat
  jx : Int
  jy : Int
  pts : Nat
  flags : Nat
deriving DecidableEq, Repr

/-- Read a hint descriptor (Table 6.1). -/
def hintDesc (e : List Byte) : HintDesc where
  vaddr := leAt e 0x00 8
  aaddr := leAt e 0x08 8
  vstride := leAtI e 0x10 4
  astride := leAtI e 0x14 4
  fmt := leAt e 0x18 4
  jx := leAtI e 0x1C 2
  jy := leAtI e 0x1E 2
  pts := leAt e 0x20 8
  flags := leAt e 0x3C 4

/-- Fields of the fmt word (Table 6.2). -/
def HintDesc.vfmt (d : HintDesc) : Nat := nfld d.fmt 1 0
def HintDesc.grid (d : HintDesc) : Nat := nfld d.fmt 4 2
def HintDesc.space (d : HintDesc) : Nat := nfld d.fmt 13 12

/-- The hint descriptor is well formed for a `w` × `h` picture whose source has `pts` (R117). -/
def State.hintOk (s : State) (own w h pts : Nat) (e : List Byte) : Bool :=
  let d := hintDesc e
  let ew := ceilDiv w (2 ^ d.grid)
  let eh := ceilDiv h (2 ^ d.grid)
  let plane (addr : Nat) (stride : Int) (line : Nat) : Bool :=
    planeAligned addr stride line &&
      (d.space != 1 ||
        let x := planeExtent addr stride line eh
        s.inRegion own x.1 x.2)
  d.vfmt != 3 && decide (d.grid ≤ 4) && decide (d.space ≤ 1) && nfld d.fmt 31 14 == 0 &&
  zerosAt e 0x28 20 && nfld d.flags 30 0 == 0 && d.pts == pts &&
  d.vaddr != 0 && plane d.vaddr d.vstride (4 * ew) &&
  (if d.aaddr = 0 then d.astride == 0 else plane d.aaddr d.astride ew)

/-- A chunk descriptor (Table 9.2). -/
structure Chunk where
  addr : Nat
  length : Nat
  pts : Nat
  deadline : Nat
  flags : Nat
deriving DecidableEq, Repr

/-- Read a chunk descriptor (Table 9.2). -/
def chunkDesc (e : List Byte) : Chunk where
  addr := leAt e 0x00 8
  length := leAt e 0x08 4
  pts := leAt e 0x10 8
  deadline := leAt e 0x18 8
  flags := leAt e 0x3C 4

def Chunk.space (c : Chunk) : Nat := nfld c.flags 1 0
def Chunk.auEnd (c : Chunk) : Bool := nbit c.flags 2
def Chunk.discont (c : Chunk) : Bool := nbit c.flags 3

/-- The chunk is well formed (R179); a length above 16,777,215 is beyond the field's range (Table 9.2). -/
def State.chunkOk (s : State) (own : Nat) (e : List Byte) : Bool :=
  let c := chunkDesc e
  zerosAt e 0x0C 4 && zerosAt e 0x20 28 && nfld c.flags 30 4 == 0 && decide (c.space ≤ 1) && c.length != 0 &&
  decide (c.length ≤ 16777215) &&
  (c.space != 1 || s.inRegion own c.addr (c.addr + c.length : Nat))

/-- An egress flow entry has legal fields (Table 10.5). -/
def egressOk (e : List Byte) : Bool :=
  nfld (leAt e 0x08 1) 7 5 == 0 && nfld (leAt e 0x09 1) 7 6 == 0 && leAt e 0x0A 1 != 0 &&
  decide (96 ≤ leAt e 0x0B 1) && decide (leAt e 0x0B 1 ≤ 127) &&
  (nbit (leAt e 0x08 1) 0 || zerosAt e 0x10 12) &&
  leAt e 0x1C 2 != 0 && leAt e 0x1E 2 != 0 && decide (leAt e 0x26 1 ≤ 1) &&
  (leAt e 0x27 1 == 0xFF || (decide (leAt e 0x27 1 ≤ 1) && leAt e 0x27 1 != leAt e 0x26 1)) &&
  decide (leAt e 0x2C 2 ≤ 8191) && (leAt e 0x2E 2 == 0xFFFF || decide (leAt e 0x2E 2 ≤ 8191)) && zerosAt e 0x30 16

/-- Fields of an egress flow entry. -/
def flIp6 (e : List Byte) : Bool := nbit (leAt e 0x08 1) 0
def flSrtp (e : List Byte) : Bool := nbit (leAt e 0x08 1) 2
def flAggregate (e : List Byte) : Bool := nbit (leAt e 0x08 1) 4
def flSeqInit (e : List Byte) : Nat := leAt e 0x24 2
def flPrimary (e : List Byte) : Nat := leAt e 0x26 1
def flBackup (e : List Byte) : Nat := leAt e 0x27 1
def flTsOffset (e : List Byte) : Nat := leAt e 0x28 4
def flKeySlot (e : List Byte) : Nat := leAt e 0x2C 2
def flNextSlot (e : List Byte) : Nat := leAt e 0x2E 2

/-- Replace `n` bytes at `off` of an entry. -/
def putBytes (e : List Byte) (off : Nat) (bs : List Byte) : List Byte :=
  e.take off ++ bs ++ e.drop (off + bs.length)

/-- An ingest flow entry has legal fields (Table 10.3). -/
def ingestOk (e : List Byte) : Bool :=
  let flags := leAt e 0x13 1
  (nbit flags 1 || zerosAt e 0x04 12) && leAt e 0x10 2 != 0 &&
  decide (96 ≤ leAt e 0x12 1) && decide (leAt e 0x12 1 ≤ 127) && nfld flags 7 4 == 0 &&
  nfld (leAt e 0x18 2) 15 12 == 0 && decide (leAt e 0x1A 1 ≤ 5) &&
  decide (2 ≤ leAt e 0x1B 1) && decide (leAt e 0x1B 1 ≤ 4) && zerosAt e 0x1C 36

/-- Fields of an ingest flow entry. -/
def inEnable (e : List Byte) : Bool := nbit (leAt e 0x13 1) 0
def inIp6 (e : List Byte) : Bool := nbit (leAt e 0x13 1) 1
def inPort (e : List Byte) : Nat := b2n (nbit (leAt e 0x13 1) 2)
def inCheckSsrc (e : List Byte) : Bool := nbit (leAt e 0x13 1) 3
def inUdp (e : List Byte) : Nat := leAt e 0x10 2
def inPt (e : List Byte) : Nat := leAt e 0x12 1
def inSsrc (e : List Byte) : Nat := leAt e 0x14 4
def inSes (e : List Byte) : Nat := leAt e 0x18 2 % 4096
def inSampling (e : List Byte) : Nat := leAt e 0x1A 1
def inDepth (e : List Byte) : Nat := leAt e 0x1B 1

/-- Bytes and pixels of a pgroup (Table 10.4). -/
def pgroup (sampling : Nat) : Nat × Nat :=
  if sampling = 0 then (4, 2)
  else if sampling = 1 then (5, 2)
  else if sampling = 2 ∨ sampling = 4 then (3, 1)
  else (15, 4)

end Sys2Proof.Machine
end

