-- ==== Sys2Proof/Machine/Validate.lean ====
section
/-!
DEFINITION. What CONFIGURE checks (R60, R429): each staged register's range, the panel's permissions, the rules that join
registers (R103, R107, R110, R131, R137, R138, R147, R172, R181, R196, R211, R218, R222, R229, R234, R342) and the
sibling-group rules (R64, R98, R99); and the rate terms that the checks share with rate control (R135, R138, R154).
-/
namespace Sys2Proof.Machine

/-- The largest gang that panel `p` of pattern `pat` declares, or 1 (R86, R147). -/
def maxGang (pat : Pattern) (p : Nat) : Nat :=
  pat.roles.foldl (fun g e =>
    if fld e.2 6 4 = 1 ∧ fld e.2 3 0 = p then max g (2 ^ fld e.2 9 8) else g) 1

/-- Program entries of a panel that hold codec, direction and profile bit. -/
def Panel.holds (p : Panel) (codec : Nat) (dec : Bool) (profile : Nat) : Bool :=
  p.progs.any fun g => g.codec == codec && g.decode == dec && nbit g.profiles profile

/-- m of R147 in bytes: `bands` headers and every CTU at the intra bound. -/
def minBytes (cls : Nat) (c : Tbl Word) (gang : Nat) : Nat :=
  let b := tbBounds c
  let bands := if cls = clsLive then cBands cls c else gang
  4096 + bands * b.2.2 + ceilDiv (ctuCols cls c * ctuRows cls c * b.2.1) 8

/-- A level carries the picture size, the sample rate, the rates and the buffer given (R110, R138), and in mode 3 a picture
of `m` bytes. -/
def carries (l : Config.LevelLimits) (area period : Nat) (rates : List Nat) (buf m : Nat) (mode : Nat) : Bool :=
  decide (area ≤ l.picSize) && decide (area * second ≤ l.sampleRate * period) && (rates.all fun r => decide (r ≤ l.rate)) &&
    decide (buf ≤ l.buffer) && (mode != 3 || match l.codedPic with
      | some n => decide (8 * m ≤ n)
      | none => true)

/-- The rates and the buffer that the configuration gives explicitly (R138). -/
def givenRates (c : Tbl Word) : List Nat × Nat :=
  let mode := rcMode c
  let rate := (cget c 0x104).toNat
  let mx := (cget c 0x108).toNat
  let buf := (cget c 0x10C).toNat
  if mode = 0 then ([rate], buf)
  else if mode = 1 then ([rate, mx], buf)
  else if mode = 2 then ([mx], buf)
  else ([], 0)

/-- The level chosen, as ENC_CODEC.level numbers it (R110, R138): `none` refuses the configuration, `some none` is the unconstrained
level. With tier 1 the levels below 4 define no High tier and are passed over. -/
def levelNo (cls : Nat) (c : Tbl Word) (m : Nat) : Option (Option Nat) :=
  let codec := fld (cget c 0x040) 2 0
  let lvl := fld (cget c 0x040) 15 8
  let high := bit (cget c 0x040) 16
  let g := givenRates c
  let fits (n : Nat) : Bool := !(high && decide (n < 40)) && match Config.level codec high n with
    | some l => carries l (cW cls c * cH cls c) (max 1 (cPeriod cls c)) g.1 g.2 m (rcMode c)
    | none => false
  if lvl = 255 then if codec = 1 then none else some none
  else if lvl = 0 then
    match (upto (if codec = 3 then 64 else 63)).find? fits with
    | some n => some (some n)
    | none => if codec = 1 then none else some none
  else if fits lvl then some (some lvl) else none

/-- The limits of the level chosen (R110, R138). -/
def levelOf (cls : Nat) (c : Tbl Word) (m : Nat) : Option (Option Config.LevelLimits) :=
  (levelNo cls c m).map fun n => n.bind fun n => Config.level (fld (cget c 0x040) 2 0) (bit (cget c 0x040) 16) n

/-- The terms of the buffer model and the caps (R135, R138, R140, R147, R154). Fullness and buffer are in units of
1/1,441,440,000 bit. -/
structure RateTerms where
  mode : Nat
  /-- r in bit/s; 0 in mode 3. -/
  r : Nat
  /-- r_pic and B, in 1/1,441,440,000 bit. -/
  rPic : Nat
  b : Nat
  f0 : Nat
  /-- Hard cap in bytes. -/
  cap : Nat
  /-- m of R147 in bytes. -/
  m : Nat
  /-- Largest coded picture in bits of the level, where the codec defines one. -/
  levelPic : Option Nat
  period : Nat
deriving DecidableEq, Repr

/-- Derive the terms for a level (R138, R154). -/
def rateTerms (cls : Nat) (c : Tbl Word) (gang : Nat) (lim : Option Config.LevelLimits) : RateTerms :=
  let mode := rcMode c
  let period := cPeriod cls c
  let mx := (cget c 0x108).toNat
  let top := match lim with
    | some l => l.rate
    | none => Config.unconstrainedRate (fld (cget c 0x040) 2 0)
  let r := if mode = 0 then (cget c 0x104).toNat else if mode = 3 then 0 else if mx ≠ 0 then mx else top
  let rPic := r * period
  let buf := (cget c 0x10C).toNat
  let d := if cls = clsLive then 2 * rPic else r * second
  let b := if mode = 3 then 0
    else if buf ≠ 0 then buf * second
    else match lim with
      | some l => min d (l.buffer * second)
      | none => d
  let init := (cget c 0x110).toNat
  { mode := mode, r := r, rPic := rPic, b := b, f0 := if init = 0 then b else r * init,
    cap := hardCap c (ceilDiv b second), m := minBytes cls c gang,
    levelPic := lim.bind fun l => l.codedPic, period := period }

/-- The terms of a configuration that passed CONFIGURE; an unsuitable level, which CONFIGURE refuses, counts as
unconstrained. -/
def termsOf (cls : Nat) (c : Tbl Word) (gang : Nat) : RateTerms :=
  rateTerms cls c gang ((levelOf cls c (minBytes cls c gang)).getD none)

/-- Signed 4- and 6-bit fields within ± `n`. -/
def within (v bits n : Nat) : Bool := decide ((sFld v bits).natAbs ≤ n)

/-- The panel's tools and format tests of ENC registers 0x040 to 0x094, in offset order (R112, R429). -/
def encTests (cls : Nat) (c : Tbl Word) (pan : Panel) : List (Bool × Nat) :=
  let w (o : Nat) := cget c o
  let codec := fld (w 0x040) 2 0
  let profile := fld (w 0x040) 7 4
  let wd := fld (w 0x044) 13 0
  let ht := fld (w 0x044) 29 16
  let eff := fld (w 0x050) 1 0
  let ctu := ctuSize c
  let bl := fld (w 0x054) 8 0
  let refs := fld (w 0x058) 19 16
  let reo := fld (w 0x058) 22 20
  let la := fld (w 0x058) 29 24
  let size (n : Nat) : Bool := decide (64 ≤ n) && decide (n ≤ 8192) && n % 2 == 0
  [(decide (1 ≤ codec) && decide (codec ≤ 4) && decide (profile < if codec ≤ 2 then 4 else 2) &&
      (codec != 1 || !bit (w 0x040) 16), 1),
   (pan.holds codec false profile, 2),
   (size wd && size ht, 1), (decide (wd ≤ pan.maxW) && decide (ht ≤ pan.maxH), 2),
   (decide (fld (w 0x048) 3 0 ≤ 6) && decide (fld (w 0x048) 7 6 ≤ 1), 1),
   (fld (w 0x048) 3 0 != 6 || pan.ingest != 0, 2),
   (decide (4004000 ≤ (w 0x04C).toNat) && decide ((w 0x04C).toNat ≤ 1441440000), 1),
   (decide (eff ≤ 2), 1), (nbit pan.effort eff, 2),
   (cls != clsLive || (bl % ctu == 0 && decide (ctu ≤ bl) && decide (bl ≤ 4 * ctu)), 1),
   (if cls = clsLive then decide (1 ≤ refs) && decide (refs ≤ 4) && reo == 0 && la == 0
    else if cls = clsNear then decide (1 ≤ refs) && decide (refs ≤ 4) && decide (reo ≤ 2) && decide (la ≤ 4)
    else decide (1 ≤ refs) && decide (refs ≤ 7) && decide (reo ≤ 4) && decide (la ≤ 32), 1),
   (codec == 2 || !bit (w 0x080) 0, 1),
   (codec == 1 || (decide (3 ≤ fld (w 0x080) 3 1) && decide (fld (w 0x080) 3 1 ≤ 5)), 1),
   ((w 0x084).toNat &&& toolSet codec profile eff cls (bit (w 0x048) 4) == (w 0x084).toNat, 1),
   (decide (fld (w 0x088) 7 0 ≤ 128) && decide (fld (w 0x088) 15 8 ≤ 128) && within (fld (w 0x088) 25 20) 6 12 &&
      within (fld (w 0x088) 31 26) 6 12, 1),
   (within (fld (w 0x08C) 7 4) 4 6 && within (fld (w 0x08C) 11 8) 4 6, 1),
   (decide (1 ≤ fld (w 0x090) 3 0) && decide (fld (w 0x090) 3 0 ≤ 8) && decide (1 ≤ fld (w 0x090) 7 4) &&
      decide (fld (w 0x090) 7 4 ≤ 12) && decide (16 ≤ fld (w 0x090) 15 8), 1)]

/-- The RC registers 0x100 to 0x144, each by itself (R154). -/
def rcTests (c : Tbl Word) : List (Bool × Nat) :=
  let w (o : Nat) := cget c o
  let mode := rcMode c
  let rate := (w 0x104).toNat
  let mx := (w 0x108).toNat
  [(mode != 3 || !bit (w 0x100) 2, 1),
   (decide (2 ≤ mode) || (decide (8000 ≤ rate) && decide (rate ≤ 800000000)), 1),
   (if mode = 0 then mx == 0 || mx == rate else if mode = 1 then mx == 0 || decide (rate ≤ mx) else true, 1),
   ((mode != 3 || w 0x114 != 0) && decide ((w 0x114).toNat ≤ 16777216), 1),
   (decide (fld (w 0x118) 5 0 ≤ 51), 1),
   (decide (fld (w 0x11C) 7 0 ≤ 51) && decide (fld (w 0x11C) 15 8 ≤ 51) && decide (fld (w 0x11C) 23 16 ≤ 51), 1),
   (decide (fld (w 0x120) 7 0 ≤ fld (w 0x120) 15 8) && decide (fld (w 0x120) 15 8 ≤ 51), 1),
   (fld (w 0x124) 7 0 != 1, 1),
   (decide (1 ≤ fld (w 0x140) 2 0) && decide (fld (w 0x140) 2 0 ≤ 6) && decide (16 ≤ fld (w 0x140) 15 8), 1),
   (decide (16 ≤ fld (w 0x144) 7 0) && decide (16 ≤ fld (w 0x144) 15 8) && decide (16 ≤ fld (w 0x144) 23 16), 1)]

/-- The kinds of ME_CANDS before the end mark. -/
def candKinds (v : Word) : List Nat := ((upto 8).map fun i => nfld v.toNat (4 * i + 3) (4 * i)).takeWhile fun k => k != 15

/-- ME_CANDS is legal (R131): no repeated or illegal kind, and every nibble after the end mark is 0xF. -/
def candsOk (v : Word) : Bool :=
  let ks := candKinds v
  (ks.all fun k => decide (k ≤ 7)) && decide ks.Nodup &&
    ((upto 8).all fun i => decide (i < ks.length) || nfld v.toNat (4 * i + 3) (4 * i) == 15)

/-- The motion registers 0x180 to 0x190, each by itself (R131). -/
def meTests (c : Tbl Word) : List (Bool × Nat) :=
  let w (o : Nat) := cget c o
  [(candsOk (w 0x180), 1),
   (decide (4 ≤ fld (w 0x184) 4 0) && decide (fld (w 0x184) 4 0 ≤ 16) && decide (1 ≤ fld (w 0x184) 10 8) &&
      decide (fld (w 0x184) 10 8 ≤ 4) && fld (w 0x184) 13 12 != 3, 1),
   (decide (fld (w 0x188) 4 0 ≤ 16) && decide (fld (w 0x188) 11 8 ≤ 8), 1),
   (decide (fld (w 0x18C) 3 0 ≤ fld (w 0x18C) 7 4) && decide (fld (w 0x18C) 23 16 ≤ 99) &&
      decide (1 ≤ fld (w 0x18C) 31 24) && decide (fld (w 0x18C) 31 24 ≤ 100) &&
      decide (fld (w 0x18C) 23 16 < fld (w 0x18C) 31 24), 1)]

/-- Subscriber of OUT_SUBk when enabled. -/
def outSub (c : Tbl Word) (k : Nat) : Option Nat :=
  let v := cget c (0x210 + 4 * k)
  if bit v 31 then some (fld v 11 0) else none

/-- The enabled OUT_SUB bindings: index and subscriber. -/
def outSubs (c : Tbl Word) : List (Nat × Nat) :=
  (upto 4).filterMap fun k => (outSub c k).map fun n => (k, n)

/-- Port code of subscriber `n` (MGL_SUB_DATA2). -/
def State.subPort (s : State) (n : Nat) : Nat := fld (tget 0 (s.sub n).d 2) 7 6

/-- The egress entry in force, or before the first picture the committed one (R208, R219). -/
def Sub.entry (x : Sub) : List Byte := if x.flow.isEmpty then x.flowNext else x.flow

/-- The port that subscriber `n`'s packets leave by: its own, or the backup of a moved flow (R217). -/
def State.subNow (s : State) (n : Nat) : Nat :=
  let x := s.sub n
  if x.moved then flBackup x.entry % 2 else s.subPort n

/-- Service number of subscriber `n` (R220): port × 64 + index; a moved flow has the service of its backup (R239). -/
def State.subSvc (s : State) (n : Nat) : Nat :=
  let x := s.sub n
  s.subNow n * 64 + fld (tget 0 x.d 2) 5 0

/-- Service `k`. -/
def State.svc (s : State) (k : Nat) : Svc := tget {} s.svcs k

/-- Register base of Ethernet port `p` (R219). -/
def ethBase (p : Nat) : Nat := 0xE8000 + 0x1000 * p

/-- The payload budget of a committed entry on Ethernet port `p` (R211). -/
def State.ethBudget (s : State) (p : Nat) (e : List Byte) : Int :=
  ((fld (s.reg (ethBase p + 0x24)) 13 0 : Nat) : Int) - (if flIp6 e then 40 else 20) - 8 - 12 - (if flSrtp e then 16 else 0)

/-- Packet budget of subscriber `n` at port `port` (R211, R343). -/
def State.subBudget (s : State) (n port : Nat) : Int :=
  if port = 2 then 2035 else if port = 3 then 2051 else s.ethBudget port (s.sub n).flowNext

/-- Output registers 0x200 to 0x21C, each by itself (R172). -/
def State.outTests (s : State) (c : Tbl Word) (pan : Panel) : List (Bool × Nat) :=
  let w (o : Nat) := cget c o
  [(decide (fld (w 0x200) 3 1 ≤ 2), 1),
   (!bit (w 0x200) 0 || (decide (16 ≤ fld (w 0x20C) 4 0) && decide (fld (w 0x20C) 4 0 ≤ 30)), 1)]
  ++ (outSubs c).map fun e => (nbit pan.ports (s.subPort e.2), 1)

/-- A ring at `off` (R65): its size when it has a base, and with space 1 its place in one region. -/
def State.ringOk (s : State) (own : Nat) (c : Tbl Word) (off : Nat) : Bool :=
  let base := ringBase c off
  let lg := fld (cget c (off + 8)) 4 0
  base == 0 ||
    (decide (4 ≤ lg) && decide (lg ≤ 16) &&
      (!bit (cget c (off + 8)) 8 || s.inRegion own base (base + 64 * 2 ^ lg : Nat)))

/-- The ring registers (R65): a zero input base is legal for a lower rank only. -/
def State.ringTests (s : State) (own : Nat) (c : Tbl Word) (lower : Bool) : List (Bool × Nat) :=
  [((lower || ringBase c 0x2C0 != 0) && s.ringOk own c 0x2C0, 1), (s.ringOk own c 0x2D0, 1), (s.ringOk own c 0x2E0, 1)]

/-- Format limits of a profile: chroma and depth (Table 5.4). -/
def formatOk (codec profile : Nat) (c444 d10 : Bool) : Bool :=
  if codec = 1 then !c444 && (!d10 || profile == 3)
  else if codec = 2 then (!c444 || decide (2 ≤ profile)) && (!d10 || profile != 0)
  else if codec = 3 then c444 == (profile == 1)
  else !c444 || profile == 1

/-- Largest ranges of Table 6.4 for `refs` references. -/
def maxRange (refs : Nat) (c444 : Bool) : Nat × Nat :=
  if refs ≤ 2 then (if c444 then (192, 64) else (256, 128))
  else if refs ≤ 4 then (if c444 then (96, 48) else (192, 64))
  else (if c444 then (64, 32) else (128, 48))

/-- The derived bucket of OUT_SUBn (R234): rate and depth. -/
def State.paceOf (s : State) (cls : Nat) (c : Tbl Word) (t : RateTerms) (sub : Nat) : Nat × Nat :=
  let p := 8 * ((s.subBudget sub (s.subPort sub)).toNat - 3)
  let u := 12 + 2 * cBands cls c
  let rp := if t.mode = 3 then 8 * t.cap * second else t.rPic
  let b := if t.mode = 3 then 8 * t.cap * second else t.b
  (ceilDiv rp (max 1 p * second) + u, ceilDiv (b + 2 * rp) (max 1 p * second) + 2 * u)

/-- A subscriber is fed by another session that is not CLOSED (R222). -/
def State.fedBy (s : State) (sub : Nat) : List Nat :=
  (s.sessions.filter fun e => e.2.st != .closed &&
    ((outSubs (e.2.force.getD [])).any (fun k => k.2 == sub) || (outSubs (e.2.pend.getD [])).any (fun k => k.2 == sub))).map (·.1)

/-- The source of a migration whose destination is session `n` (R222). -/
def State.migratesTo (s : State) (m n : Nat) : Bool :=
  match (s.ses m).mig with
  | some g => g.out && g.peerSes == n && g.peer == s.lin.addr
  | none => false

/-- The tests on one enabled OUT_SUB binding (R211, R218, R222, R229, R342, R369). -/
def State.bindOk (s : State) (n : Nat) (x : Session) (c : Tbl Word) (pan : Panel) (sub : Nat) : Bool :=
  let port := s.subPort sub
  let y := s.sub sub
  let e := y.flowNext
  (if port < 2 then
    y.hasFlow && egressOk e && decide (256 ≤ s.ethBudget port e) && tget 0 s.pat.lane (flPrimary e) != 0 &&
      (flBackup e == 0xFF || (tget 0 s.pat.lane (flBackup e) != 0 && nbit pan.ports (flBackup e)))
   else if port = 2 then
    leAt e 0 2 == s.owner n && decide (leAt e 2 1 ≤ 2) &&
      (if fld (cget c 0x040) 2 0 = 3 then leAt e 2 1 != 1 else leAt e 2 1 != 2) &&
      zerosAt e 3 1 && zerosAt e 8 56
   else zerosAt e 4 60 && decide (leAt e 0 4 < 2 ^ 18)) &&
  ((s.fedBy sub).all fun m => m == n || s.migratesTo m n) &&
  (x.cls == clsLive || !bit (s.svc (s.subSvc sub)).d0 30)

/-- The rules that join registers, for an encode session, in the order of their chapters (R429 4.3). -/
def State.joinTests (s : State) (n : Nat) (x : Session) (c : Tbl Word) (pan : Panel) : List (Bool × Nat) :=
  let w (o : Nat) := cget c o
  let cls := x.cls
  let codec := fld (w 0x040) 2 0
  let profile := fld (w 0x040) 7 4
  let rng := maxRange (fld (w 0x058) 19 16) (bit (w 0x048) 4)
  let gang := maxGang s.pat x.panel
  let m := minBytes cls c gang
  let lv := levelOf cls c m
  let t := rateTerms cls c gang (lv.getD none)
  let buf := joinW (w 0x204) (w 0x208)
  [(formatOk codec profile (bit (w 0x048) 4) (bit (w 0x048) 5), 1),
   (cls != clsLive || codec != 3 || decide (cBands cls c ≤ 64), 1),
   (lv.isSome, 1),
   (decide (16 * fld (w 0x188) 4 0 ≤ rng.1) && decide (16 * fld (w 0x188) 11 8 ≤ rng.2), 1),
   (fld (w 0x184) 13 12 != 1 || codec == 3, 1),
   (t.mode == 3 || decide (t.r * (w 0x110).toNat ≤ t.b), 1),
   (decide (m ≤ t.cap), 1),
   (t.mode == 3 || (decide (8 * m * second ≤ t.rPic) && decide (8 * m * second ≤ t.f0)), 1),
   (t.mode != 0 || decide (t.rPic ≤ 8 * t.cap * second), 1),
   (t.mode == 3 || decide (t.rPic ≤ t.b), 1),
   (match t.levelPic with
    | some l => decide (8 * m ≤ l)
    | none => true, 1),
   (if fld (w 0x200) 3 1 = 1 then codec != 3 else if fld (w 0x200) 3 1 = 2 then codec == 3 else true, 1),
   (!bit (w 0x200) 0 || (hasOutRing c && buf != 0 && decide (2 * t.cap ≤ 2 ^ fld (w 0x20C) 4 0)), 1)]
  ++ ((outSubs c).map fun e => (s.bindOk n x c pan e.2, 1))
  ++ ((outSubs c).map fun e =>
      (!bit (w 0x240) e.1 || (decide ((s.paceOf cls c t e.2).1 ≤ 65535) && decide ((s.paceOf cls c t e.2).2 ≤ 4095)), 1))

/-- The registers and joined rules of a DECODE session (R181, R196, R197, R398). -/
def State.decTests (s : State) (own : Nat) (c : Tbl Word) (pan : Panel) : List (Bool × Nat) :=
  let w (o : Nat) := cget c o
  let codec := fld (w 0x300) 2 0
  let profs := fld (w 0x300) 7 4
  let infmt := fld (w 0x300) 9 8
  let wd := fld (w 0x304) 13 0
  let ht := fld (w 0x304) 29 16
  let fmt := fld (w 0x308) 1 0
  let pitch := (w 0x314).toNat
  let slot := (w 0x318).toNat
  let slots := fld (w 0x31C) 6 0
  let base := joinW (w 0x30C) (w 0x310)
  let line := if fmt % 2 = 1 then 2 * wd else wd
  let plane := if fmt ≤ 1 then pitch * ht + pitch * ceilDiv ht 2 else 3 * pitch * ht
  let size (n : Nat) : Bool := decide (64 ≤ n) && decide (n ≤ 8192)
  [(fld (w 0x040) 2 0 == 0, 1), (fld (w 0x288) 3 0 == 0, 1)]
  ++ s.ringTests own c false
  ++ [(decide (1 ≤ codec) && decide (codec ≤ 4) && profs != 0 &&
        (if infmt = 1 then codec != 3 else if infmt = 2 then codec == 3 else infmt == 0), 1),
      ((upto 4).all fun k => !nbit profs k || pan.holds codec true k, 2),
      (size wd && size ht, 1), (decide (wd ≤ pan.maxW) && decide (ht ≤ pan.maxH), 2),
      (pitch % 64 == 0 && pitch != 0 && decide (line ≤ pitch), 1),
      (slot % 64 == 0 && slot != 0, 1),
      (decide (2 ≤ slots) && decide (slots ≤ 64), 1),
      (decide (16 ≤ fld (w 0x320) 4 0) && decide (fld (w 0x320) 4 0 ≤ 26) && decide (1 ≤ fld (w 0x320) 12 8) &&
        decide (fld (w 0x320) 12 8 ≤ 16), 1),
      (decide (4 ≤ fld (w 0x324) 5 0) && decide (fld (w 0x324) 5 0 ≤ 32) && fld (w 0x324) 9 8 != 3, 1),
      (decide (4004000 ≤ (w 0x334).toNat) && decide ((w 0x334).toNat ≤ 1441440000), 1),
      (base != 0, 1), (decide (plane ≤ slot), 1),
      (!bit (w 0x308) 4 || s.inRegion own base (base + slots * slot : Nat), 1),
      (hasOutRing c, 1)]

/-- The other members of a session's group that have a configuration (R64): their pending set, or the one in force. -/
def State.groupCfgs (s : State) (n : Nat) : List (Nat × Tbl Word) :=
  let x := s.ses n
  (s.sessions.filter fun e => e.1 != n && e.2.member && e.2.groupNo == x.groupNo && e.2.st != .closed).filterMap fun e =>
    match e.2.pend with
    | some c => some (e.2.rank, c)
    | none => e.2.force.map fun c => (e.2.rank, c)

/-- The sibling-group rules at CONFIGURE (R64, R98, R99). -/
def State.groupOk (s : State) (n : Nat) (c : Tbl Word) : Bool :=
  let x := s.ses n
  let cls := x.cls
  let area (c : Tbl Word) := cW cls c * cH cls c
  let others := s.groupCfgs n
  !x.member ||
   ((x.rank == 0 || (ringBase c 0x2C0 == 0 && ringBase c 0x2D0 == 0)) &&
    (others.all fun e =>
      if e.1 < x.rank then decide (cW cls c ≤ cW cls e.2) && decide (cH cls c ≤ cH cls e.2)
      else decide (cW cls e.2 ≤ cW cls c) && decide (cH cls e.2 ≤ cH cls c)) &&
    (match if x.rank = 0 then some c else (others.find? fun e => e.1 == 0).map (·.2) with
     | none => true
     | some top =>
       let lows := (if x.rank = 0 then [] else [c]) ++ (others.filter fun e => e.1 != 0).map (·.2)
       let mine := if x.rank = 0 then lows else [c]
       (mine.all fun k => cPeriod cls k == cPeriod cls top &&
          decide (cW cls k ≤ cW cls top) && decide (cW cls top ≤ 8 * cW cls k) &&
          decide (cH cls k ≤ cH cls top) && decide (cH cls top ≤ 8 * cH cls k)) &&
       decide ((lows.map area).sum ≤ 4 * area top)))

/-- Ring bases and sizes of two configurations are equal (R429 4.1). -/
def sameRings (a b : Tbl Word) : Bool :=
  [0x2C0, 0x2C4, 0x2C8, 0x2D0, 0x2D4, 0x2D8, 0x2E0, 0x2E4, 0x2E8].all fun o => cget a o == cget b o

/-- The DECODE registers that may not change in RUNNING and PAUSED (R197). -/
def sameDecode (a b : Tbl Word) : Bool :=
  ([0x300, 0x304, 0x30C, 0x310, 0x314, 0x318, 0x31C, 0x320].all fun o => cget a o == cget b o) &&
    maskW 0x13 (cget a 0x308) == maskW 0x13 (cget b 0x308)

/-- The panel entry that a CONFIGURE is checked against: during a press, the new one (R49). -/
def State.panelFor (s : State) (p : Nat) : Panel :=
  if nbit s.ldr.pressing p then tget {} s.ldr.next.panels p else s.panel p

/-- The reason for which CONFIGURE of session `n` is ignored, after mode, state and arg (R429 4); `none` accepts. Where the
reason 0 of R197 stands in the order is a DESIGN CHOICE (log 111). -/
def State.cfgReason (s : State) (n : Nat) : Option Nat :=
  let x := s.ses n
  let c := x.effective
  let own := s.owner n
  let pan := s.panelFor x.panel
  let idle := x.st == .opened || x.st == .ready
  firstFail ([(idle || sameRings c x.cfg, 4), (x.cls != clsDecode || idle || sameDecode c x.cfg, 0)]
    ++ (if x.cls = clsDecode then s.decTests own c pan
        else encTests x.cls c pan ++ rcTests c ++ meTests c ++ s.outTests c pan ++ s.ringTests own c x.lower
          ++ s.joinTests n x c pan)
    ++ [(s.groupOk n c, 3)])

/-- A session's configuration fits a panel entry (R47): class, codec and direction, effort, picture size, and m with the
panel's largest gang. -/
def fitsPanel (cls : Nat) (c : Tbl Word) (pan : Panel) (gang : Nat) : Bool :=
  nbit pan.classes cls && decide (cW cls c ≤ pan.maxW) && decide (cH cls c ≤ pan.maxH) &&
  (pan.progs.any fun g => g.codec == cCodec cls c && g.decode == (cls == clsDecode)) &&
  (cls == clsDecode || (nbit pan.effort (fld (cget c 0x050) 1 0) &&
     decide (minBytes cls c gang ≤ (termsOf cls c gang).cap)))

end Sys2Proof.Machine
end

