-- ==== Sys2Proof/Machine/Output.lean ====
section
/-!
DEFINITION. Committed units on their way out: consumers (R166), releases (R167, R168), subscriber queues (R221, R232,
R233), deliveries and records to the host (R169, R170), the drop of a picture (R81).
-/
namespace Sys2Proof.Machine

/-- Consumers of a configuration (R166): 0 the host binding, 1 to 4 OUT_SUB0 to OUT_SUB3. -/
def consumers (c : Tbl Word) : List Nat :=
  (if bit (cget c 0x200) 0 then [0] else []) ++ (outSubs c).map fun e => e.1 + 1

/-- dts of a record (Table 8.3). -/
def dtsAt (c : Tbl Word) (pts : Nat) : Nat := mod64 ((pts : Int) - (fld (cget c 0x058) 22 20 * cPeriod clsLive c : Nat))

/-- A consumer releases pages (R166); a double release raises class 21 (R167). -/
def State.releasePages (s : State) (consumer : Nat) (ps : List (Nat × Nat)) : State :=
  ps.foldl (fun s p =>
    let r := s.releasePage consumer p
    if r.2 then r.1.raiseDev 21 r.1.lastDfree else r.1) s

/-- Release the pages of a queued unit. -/
def State.dropUnit (s : State) (q : QUnit) : State := s.releasePages q.consumer q.pages

/-- Remove from subscriber `n` the queued units that `p` picks; each counts in SHP_FLUSH (R233). -/
def State.flushWhere (s : State) (n : Nat) (p : QUnit → Bool) : State :=
  let x := s.sub n
  let out := x.queue.filter p
  let s := s.setSub n { x with queue := x.queue.filter fun q => !p q }
  let s := out.foldl State.dropUnit s
  if out.isEmpty then s else s.bump 0xE010C out.length

/-- Flush subscriber `n`'s queue (R233). -/
def State.flushSub (s : State) (n : Nat) : State := s.flushWhere n fun _ => true

/-- Flush session `n`'s units in every subscriber queue (R233, R168). -/
def State.flushSes (s : State) (n : Nat) : State :=
  (s.subs.map (·.1)).foldl (fun s k => s.flushWhere k fun q => q.ses == n) s

/-- Append a delivery (R169, R170): kept when it copies bytes or writes a record. -/
def State.pushOut (s : State) (n : Nat) (o : OutItem) : State :=
  if o.copy || o.record then s.modSes n fun x => { x with outq := x.outq ++ [o] } else s

/-- The output ring of session `n` is full (R67): at most size − 1 records are outstanding, those waiting included. -/
def Session.outFull (x : Session) : Bool :=
  let sz := ringSize x.cfg 0x2E0
  hasOutRing x.cfg && decide (sz - 1 ≤ (x.outTail + sz - x.outHead % sz) % sz)

/-- Rank 0 of the group of session `n`. -/
def State.rank0 (s : State) (n : Nat) : Option Nat :=
  let x := s.ses n
  ((s.sessions.find? fun e => e.2.member && e.2.groupNo == x.groupNo && e.2.rank == 0 && e.2.st != .closed)).map (·.1)

/-- No posted input entry remains (R59). -/
def Session.inputDone (x : Session) : Bool :=
  let sz := ringSize x.cfg 0x2C0
  x.inHead % sz == x.inTail % sz

/-- The stream of a draining session has no picture to come: a lower rank follows rank 0 (R65). -/
def State.streamOver (s : State) (n : Nat) : Bool :=
  let x := s.ses n
  if x.lower then
    match s.rank0 n with
    | some r =>
      let y := s.ses r
      y.st != .draining || (y.inputDone && y.pics.all fun p => x.nextPic != p.num)
    | none => true
  else x.inputDone

/-- The next record of session `n` is the last of its stream (R170). -/
def State.lastOfStream (s : State) (n : Nat) : Bool :=
  (s.ses n).st == .draining && s.streamOver n && (s.ses n).pics.isEmpty && (s.ses n).owed.isEmpty

/-- The picture at the input head for R97: the first whose source is still being fetched, else the next to consume. -/
def Session.headPic (x : Session) : Nat :=
  match x.pics.find? fun p => p.ready != 0 && p.space != 2 && p.units.any fun u => u.st == .waitRow with
  | some p => p.num
  | none => x.nextPic

/-- Picture `num` needs no rows fetched any more (R97): the progress values move on past it. -/
def Session.rowsPast (x : Session) (num : Nat) : Session :=
  if num = x.headPic then { x with rows0 := x.rows1, rows1 := 0 }
  else if num = (x.headPic + 1) % 2 ^ 24 then { x with rows1 := 0 }
  else x

/-- Consume hint entry k with input entry k (R117): unread, or later when it is not yet within HINT_TAIL. -/
def State.consumeHint (s : State) (n : Nat) : State :=
  let x := s.ses n
  if hasHintRing x.cfg then
    let sz := ringSize x.cfg 0x2D0
    if x.hintOwed = 0 ∧ x.hintHead % sz ≠ x.hintTail % sz then
      (s.setSes n { x with hintHead := (x.hintHead + 1) % sz }).emit (.ownerClear n 1 (x.hintHead % sz))
    else s.setSes n { x with hintOwed := x.hintOwed + 1 }
  else s

/-- Consume one input entry; its owner bit clears when `free` (R94). -/
def State.consumeInput (s : State) (n : Nat) (free : Bool) : State :=
  let x := s.ses n
  let sz := ringSize x.cfg 0x2C0
  let i := x.inHead % sz
  let s := s.setSes n { x with
    inHead := (i + 1) % sz, seen := none, seenWait := false, srcGen := tset 0 i ((tget 0 x.srcGen i + 1) % 65536) x.srcGen }
  if free then s.emit (.ownerClear n 0 i) else s

/-- A picture is dropped with a reason (R81): counted, an event if asked, and a record when an output ring is present
(R170). `num`, `pts` and `band` describe the record; `per` marks a failed LIVE band's own record (R249). -/
def State.countDrop (s : State) (n num reason pts band : Nat) (per : Bool) : State :=
  let x := s.ses n
  let s := s.setSes n { x with dropped := x.dropped + 1 }
  let s := { s with lin := { s.lin with drops := s.lin.drops + 1 } }
  let s := (s.bump 0x2001C).count 3 0
  let s := if bit (s.reg 0x20000) 0 then
      s.post (s.owner n) (some 2) (s.evRec 0x081 5 (mkWord [(0, num % 2 ^ 24), (24, reason)]) n) else s
  let last := s.lastOfStream n
  let s := if last then s.modSes n fun x => { x with eosSent := true } else s
  s.pushOut n {
    pic := num % 2 ^ 24, band := band, bands := if per then cBands x.cls x.cfg else 1
    flags := 4 + 8 * b2n last + 256 * reason
    pts := pts, dts := dtsAt x.cfg pts, commit := s.now, cfgSeq := x.forceSeq, record := hasOutRing x.cfg }

/-- A record is posted (R198); truncations counts those with flag truncated (R180). -/
def Dec.recorded (d : Dec) (o : DecOut) : Dec :=
  { d with outputs := d.outputs + 1, truncations := d.truncations + b2n (nbit o.flags 8) }

/-- Records of the pictures that the output process outputs (R182, R196), in output order. -/
def State.outputPics (s : State) (n : Nat) (c : Tbl Word) (nums : List Nat) : State :=
  nums.foldl (fun s k =>
    let x := s.ses n
    match x.dec.written.find? fun o => o.pic == k with
    | some o =>
      let s := s.setSes n { x with dec := { x.dec with written := x.dec.written.filter fun e => e.pic != k, shown := o.planes }.recorded o }
      s.pushOut n { pic := o.pic, pts := o.pts, commit := o.commit, copy := !bit (cget c 0x308) 4, dec := some o
                    record := hasOutRing c, flags := o.flags }
    | none => s) s

/-- The DECODE class words (R198). -/
def Dec.words (d : Dec) : Tbl Word :=
  let cap32 (k : Nat) : Word := w32 (min 0xFFFFFFFF k)
  [(0x3BC, w32 d.lastDarned), (0x3C0, w32 d.lastTainted), (0x3C4, d.lastSize), (0x3C8, cap32 d.outputs),
   (0x3CC, cap32 d.concealPics), (0x3D0, cap32 d.syntaxErrs), (0x3D4, cap32 d.darnedRefs), (0x3D8, cap32 d.budgetStops),
   (0x3DC, cap32 d.truncations), (0x3E0, cap32 d.badChunks), (0x3E4, cap32 d.undecodable), (0x3E8, cap32 d.setsRejected),
   (0x3EC, cap32 d.slotWaits),
   (0x3F0, mkWord [(0, (d.slots.filter fun e => e.2 == 3).length), (8, b2n (d.dpb.any (·.tainted)))]),
   (0x3F4, d.errPos), (0x3F8, w32 d.errKind)]

/-- Flag eos on the last record that waits (R170). -/
def State.tagEos (s : State) (n : Nat) : State :=
  s.modSes n fun x => match x.outq.getLast? with
    | some o => { x with outq := x.outq.dropLast ++ [{ o with flags := o.flags ||| 8 }], eosSent := true }
    | none => x

/-- The pictures that DRAIN outputs from the decoder's buffer once the stream is over (R196), in output order. -/
def insByOrder (o : DecOut) : List DecOut → List DecOut
  | [] => [o]
  | h :: t => if o.cvs < h.cvs ∨ (o.cvs = h.cvs ∧ o.poc < h.poc) then o :: h :: t else h :: insByOrder o t

def State.flushDpb (s : State) (n : Nat) : State :=
  let x := s.ses n
  if s.lastOfStream n ∧ x.cls = clsDecode ∧ ¬ x.dec.written.isEmpty then
    let s := s.outputPics n x.cfg ((x.dec.written.foldl (fun l o => insByOrder o l) []).map (·.pic))
    let s := s.modSes n fun x => { x with cwords := x.dec.words }
    s.tagEos n
  else s

/-- The end-of-stream flag of a draining session goes on its last record (R170, R196). -/
def State.markEos (s : State) (n : Nat) : State :=
  let s := s.flushDpb n
  if s.lastOfStream n && !(s.ses n).eosSent then s.tagEos n else s

end Sys2Proof.Machine
end

