-- ==== Sys2Proof/Machine/Sessions.lean ====
section
/-!
DEFINITION. The session record: access through BAR0 (R333), the eleven commands of SES_CMD (R57 to R71, R429), pending sets
and reversions (R60 to R63), the ring indices (R67), RING_IN_ROWS (R97), OUT_BUF_HEAD (R169), DEC_WIN_RELEASE (R184).
-/
namespace Sys2Proof.Machine

/-- An access to record register `off` of alias or record `n` through function `fn` (R333): lost while BAR0 cannot be
reached and through a VF in an FLR, dropped uncounted in a warm reset (R371), ignored beyond a VF's aliases. -/
def State.onSes (s : State) (fn n off : Nat) (v : Word) (f : State → Nat → State) : State :=
  if !s.live || (fn != 0 && s.hif.flr.contains fn) then s
  else match s.sesOf fn n with
    | some k => f s k
    | none => if fn = 0 then s else s.ignoredVf fn (0x10000 + 0x400 * n + off) v

/-- The session has no picture in flight where a set may apply at once (R61, R63). -/
def Session.calm (x : Session) : Bool :=
  x.st == .opened || x.st == .ready || (x.st == .paused && x.pics.isEmpty)

/-- A change that makes the next picture a key picture (R111): codec, profile, chroma, depth, size, CTU size, band_lines. -/
def keyChange (a b : Tbl Word) : Bool :=
  maskW 0xF7 (cget a 0x040) != maskW 0xF7 (cget b 0x040) || maskW 0x30 (cget a 0x048) != maskW 0x30 (cget b 0x048)
    || cget a 0x044 != cget b 0x044 || bit (cget a 0x080) 0 != bit (cget b 0x080) 0 || cget a 0x054 != cget b 0x054

/-- With hrd set, the rate changes that make the next picture a key picture (R152). -/
def hrdChange (a b : Tbl Word) (ta tb : RateTerms) : Bool :=
  bit (cget b 0x100) 2 &&
    (rcMode a != rcMode b || (rcMode b == 0 && cget a 0x104 != cget b 0x104) || (rcMode b != 3 && ta.r != tb.r)
      || ta.b != tb.b || bit (cget a 0x100) 3 != bit (cget b 0x100) 3)

/-- A rate change after which D of Table 7.2 restarts (R152): mode, RC_RATE, effective RC_MAXRATE or B. -/
def rateChange (a b : Tbl Word) (ta tb : RateTerms) : Bool :=
  rcMode a != rcMode b || cget a 0x104 != cget b 0x104 || ta.r != tb.r || ta.b != tb.b

/-- Write a derived bucket into subscriber `sub` with reset_full set (R226, R234): the credit is the depth. -/
def State.paceSub (s : State) (sub period : Nat) (rd : Nat × Nat) : State :=
  let y := s.sub sub
  let d0 := maskW 0x90000000 (tget 0 y.d 0) ||| mkWord [(0, rd.1), (16, rd.2), (29, 1)]
  s.setSub sub { y with
    d := tset 0 0 d0 (tset 0 1 (w32 period) y.d)
    bucket := { c := rd.2, a := 0, at_ := s.now } }

/-- Derive the buckets of the enabled OUT_SUBs whose OUT_PACE.auto bit is set, when a set applies (R234). -/
def State.derivePace (s : State) (n : Nat) (c : Tbl Word) : State :=
  let x := s.ses n
  if x.cls = clsDecode then s
  else
    let t := termsOf x.cls c (maxGang s.pat x.panel)
    let s := s.modSes n fun x => { x with pace := [] }
    (outSubs c).foldl (fun s e =>
      if bit (cget c 0x240) e.1 then
        let rd := s.paceOf x.cls c t e.2
        let s := s.paceSub e.2 (cPeriod x.cls c) rd
        s.modSes n fun x => { x with pace := tset 0 e.1 (mkWord [(0, rd.1), (16, rd.2)]) x.pace }
      else s) s

/-- Row weights fall back to line counts for every kind (R142). -/
def dropRows (h : Tbl KindHist) : Tbl KindHist := h.map fun e => (e.1, { e.2 with rowBits := [] })

/-- A configuration takes force in session `n` (R61, R111, R142, R152, R234). -/
def State.takeForce (s : State) (n : Nat) (c : Tbl Word) : State :=
  let x := s.ses n
  let g := maxGang s.pat x.panel
  let tb := termsOf x.cls c g
  let rc :=
    if x.cls = clsDecode then x.rc
    else match x.force with
      | none => { x.rc with f := tb.f0, d := 0 }
      | some a =>
        let ta := termsOf x.cls a g
        let rc := { x.rc with
          f := if ta.mode = 3 then (tb.f0 : Int) else min x.rc.f tb.b
          d := if rateChange a c ta tb then 0 else x.rc.d }
        let rc := if keyChange a c || hrdChange a c ta tb then { rc with forceKey := true, newSets := true } else rc
        if cget a 0x044 != cget c 0x044 then { rc with hist := dropRows rc.hist } else rc
  (s.setSes n { x with force := some c, rc := rc }).derivePace n c

/-- A waiting set, then a waiting reversion, apply to session `n` (R61, R63). -/
def State.applyPending (s : State) (n : Nat) : State :=
  let x := s.ses n
  let s := match x.pend with
    | some c => (s.setSes n { x with pend := none, forceSeq := x.pendSeq }).takeForce n c
    | none => s
  let x := s.ses n
  if x.revert then
    let s := s.setSes n { x with revert := false, cfgSeq := x.cfgSeq + 1, forceSeq := x.cfgSeq + 1 }
    match x.force with
    | some c => s.takeForce n (revertCfg c x.cls x.lower)
    | none => s
  else s

/-- Apply at once where nothing is in flight. -/
def State.applyCalm (s : State) (n : Nat) : State := if (s.ses n).calm then s.applyPending n else s

/-- In PAUSED, or MIGRATING from it, the last picture in flight has ended (R61). -/
def Session.idleRinse (x : Session) : Bool :=
  (x.st == .paused || (x.st == .migrating && x.prior == .paused)) && x.pics.isEmpty

/-- The commit of a picture of the session is a rinse at which a waiting set or reversion applies (R61, R63): of every picture in
RUNNING and DRAINING, and in MIGRATING from them; of the last in flight in PAUSED. -/
def Session.rinses (x : Session) : Bool :=
  x.st == .running || x.st == .draining || (x.st == .migrating && x.prior != .paused) || x.idleRinse

/-- The end of a drained stream (R58, R59): the end-of-stream record if none carried the flag, READY, references freed, the
event of R58; a set or reversion that waits applies, since READY has no picture in flight (R61, R63). -/
def State.endDrain (s : State) (n : Nat) : State :=
  if s.lastOfStream n then
    let s := s.flushDpb n
    let x := s.ses n
    let s := if x.eosSent then s else s.pushOut n { flags := 8, commit := s.now, cfgSeq := x.commitSeq, record := hasOutRing x.cfg
                                                    dec := if x.cls = clsDecode then some { slot := 0xFFFF } else none }
    let s := s.modSes n fun x => { x with refs := [], ltr := none, refresh := none, eos := true, eosSent := false, drainTo := none
                                          dec := { x.dec with dpb := [] } }
    let s := s.setSt n .ready
    let s := s.postState n .ready .draining false
    let s := s.applyPending n
    if x.cls = clsLive then s.refloor x.panel else s
  else s

/-- The lower ranks of a group follow rank 0's end of stream (R65). -/
def State.drainLower (s : State) (n : Nat) : State :=
  let x := s.ses n
  if x.member && x.rank == 0 then
    ((s.members n).filter fun m => m != n).foldl (fun s m => (s.markEos m).endDrain m) s
  else s

/-- A session's record freshly bound (R59, R73): only what the host wrote and the ignore record remain. -/
def Session.renew (x : Session) : Session :=
  { st := x.st, cls := x.cls, panel := x.panel, group := x.group, level := x.level, migrate := x.migrate,
    ignored := x.ignored, ignOff := x.ignOff, ignVal := x.ignVal, ignWhy := x.ignWhy, staged := x.staged }

/-- Sessions on panel `p` that are not CLOSED. -/
def State.openOn (s : State) (p : Nat) : Nat := (s.sessions.filter fun e => e.2.on p).length

/-- Session `n` may not use panel `p`: it is empty or lacks class `cls`, or the owning VF may not use it (R334). -/
def State.panelBars (s : State) (n p cls : Nat) : Bool :=
  let pan := s.panel p
  let own := s.owner n
  pan.tiles == 0 || !nbit pan.classes cls || (own != 0 && !bit (s.reg (0x31004 + 0x10 * own)) p)

/-- OPEN of session `n` breaks no rule of Table 3.6. -/
def State.openGroupOk (s : State) (n : Nat) : Bool :=
  let x := s.ses n
  let ms := s.sessions.filter fun e => e.1 != n && e.2.member && e.2.groupNo == x.groupNo && e.2.st != .closed
  !x.member ||
    (x.cls != clsDecode && (ms.all fun e => e.2.panel == x.panel && e.2.cls == x.cls && e.2.rank != x.rank) &&
      (x.rank == 0 || ms.any fun e => e.2.rank == 0))

/-- The mode forbids command `cmd` (Table 3.4, R372). -/
def State.modeBars (s : State) (cmd : Nat) : Bool :=
  match s.mode with
  | .standby => true
  | .primed => true
  | .safe => cmd != 7
  | _ => s.pwr.standbyPend && (cmd == 1 || cmd == 9)

/-- Table 3.3: the state admits command `cmd`; in SAFE, CLOSE is accepted in any state but CLOSED. -/
def State.stateAdmits (s : State) (cmd : Nat) (st : Ses) : Bool :=
  match cmd, st with
  | 1, .closed => true
  | 2, .opened => true
  | 2, .ready => true
  | 2, .running => true
  | 2, .paused => true
  | 3, .ready => true
  | 4, .running => true
  | 5, .paused => true
  | 6, .running => true
  | 6, .paused => true
  | 7, .closed => false
  | 7, .opened => true
  | 7, .ready => true
  | 7, .paused => true
  | 7, _ => s.pwr.safe
  | 8, .running => true
  | 8, .paused => true
  | 9, .closed => true
  | 10, .running => true
  | 10, .paused => true
  | 11, .running => true
  | 11, .paused => true
  | _, _ => false

/-- `a` is `b` or at most 2^23 pictures later, modulo 2^24 (R68). -/
def laterEq (a b : Nat) : Bool := decide ((a + 2 ^ 24 - b % 2 ^ 24) % 2 ^ 24 ≤ 2 ^ 23)

/-- INVALIDATE_REF's window (R68). -/
def Session.inWindow (x : Session) (n : Nat) : Bool :=
  match x.lastAdm with
  | some a => decide ((a + 2 ^ 24 - n % 2 ^ 24) % 2 ^ 24 ≤ 2 ^ 23)
  | none => false

/-- The address of SES_MIGRATE names this device (R55): a migration between panels. -/
def State.selfPeer (s : State) (x : Session) : Bool := fld x.migrate 17 0 == s.lin.addr

/-- The class that MIGRATE_IN checks: the source's for a migration between panels (R70), the record's own before the line
names the source. -/
def State.migClass (s : State) (n : Nat) : Nat :=
  let x := s.ses n
  if s.selfPeer x then (s.ses (fld x.migrate 29 18)).cls else x.cls

/-- A migration in between panels keeps a group on one panel (Table 3.6). -/
def State.migGroupOk (s : State) (n : Nat) : Bool :=
  let x := s.ses n
  let src := s.ses (fld x.migrate 29 18)
  !s.selfPeer x || !src.member ||
    s.sessions.all fun e => match e.2.mig with
      | some g =>
        let o := s.ses g.peerSes
        g.out || g.peer != s.lin.addr || !o.member || o.groupNo != src.groupNo || e.2.panel == x.panel
      | none => true

/-- The reason for which command `cmd` with `arg` on session `n` is ignored, in the order of R429; `none` accepts it. -/
def State.cmdReason (s : State) (n cmd arg : Nat) : Option Nat :=
  let x := s.ses n
  let common := [(!s.modeBars cmd, 6), (s.stateAdmits cmd x.st, 0),
    (if cmd = 10 then x.inWindow arg else arg == 0, 7)]
  let rest : List (Bool × Nat) :=
    if cmd = 1 then
      [(!s.panelBars n x.panel x.cls, 2), (decide (s.openOn x.panel < (s.panel x.panel).maxSes), 5), (s.openGroupOk n, 3)]
    else if cmd = 7 then
      [(!x.member || x.rank != 0 || (s.members n).all fun m => m == n, 3)]
    else if cmd = 8 then [(x.migrate != 0 && !x.lower, 1)]
    else if cmd = 9 then
      [(!s.panelBars n x.panel (s.migClass n), 2), (decide (s.openOn x.panel < (s.panel x.panel).maxSes), 5),
       (s.migGroupOk n, 3)]
    else if cmd = 10 then [(x.cls != clsDecode, 1)]
    else []
  match firstFail (common ++ rest) with
  | some r => some r
  | none => if cmd = 2 then s.cfgReason n else none

/-- Pages that session `n` still holds for the host copy, those of committed bands that no record has described yet among them, or by
reservation (R168). -/
def State.freeSesPages (s : State) (n : Nat) : State :=
  let x := s.ses n
  let s := x.outq.foldl (fun s o => s.releasePages 0 o.pages) s
  let early := x.pics.flatMap fun p =>
    if bit (cget p.cfg 0x200) 0 ∧ ¬ (x.cls = clsLive ∧ bit (cget p.cfg 0x200) 4) then
      (p.units.filter fun u => u.st == .committed || u.recode).flatMap (·.pages)
    else []
  (s.releasePages 0 early).freeAll (x.pics.map (·.pages)).flatten

/-- Spares warm for panel `p`, which holds a LIVE session, are in nap with their quadrant's PLL running (R377): one that is
off comes to nap (DEDUCED, log 40). -/
def State.warmSpares (s : State) (p : Nat) : State :=
  (s.spares p).foldl (fun s t =>
    if (s.tile t).power == .off then
      let q := quadOf t
      let s := if (s.quad q).pll then s else s.startPll q (tget 0 s.pat.caps q * 100)
      s.modTile t fun x => { x with power := .nap, since := s.now, ndl := { x.ndl with state := 0 } }
    else s) s

/-- OPEN (R59): a fresh record bound to its panel and class; FOLD_GEN starts at 0 and publishes. -/
def State.openOp (s : State) (n : Nat) : State :=
  let x := s.ses n
  let s := ((s.freeSesPages n).setSes n x.renew).setSt n .opened
  if x.cls = clsLive then s.warmSpares x.panel else s

/-- The CONFIGURE that leaves OPEN allocates DEC_LIMITS.dpb + 1 reference buffers (R187). -/
def Session.allocate (x : Session) : Session :=
  if x.cls = clsDecode then { x with dec := { x.dec with buffers := fld (cget x.cfg 0x320) 12 8 + 1 } } else x

/-- CONFIGURE (R60): the staging area becomes the pending set. -/
def State.configureOp (s : State) (n : Nat) : State :=
  let x := s.ses n
  let s := s.setSes n { x with pend := some x.effective, cfgSeq := x.cfgSeq + 1, pendSeq := x.cfgSeq + 1 }
  let s := s.applyCalm n
  if x.st = .opened then (s.modSes n (·.allocate)).setSt n .ready else s

/-- Subscribers of a session take their RTP sequence number from seq_init (R209). -/
def State.resetSeqs (s : State) (n : Nat) : State :=
  (outSubs (s.ses n).cfg).foldl (fun s e =>
    let y := s.sub e.2
    s.setSub e.2 { y with seq := flSeqInit y.flowNext, roc := 0, stopped := false, limit := false }) s

/-- Bulk state at the start of a stream: no references, no history (R59, R106, R129, R132, R142). -/
def Session.begin (x : Session) (f0 : Int) : Session :=
  { x with
    nextPic := 0, lastAdm := none, pictures := 0, eos := false, eosSent := false, refs := [], ltr := none
    refresh := none, areas := [], cdfs := [], lastSource := [], lastCoded := [], refBuf := [], owed := [], recNext := false, invalN := none, recPend := false, drainTo := none, seen := none, seenWait := false
    rc := { f := f0 }, me := { agree := x.me.agree, hintless := x.me.hintless }
    cwords := tset 0 0x1F8 0 (tset 0 0x1FC 0 x.cwords)
    rowsReg := 0, rows0 := 0, rows1 := 0, dec := { x.dec with dpb := [] } }

/-- START (R59). -/
def State.startOp (s : State) (n : Nat) : State :=
  let x := s.ses n
  let t := termsOf x.cls x.cfg (maxGang s.pat x.panel)
  let s := s.setSes n (x.begin (if x.cls = clsDecode then 0 else t.f0))
  let s := (s.resetSeqs n).setSt n .running
  if x.cls = clsLive then s.refloor x.panel else s

/-- PAUSE (R59). -/
def State.pauseOp (s : State) (n : Nat) : State :=
  let s := s.setSt n .paused
  let s := s.applyCalm n
  if (s.ses n).cls = clsLive then s.refloor (s.ses n).panel else s

/-- RESUME (R59). -/
def State.resumeOp (s : State) (n : Nat) : State :=
  let s := s.setSt n .running
  if (s.ses n).cls = clsLive then s.refloor (s.ses n).panel else s

/-- One session enters DRAINING (R59), and ends its stream at once when nothing of it remains. -/
def State.drainOne (s : State) (n : Nat) : State :=
  let x := s.ses n
  ((s.setSes n { x with drainTo := some x.inTail, eosSent := false }).setSt n .draining).endDrain n

/-- DRAIN; of rank 0, every RUNNING or PAUSED member drains (R65). -/
def State.drainOp (s : State) (n : Nat) : State :=
  let x := s.ses n
  if x.member && x.rank == 0 then
    let ms := (s.members n).filter fun m => m != n && ((s.ses m).st == .running || (s.ses m).st == .paused)
    ms.foldl State.drainOne (s.drainOne n)
  else s.drainOne n

/-- Units of session `n` that still run on a tile and have not committed leave it (R59). -/
def State.dropUnits (s : State) (n : Nat) : State :=
  (upto s.nTiles).foldl (fun s t => match (s.tile t).work with
    | some u => if u.ses = n ∧ ¬ (s.tile t).ndl.committed ∧ (s.tile t).abandon = 0 then s.modTile t (·.rest s.now) else s
    | none => s) s

/-- The effects of CLOSE without the change of state (R59, R168): input entries discarded, reservations, references, slots
and pages freed, copies and packets ended, staging and SES_CFG_SEQ cleared. -/
def State.wipe (s : State) (n : Nat) : State :=
  let s := ((s.dropUnits n).flushSes n).freeSesPages n
  s.modSes n fun x =>
    let y : Session := { x with
      cfgSeq := 0, pendSeq := 0, forceSeq := 0, pend := none, force := none, revert := false, inTail := 0, inHead := 0
      hintTail := 0, hintHead := 0, outHead := 0, outTail := 0, hintOwed := 0, rowsReg := 0, rows0 := 0, rows1 := 0
      seen := none, seenWait := false, pics := [], kept := [], drainTo := none, inStall := false, eos := false, eosSent := false
      recPend := false, recNext := false, invalN := none, refs := [], ltr := none, refresh := none, areas := [], cdfs := [], refBuf := [], lastSource := [], lastCoded := [], owed := [], rc := {}
      dec := { x.dec with slots := [], written := [], dpb := [], sets := [], buffers := 0 }
      bufHead := 0, bufFill := 0, outq := [], pace := [], mig := none, lastAdm := none }
    y.restage

/-- The peer of a migration between panels. -/
def State.migPeer (s : State) (n : Nat) : Option Nat :=
  match (s.ses n).mig with
  | some g => if g.peer = s.lin.addr then some g.peerSes else none
  | none => none

/-- A destination returns to CLOSED (R58, R71). -/
def State.migDstFail (s : State) (n : Nat) : State :=
  let x := s.ses n
  match x.mig with
  | some g =>
    if x.st = .migrating ∧ ¬ g.out then
      let s := s.setSes n { x with mig := none }
      let s := s.setSt n .closed
      s.postState n .closed .migrating true
    else s
  | none => s

/-- A source resumes in its prior state with mig_failed (R58, R71). -/
def State.migSrcFail (s : State) (n : Nat) : State :=
  let x := s.ses n
  match x.mig with
  | some g =>
    if x.st = .migrating ∧ g.out then
      let s := s.setSes n { x with mig := none, st := x.prior, prior := .closed, migFailed := true }
      let s := s.publish n
      s.postState n x.prior .migrating true
    else s
  | none => s

/-- A SAFE migration ended (R365): counted, and the notice goes once the last has. -/
def State.safeMigEnd (s : State) (n : Nat) (ok : Bool) : State :=
  if s.lin.safeLeft.contains n then
    let l := s.lin.safeLeft.erase n
    let s := { s with lin := { s.lin with
      safeLeft := l
      safeMoved := s.lin.safeMoved + b2n ok
      safeFailed := s.lin.safeFailed + b2n (!ok) } }
    if l.isEmpty then s.safeNotice else s
  else s

/-- Notice kind 7 for a failed migration that the host issued (R366); SAFE migrations are counted in one notice. -/
def State.migNotice (s : State) (n : Nat) : State :=
  match (s.ses n).mig with
  | some g => if g.out && !g.auto then s.note s.lin.addr 7 1 else s
  | none => s

/-- A source that has opened a migration over the line tells its destination that it failed (R71, R364). -/
def State.migRefuse (s : State) (n : Nat) : State :=
  match (s.ses n).mig with
  | some g =>
    if g.out && g.phase != 0 && g.peer != s.lin.addr then s.sendTo ftMigCtl g.peer 1 [2, g.peerSes, n] else s
  | none => s

/-- The migration of session `n` fails (R71): source and local destination return. A whole group fails as one unit. -/
def State.migFail (s : State) (n : Nat) : State :=
  let x := s.ses n
  let ms := if x.member then (s.members n).filter fun m => (s.ses m).st == Ses.migrating else [n]
  let s := s.migNotice n
  let s := ms.foldl (fun s m =>
    let p := s.migPeer m
    let s := s.migRefuse m
    let s := s.migSrcFail m
    match p with
    | some d => match (s.ses d).mig with
      | some g => if g.peerSes = m then s.migDstFail d else s
      | none => s
    | none => s) s
  s.safeMigEnd n false

/-- CLOSE (R59). In SAFE a migrating source first fails its migration (DEDUCED). -/
def State.closeOp (s : State) (n : Nat) : State :=
  let x := s.ses n
  let s := match x.mig with
    | some g => if x.st = Ses.migrating ∧ g.out = true then s.migFail n else s
    | none => s
  let s := s.wipe n
  let s := s.setSt n .closed
  if x.cls = clsLive then s.refloor x.panel else s

/-- MIGRATE_IN (R70, R73). -/
def State.migrateInOp (s : State) (n : Nat) : State :=
  let x := s.ses n
  let s := (s.freeSesPages n).setSes n { x.renew with
    mig := some { out := false, peer := fld x.migrate 17 0, peerSes := fld x.migrate 29 18, started := s.now } }
  s.setSt n .migrating

/-- INVALIDATE_REF (R68): references numbered `m` or later become unusable; the next admitted picture predicts only from
older ones. Several before one admission act as one, with the oldest window. -/
def State.invalidateOp (s : State) (n m : Nat) : State :=
  s.modSes n fun x => { x with
    refs := x.refs.filter fun r => !laterEq r m
    ltr := x.ltr.filter fun r => !laterEq r m
    pics := x.pics.map fun p => if laterEq p.num m then { p with noRef := true } else p
    invalN := match x.invalN with
      | some k => some (if laterEq m k then k else m)
      | none => some m }

/-- FORCE_RECOVERY (R69). -/
def State.recoveryOp (s : State) (n : Nat) : State :=
  s.modSes n fun x => { x with recNext := true, recPend := true }

/-- The effect of accepted command `cmd`. -/
def State.cmdEffect (s : State) (n cmd arg : Nat) : State :=
  if cmd = 1 then s.openOp n
  else if cmd = 2 then s.configureOp n
  else if cmd = 3 then s.startOp n
  else if cmd = 4 then s.pauseOp n
  else if cmd = 5 then s.resumeOp n
  else if cmd = 6 then s.drainOp n
  else if cmd = 7 then s.closeOp n
  else if cmd = 8 then s.migrateOut n false
  else if cmd = 9 then s.migrateInOp n
  else if cmd = 10 then s.invalidateOp n arg
  else s.recoveryOp n

/-- A write of `v` to SES_CMD of session `n` (R57, R429). -/
def State.sesCmd (s : State) (n : Nat) (v : Word) : State :=
  let cmd := fld v 3 0
  let arg := fld v 31 8
  if cmd = 0 ∨ 11 < cmd then s.ignoredSes n 0 v (if s.modeBars cmd then 6 else 1)
  else match s.cmdReason n cmd arg with
    | some r => s.ignoredSes n 0 v r
    | none => s.cmdEffect n cmd arg

/-- SES_LEVEL (R8, R63): ignored in MIGRATING. -/
def State.sesLevel (s : State) (n : Nat) (v : Word) : State :=
  let x := s.ses n
  if x.st = .migrating then s.ignoredSes n 0x014 v 0
  else if bit v 0 = x.level then s
  else if bit v 0 then s.setSes n { x.unlock with revert := false }
  else if x.st = .closed then s.setSes n { x with level := false }
  else (s.setSes n { x with level := false, revert := true }).applyCalm n

/-- A ring index write moves forward within the window `lim` (R67). -/
def forward (size old new_ lim : Nat) : Bool :=
  decide (new_ < size) && decide ((new_ + size - old % size) % size ≤ (lim + size - old % size) % size)

/-- Consume unread the hint entries that a tail write brought within HINT_TAIL (R117). -/
def State.payHints (s : State) (n : Nat) : Nat → State
  | 0 => s
  | k + 1 =>
    let x := s.ses n
    let sz := ringSize x.cfg 0x2D0
    if x.hintOwed ≠ 0 ∧ x.hintHead % sz ≠ x.hintTail % sz then
      ((s.setSes n { x with hintHead := (x.hintHead + 1) % sz, hintOwed := x.hintOwed - 1 }).emit
        (.ownerClear n 1 (x.hintHead % sz))).payHints n k
    else s

/-- IN_TAIL or HINT_TAIL (R67): accepted in READY, RUNNING and PAUSED, forward from the head; a session without the ring
has no index to name. -/
def State.tailWrite (s : State) (n off : Nat) (v : Word) : State :=
  let x := s.ses n
  let base := off - 0xC
  let size := ringSize x.cfg base
  let new_ := fld v 15 0
  let head := if off = 0x2CC then x.inHead else x.hintHead
  let tail := if off = 0x2CC then x.inTail else x.hintTail
  if x.st ≠ .ready ∧ x.st ≠ .running ∧ x.st ≠ .paused then s.ignoredSes n off v 0
  else if ringBase x.cfg base = 0 ∨ size ≤ new_
      ∨ (new_ + size - head % size) % size < (tail + size - head % size) % size then s.ignoredSes n off v 1
  else if off = 0x2CC then s.setSes n { x with inTail := new_, inStall := false }
  else (s.setSes n { x with hintTail := new_ }).payHints n size

/-- OUT_HEAD (R67). -/
def State.outHeadOp (s : State) (n : Nat) (v : Word) : State :=
  let x := s.ses n
  let size := ringSize x.cfg 0x2E0
  let new_ := fld v 15 0
  if x.st = .closed ∨ x.st = .opened then s.ignoredSes n 0x2EC v 0
  else if ringBase x.cfg 0x2E0 = 0 ∨ ¬ forward size x.outHead new_ x.outTail then s.ignoredSes n 0x2EC v 1
  else s.setSes n { x with outHead := new_ }


/-- Bands of a picture whose rows are all fetched get their row tokens (R97); a picture of another class starts whole. -/
def Pic.tokens (p : Pic) (live : Bool) (rows : Nat) : Pic :=
  let need (i : Nat) : Nat := if live then min (cH clsLive p.cfg) ((i + 1) * cBand p.cfg) else cH clsLive p.cfg
  { p with units := p.units.map fun u => if u.st = .waitRow ∧ need u.idx ≤ rows then { u with st := .ready } else u }

/-- The last line of a picture's source, and of its hint planes in host memory, is in the source buffer: their owner bits clear (R94,
R116). -/
def State.sourceIn (s : State) (n : Nat) (p : Pic) : State :=
  let s := s.modSes n fun x => x.modPic p.num fun p => { p with
    freed := true, hintIdx := p.hintIdx.filter fun h => h.2 == 1 }
  let s := if p.freed then s else s.emit (.ownerClear n 0 p.inIdx)
  match p.hintIdx with
  | some h => if h.2 = 1 then s else s.emit (.ownerClear n 1 h.1)
  | none => s

/-- Post row tokens from the progress values; a source fetched whole gives its entry back (R94, R97). -/
def State.fetchRows (s : State) (n : Nat) : Nat → State
  | 0 => s
  | k + 1 =>
    let x := s.ses n
    let h := x.headPic
    match x.pics.find? fun p => p.num == h with
    | none => s
    | some p =>
      let next := (h + 1) % 2 ^ 24
      let s := s.modSes n fun x => (x.modPic h (·.tokens true x.rows0)).modPic next (·.tokens true x.rows1)
      if cH clsLive p.cfg ≤ x.rows0 then
        let s := s.modSes n fun x => { x with rows0 := x.rows1, rows1 := 0 }
        (if p.space = 0 then s.sourceIn n p else s).fetchRows n k
      else s

/-- RING_IN_ROWS (R97). -/
def State.rowsWrite (s : State) (n : Nat) (v : Word) : State :=
  let x := s.ses n
  let rows := fld v 13 0
  let h := x.headPic
  let c := match x.pics.find? fun p => p.num == h with
    | some p => p.cfg
    | none => x.cfg
  if x.st ≠ .running ∧ x.st ≠ .draining then s.ignoredSes n 0x2F0 v 0
  else
    let first_ := decide (fld v 31 16 = h % 65536)
    let second := decide (fld v 31 16 = (h + 1) % 65536)
    if !(first_ || second) then s.ignoredSes n 0x2F0 v 7
    else if rows = 0 then s.setSes n { x with rowsReg := maskW 0xFFFF3FFF v }
    else if rows < (if first_ then x.rows0 else x.rows1) ∨ cH clsLive c < rows then s.ignoredSes n 0x2F0 v 7
    else
      (s.setSes n { x with
        rowsReg := maskW 0xFFFF3FFF v
        rows0 := if first_ then rows else x.rows0
        rows1 := if first_ then x.rows1 else rows }).fetchRows n (x.pics.length + 1)

/-- OUT_BUF_HEAD (R169). -/
def State.bufHeadOp (s : State) (n : Nat) (v : Word) : State :=
  let x := s.ses n
  let head := fld v 29 0
  if x.st = .closed ∨ x.st = .opened then s.ignoredSes n 0x220 v 0
  else if 2 ^ fld (cget x.cfg 0x20C) 4 0 ≤ head then s.ignoredSes n 0x220 v 1
  else s.setSes n { x with bufHead := head }

/-- DEC_WIN_RELEASE (R184): only a held slot is freed. -/
def State.winRelease (s : State) (n : Nat) (v : Word) : State :=
  let x := s.ses n
  let k := fld v 5 0
  if x.st = .closed ∨ x.st = .opened then s.ignoredSes n 0x328 v 0
  else if tget 0 x.dec.slots k ≠ 3 then s.ignoredSes n 0x328 v 7
  else s.setSes n { x with dec := { x.dec with slots := tset 0 k 0 x.dec.slots } }

/-- SES_CLASS, SES_PANEL and SES_GROUP (R56): writable in CLOSED only. -/
def State.bindWrite (s : State) (n off : Nat) (v : Word) : State :=
  let x := s.ses n
  if x.st ≠ .closed then s.ignoredSes n off v 0
  else if off = 0x008 then s.setSes n { x with cls := fld v 1 0 }
  else if off = 0x00C then s.setSes n { x with panel := fld v 3 0 }
  else s.setSes n { x with group := maskW 0x1FFF v }

/-- A staged write (R7, R12, R54). -/
def State.stageWrite (s : State) (n off mask : Nat) (v : Word) : State :=
  let x := s.ses n
  if x.st = .migrating then s.ignoredSes n off v 0
  else if isExpert off && !x.level then s.ignoredSes n off v 9
  else s.setSes n { x with staged := cset x.staged off (maskW mask v) }

/-- A word write to record register `off` of session `n` (Table 3.1, R410, R426). -/
def State.sesWrite (s : State) (n off : Nat) (v : Word) : State :=
  if off = 0x000 then s.sesCmd n v
  else if off = 0x008 ∨ off = 0x00C ∨ off = 0x010 then s.bindWrite n off v
  else if off = 0x014 then s.sesLevel n v
  else if off = 0x018 then s.modSes n fun x => { x with ignored := 0 }
  else if off = 0x01C ∨ off = 0x020 ∨ off = 0x024 then s
  else if off = 0x02C then s.modSes n fun x => { x with migrate := maskW 0x3FFFFFFF v }
  else if off = 0x2CC ∨ off = 0x2DC then s.tailWrite n off v
  else if off = 0x2EC then s.outHeadOp n v
  else if off = 0x2F0 then s.rowsWrite n v
  else if off = 0x220 then s.bufHeadOp n v
  else if off = 0x328 then s.winRelease n v
  else match cfgMask off with
    | some m => s.stageWrite n off m v
    | none => s.ignoredSes n off v 8

/-- SES_CMD word of a command and its argument. -/
def cmdWord (cmd : Nat) (arg : BitVec 24) : Word := mkWord [(0, cmd), (8, arg.toNat)]

/-- SES_CMD written with a command through function `fn`. -/
def State.cmdVia (s : State) (fn n cmd : Nat) (arg : BitVec 24) : State :=
  s.onSes fn n 0 (cmdWord cmd arg) fun s k => s.sesCmd k (cmdWord cmd arg)

/-- OPEN. -/
def execOpenSession (fn n : Nat) (arg : BitVec 24) (s : State) : Host.Outcome State Fault Refusal := .next (s.cmdVia fn n 1 arg)

/-- CONFIGURE. -/
def execConfigure (fn n : Nat) (arg : BitVec 24) (s : State) : Host.Outcome State Fault Refusal := .next (s.cmdVia fn n 2 arg)

/-- START. -/
def execStart (fn n : Nat) (arg : BitVec 24) (s : State) : Host.Outcome State Fault Refusal := .next (s.cmdVia fn n 3 arg)

/-- PAUSE. -/
def execPause (fn n : Nat) (arg : BitVec 24) (s : State) : Host.Outcome State Fault Refusal := .next (s.cmdVia fn n 4 arg)

/-- RESUME. -/
def execResume (fn n : Nat) (arg : BitVec 24) (s : State) : Host.Outcome State Fault Refusal := .next (s.cmdVia fn n 5 arg)

/-- DRAIN. -/
def execDrain (fn n : Nat) (arg : BitVec 24) (s : State) : Host.Outcome State Fault Refusal := .next (s.cmdVia fn n 6 arg)

/-- CLOSE. -/
def execClose (fn n : Nat) (arg : BitVec 24) (s : State) : Host.Outcome State Fault Refusal := .next (s.cmdVia fn n 7 arg)

/-- MIGRATE_OUT. -/
def execMigrateOut (fn n : Nat) (arg : BitVec 24) (s : State) : Host.Outcome State Fault Refusal := .next (s.cmdVia fn n 8 arg)

/-- MIGRATE_IN. -/
def execMigrateIn (fn n : Nat) (arg : BitVec 24) (s : State) : Host.Outcome State Fault Refusal := .next (s.cmdVia fn n 9 arg)

/-- INVALIDATE_REF. -/
def execInvalidateRef (fn n : Nat) (arg : BitVec 24) (s : State) : Host.Outcome State Fault Refusal := .next (s.cmdVia fn n 10 arg)

/-- FORCE_RECOVERY. -/
def execForceRecovery (fn n : Nat) (arg : BitVec 24) (s : State) : Host.Outcome State Fault Refusal := .next (s.cmdVia fn n 11 arg)

/-- SES_LEVEL_WRITE. -/
def execSesLevelWrite (fn n : Nat) (v : Word) (s : State) : Host.Outcome State Fault Refusal :=
  .next (s.onSes fn n 0x014 v fun s k => s.sesLevel k v)

/-- IN_TAIL_WRITE. -/
def execInTailWrite (fn n : Nat) (v : Word) (s : State) : Host.Outcome State Fault Refusal :=
  .next (s.onSes fn n 0x2CC v fun s k => s.tailWrite k 0x2CC v)

/-- HINT_TAIL_WRITE. -/
def execHintTailWrite (fn n : Nat) (v : Word) (s : State) : Host.Outcome State Fault Refusal :=
  .next (s.onSes fn n 0x2DC v fun s k => s.tailWrite k 0x2DC v)

/-- OUT_HEAD_WRITE. -/
def execOutHeadWrite (fn n : Nat) (v : Word) (s : State) : Host.Outcome State Fault Refusal :=
  .next (s.onSes fn n 0x2EC v fun s k => s.outHeadOp k v)

/-- RING_IN_ROWS_WRITE. -/
def execRingInRowsWrite (fn n : Nat) (v : Word) (s : State) : Host.Outcome State Fault Refusal :=
  .next (s.onSes fn n 0x2F0 v fun s k => s.rowsWrite k v)

/-- OUT_BUF_HEAD_WRITE. -/
def execOutBufHeadWrite (fn n : Nat) (v : Word) (s : State) : Host.Outcome State Fault Refusal :=
  .next (s.onSes fn n 0x220 v fun s k => s.bufHeadOp k v)

end Sys2Proof.Machine
end

