-- ==== Sys2Proof/Machine/Source.lean ====
section
/-!
DEFINITION. Source pictures: sample layouts (R91), conversion to the coded format (R92), the lines for lower ranks (R98), pre-analysis
(R101). Planes are lists of lines of samples, Y, Cb, Cr.
-/
namespace Sys2Proof.Machine

/-- A sample at another depth (R92): 10 to 8 bits rounded, 8 to 10 shifted. -/
def toDepth (a b v : Nat) : Nat := if a = 10 ∧ b = 8 then min 255 ((v + 2) / 4) else if a = 8 ∧ b = 10 then 4 * v else v

/-- Sample `i` of a line, its ends repeated. -/
def atLine (l : List Nat) (i : Int) : Nat := l.getD (min i.toNat (l.length - 1)) 0

/-- [1, 2, 1] / 4 centred on even samples (R92), rounded (log 125). -/
def halveLine (l : List Nat) : List Nat :=
  (upto (ceilDiv l.length 2)).map fun (i : Nat) => (atLine l (2 * i - 1) + 2 * atLine l (2 * i) + atLine l (2 * i + 1) + 2) / 4

/-- [1, 1] / 2 between line pairs (R92), rounded (log 125). -/
def halveRows : List (List Nat) → List (List Nat)
  | a :: b :: t => (a.zip b).map (fun e => (e.1 + e.2 + 1) / 2) :: halveRows t
  | l => l

/-- 4-tap upsampling of a line to `n` samples (R92). -/
def doubleLine (n : Nat) (l : List Nat) : List Nat :=
  (upto n).map fun i => let k : Int := (i / 2 : Nat)
    Config.upTap (i % 2) (atLine l (k - 1)) (atLine l k) (atLine l (k + 1)) (atLine l (k + 2))

/-- 4-tap upsampling to `n` lines. -/
def doubleRows (n : Nat) (rows : List (List Nat)) : List (List Nat) :=
  (upto n).map fun i =>
    let row (j : Int) : List Nat := rows.getD (min j.toNat (rows.length - 1)) []
    let k : Int := (i / 2 : Nat)
    (upto (row k).length).map fun (x : Nat) =>
      Config.upTap (i % 2) (atLine (row (k - 1)) x) (atLine (row k) x) (atLine (row (k + 1)) x) (atLine (row (k + 2)) x)

/-- Lines of samples of a plane. -/
abbrev Plane := List (List Nat)

/-- The samples of a line of a one-component plane (Table 5.1): one byte each, or 16-bit words of which 10 bits count. -/
def lineSamples (fmt n : Nat) (bs : List Byte) : List Nat :=
  if fmt = 1 then (upto n).map fun i => leAt bs (2 * i) 2 / 64
  else if fmt = 3 then (upto n).map fun i => leAt bs (2 * i) 2 % 1024
  else (upto n).map fun i => leAt bs i 1

/-- R, G and B of pixel `i` of a line (Table 5.1). -/
def rgbAt (fmt : Nat) (bs : List Byte) (i : Nat) : Nat × Nat × Nat :=
  if fmt = 4 then (leAt bs (4 * i) 1, leAt bs (4 * i + 1) 1, leAt bs (4 * i + 2) 1)
  else
    let v := leAt bs (4 * i) 4
    (nfld v 9 0, nfld v 19 10, nfld v 29 20)

/-- Every second sample of a line from `k` on. -/
def alternate (l : List Nat) (k : Nat) : List Nat := (upto (l.length / 2)).map fun i => l.getD (2 * i + k) 0

/-- What the samples of a source are: their bits, their chroma (0 for 4:2:0, 1 for 4:2:2, 2 for 4:4:4), and that they were RGB. -/
structure SrcForm where
  depth : Nat
  chroma : Nat
  rgb : Bool
deriving DecidableEq, Repr

/-- The samples of a source format (Table 5.1). -/
def srcForm (fmt : Nat) : SrcForm where
  depth := if fmt = 0 ∨ fmt = 2 ∨ fmt = 4 then 8 else 10
  chroma := if fmt ≤ 1 then 0 else 2
  rgb := fmt == 4 || fmt == 5

/-- The samples of an ingest flow (Table 10.4). -/
def ingestForm (sampling : Nat) : SrcForm where
  depth := if sampling % 2 = 0 then 8 else 10
  chroma := if sampling ≤ 1 then 1 else 2
  rgb := decide (4 ≤ sampling)

/-- The planes of a source picture of `w` luma columns from the lines of its source planes (R91); RGB goes through the matrix at full range
(R92). -/
def srcPicture (c : Tbl Word) (w : Nat) (ls : List (List (List Byte))) : List Plane :=
  let fmt := fld (cget c 0x048) 3 0
  let plane (k n : Nat) : Plane := (ls.getD k []).map (lineSamples fmt n)
  if fmt ≤ 1 then [plane 0 w, (plane 1 w).map (alternate · 0), (plane 1 w).map (alternate · 1)]
  else if fmt ≤ 3 then [plane 0 w, plane 1 w, plane 2 w]
  else if fmt ≤ 5 then
    let ycc := (ls.getD 0 []).map fun l => (upto w).map fun i =>
      let p := rgbAt fmt l i
      Config.toYcc (fld (cget c 0x048) 7 6) (srcForm fmt).depth p.1 p.2.1 p.2.2
    [ycc.map fun l => l.map (·.1), ycc.map fun l => l.map (·.2.1), ycc.map fun l => l.map (·.2.2)]
  else []

/-- A sample in the coded range (R92): plane `k`, source full or RGB, coded full. -/
def toCodedRange (c : Tbl Word) (f : SrcForm) (k v : Nat) : Nat :=
  let b := bit (cget c 0x048) 9
  if (bit (cget c 0x048) 8 || f.rgb) = b then v else Config.toRange f.depth b (decide (k ≠ 0)) v

/-- A sample at the coded depth (R92), dithered at (x, y) if ENC_SCALE says so. -/
def toCodedDepth (c : Tbl Word) (f : SrcForm) (x y v : Nat) : Nat :=
  let b := if bit (cget c 0x048) 5 then 10 else 8
  if f.depth = 10 ∧ b = 8 ∧ bit (cget c 0x094) 4 then Config.dithered x y v else toDepth f.depth b v

/-- The source picture in the coded chroma format, range and depth of configuration `c` (R92, R204). -/
def codedPicture (c : Tbl Word) (f : SrcForm) (w h : Nat) (ps : List Plane) : List Plane :=
  let chroma (p : Plane) : Plane :=
    if bit (cget c 0x048) 4 then
      if f.chroma = 0 then (doubleRows h p).map (doubleLine w) else if f.chroma = 1 then p.map (doubleLine w) else p
    else if f.chroma = 0 then p else if f.chroma = 1 then halveRows p else halveRows (p.map halveLine)
  let sized := match ps with
    | [] => []
    | y :: cs => y :: cs.map chroma
  sized.zipIdx.map fun p => p.1.zipIdx.map fun l => l.1.zipIdx.map fun v => toCodedDepth c f v.2 l.2 (toCodedRange c f p.2 v.1)

/-- The name tape of configuration `c` in a picture's converted samples (R393). -/
def taped (c : Tbl Word) (w h pts : Nat) (ps : List Plane) : List Plane :=
  let k := fld (cget c 0x288) 3 0
  if k = 0 then ps
  else match ps with
    | [] => []
    | y :: cs => (y.zipIdx.map fun l => l.1.zipIdx.map fun v => Config.nameTape (ntPayload c) k w h pts v.2 l.2 v.1) :: cs

/-- Where output sample `i` of `n` lies among `n0` source samples (R98): the sample below its centre and the phase of 64, truncated (log
124). -/
def scalePlace (n0 n i : Nat) : Int × Nat :=
  let c : Int := (64 * n0 * (2 * i + 1) : Nat) / (2 * max 1 n : Nat) - 32
  (c / 64, (c % 64).toNat)

/-- A line scaled to `n` samples with `taps` taps, its ends repeated (R98). -/
def scaleLine (sharp taps n : Nat) (l : List Nat) : List Nat :=
  (upto n).map fun i =>
    let p := scalePlace l.length n i
    Config.scaleSample sharp p.2 ((upto taps).map fun (k : Nat) => atLine l (p.1 + (k : Int) - (taps / 2 : Nat) + 1))

/-- Lines and columns exchanged. -/
def crossed (p : Plane) : Plane := (upto (p.headD []).length).map fun x => p.map fun l => l.getD x 0

/-- A plane scaled to `w` × `h`. -/
def scalePlane (sharp taps w h : Nat) (p : Plane) : Plane := (crossed ((crossed p).map (scaleLine sharp taps h))).map (scaleLine sharp taps w)

/-- The source of a lower rank (R98): rank 0's source picture in the lower rank's coded format, 8 taps for luma and 4 for chroma. `c0` is
rank 0's configuration and `c` the lower rank's. -/
def scaledPicture (c0 c : Tbl Word) (f : SrcForm) (w0 h0 w h : Nat) (ps : List Plane) : List Plane :=
  let own := cset c0 0x048 ((cget c0 0x048 &&& 0x10F) ||| (cget c 0x048 &&& 0xFFFFFEF0))
  let sharp := fld (cget c0 0x094) 3 0
  let half := !bit (cget c 0x048) 4
  (codedPicture own f w0 h0 ps).zipIdx.map fun p =>
    if p.2 = 0 then scalePlane sharp 8 w h p.1
    else if half then scalePlane sharp 4 (w / 2) (h / 2) p.1 else scalePlane sharp 4 w h p.1

/-- The samples of a plane in the block of `n` × `n` in column `bx` and row `by_`. -/
def blockSamples (p : Plane) (n bx by_ : Nat) : List (List Nat) :=
  ((p.drop (n * by_)).take n).map fun l => (l.drop (n * bx)).take n

/-- The variance of luma of a 16×16 block (R101), truncated. -/
def activity (y : Plane) (bx by_ : Nat) : Nat :=
  let v := (blockSamples y 16 bx by_).flatten
  let n := max 1 v.length
  (n * (v.map fun a => a * a).sum - v.sum ^ 2) / n ^ 2

/-- The 16×16 blocks of a picture, column and row. -/
def blocksOf (w h : Nat) : List (Nat × Nat) := (upto (ceilDiv h 16)).flatMap fun j => (upto (ceilDiv w 16)).map fun i => (i, j)

/-- The static map (R101): the 16×16 blocks, as row × 1024 + column, whose source equals the previous picture's. -/
def staticMap (w h : Nat) (cur old : List Plane) : List Nat :=
  if cur.isEmpty ∨ old.isEmpty then []
  else
    let n (k : Nat) (p : Plane) : Nat := if k ≠ 0 ∧ (p.headD []).length < w then 8 else 16
    (blocksOf w h).filterMap fun b =>
      if (cur.zip old).zipIdx.all fun e => blockSamples e.1.1 (n e.2 e.1.1) b.1 b.2 == blockSamples e.1.2 (n e.2 e.1.1) b.1 b.2
      then some (b.2 * 1024 + b.1) else none

/-- The mean activity of a picture. -/
def meanActivity (w h : Nat) (ps : List Plane) : Nat :=
  match ps with
  | [] => 0
  | y :: _ => ((blocksOf w h).map fun b => activity y b.1 b.2).sum / max 1 (blocksOf w h).length

/-- Sample `k` of the `m` samples of a pgroup (Table 10.4), most significant first (PRESUMED from ST 2110-20, log 126). -/
def groupSample (depth m k : Nat) (bs : List Byte) : Nat :=
  bs.foldl (fun a b => 256 * a + b.toNat) 0 / 2 ^ (depth * (m - 1 - k)) % 2 ^ depth

/-- Pixel `i` of a row as it has arrived: Y, Cb, Cr (R204). What is missing is mid-grey (R206). -/
def ingestPixel (c : Tbl Word) (sampling i : Nat) (row : List (Option Byte)) : Nat × Nat × Nat :=
  let f := ingestForm sampling
  let g := pgroup sampling
  let part := (row.drop (i / g.2 * g.1)).take g.1
  let grey := 2 ^ (f.depth - 1)
  if part.length < g.1 ∨ part.any (·.isNone) then (grey, grey, grey)
  else
    let bs := part.filterMap id
    if sampling ≤ 1 then
      (groupSample f.depth 4 (1 + 2 * (i % 2)) bs, groupSample f.depth 4 0 bs, groupSample f.depth 4 2 bs)
    else
      let at_ (k : Nat) : Nat := groupSample f.depth (3 * g.2) (3 * (i % g.2) + k) bs
      if f.rgb then Config.toYcc (fld (cget c 0x048) 7 6) f.depth (at_ 0) (at_ 1) (at_ 2) else (at_ 1, at_ 0, at_ 2)

/-- The planes of an ingest picture from its rows (R204 to R206). -/
def ingestPicture (c : Tbl Word) (sampling w h : Nat) (rows : Tbl (List (Option Byte))) : List Plane :=
  let px := (upto h).map fun y => (upto w).map fun i => ingestPixel c sampling i (tget [] rows y)
  let sub (l : List Nat) : List Nat := if sampling ≤ 1 then alternate l 0 else l
  [px.map fun l => l.map (·.1), px.map fun l => sub (l.map (·.2.1)), px.map fun l => sub (l.map (·.2.2))]

/-- Bytes of HBM at device address `a`. -/
def State.devBytes (s : State) (a n : Nat) : List Byte :=
  (upto n).map fun i => match s.physOf (a + i) with
    | some p => s.byte p
    | none => 0

/-- The lines of a source in HBM (R91, Table 5.3 space 1). -/
def State.devLines (s : State) (fmt w h : Nat) (d : SrcDesc) : List (List (List Byte)) :=
  (srcPlanes fmt w h).zipIdx.map fun e => (upto e.1.2).map fun (i : Nat) =>
    s.devBytes ((d.addr.getD e.2 0 : Int) + d.stride.getD e.2 0 * (i : Int)).toNat e.1.1

end Sys2Proof.Machine
end

