-- ==== Sys2Proof/Machine/Admission.lean ====
section
/-!
DEFINITION. Picture admission (R75 to R82, R94 to R101, R117, R139, R140, R148 to R151, R176 to R182, R207): what the
scheduler reads, the tests of Table 4.2, drops, and the admission of rank 0 with its lower ranks (R28, R100).
-/
namespace Sys2Proof.Machine

/-- Tiles of panel `p`'s smallest gang in `sizes` that the pattern declares (R86). -/
def declaredGang (pat : Pattern) (p g : Nat) : Bool :=
  pat.roles.any fun e => fld e.2 6 4 == 1 && fld e.2 3 0 == p && 2 ^ fld e.2 9 8 == g

/-- Tiles that run a picture of session class `cls` (R86): 1, or the size of a gang. -/
def State.gangFor (s : State) (cls : Nat) (c : Tbl Word) (p : Nat) : Nat :=
  let mhz := s.clock (quadOf (s.candidate p))
  if cls = clsLive then 1
  else if 4096 < cW cls c then if declaredGang s.pat p 4 then 4 else 1
  else if tUnit cls c mhz 1 ≤ cPeriod cls c then 1
  else match [2, 4].find? fun g => declaredGang s.pat p g && decide (tUnit cls c mhz g ≤ cPeriod cls c) with
    | some g => g
    | none => 1

/-- t_queue of Table 4.1 for a picture of panel `p` with deadline `dl`. -/
def State.tQueue (s : State) (p : Nat) (dl : Option Nat) : Nat :=
  let mhz := s.clock (quadOf (s.candidate p))
  let notLater (d : Option Nat) : Bool := match d, dl with
    | some a, some b => decide (a ≤ b)
    | some _, none => true
    | none, some _ => false
    | none, none => true
  let sum := ((s.sessions.filter fun e => e.2.panel == p && e.2.cls != clsArchive).map fun e =>
    ((e.2.pics.filter fun q => notLater q.deadline).map fun q =>
      let left := q.units.filter fun u => u.st != .committed
      if e.2.cls = clsLive then
        (left.map fun u => tArea clsLive q.cfg (cW clsLive q.cfg * bandLines clsLive q.cfg u.idx) mhz 1).sum
      else if left.isEmpty then 0 else tUnit e.2.cls q.cfg mhz q.gang).sum).sum
  ceilDiv sum (max 1 (s.active p).length)

/-- NEAR and DECODE units of panel `p` admitted and not committed: tiles that they use or will use. -/
def State.nearLoad (s : State) (p : Nat) : Nat :=
  ((s.sessions.filter fun e => e.2.panel == p && (e.2.cls == clsNear || e.2.cls == clsDecode)).map fun e =>
    (e.2.pics.map fun q => (q.units.filter fun u => u.st != .committed).length).sum).sum

/-- live_floor tiles stay free of NEAR and DECODE work (R82): with a floor of 0 nothing waits. -/
def State.floorRoom (s : State) (p g : Nat) : Bool :=
  s.liveFloor p == 0 || decide (s.nearLoad p + g + s.liveFloor p ≤ (s.active p).length)

/-- What the tests of Table 4.2 decide. -/
inductive Verdict where
  | drop (reason : Nat) | waitPages | waitSlot | waitFloor | accept (late : Bool)
deriving DecidableEq, Repr

/-- Pages of a reservation (Table 4.2 test 2). -/
def pagesFor (cls : Nat) (c : Tbl Word) (cap : Nat) : Nat :=
  if cls = clsDecode then 0 else ceilDiv cap 16384 + cBands cls c

/-- The lowest free decode slot (R182). -/
def Session.freeSlot (x : Session) (c : Tbl Word) : Option Nat :=
  (upto (fld (cget c 0x31C) 6 0)).find? fun k => tget 0 x.dec.slots k == 0

/-- Test 4 of Table 4.2. -/
def State.slackOk (s : State) (x : Session) (p : Pic) : Bool :=
  match p.deadline with
  | none => true
  | some d =>
    if x.cls = clsLive then decide (max s.now p.ready + 3 * tBand x.cls p.cfg + 360360 ≤ d)
    else
      let t := s.candidate x.panel
      decide (s.now + s.tQueue x.panel p.deadline + s.wakeCost t + tUnit x.cls p.cfg (s.clock (quadOf t)) p.gang ≤ d)

/-- The tests of Table 4.2 for picture `p` of session `n`; `again` marks a retest (R79). The place of drop reason 3 of R82 among them is a
DESIGN CHOICE (log 113). -/
def State.judge (s : State) (n : Nat) (p : Pic) (again : Bool) : Verdict :=
  let x := s.ses n
  let t := s.candidate x.panel
  let code := tUnit x.cls p.cfg (s.clock (quadOf t)) 1
  let slack := s.slackOk x p
  let timed := x.cls == clsLive || x.cls == clsNear
  let held (v : Verdict) : Verdict := if again && timed && !slack then .drop 2 else v
  if x.cls = clsLive ∧ tBand x.cls p.cfg < 2 * code + 116 then .drop 1
  else if s.freePages < pagesFor x.cls p.cfg (termsOf x.cls p.cfg (maxGang s.pat x.panel)).cap then held .waitPages
  else if x.cls = clsDecode ∧ (x.freeSlot p.cfg).isNone then .waitSlot
  else if x.cls = clsLive ∧ (s.active x.panel).length < s.liveFloor x.panel then .drop 3
  else if (x.cls = clsNear ∨ x.cls = clsDecode) ∧ ¬ s.floorRoom x.panel p.gang then held .waitFloor
  else if slack then .accept false
  else if timed then .drop 2
  else .accept true

/-- A dropped picture adds its period to F, after the pictures admitted before it (R135): `k` periods behind the last
picture in flight with an admission order below `ord`. -/
def Session.noteDrop (x : Session) (t : RateTerms) (ord k : Nat) : Session :=
  if x.cls = clsDecode ∨ t.mode = 3 then x
  else match (x.pics.filter fun p => decide (p.order < ord)).getLast? with
    | some q => x.modPic q.num fun p => { p with dropsAfter := p.dropsAfter + k }
    | none => { x with rc := { x.rc with f := min (t.b : Int) (x.rc.f + t.rPic * k) } }

/-- F as it stands for the next admission (R140): pictures in flight count at their own caps. -/
def Session.fNow (x : Session) (t : RateTerms) : Int :=
  x.pics.foldl (fun f p => min (t.b : Int) (f - p.cap * second + t.rPic * (1 + p.dropsAfter))) x.rc.f

/-- Kind weight k of R139 as a fraction. -/
def kindWeight (c : Tbl Word) (p : Pic) : Nat × Nat :=
  let w := cget c 0x144
  if p.key then (fld w 7 0, 16)
  else if p.afterInval then (fld w 23 16, 16)
  else if p.cut then (fld w 15 8, 16)
  else (1, p.bLevel + 1)

/-- Target in 1/1,441,440,000 bit, cap in bits, and whether F or the level set the cap (R139, R140). -/
def Session.targets (x : Session) (t : RateTerms) (p : Pic) (seq : Nat) : Nat × Nat × Bool :=
  let c := p.cfg
  let f := x.fNow t
  let hard := 8 * t.cap
  let cap := if t.mode = 3 then hard else min hard (f / second).toNat
  let cap := match t.levelPic with
    | some l => min cap l
    | none => cap
  let k := kindWeight c p
  let avg := (cget c 0x104).toNat * t.period
  let mean := x.rc.cs.sum
  let cur := p.c.getD 0
  let raw : Int :=
    if t.mode = 0 then (t.rPic * k.1 : Nat) / k.2 + (f - t.f0) / 4
    else
      let part : Int := if mean = 0 ∨ p.c = none then (avg * k.1 * Config.startRatio seq : Nat) / (k.2 * 65536 : Nat)
        else (avg * k.1 * cur * x.rc.cs.length : Nat) / (k.2 * mean : Nat)
      part - x.rc.d / 32
  let lo : Int := ((if t.mode = 0 then t.rPic else avg) / 4 : Nat)
  let hi : Int := (7 * cap * second / 8 : Nat)
  (if 2 ≤ t.mode then 0 else (min (max raw lo) hi).toNat, cap, decide (cap < hard))

/-- Length of a refresh cycle (R148). -/
def cycleLen (c : Tbl Word) : Nat :=
  let cols := ctuCols clsLive c
  let r := fld (cget c 0x124) 7 0
  min (if r = 0 then ceilDiv cols 2 else r) cols

/-- The hierarchy level of a picture (R106): LIVE codes none; NEAR inserts up to ENC_GOP.reorder B pictures, ARCHIVE as many as a mini-GOP
of 2^reorder pictures holds, in levels 1 to reorder. `a` is what lookahead asks for, `run` the B pictures before. -/
def gopLevel (cls : Nat) (c : Tbl Word) (run a : Nat) : Nat :=
  let reo := fld (cget c 0x058) 22 20
  if cls = clsNear then if run < reo then min a 1 else 0
  else if cls = clsArchive then if run + 1 < 2 ^ reo then min a reo else 0
  else 0

/-- Key and recovery decisions of a picture as it is admitted (R59, R68, R69, R96, R106, R148 to R151, R153). `top` holds
rank 0's decisions for a lower rank. A key picture in flight closes what came before it (R106), and will be the long-term reference
(R150). -/
def Session.decide_ (x : Session) (p : Pic) (forceKey : Bool) (top : Option Pic) : Session × Pic :=
  let c := p.cfg
  let rcm := cget c 0x100
  let grad := bit rcm 4
  let align := bit rcm 6 && top.isSome
  let ki := fld (cget c 0x058) 15 0
  let topStart := align && (top.map fun q => !q.key && q.refresh == some 0).getD false
  let since := x.pics.foldl (fun l q => if q.key then [q] else l ++ [q]) []
  let lastKey := since.find? (·.key)
  let flying := (since.filter fun q => !q.noRef).map (·.num)
  let ring := flying.reverse ++ (if lastKey.isSome then [] else x.refs)
  let ltr := match lastKey with
    | some k => if k.noRef then none else some k.num
    | none => x.ltr
  let bare := ring.isEmpty && ltr.isNone
  let key0 := x.rc.forceKey || forceKey || (p.cut && bit rcm 5 && !align) || (align && (top.map (·.key)).getD false)
    || (topStart && !grad)
  let period := ki != 0 && !align && decide (ki ≤ x.rc.sinceKey + 1)
  let inval := x.invalN.isSome
  let ltrOk := x.cls == clsLive && ltr.isSome
  let lost := inval && !ltrOk && (x.cls == clsLive || ring.isEmpty)
  let want := x.recNext || lost
  let key := key0 || ((period || want) && !grad) || bare
  let starts := !key && grad && (period || want || (inval && x.refresh.isSome) || topStart)
  let level := if key then 0 else gopLevel x.cls c x.rc.sinceP p.bLevel
  let n := max 1 (fld (cget c 0x058) 19 16)
  let base := if x.cls = clsLive then
      match ltr with
      | some l => if n = 1 ∨ (ring.take n).contains l then ring.take n else ring.take (n - 1) ++ [l]
      | none => ring.take n
    else ring.take n
  let refs := if key then []
    else match inval, ltrOk, ltr with
      | true, true, some l => [l]
      | true, _, _ => ring.take n
      | false, _, _ => base
  let P := cycleLen c
  let inCycle := !key && (starts || (x.refresh.isSome && decide (x.refNext < P)))
  let idx := if starts then 0 else x.refNext
  let cyc := if starts then x.cycle + 1 else x.cycle
  let past := if key || starts then [] else x.areas
  ({ x with
      recNext := false, invalN := none
      recPend := x.recPend || want
      cycle := cyc
      areas := if inCycle then (p.num, idx) :: past else past
      refresh := if key then none else if starts then some (0, P) else x.refresh
      refNext := if inCycle then idx + 1 else x.refNext
      rc := { x.rc with forceKey := if key then false else x.rc.forceKey
                        newSets := if key then false else x.rc.newSets
                        sinceP := if level = 0 then 0 else x.rc.sinceP + 1
                        sinceKey := if key || starts then 0 else x.rc.sinceKey + 1 } },
   { p with key := key, newSets := key && x.rc.newSets, bLevel := level, recovery := starts || (want && key), afterInval := inval && !key, cycle := cyc
            refresh := if inCycle then some idx else none, refs := refs, areas := past.filter fun e => refs.contains e.1 })

/-- The rank-0 source line that a lower rank's band needs last (R98, R100): the 8-tap reach below the centre of its last
output line, in 0-based lines. -/
def lowestLine (h0 hk y : Nat) : Nat := min ((h0 * (2 * y + 1) - hk) / (2 * hk) + 4) (h0 - 1)

/-- Bands of rank 0's picture that must be committed before band `k` of a lower rank is ready (R100). -/
def bandsNeeded (c0 ck : Tbl Word) (k : Nat) : Nat :=
  let h0 := cH clsLive c0
  let hk := max 1 (cH clsLive ck)
  let y := min (cH clsLive ck) ((k + 1) * cBand ck) - 1
  lowestLine h0 hk y / max 1 (cBand c0) + 1

/-- Units of a lower rank's picture that rank 0's commits have made ready: `done` bands of rank 0 are committed, or the
whole picture. -/
def Pic.follow (p : Pic) (live : Bool) (c0 : Tbl Word) (done : Nat) (whole : Bool) : Pic :=
  { p with units := p.units.map fun u =>
      if u.st = .waitRow ∧ (whole ∨ (live ∧ bandsNeeded c0 p.cfg u.idx ≤ done)) then { u with st := .ready } else u }

/-- A unit has committed; a re-code (R171) takes nothing back. -/
def WUnit.done (u : WUnit) : Bool := u.st == .committed || u.recode

/-- Committed bands of a picture. -/
def Pic.doneBands (p : Pic) : Nat := (p.units.filter WUnit.done).length

/-- Rank 0's commits make units of picture `num` of the lower ranks ready (R100). -/
def State.followTop (s : State) (n num : Nat) (c0 : Tbl Word) (done : Nat) (whole : Bool) : State :=
  let x := s.ses n
  if x.member && x.rank == 0 then
    ((s.members n).filter fun m => m != n).foldl (fun s m =>
      s.modSes m fun y => y.modPic num fun p => p.follow (y.cls == clsLive) c0 done whole) s
  else s

/-- A slot is reserved for an access unit (R182): its generation rises (R23). -/
def Dec.reserve (d : Dec) (k : Nat) : Dec :=
  { d with slots := tset 0 k 1 d.slots, slotGen := tset 0 k ((tget 0 d.slotGen k + 1) % 65536) d.slotGen }

/-- Units of an admitted picture; `ready` when its bands need no row token. -/
def startUnits (cls : Nat) (c : Tbl Word) (gang : Nat) (ready : Bool) : List WUnit :=
  (upto (if cls = clsLive then cBands cls c else gang)).map fun i => { idx := i, st := if ready then .ready else .waitRow }

/-- Admit picture `p` of session `n`: decisions, targets, pages or slot, units (R78 to R80, R164, R182). -/
def State.admitPic (s : State) (n : Nat) (p : Pic) (forceKey ready late : Bool) (top : Option Pic) : State :=
  let x := s.ses n
  let dp := if x.cls = clsDecode then
      ({ x with recNext := false, recPend := x.recPend || x.recNext
                dec := { x.dec with slotWait := false
                                    dpb := if x.recNext then x.dec.dpb.map fun e => { e with gone := true } else x.dec.dpb } }, p)
    else x.decide_ p forceKey top
  let x := dp.1
  let p := { dp.2 with
    c := if x.cls ≠ clsLive then some (p.complexity * 2 ^ 20) else if x.rc.lastC = 0 then none else some x.rc.lastC }
  let g := maxGang s.pat x.panel
  let t := termsOf x.cls p.cfg g
  let tc := if x.cls = clsDecode then (0, 0, false) else x.targets t p s.freeCtr
  let r := if x.cls = clsDecode then (s, some []) else s.reserve (pagesFor x.cls p.cfg t.cap)
  let s := r.1
  let slot := (x.freeSlot p.cfg).getD 0
  let p := { p with
    order := s.admitted, cfgSeq := x.forceSeq, demoted := x.me.demoted, target := tc.1, cap := tc.2.1, limited := tc.2.2
    units := startUnits x.cls p.cfg p.gang ready, pages := r.2.getD [], late := late, slot := slot }
  let x := { x with pics := x.pics ++ [p], lastAdm := some p.num, lastSource := p.source, lastCoded := p.coded, nextPic := (p.num + 1) % 2 ^ 24 }
  let x := if x.cls = clsDecode then { x with dec := x.dec.reserve slot } else x
  let s := s.setSes n x
  (({ s with admitted := s.admitted + 1, freeCtr := s.freeCtr + 1 }).bump 0x20018).count 2 0 p.units.length

/-- A picture that has not been admitted is dropped (R81). -/
def State.dropNew (s : State) (n : Nat) (p : Pic) (reason : Nat) : State :=
  let x := s.ses n
  let t := termsOf x.cls p.cfg (maxGang s.pat x.panel)
  let s := s.setSes n { (x.rowsPast p.num).noteDrop t s.admitted 1 with nextPic := (p.num + 1) % 2 ^ 24 }
  let s := s.countDrop n p.num reason p.pts 0 false
  (s.endDrain n).drainLower n

/-- The scheduler may take a picture of session `n` (R78, R267, R335). -/
def State.mayAdmit (s : State) (n : Nat) : Bool :=
  let x := s.ses n
  let own := s.owner n
  s.work && (x.st == .running || x.st == .draining) && !x.outFull && !nbit s.ldr.pressing x.panel &&
    !nbit s.resetting x.panel && !(own != 0 && s.hif.flr.contains own)

/-- Ingest flow `k`. -/
def State.flow (s : State) (k : Nat) : Ingest := tget {} s.ingest k

/-- What the samples of a picture's source are. -/
def State.picForm (s : State) (p : Pic) : SrcForm :=
  match p.ing with
  | some q => ingestForm (inSampling (s.flow q.1).entry)
  | none => srcForm (fld (cget p.cfg 0x048) 3 0)

/-- A lower rank's picture that comes with rank 0's picture `top` (R28, R98, R100, R153): rank 0's ready time, pts and cut,
its deadline moved by three times the difference of the band times. Until it is admitted its key and refresh fields are rank 0's. -/
def State.lowerPic (s : State) (m : Nat) (top : Pic) (cls : Nat) : Pic :=
  let y := s.ses m
  let c := y.cfg
  let shift := 3 * (tBand cls c - tBand cls top.cfg)
  { num := top.num, deadline := top.deadline.map (· + shift), ready := top.ready, pts := top.pts, cfg := c, cut := top.cut,
    repeated := top.repeated, bLevel := top.bLevel, laOffset := top.laOffset, complexity := top.complexity, freed := true,
    source := top.source
    coded := taped c (cW cls c) (cH cls c) top.pts
      (scaledPicture top.cfg c (s.picForm top) (cW cls top.cfg) (cH cls top.cfg) (cW cls c) (cH cls c) top.source)
    activity := top.activity, hint := top.hint, statics := top.statics, glob := top.glob, top := some (cW cls top.cfg, cH cls top.cfg), gang := s.gangFor cls c y.panel, key := top.key
    refresh := top.refresh }

/-- A picture of a lower rank no longer waits. -/
def Session.unowe (y : Session) (num : Nat) : Session := { y with owed := y.owed.filter fun q => q.num != num }

/-- A waiting picture of a lower rank is dropped (R81). -/
def State.dropOwed (s : State) (m : Nat) (p : Pic) (reason : Nat) : State := (s.modSes m (·.unowe p.num)).dropNew m p reason

/-- Try to admit a lower rank's picture: admit, drop, or wait as owed (R79). A repeat picture needs no row token (R96), nor does
one whose rank-0 picture `top` has committed. -/
def State.tryLower (s : State) (m : Nat) (p : Pic) (top : Option Pic) (again : Bool) : State :=
  let y := s.ses m
  match s.judge m p again with
  | .drop r => s.dropOwed m p r
  | .accept late =>
    let s := s.modSes m (·.unowe p.num)
    let s := s.admitPic m p false (p.repeated || top.isNone) late (some p)
    match top with
    | some q => s.modSes m fun y => y.modPic p.num fun p => p.follow (y.cls == clsLive) q.cfg q.doneBands false
    | none => s
  | .waitPages => if again then s.bump 0xB0010 else s.setSes m { y with owed := y.owed ++ [p] } |>.bump 0xB0010
  | _ => if again then s else s.setSes m { y with owed := y.owed ++ [p] }

/-- The lower ranks of rank 0's group that take its picture: those RUNNING or DRAINING (R65). One that may not take it yet, as when
its output ring is full (R67), or behind one that waits, has it delayed. -/
def State.admitLower (s : State) (n : Nat) (top : Pic) : State :=
  let x := s.ses n
  if x.member && x.rank == 0 then
    ((s.members n).filter fun m => m != n && ((s.ses m).st == .running || (s.ses m).st == .draining)).foldl (fun s m =>
      if (s.ses m).owed.isEmpty && s.mayAdmit m then s.tryLower m (s.lowerPic m top x.cls) (some top) false
      else s.modSes m fun y => { y with owed := y.owed ++ [s.lowerPic m top x.cls] }) s
  else s

/-- Retest of the oldest owed picture of a lower rank (R79). Its rank-0 picture is in flight, or committed. -/
def State.retestLower (s : State) (m : Nat) : State :=
  match (s.ses m).owed with
  | [] => s
  | p :: _ =>
    let top := (s.rank0 m).bind fun r => (s.ses r).pics.find? fun q => q.num == p.num
    s.tryLower m p top true

/-- Write ingest flow `k`. -/
def State.setFlow (s : State) (k : Nat) (f : Ingest) : State := { s with ingest := tset {} k f s.ingest }

/-- Space-2 sources (R207): the oldest ingest picture of the session's flows that no descriptor has taken. -/
def State.ingestNext (s : State) (n : Nat) : Option (Nat × IngPic) :=
  let all := (s.ingest.filter fun e => inEnable e.2.entry && inSes e.2.entry == n).flatMap fun e =>
    (e.2.pics.filter fun q => !q.taken).map fun q => (e.1, q)
  all.foldl (fun b q => match b with
    | none => some q
    | some o => if q.2.frame0 < o.2.frame0 then some q else b) none

/-- Rows of an ingest picture complete from the top; all of them once it has closed (R206). -/
def IngPic.rowsDone (q : IngPic) (lineBytes h : Nat) : Nat :=
  if q.closed then h
  else ((upto h).takeWhile fun r => let l := tget [] q.rows r; decide (lineBytes ≤ l.length) && l.all (·.isSome)).length

/-- Bytes of one row as ST 2110-20 carries it (Table 10.4). -/
def ingestLine (sampling w : Nat) : Nat := let g := pgroup sampling; w / g.2 * g.1

/-- The hint that picture k uses (R117): none when it is not read, `some none` when it is missing or malformed. Counts
hint_missing and hint_rejected; a hint that is not wanted counts in neither (DESIGN CHOICE, log 117). -/
def State.takeHint (s : State) (n : Nat) (a : AdmitIn) (p : Pic) : State × Option HintPlane :=
  let x := s.ses n
  let d := srcDesc a.entry
  if !hasHintRing p.cfg || p.key || p.repeated || d.noHint || bit (cget p.cfg 0x18C) 10 then (s, none)
  else if a.hint.isEmpty then
    (s.setSes n { x with me := { x.me with hintMissing := min 0xFFFF (x.me.hintMissing + 1) } }, none)
  else if s.hintOk (s.owner n) (cW x.cls p.cfg) (cH x.cls p.cfg) d.pts a.hint then
    let h := hintDesc a.hint
    let k := 2 ^ h.grid
    let lines := (a.hints.take (ceilDiv (cH x.cls p.cfg) k)).map fun (l : List HintElem) => (l.take (ceilDiv (cW x.cls p.cfg) k)).map some
    (s, some { fmt := h.fmt, jx := h.jx, jy := h.jy, aux := decide (h.aaddr ≠ 0), lines := lines })
  else (s.setSes n { x with me := { x.me with hintRejected := min 0xFFFF (x.me.hintRejected + 1) } }, none)

/-- The hint entry is owned by the W9 within HINT_TAIL when the picture is first considered (R117). One whose owner bit is
clear is as good as none (DESIGN CHOICE, log 116). -/
def Session.hintPosted (x : Session) (h : List Byte) : Bool :=
  hasHintRing x.cfg && x.hintOwed == 0 && x.hintHead % ringSize x.cfg 0x2D0 != x.hintTail % ringSize x.cfg 0x2D0
    && h.length == 64 && ownerBit h

/-- The picture that an encode session's descriptor asks for. Lookahead results enter only with a lookahead (R101); where the deadline
field is 0 the deadline counts from the instant of the test (DESIGN CHOICE, log 112). -/
def State.encPic (s : State) (n : Nat) (a : AdmitIn) (ing : Option (Nat × IngPic)) : Pic :=
  let x := s.ses n
  let c := x.cfg
  let d := srcDesc a.entry
  let per := cPeriod x.cls c
  let rep := d.rep && bit (cget c 0x05C) 4
  let ahead := x.cls != clsLive && fld (cget c 0x058) 29 24 != 0
  let w := cW x.cls c
  let h := cH x.cls c
  let source := if rep then x.lastSource
    else match ing with
    | some q => ingestPicture c (inSampling (s.flow q.1).entry) w h q.2.rows
    | none => srcPicture c w (if d.space = 1 then s.devLines (fld (cget c 0x048) 3 0) w h d else a.lines)
  let f := match ing with
    | some q => ingestForm (inSampling (s.flow q.1).entry)
    | none => srcForm (fld (cget c 0x048) 3 0)
  let pts := match ing with
    | some q => if d.pts = 0 then q.2.frame0 else d.pts
    | none => d.pts
  let coded := taped c w h pts (codedPicture c f w h source)
  let ready := match ing with
    | some q => if d.ready = 0 then q.2.frame0 + per else d.ready
    | none => if x.cls = clsLive then d.ready else 0
  let dl := if d.deadline ≠ 0 then some d.deadline
    else if x.cls = clsArchive then none else some (s.now + per)
  { num := x.nextPic, deadline := dl, ready := ready,
    pts := pts
    inIdx := x.inHead % ringSize c 0x2C0, space := d.space, cfg := c
    cut := d.cut || (ahead && a.cutDetected), repeated := rep, bLevel := a.bLevel
    source := source, before := x.lastCoded, coded := coded, statics := staticMap w h coded x.lastCoded
    activity := meanActivity w h coded, glob := if ahead then a.glob else none, laOffset := if ahead then a.laOffset else 0, complexity := a.complexity, fade := ahead && a.fade, gang := s.gangFor x.cls c x.panel
    ing := ing.map fun q => (q.1, q.2.rtpTs) }

/-- Admission of an encode picture that its tests passed: hint, entries, tokens, lower ranks. -/
def State.admitEnc (s : State) (n : Nat) (a : AdmitIn) (p : Pic) (ing : Option (Nat × IngPic)) (late : Bool) : State :=
  let x := s.ses n
  let d := srcDesc a.entry
  let open_ := match ing with
    | some g => !g.2.closed
    | none => false
  let slow := !p.repeated && ((x.cls == clsLive && (p.space == 2 || p.ready != 0)) || open_)
  let s := if slow then s else s.modSes n (·.rowsPast p.num)
  let s := s.admitPic n p d.forceKey (!slow) late none
  let q := ((s.ses n).pic? p.num).getD p
  let h := s.takeHint n a q
  let s := h.1
  let hi := (s.ses n).hintHead % ringSize p.cfg 0x2D0
  let keep := h.2.isSome && (slow || (hintDesc a.hint).space == 1)
  let s := if keep then s.modSes n fun x => { x with hintHead := (hi + 1) % ringSize p.cfg 0x2D0 } else s.consumeHint n
  let now_ := p.space != 1 && (!slow || (p.space == 2 && !open_))
  let s := s.consumeInput n now_
  let s := s.modSes n fun x => x.modPic p.num fun q => { q with
    freed := now_, hint := h.2, hintIdx := if keep then some (hi, (hintDesc a.hint).space) else none }
  let s := match ing with
    | some g =>
      let f := s.flow g.1
      let s := s.setFlow g.1 { f with pics := f.pics.map fun (q : IngPic) =>
        if q.rtpTs = g.2.rtpTs then { q with taken := true } else q }
      let rows := g.2.rowsDone (ingestLine (inSampling f.entry) (cW x.cls p.cfg)) (cH x.cls p.cfg)
      s.modSes n fun x => x.modPic p.num (·.tokens (x.cls == clsLive) rows)
    | none => if slow then s.fetchRows n ((s.ses n).pics.length + 1) else s
  match (s.ses n).pic? p.num with
  | some q => s.admitLower n q
  | none => s

/-- The entries of the picture's whole lookahead are owned by the W9 within the tail, or the session drains (R102). -/
def Session.lookaheadOk (x : Session) (a : AdmitIn) : Bool :=
  let k := fld (cget x.cfg 0x058) 29 24
  let sz := ringSize x.cfg 0x2C0
  k == 0 || x.st == .draining || (a.aheadOwned && decide (k < (x.inTail + sz - x.inHead % sz) % sz))

/-- An encode session's picture is considered (R78, R94, R95, R102). A space-2 picture that has not begun to arrive waits with its
descriptor copied. -/
def State.considerEnc (s : State) (n : Nat) (a0 : AdmitIn) : State :=
  let x := s.ses n
  let again := x.seen.isSome && x.seenWait
  let a := match x.seen with
    | some c => c
    | none => { a0 with hint := if x.hintPosted a0.hint then a0.hint else [] }
  let d := srcDesc a.entry
  if x.inputDone || x.inStall || a.entry.length != 64 then s
  else if !ownerBit a.entry then s.setSes n { x with inStall := true }
  else if x.seen.isNone && !x.lookaheadOk a0 then s
  else
    let ing := if d.space = 2 then s.ingestNext n else none
    let p := s.encPic n a ing
    let gone (s : State) (reason : Nat) : State := ((s.consumeHint n).consumeInput n true).dropNew n p reason
    if !s.srcOk (s.owner n) x.cls (fld (cget p.cfg 0x048) 3 0) (cW x.cls p.cfg) (cH x.cls p.cfg) d then gone s 4
    else if d.space = 2 ∧ ing.isNone then s.setSes n { x with seen := some a, seenWait := false }
    else match s.judge n p again with
      | .drop r => gone s r
      | .accept late => s.admitEnc n a p ing late
      | .waitPages => (s.setSes n { x with seen := some a, seenWait := true }).bump 0xB0010
      | _ => s.setSes n { x with seen := some a, seenWait := true }

/-- Posted chunks of a DECODE session from its input head (R177): those owned by the W9 within the tail. -/
def Session.posted (x : Session) (cs : List (List Byte)) : List (List Byte) :=
  let sz := ringSize x.cfg 0x2C0
  (cs.take ((x.inTail + sz - x.inHead % sz) % sz)).takeWhile fun c => c.length == 64 && ownerBit c

/-- The access unit at the input head (R177): through the first au_end, or in DRAINING through the last posted chunk. -/
def Session.accessUnit (x : Session) (cs : List (List Byte)) : Option (List (List Byte)) :=
  let sz := ringSize x.cfg 0x2C0
  let ps := x.posted cs
  match ps.findIdx? fun c => (chunkDesc c).auEnd with
  | some i => some (ps.take (i + 1))
  | none => if x.st = .draining ∧ ps ≠ [] ∧ ps.length = (x.inTail + sz - x.inHead % sz) % sz then some ps else none

/-- An access unit as its chunks are taken: bytes by the descriptors, the bytes themselves, where bytes are missing, and whether bytes
are missing at its end. -/
structure AuIn where
  len : Nat := 0
  bits : List Byte := []
  breaks : List Nat := []
  gap : Bool := false

/-- Take one chunk (R178 to R180): a malformed one gives no bytes, and the next behaves as after a discont. -/
def State.takeChunk (s : State) (own : Nat) (u : AuIn) (e : List Byte × List Byte) : AuIn :=
  let c := chunkDesc e.1
  if s.chunkOk own e.1 then
    { len := u.len + c.length
      bits := u.bits ++ (if c.space = 1 then s.devBytes c.addr c.length else e.2.take c.length)
      breaks := if u.gap || c.discont then u.breaks ++ [u.len] else u.breaks }
  else { u with gap := true }

/-- The picture of an access unit (R76, R176 to R180). pts and deadline come from the chunk with au_end; without one, in DRAINING, both
are 0 (DEDUCED, log 125). -/
def State.decPic (s : State) (n : Nat) (au : List (List Byte)) (data : List (List Byte)) : Pic :=
  let x := s.ses n
  let c := x.cfg
  let last := chunkDesc (au.getLast?.getD [])
  let u := (au.zipIdx.map fun e => (e.1, data.getD e.2 [])).foldl (s.takeChunk (s.owner n)) {}
  let lim := 2 ^ fld (cget c 0x320) 4 0
  let dl := if last.auEnd && last.deadline != 0 then last.deadline else s.now + 2 * cPeriod clsDecode c
  { num := x.nextPic, deadline := some dl, pts := if last.auEnd then last.pts else 0, inIdx := x.inHead % ringSize c 0x2C0
    entries := au.length, cfg := c, auBytes := min u.len lim, truncated := decide (lim < u.len), bits := u.bits.take lim
    breaks := u.breaks.filter fun k => k != 0 && decide (k < lim), gang := s.gangFor clsDecode c x.panel }

/-- Owner bits of the chunks of space 0, or malformed, clear once they are copied (R178); `idx` is the first entry. -/
def State.copyChunks (s : State) (n sz : Nat) : Nat → List (List Byte) → State
  | _, [] => s
  | idx, e :: t =>
    let s := if (chunkDesc e).space = 1 ∧ s.chunkOk (s.owner n) e then s else s.emit (.ownerClear n 0 (idx % sz))
    s.copyChunks n sz (idx + 1) t

/-- A DECODE session's access unit is considered (R78, R177, R182). -/
def State.considerDec (s : State) (n : Nat) (a0 : AdmitIn) : State :=
  let x := s.ses n
  let a := x.seen.getD a0
  let sz := ringSize x.cfg 0x2C0
  if x.inputDone || x.inStall then s
  else match x.accessUnit a.chunks with
    | none =>
      let avail := (x.inTail + sz - x.inHead % sz) % sz
      let ps := x.posted a.chunks
      if ps.length < avail ∧ ps.length < a.chunks.length ∧ ((a.chunks.getD ps.length []).length = 64) then
        s.setSes n { x with inStall := true }
      else s
    | some au =>
      let p := s.decPic n au a.chunkBytes
      match s.judge n p x.seen.isSome with
      | .accept late =>
        let bad := (au.filter fun e => !s.chunkOk (s.owner n) e).length
        let held := (List.range au.length).filterMap fun i =>
          if (chunkDesc (au.getD i [])).space = 1 ∧ s.chunkOk (s.owner n) (au.getD i []) then some ((p.inIdx + i) % sz) else none
        let s := s.admitPic n { p with heldIn := held } false true late none
        let s := s.modSes n fun x => { x with
          inHead := (x.inHead + au.length) % sz, seen := none
          dec := { x.dec with badChunks := x.dec.badChunks + bad } }
        s.copyChunks n sz p.inIdx au
      | .waitSlot => s.setSes n { x with
          seen := some a
          dec := { x.dec with slotWait := true, slotWaits := x.dec.slotWaits + b2n (!x.dec.slotWait) } }
      | _ => s.setSes n { x with seen := some a }

/-- PICTURE_ADMISSION of session `n` (R78): nothing happens while the session may not take a picture. -/
def State.consider (s : State) (n : Nat) (a : AdmitIn) : State :=
  let x := s.ses n
  if !s.mayAdmit n then s
  else if x.cls = clsDecode then s.considerDec n a
  else if x.lower then s.retestLower n
  else s.considerEnc n a

/-- Some picture of session `n` waits at test 2 or 3. -/
def Session.waits (x : Session) : Bool := x.seen.isSome || !x.owed.isEmpty

/-- The pictures that wait are tested again, in ascending session number, as a page, a slot or a tile is released (R79). -/
def State.retestAll (s : State) : State :=
  ((s.sessions.filter fun e => e.2.waits).map (·.1)).foldl (fun s n => s.consider n {}) s

/-- DEC_WIN_RELEASE (R184): a slot that it frees lets waiting pictures be tested again (R79, R182). -/
def State.winFree (s : State) (n : Nat) (v : Word) : State :=
  let x := s.ses n
  let frees := x.st != .closed && x.st != .opened && tget 0 x.dec.slots (fld v 5 0) == 3
  if frees then (s.winRelease n v).retestAll else s.winRelease n v

/-- DEC_WIN_RELEASE. -/
def execDecWinRelease (fn n : Nat) (v : Word) (s : State) : Host.Outcome State Fault Refusal :=
  .next (s.onSes fn n 0x328 v fun s k => s.winFree k v)

/-- PICTURE_ADMISSION. -/
def execPictureAdmission (n : Nat) (a : AdmitIn) (s : State) : Host.Outcome State Fault Refusal := .next (s.consider n a)

end Sys2Proof.Machine
end

