-- ==== Sys2Proof/Machine/Crypto.lean ====
section
/-!
DEFINITION. The ciphers, the hash and the curve that the rules name and do not print: SHA-384 and ECDSA over P-384 (R33, R384, R385), AES
with GCM (R285) and RFC 3394 (R386, R391). All of it is PRESUMED from those standards (FIPS 180-4, FIPS 186-5, FIPS 197, SP 800-38D, RFC
3394; log 127). Values are numbers, so that the kernel evaluates them.
-/
namespace Sys2Proof.Machine

/-- Bytes of a number, most significant first. -/
def beBytes (n v : Nat) : List Byte := (leBytes n v).reverse

/-- The number that `bs` spell, most significant byte first. -/
def beAt (bs : List Byte) : Nat := bs.foldl (fun a b => 256 * a + b.toNat) 0

/-- Pieces of `n` bytes, at most `k`. -/
def chunks (n : Nat) : Nat → List Byte → List (List Byte)
  | 0, _ => []
  | k + 1, bs => if bs.isEmpty then [] else bs.take n :: chunks n k (bs.drop n)

/-- Round constants 0 to 19 of SHA-384. -/
def shaK0 : List Nat :=
  [0x428A2F98D728AE22, 0x7137449123EF65CD, 0xB5C0FBCFEC4D3B2F, 0xE9B5DBA58189DBBC,
   0x3956C25BF348B538, 0x59F111F1B605D019, 0x923F82A4AF194F9B, 0xAB1C5ED5DA6D8118,
   0xD807AA98A3030242, 0x12835B0145706FBE, 0x243185BE4EE4B28C, 0x550C7DC3D5FFB4E2,
   0x72BE5D74F27B896F, 0x80DEB1FE3B1696B1, 0x9BDC06A725C71235, 0xC19BF174CF692694,
   0xE49B69C19EF14AD2, 0xEFBE4786384F25E3, 0x0FC19DC68B8CD5B5, 0x240CA1CC77AC9C65]

/-- Round constants 20 to 39 of SHA-384. -/
def shaK1 : List Nat :=
  [0x2DE92C6F592B0275, 0x4A7484AA6EA6E483, 0x5CB0A9DCBD41FBD4, 0x76F988DA831153B5,
   0x983E5152EE66DFAB, 0xA831C66D2DB43210, 0xB00327C898FB213F, 0xBF597FC7BEEF0EE4,
   0xC6E00BF33DA88FC2, 0xD5A79147930AA725, 0x06CA6351E003826F, 0x142929670A0E6E70,
   0x27B70A8546D22FFC, 0x2E1B21385C26C926, 0x4D2C6DFC5AC42AED, 0x53380D139D95B3DF,
   0x650A73548BAF63DE, 0x766A0ABB3C77B2A8, 0x81C2C92E47EDAEE6, 0x92722C851482353B]

/-- Round constants 40 to 59 of SHA-384. -/
def shaK2 : List Nat :=
  [0xA2BFE8A14CF10364, 0xA81A664BBC423001, 0xC24B8B70D0F89791, 0xC76C51A30654BE30,
   0xD192E819D6EF5218, 0xD69906245565A910, 0xF40E35855771202A, 0x106AA07032BBD1B8,
   0x19A4C116B8D2D0C8, 0x1E376C085141AB53, 0x2748774CDF8EEB99, 0x34B0BCB5E19B48A8,
   0x391C0CB3C5C95A63, 0x4ED8AA4AE3418ACB, 0x5B9CCA4F7763E373, 0x682E6FF3D6B2B8A3,
   0x748F82EE5DEFB2FC, 0x78A5636F43172F60, 0x84C87814A1F0AB72, 0x8CC702081A6439EC]

/-- Round constants 60 to 79 of SHA-384. -/
def shaK3 : List Nat :=
  [0x90BEFFFA23631E28, 0xA4506CEBDE82BDE9, 0xBEF9A3F7B2C67915, 0xC67178F2E372532B,
   0xCA273ECEEA26619C, 0xD186B8C721C0C207, 0xEADA7DD6CDE0EB1E, 0xF57D4F7FEE6ED178,
   0x06F067AA72176FBA, 0x0A637DC5A2C898A6, 0x113F9804BEF90DAE, 0x1B710B35131C471B,
   0x28DB77F523047D84, 0x32CAAB7B40C72493, 0x3C9EBE0A15C9BEBC, 0x431D67C49C100D4C,
   0x4CC5D4BECB3E42B6, 0x597F299CFC657E2A, 0x5FCB6FAB3AD6FAEC, 0x6C44198C4A475817]

/-- A 64-bit word rotated right. -/
def rotr (x n : Nat) : Nat := (x >>> n) ||| ((x <<< (64 - n)) % 2 ^ 64)

/-- The message schedule from a window of 16 words: the next `k` words. -/
def shaWords : Nat → List Nat → List Nat
  | 0, _ => []
  | _ + 1, [] => []
  | k + 1, w :: t =>
    let a := t.getD 0 0
    let b := t.getD 13 0
    let n := (w + (rotr a 1 ^^^ rotr a 8 ^^^ (a >>> 7)) + t.getD 8 0 + (rotr b 19 ^^^ rotr b 61 ^^^ (b >>> 6))) % 2 ^ 64
    w :: shaWords k (t ++ [n])

/-- The eight working variables of SHA-384. -/
structure ShaSt where
  a : Nat
  b : Nat
  c : Nat
  d : Nat
  e : Nat
  f : Nat
  g : Nat
  h : Nat

/-- The initial hash value. -/
def shaStart : ShaSt :=
  ⟨0xCBBB9D5DC1059ED8, 0x629A292A367CD507, 0x9159015A3070DD17, 0x152FECD8F70E5939,
   0x67332667FFC00B31, 0x8EB44A8768581511, 0xDB0C2E0D64F98FA7, 0x47B5481DBEFA4FA4⟩

/-- One round. -/
def shaRound (s : ShaSt) (kw : Nat × Nat) : ShaSt :=
  let t1 := s.h + (rotr s.e 14 ^^^ rotr s.e 18 ^^^ rotr s.e 41) + ((s.e &&& s.f) ^^^ ((2 ^ 64 - 1 - s.e) &&& s.g)) + kw.1 + kw.2
  let t2 := (rotr s.a 28 ^^^ rotr s.a 34 ^^^ rotr s.a 39) + ((s.a &&& s.b) ^^^ (s.a &&& s.c) ^^^ (s.b &&& s.c))
  ⟨(t1 + t2) % 2 ^ 64, s.a, s.b, s.c, (s.d + t1) % 2 ^ 64, s.e, s.f, s.g⟩

/-- One 128-byte block. -/
def shaBlock (s : ShaSt) (b : List Byte) : ShaSt :=
  let r := ((shaK0 ++ shaK1 ++ shaK2 ++ shaK3).zip (shaWords 80 ((chunks 8 16 b).map beAt))).foldl shaRound s
  ⟨(s.a + r.a) % 2 ^ 64, (s.b + r.b) % 2 ^ 64, (s.c + r.c) % 2 ^ 64, (s.d + r.d) % 2 ^ 64, (s.e + r.e) % 2 ^ 64, (s.f + r.f) % 2 ^ 64,
   (s.g + r.g) % 2 ^ 64, (s.h + r.h) % 2 ^ 64⟩

/-- SHA-384 of bytes, as a number. -/
def sha384 (bs : List Byte) : Nat :=
  let z := (239 - bs.length % 128) % 128
  let m := bs ++ [0x80] ++ List.replicate z 0 ++ beBytes 16 (8 * bs.length)
  let s := (chunks 128 m.length m).foldl shaBlock shaStart
  [s.a, s.b, s.c, s.d, s.e, s.f].foldl (fun n w => n * 2 ^ 64 + w) 0

/-- The field prime of P-384, the order of its group, its coefficient b and its base point. -/
def p384 : Nat := 2 ^ 384 - 2 ^ 128 - 2 ^ 96 + 2 ^ 32 - 1
def n384 : Nat := 0xFFFFFFFFFFFFFFFFFFFFFFFFFFFFFFFFFFFFFFFFFFFFFFFFC7634D81F4372DDF581A0DB248B0A77AECEC196ACCC52973
def b384 : Nat := 0xB3312FA7E23EE7E4988E056BE3F82D19181D9C6EFE8141120314088F5013875AC656398D8A2ED19D2A85C8EDD3EC2AEF
def gx384 : Nat := 0xAA87CA22BE8B05378EB1C71EF320AD746E1D3B628BA79B9859F741E082542A385502F25DBF55296C3A545E3872760AB7
def gy384 : Nat := 0x3617DE4A96262C6F5D9E98BF9292DC29F8F41DBD289A147CE9DA3113B5F0B8C00A60B1CE1D7E819D7A431D7C90EA0E5F

/-- b to the power of the low `k` bits of e, modulo m. -/
def powMod (m b e : Nat) : Nat → Nat
  | 0 => 1
  | k + 1 =>
    let r := powMod m b (e / 2) k
    let q := r * r % m
    if e % 2 = 1 then q * b % m else q

/-- A point of the curve in Jacobian coordinates; z = 0 is the point at infinity. -/
structure Point where
  x : Nat
  y : Nat
  z : Nat

/-- Subtraction modulo the field prime. -/
def fsub (a b : Nat) : Nat := (a + p384 - b) % p384

/-- Twice a point. -/
def Point.twice (p : Point) : Point :=
  let d := p.z * p.z % p384
  let g := p.y * p.y % p384
  let b := p.x * g % p384
  let a := 3 * fsub p.x d * (p.x + d) % p384
  let x := fsub (a * a % p384) (8 * b % p384)
  let z := (p.y + p.z) * (p.y + p.z) % p384
  ⟨x, fsub (a * fsub (4 * b % p384) x % p384) (8 * g * g % p384), fsub (fsub z g) d⟩

/-- The sum of two points. -/
def Point.plus (p q : Point) : Point :=
  if p.z = 0 then q
  else if q.z = 0 then p
  else
    let pz := p.z * p.z % p384
    let qz := q.z * q.z % p384
    let u := p.x * qz % p384
    let h := fsub (q.x * pz % p384) u
    let s := p.y * q.z % p384 * qz % p384
    let r := fsub (q.y * p.z % p384 * pz % p384) s
    if h = 0 then (if r = 0 then p.twice else ⟨1, 1, 0⟩)
    else
      let hh := h * h % p384
      let hc := hh * h % p384
      let v := u * hh % p384
      let x := fsub (fsub (r * r % p384) hc) (2 * v % p384)
      ⟨x, fsub (r * fsub v x % p384) (s * hc % p384), p.z * q.z % p384 * h % p384⟩

/-- u × g + v × q over the low `k` bits of u and v; `gq` is g + q. -/
def pointSum (u v : Nat) (g q gq : Point) : Nat → Point → Point
  | 0, a => a
  | k + 1, a =>
    let a := a.twice
    pointSum u v g q gq k (if u.testBit k then (if v.testBit k then a.plus gq else a.plus g) else if v.testBit k then a.plus q else a)

/-- The point of a 49-byte compressed key (R384): 2 or 3, then x with the most significant byte first. -/
def keyPoint (key : List Byte) : Option Point :=
  let t := (key.headD 0).toNat
  let x := beAt key.tail
  let c := (x * x % p384 * x + p384 * 3 - 3 * x + b384) % p384
  let y := powMod p384 c ((p384 + 1) / 4) 384
  if key.length = 49 ∧ (t = 2 ∨ t = 3) ∧ x < p384 ∧ y * y % p384 = c then some ⟨x, if y % 2 = t % 2 then y else p384 - y, 1⟩ else none

/-- ECDSA over P-384: signature (r, s) of a message with hash `e` verifies under a key. -/
def ecdsaOk (key : List Byte) (e r s : Nat) : Bool :=
  match keyPoint key with
  | none => false
  | some q =>
    let g : Point := ⟨gx384, gy384, 1⟩
    let w := powMod n384 s (n384 - 2) 384
    let a := pointSum (e * w % n384) (r * w % n384) g q (g.plus q) 384 ⟨1, 1, 0⟩
    let zz := a.z * a.z % p384
    decide (1 ≤ r) && decide (r < n384) && decide (1 ≤ s) && decide (s < n384) && a.z != 0 &&
      (r * zz % p384 == a.x || (decide (r + n384 < p384) && (r + n384) * zz % p384 == a.x))

/-- The S-box of AES and its inverse, byte i at bits 8i. -/
def aesSbox : Nat :=
  0x16bb54b00f2d99416842e6bf0d89a18cdf2855cee9871e9b948ed9691198f8e19e1dc186b95735610ef6034866b53e708a8bbd4b1f74dde8c6b4a61c2e2578ba08ae7a65eaf4566ca94ed58d6d37c8e779e4959162acd3c25c2406490a3a32e0db0b5ede14b8ee4688902a22dc4f816073195d643d7ea7c41744975fec130ccdd2f3ff1021dab6bcf5389d928f40a351a89f3c507f02f94585334d43fbaaefd0cf584c4a39becb6a5bb1fc20ed00d153842fe329b3d63b52a05a6e1b1a2c830975b227ebe28012079a059618c323c7041531d871f1e5a534ccf73f362693fdb7c072a49cafa2d4adf04759fa7dc982ca76abd7fe2b670130c56f6bf27b777c63
def aesSboxInv : Nat :=
  0x7d0c2155631469e126d677ba7e042b17619953833cbbebc8b0f52aae4d3be0a0ef9cc9939f7ae52d0d4ab519a97f51605fec8027591012b131c7078833a8dd1ff45acd78fec0db9a2079d2c64b3e56fc1bbe18aa0e62b76f89c5291d711af1476edf751ce837f9e28535ade72274ac9673e6b4f0cecff297eadc674f4111913a6b8a130103bdafc1020f3fca8f1e2cd00645b3b80558e4f70ad3bc8c00abd890849d8da75746155edab9edfd5048706c92b6655dcc5ca4d41698688664f6f87225d18b6d49a25b76b224d92866a12e084ec3fa420b954cee3d23c2a632947b54cbe9dec444438e3487ff2f9b8239e37cfbd7f3819ea340bf38a53630d56a0952

/-- A byte of such a table. -/
def boxAt (t i : Nat) : Nat := (t >>> (8 * i)) % 256

/-- Twice a byte in the field of AES. -/
def xtime (a : Nat) : Nat := if 128 ≤ a then (2 * a - 256) ^^^ 0x1B else 2 * a

/-- The key schedule of AES: `k` words more, from the last `n` words `ws` (their oldest first); `i` counts words and `rc` is the round
constant. -/
def aesExpand (n : Nat) : Nat → Nat → Nat → List Nat → List Nat
  | 0, _, _, _ => []
  | k + 1, i, rc, ws =>
    let last := ws.getD (n - 1) 0
    let sub (w : Nat) : Nat :=
      boxAt aesSbox (w >>> 24) * 2 ^ 24 + boxAt aesSbox ((w >>> 16) % 256) * 2 ^ 16 + boxAt aesSbox ((w >>> 8) % 256) * 2 ^ 8 +
        boxAt aesSbox (w % 256)
    let t := if i % n = 0 then sub (last % 2 ^ 24 * 256 + last / 2 ^ 24) ^^^ (rc * 2 ^ 24)
      else if n = 8 ∧ i % n = 4 then sub last else last
    let w := ws.headD 0 ^^^ t
    w :: aesExpand n k (i + 1) (if i % n = 0 then xtime rc else rc) (ws.tail ++ [w])

/-- The bytes of words, most significant first. -/
def wordNats (ws : List Nat) : List Nat := ws.flatMap fun w => [w >>> 24, (w >>> 16) % 256, (w >>> 8) % 256, w % 256]

/-- Lists of 16. -/
def rounds16 : Nat → List Nat → List (List Nat)
  | 0, _ => []
  | k + 1, l => l.take 16 :: rounds16 k (l.drop 16)

/-- The round keys of a 16- or 32-byte key. -/
def aesKeys (key : List Byte) : List (List Nat) :=
  let n := key.length / 4
  let ws := (chunks 4 n key).map beAt
  rounds16 (n + 7) (wordNats (ws ++ aesExpand n (4 * (n + 7) - n) n 1 ws))

/-- XOR of two blocks. -/
def xorNats (a b : List Nat) : List Nat := a.zipWith (· ^^^ ·) b

/-- A block permuted. -/
def shuffle (p : List Nat) (b : List Nat) : List Nat := p.map fun i => b.getD i 0

/-- MixColumns of consecutive columns, and its inverse. -/
def mixCols : List Nat → List Nat
  | a :: b :: c :: d :: t =>
    let s := a ^^^ b ^^^ c ^^^ d
    (a ^^^ s ^^^ xtime (a ^^^ b)) :: (b ^^^ s ^^^ xtime (b ^^^ c)) :: (c ^^^ s ^^^ xtime (c ^^^ d)) :: (d ^^^ s ^^^ xtime (d ^^^ a)) :: mixCols t
  | l => l
def unmixCols : List Nat → List Nat
  | a :: b :: c :: d :: t =>
    let u := xtime (xtime (a ^^^ c))
    let v := xtime (xtime (b ^^^ d))
    (a ^^^ u) :: (b ^^^ v) :: (c ^^^ u) :: (d ^^^ v) :: unmixCols t
  | l => l

/-- ShiftRows and its inverse. -/
def rowsShift : List Nat := [0, 5, 10, 15, 4, 9, 14, 3, 8, 13, 2, 7, 12, 1, 6, 11]
def rowsBack : List Nat := [0, 13, 10, 7, 4, 1, 14, 11, 8, 5, 2, 15, 12, 9, 6, 3]

/-- AES of a block under round keys. -/
def aesRun : List (List Nat) → List Nat → List Nat
  | [], b => b
  | [k], b => xorNats (shuffle rowsShift (b.map (boxAt aesSbox))) k
  | k :: t, b => aesRun t (xorNats (mixCols (shuffle rowsShift (b.map (boxAt aesSbox)))) k)
def aesBlock (ks : List (List Nat)) (b : List Nat) : List Nat := aesRun ks.tail (xorNats b (ks.headD []))

/-- The inverse cipher under round keys, the last first. -/
def aesUnrun : List (List Nat) → List Nat → List Nat
  | [], b => b
  | [k], b => xorNats ((shuffle rowsBack b).map (boxAt aesSboxInv)) k
  | k :: t, b => aesUnrun t (mixCols (unmixCols (xorNats ((shuffle rowsBack b).map (boxAt aesSboxInv)) k)))
def aesUnblock (ks : List (List Nat)) (b : List Nat) : List Nat :=
  let r := ks.reverse
  aesUnrun r.tail (xorNats b (r.headD []))

/-- Bytes as numbers, and back. -/
def natsOf (bs : List Byte) : List Nat := bs.map (·.toNat)
def bytesOf (l : List Nat) : List Byte := l.map (BitVec.ofNat 8)

/-- One step of RFC 3394's unwrap, for t and block i: (A, R). -/
def unwrapStep (ks : List (List Nat)) (n : Nat) (s : List Nat × List (List Nat)) (t : Nat) : List Nat × List (List Nat) :=
  let i := (t - 1) % n
  let a := xorNats s.1 (natsOf (beBytes 8 t))
  let b := aesUnblock ks (a ++ s.2.getD i [])
  (b.take 8, s.2.take i ++ [b.drop 8] ++ s.2.drop (i + 1))

/-- RFC 3394 unwrap of a blob under a key, with the default initial value; `none` where the integrity check fails. -/
def unwrap (kek blob : List Byte) : Option (List Byte) :=
  let l := (chunks 8 blob.length blob).map natsOf
  let n := l.length - 1
  let r := ((upto (6 * n)).reverse.map (· + 1)).foldl (unwrapStep (aesKeys kek) n) (l.headD [], l.tail)
  if r.1 = List.replicate 8 0xA6 then some (bytesOf r.2.flatten) else none

/-- A product in the field of GCM over `k` bits: v the multiple of y, z the sum. -/
def ghashMul (x : Nat) : Nat → Nat → Nat → Nat
  | 0, _, z => z
  | k + 1, v, z =>
    ghashMul x k (if v % 2 = 1 then (v / 2) ^^^ (0xE1 * 2 ^ 120) else v / 2) (if x.testBit k then z ^^^ v else z)

/-- GHASH of blocks of at most 16 bytes, each padded with zeros. -/
def ghash (h : Nat) (bs : List (List Byte)) : Nat :=
  bs.foldl (fun a b => ghashMul (a ^^^ (beAt b * 2 ^ (8 * (16 - b.length)))) 128 h 0) 0

/-- The key stream of GCM's counter mode over `n` bytes. -/
def gcmStream (ks : List (List Nat)) (iv : List Byte) (n : Nat) : List Nat :=
  ((upto ((n + 15) / 16)).flatMap fun i => aesBlock ks (natsOf (iv ++ beBytes 4 (i + 2)))).take n

/-- The tag of GCM over associated data and ciphertext. -/
def gcmTag (ks : List (List Nat)) (iv aad ct : List Byte) : List Byte :=
  let h := beAt (bytesOf (aesBlock ks (List.replicate 16 0)))
  let g := ghash h (chunks 16 aad.length aad ++ chunks 16 ct.length ct ++ [beBytes 8 (8 * aad.length) ++ beBytes 8 (8 * ct.length)])
  bytesOf (xorNats (natsOf (beBytes 16 g)) (aesBlock ks (natsOf (iv ++ beBytes 4 1))))

/-- AES-GCM decryption: the plaintext, or `none` where the tag differs. -/
def gcmOpen (key iv aad ct tag : List Byte) : Option (List Byte) :=
  let ks := aesKeys key
  if gcmTag ks iv aad ct = tag then some (bytesOf (xorNats (natsOf ct) (gcmStream ks iv ct.length))) else none

/-- AES-GCM encryption: the ciphertext, then the tag. -/
def gcmSeal (key iv aad pt : List Byte) : List Byte :=
  let ks := aesKeys key
  let ct := bytesOf (xorNats (natsOf pt) (gcmStream ks iv pt.length))
  ct ++ gcmTag ks iv aad ct

end Sys2Proof.Machine
end

