-- ==== Sys2Proof/Machine/Memory.lean ====
section
/-!
DEFINITION. The HBM controllers (R256 to R258, R290 to R306): the RS(72,68) code, address decode, line requests, banks,
refresh, thermal bands, delay sets, sweeps, frequency changes, and the writes of the MEM windows.
-/
namespace Sys2Proof.Machine

/-- Multiply by α = 0x02 in GF(2^8) with 0x11D (R256). -/
def gfDouble (a : Byte) : Byte := if a.getLsbD 7 then (a <<< 1) ^^^ 0x1D else a <<< 1

/-- Product in GF(2^8), over the low `n` bits of `b`, most significant first. -/
def gfMulN (a b : Byte) : Nat → Byte
  | 0 => 0
  | n + 1 => (gfDouble (gfMulN a (b >>> 1) n)) ^^^ (if b.getLsbD 0 then a else 0)

/-- Product in GF(2^8). -/
def gfMul (a b : Byte) : Byte := gfMulN a b 8

/-- α^n. -/
def gfPow : Nat → Byte
  | 0 => 1
  | n + 1 => gfDouble (gfPow n)

/-- a^n. -/
def gfExp (a : Byte) : Nat → Byte
  | 0 => 1
  | n + 1 => gfMul a (gfExp a n)

/-- Inverse in GF(2^8): a^254. -/
def gfInv (a : Byte) : Byte := gfExp a 254

/-- The polynomial whose coefficients are `cs`, highest power first, at α^j. -/
def rsEval (cs : List Byte) (j : Nat) : Byte := cs.foldl (fun acc c => gfMul acc (gfPow j) ^^^ c) 0

/-- g(x) of R256 without its leading 1, highest power first. -/
def rsGen : List Byte :=
  (upto 4).foldl (fun g j =>
    let r := gfPow j
    let shifted := g ++ [0]
    let scaled := 0 :: g.map (gfMul r)
    List.zipWith (· ^^^ ·) shifted scaled) [1] |>.tail

/-- One step of the division by g(x): the register of four symbols takes an information symbol. -/
def rsStep (r : List Byte) (c : Byte) : List Byte :=
  let f := c ^^^ r.headD 0
  List.zipWith (fun a g => a ^^^ gfMul f g) (r.drop 1 ++ [0]) rsGen

/-- The 4 check symbols of 68 information symbols (R256), symbol 0 the highest power (DEDUCED, log 50). -/
def rsChecks (info : List Byte) : List Byte := info.foldl rsStep [0, 0, 0, 0]

/-- How a received line decodes (R257). -/
inductive RsResult where
  | clean
  | fixed (errs : List (Nat × Byte))
  | lost
deriving DecidableEq, Repr

/-- Decode 72 received symbols: at most two symbol errors are corrected. -/
def rsDecode (cs : List Byte) : RsResult :=
  let s0 := rsEval cs 0
  let s1 := rsEval cs 1
  let s2 := rsEval cs 2
  let s3 := rsEval cs 3
  if s0 == 0 && s1 == 0 && s2 == 0 && s3 == 0 then .clean
  else
    let pos := upto 72
    match pos.find? fun p =>
        let x := gfPow (71 - p)
        s0 != 0 && gfMul s0 x == s1 && gfMul s1 x == s2 && gfMul s2 x == s3 with
    | some p => .fixed [(p, s0)]
    | none =>
      let det := gfMul s0 s2 ^^^ gfMul s1 s1
      if det == 0 then .lost
      else
        let inv := gfInv det
        let l1 := gfMul inv (gfMul s0 s3 ^^^ gfMul s1 s2)
        let l2 := gfMul inv (gfMul s1 s3 ^^^ gfMul s2 s2)
        match pos.filter fun p =>
            let x := gfPow (71 - p)
            (gfMul x x ^^^ gfMul l1 x ^^^ l2) == 0 with
        | [p, q] =>
          let xp := gfPow (71 - p)
          let xq := gfPow (71 - q)
          let yq := gfMul (s1 ^^^ gfMul xp s0) (gfInv (xp ^^^ xq))
          .fixed [(p, s0 ^^^ yq), (q, yq)]
        | _ => .lost

/-- XOR error values into symbols. -/
def rsFlip (cs : List Byte) (errs : List (Nat × Byte)) : List Byte :=
  errs.foldl (fun cs e => cs.set e.1 (cs.getD e.1 0 ^^^ e.2)) cs

/-- The 72 stored symbols of the line at physical address `a`: data, label, checks (R256). -/
def State.codeword (s : State) (a : Nat) : List Byte :=
  s.bytes (a / 64 * 64) 64 ++ (upto 8).map fun i => s.sideAt (a / 64) i

/-- Store 72 symbols as the line at physical address `a`. -/
def State.storeLine (s : State) (a : Nat) (cs : List Byte) : State :=
  (s.setBytes (a / 64 * 64) (cs.take 64)).setSide (a / 64) 0 (cs.drop 64)

/-- Store a line with its label: the controller adds the check symbols. -/
def State.writeLine (s : State) (a : Nat) (data : List Byte) (label : Word) : State :=
  let info := data ++ leBytes 4 label.toNat
  (s.count 0x22 (a / stackSpan)).storeLine a (info ++ rsChecks info)

/-- A line as Table 15.2 locates it. -/
structure LinePos where
  stack : Nat
  rank : Nat
  chan : Nat
  col : Nat
  row : Nat
  bank : Nat
deriving DecidableEq, Repr

/-- Table 15.2: the position of physical address `a`. -/
def decodeLine (a : Nat) : LinePos :=
  let o := a % stackSpan
  let r := o % 0x240000000
  let row := r / 2 ^ 19
  { stack := a / stackSpan, rank := o / 0x240000000, chan := nfld r 9 6, col := nfld r 14 10, row := row,
    bank := (nfld r 18 15) ^^^ (row % 16) }

/-- Offset of the MEM window of stack `k`, and of its line channel `c` (R306). -/
def memBase (k : Nat) : Nat := 0x100000 + 0x40000 * k
def chanBase (k c : Nat) : Nat := memBase k + 0x10000 + 0x1000 * c

/-- Line channel `c`. -/
def Stack.chan (x : Stack) (c : Nat) : LineChan := tget {} x.chans c

/-- Write line channel `c`. -/
def Stack.setChan (x : Stack) (c : Nat) (y : LineChan) : Stack := { x with chans := tset {} c y x.chans }

/-- Change every line channel. -/
def Stack.mapChans (x : Stack) (f : Nat → LineChan → LineChan) : Stack :=
  (upto 16).foldl (fun x c => x.setChan c (f c (x.chan c))) x

/-- Number of a delay set, and its flags (R299). -/
def setNo (c rate band : Nat) : Nat := (c * 3 + rate) * 3 + band
def Stack.setValid (x : Stack) (c rate band : Nat) : Bool := nbit (tget 0 x.dflags (setNo c rate band)) 0
def Stack.setValidated (x : Stack) (c rate band : Nat) : Bool := nbit (tget 0 x.dflags (setNo c rate band)) 1

/-- The set in use of line channel `c` is validated; a provisional set is not (R303). -/
def Stack.inUseOk (x : Stack) (c : Nat) : Bool := !(x.chan c).provisional && x.setValidated c x.rate (x.chan c).band

/-- Monitoring stops where the set in use is validated, and the two status bits clear once no line channel is monitored
(R302; the clearing of the bits is a DESIGN CHOICE, log 51). -/
def Stack.settleMon (x : Stack) : Stack :=
  let x := x.mapChans fun c y => if x.inUseOk c then { y with monitor := false, warned := false } else y
  if x.chans.any fun e => e.2.monitor then x else { x with unval := false, lowMargin := false }

/-- Some line channel runs on a provisional set (R303). -/
def Stack.provisional (x : Stack) : Bool := x.chans.any fun e => e.2.provisional

/-- Some stack runs on provisional sets: a LOAD_FULL is ignored (R303). -/
def State.anyProvisional (s : State) : Bool := s.hbm.any fun e => e.2.provisional

/-- The part has stack `k`, in service or under training, awake. -/
def State.stackUp (s : State) (k : Nat) : Bool :=
  decide (k < s.nStacks) && !(s.stack k).fenced && !s.pwr.tripped && ((s.dom k).st == 0 || (s.dom k).st == 2 || (s.dom k).st == 3)
    && (s.pwr.life == .up || s.pwr.life == .train || s.pwr.life == .warm || s.pwr.life == .waking)

/-- Close every row of the banks that `p` names, by channel and bank key (R296). -/
def Stack.closeRows (x : Stack) (p : Nat → Nat → Bool) : Stack :=
  x.mapChans fun c y =>
    { y with banks := y.banks.foldl (fun t e =>
        if p c e.1 then tset {} e.1 { tget ({} : Bank) t e.1 with open_ := none } t else t) y.banks }

/-- Key of a bank: rank × 16 + bank. -/
def bankKey (rank bank : Nat) : Nat := rank * 16 + bank

/-- An access of a row (R296): the bank's counter moves, then the row stays open or closes by MEM_PAGE.mode. The rank leaves
power-down and self-refresh (R298). -/
def State.access (s : State) (p : LinePos) : State :=
  let x := s.stack p.stack
  let y := x.chan p.chan
  let k := bankKey p.rank p.bank
  let b := tget {} y.banks k
  let hit := b.open_ == some p.row
  let n := match b.open_ with
    | some r => if r = p.row then min 3 (b.counter + 1) else b.counter - 1
    | none => b.counter
  let mode := fld (s.reg (memBase p.stack + 0x0C)) 1 0
  let keep := if mode = 1 then true else if mode = 2 then false else decide (2 ≤ n)
  let b : Bank := { open_ := if keep then some p.row else none, counter := n }
  let x := x.setChan p.chan { y with banks := tset {} k b y.banks }
  let clr (m : Nat) : Nat := if nbit m p.rank then m - 2 ^ p.rank else m
  let s := s.setStack p.stack { x with sr := clr x.sr, pd := clr x.pd }
  if hit then s.count 0x23 p.stack else s

/-- Count corrected symbols per lane (R305). -/
def State.countLanes (s : State) (k c : Nat) (errs : List (Nat × Byte)) : State :=
  let x := s.stack k
  let y := x.chan c
  s.setStack k (x.setChan c { y with
    lanes := errs.foldl (fun t e => tset 0 e.1 (satAdd 0xFFFFFFFF (tget 0 t e.1) 1) t) y.lanes })

/-- DEP_LAST_UNC (R261): physical address, found by the scrubber, a record is held. -/
def uncRecord (a : Nat) (scrub : Bool) : Nat := a / 64 * 64 % 2 ^ 46 + b2n scrub * 2 ^ 48 + 2 ^ 63

/-- Decode a line as read (R257, R305); the scrubber also writes a correctable one back (R258), and a client's two-symbol
correction does so at once. -/
def State.readLine (s : State) (a : Nat) (errs : List (Nat × Byte)) (scrub : Bool) : State :=
  let p := decodeLine a
  let got := rsFlip (s.codeword a) errs
  let s := s.count 0x21 p.stack
  match rsDecode got with
  | .clean => s
  | .fixed es =>
    let s := ((s.bump 0xF0044).bump (chanBase p.stack p.chan)).countLanes p.stack p.chan es
    let s := s.raiseDev 22
    if scrub ∨ 2 ≤ es.length then s.storeLine a (rsFlip got es) else s
  | .lost =>
    let s := (s.bump 0xF0048).bump (chanBase p.stack p.chan + 4)
    { s with lastUnc := uncRecord a scrub }.raiseDev 23

/-- Read a line for a consumer that verifies its label (R27): the data, or `none` where it is poisoned or its label fails
under stream generation `gen`. -/
def State.fetchLine (s : State) (a gen : Nat) : State × Option (List Byte × Word) :=
  let s := s.access (decodeLine a)
  let got := s.codeword a
  let cs := match rsDecode got with
    | .clean => some got
    | .fixed es => some (rsFlip got es)
    | .lost => none
  let s := s.readLine a [] false
  match cs with
  | some cs =>
    let label := w32 (leAt cs 64 4)
    if label = careLabel (cs.take 64) (foldWord a gen) then (s, some (cs.take 64, label)) else (s, none)
  | none => (s, none)

/-- The physical line that an address of a request names: an address from 0x1000_0000_0000 on is a device address of the
region view (R293), a lower one is physical (R292). -/
def State.lineOf (s : State) (addr : Nat) : Option Nat := if 0x100000000000 ≤ addr then s.physOf addr else some addr

/-- The stack whose MEM_DEC_ERR counts a refused device address: the one that the mapping would name (DESIGN CHOICE, log 52). -/
def State.decErrStack (s : State) (addr : Nat) : Nat :=
  let r := (addr - 0x100000000000) / 0x4000000000
  let o := (addr - 0x100000000000) % 0x4000000000
  let st := setBits (tget {} s.pat.regions r).mask 4
  st.getD (o / 64 % max 1 st.length) 0

/-- Any request wakes a sleeping stack (R378); the request waits for the wake. -/
def State.wakeStack (s : State) (k : Nat) : State :=
  if (s.dom k).st = 1 then s.setDom k { s.dom k with st := 4, sleep := false, force := false } else s

/-- MEM_REQUEST (R257, R294, R295, R305): refused addresses are counted; else the row is accessed and the line is read or
written. A command that meets two parity errors raises class 23: its read is poisoned and its write does not take place. -/
def State.memRequestOp (s : State) (addr : Nat) (op : LineOp) (caErrs : Nat) : State :=
  if !s.live && s.pwr.life != .train then s
  else match s.lineOf addr with
  | none => s.bump (memBase (s.decErrStack addr) + 0x2C)
  | some a =>
    let p := decodeLine a
    if (s.dom p.stack).st = 1 then s.wakeStack p.stack
    else if !s.stackUp p.stack ∨ (s.stack p.stack).chg.isSome ∨ (s.stack p.stack).provisional then s
    else
      let s := s.access p
      let s := if caErrs = 0 then s else s.bump (chanBase p.stack p.chan + 0x14)
      if 2 ≤ caErrs then s.raiseDev 23
      else match op with
        | .read errs => s.readLine a errs false
        | .write data label => if data.length = 64 then s.writeLine a data label else s

/-- Lines of a stack (Table 15.1). -/
def stackLines : Nat := 603979776

/-- SCRUB_READ (R258): the next line in address order; lines in powered-down ranks are stepped past and counted. -/
def State.scrubOp (s : State) (k : Nat) (errs : List (Nat × Byte)) : State :=
  let x := s.stack k
  if s.live && s.stackUp k && s.reg 0xF0040 != 0 && x.sweep.isNone && x.chg.isNone && !x.provisional then
    let n := x.scrubPos
    let a := k * stackSpan + n * 64
    let p := decodeLine a
    let s := s.setStack k { x with scrubPos := if n + 1 < stackLines then n + 1 else 0 }
    if nbit x.pd p.rank ∨ nbit x.sr p.rank then s.bump 0xF004C
    else (s.access p).readLine a errs true
  else s

/-- ROW_CLOSE_TIMEOUT (R296). -/
def State.rowCloseOp (s : State) (k c rank bank : Nat) : State :=
  let w := s.reg (memBase k + 0x0C)
  if s.stackUp k && fld w 15 8 != 0 && fld w 1 0 == 0 then
    s.setStack k ((s.stack k).closeRows fun c' b => c' == c && b == bankKey rank bank)
  else s

/-- The thermal band of a temperature (R297). -/
def State.bandOf (s : State) (k temp : Nat) : Nat :=
  let w := s.reg (memBase k + 0x14)
  if fld w 15 8 ≤ temp then 2 else if fld w 7 0 ≤ temp then 1 else 0

/-- The band after a reading, with the hysteresis of a falling one (R297). -/
def State.nextBand (s : State) (k old temp : Nat) : Nat :=
  let up := s.bandOf k temp
  let dn := s.bandOf k (temp + fld (s.reg (memBase k + 0x14)) 19 16)
  if old < up then up else if dn < old then dn else old

/-- Apply the band of the last reading (R297, R304): outside a sweep, a change is due at each line channel's next refresh. -/
def State.applyBand (s : State) (k : Nat) : State :=
  let x := s.stack k
  let b := s.nextBand k x.band x.temp
  if x.sweep.isSome ∨ b = x.band then s
  else s.setStack k ({ x with band := b }.mapChans fun _ y => { y with bandDue := true })

/-- STACK_TEMP_REPORT (R297). -/
def State.tempReportOp (s : State) (k temp : Nat) : State :=
  if s.stackUp k then (s.setStack k { s.stack k with temp := temp % 256 }).applyBand k else s

/-- A line channel takes the set of band `b` (R299). -/
def LineChan.take (y : LineChan) (b : Nat) : LineChan := { y with band := b, bandDue := false, provisional := false, warned := false }

/-- The sets of a band change are loaded, or the channel keeps its set and band_stale is set (R297). -/
def Stack.loadBands (x : Stack) : Stack :=
  if x.chans.any fun e => e.2.bandDue then
    let ok (c : Nat) : Bool := x.setValid c x.rate x.band
    let stale := (upto 16).any fun c => (x.chan c).bandDue && !ok c
    { x.mapChans (fun c y => if y.bandDue then (if ok c then y.take x.band else { y with bandDue := false }) else y) with
      bandStale := stale }.settleMon
  else x

/-- BANK_REFRESH (R297): the rank's next bank refreshes in every line channel, its rows closed, and a due set is loaded. -/
def State.refreshOp (s : State) (k rank : Nat) : State :=
  let x := s.stack k
  if s.stackUp k && decide (rank < 4) && !nbit x.sr rank && x.chg.isNone then
    let b := tget 0 x.nextBank rank
    let x := x.closeRows fun _ key => key == bankKey rank b
    s.setStack k ({ x with nextBank := tset 0 rank ((b + 1) % 16) x.nextBank }.loadBands)
  else s

/-- RANK_POWER_DOWN (R298). -/
def State.rankPdOp (s : State) (k rank : Nat) : State :=
  let x := s.stack k
  if s.stackUp k && decide (rank < 4) && fld (s.reg (memBase k + 8)) 15 0 != 0 && !nbit x.sr rank && x.chg.isNone then
    let x := x.closeRows fun _ key => key / 16 == rank
    s.setStack k { x with pd := x.pd ||| 2 ^ rank }
  else s

/-- Region `r` holds units of rank `rank` of stack `k` (Table 15.1). -/
def Region.holds (r : Region) (k rank : Nat) : Bool :=
  nbit r.mask k && r.count != 0 && decide (r.start < 36 * (rank + 1)) && decide (36 * rank < r.start + r.count)

/-- Panel `p` has a RUNNING LIVE session. -/
def State.liveOn (s : State) (p : Nat) : Bool := s.sessions.any fun e => e.2.st == .running && e.2.cls == clsLive && e.2.panel == p

/-- The rank must not enter self-refresh (R298). -/
def State.rankBusy (s : State) (k rank : Nat) : Bool :=
  (s.anyRunning && (tget {} s.pat.regions 16).holds k rank) ||
    (upto 16).any fun p => s.liveOn p && (tget {} s.pat.regions (s.panel p).partition).holds k rank

/-- RANK_SELF_REFRESH (R298). -/
def State.rankSrOp (s : State) (k rank : Nat) : State :=
  let x := s.stack k
  if s.stackUp k && decide (rank < 4) && fld (s.reg (memBase k + 8)) 31 16 != 0 && x.chg.isNone && !s.rankBusy k rank then
    let x := x.closeRows fun _ key => key / 16 == rank
    s.setStack k { x with sr := x.sr ||| 2 ^ rank, pd := if nbit x.pd rank then x.pd - 2 ^ rank else x.pd }
  else s

/-- MEMC_MARGIN (R306). -/
def marginWord (rd wr lane : Nat) : Word := mkWord [(0, rd % 256), (8, wr % 256), (16, lane % 128)]

/-- LOAD_WINDOW (R302): the load; class 24 once per unvalidated set in use above 50 %, and monitoring; each monitored margin
below min_taps sets low_margin and raises class 24 again. `margins` holds (read, write, lane) by line channel. -/
def State.loadWindowOp (s : State) (k : Nat) (loads : List Nat) (margins : List (Nat × Nat × Nat)) : State :=
  if s.stackUp k then
    let load := (loads.foldl max 0) % 128
    let x := { s.stack k with load := load }
    let s := s.setStack k x
    let watched := (upto 16).filter fun c => (x.chan c).monitor
    let s := (upto 16).foldl (fun s c =>
      let x := s.stack k
      if 50 < load ∧ ¬ x.inUseOk c ∧ ¬ (x.chan c).warned then
        (s.setStack k { x.setChan c { x.chan c with warned := true, monitor := true } with unval := true }).raiseDev 24
      else s) s
    watched.foldl (fun s c => match margins[c]? with
      | some m =>
        let x := s.stack k
        let x := x.setChan c { x.chan c with margin := marginWord m.1 m.2.1 m.2.2 }
        if min m.1 m.2.1 < fld (s.reg (memBase k + 0x1C)) 7 0 then (s.setStack k { x with lowMargin := true }).raiseDev 24
        else s.setStack k x
      | none => s) s
  else s

/-- A LIVE session is RUNNING on a panel whose partition includes stack `k` (R303, R378). -/
def State.liveStack (s : State) (k : Nat) : Bool := (upto 16).any fun p => s.liveOn p && nbit (tget {} s.pat.regions (s.panel p).partition).mask k

/-- Start a waiting frequency change (Table 15.3 steps 1 to 3): no sweep runs and live_guard does not hold a lowering. Rows
close and all ranks enter self-refresh. -/
def State.freqTry (s : State) (k : Nat) : State :=
  let x := s.stack k
  match x.fpend with
  | some r =>
    if x.sweep.isSome ∨ x.chg.isSome ∨ (x.rate < r.1 ∧ x.guard ∧ s.liveStack k) then s
    else s.setStack k { x.closeRows (fun _ _ => true) with fpend := none, chg := some r, sr := 0xF, pd := 0 }
  | none => s

/-- Every stack starts the frequency change that waits, where nothing holds it any longer (R303; log 53). -/
def State.freqAll (s : State) : State := (upto s.nStacks).foldl (fun s k => s.freqTry k) s

/-- The set for a rate and the band in force is valid on every line channel. -/
def Stack.rateValid (x : Stack) (rate : Nat) : Bool := (upto 16).all fun c => x.setValid c rate x.band

/-- A write of MEM_FREQ (R303). -/
def State.freqWrite (s : State) (k : Nat) (v : Word) : State :=
  let x := s.stack k
  let t := fld v 1 0
  let train := bit v 5
  let boot := s.pwr.life == .train
  let capped := s.pat.serial != 0 && decide (t < tget 0 s.pat.hbmCap (k / 2))
  let bad := s.pwr.standbyPend || t == 3 || capped || (if train then !(boot || s.mode == .primed) else !x.rateValid t)
  if bad then s.ignored (memBase k + 4) v
  else (s.setStack k { x with target := t, guard := bit v 4, fpend := some (t, train) }).freqTry k

/-- FREQ_CHANGE_DONE (Table 15.3 steps 4 and 5): each line channel takes the set of the new rate and the band in force, a
provisional one with train where that is not valid; the ranks leave self-refresh. -/
def State.freqDoneOp (s : State) (k : Nat) : State :=
  let x := s.stack k
  match x.chg with
  | some (t, train) =>
    if s.stackUp k then
      let x := { x with rate := t, chg := none, sr := 0, bandStale := false }
      let x := x.mapChans fun c y =>
        { y.take x.band with provisional := train && !x.setValid c t x.band }
      (((s.setStack k x.settleMon).bump (memBase k + 0x28)).freqTry k)
    else s
  | none => s

/-- MEM_TRAIN_ST (R306). -/
def trainWord (busy : Bool) (chan result : Nat) (margin : Bool) (worst achieved : Nat) : Word :=
  mkWord [(0, b2n busy), (1, chan % 16), (5, result % 4), (7, b2n margin), (8, worst % 256), (16, achieved % 128)]

/-- The sweep's line channels close their rows (R296). -/
def Stack.startSweep (x : Stack) (w : Sweep) : Stack :=
  { x.closeRows (fun c _ => w.all || c == w.chan) with
    sweep := some w, trainSt := trainWord true w.chan 0 w.margin 0 0 }

/-- A MEM_TRAIN command (R300, R301, R304, R306). -/
def State.trainNow (s : State) (k : Nat) (v : Word) : State :=
  let x := s.stack k
  let cmd := fld v 1 0
  let boot := s.pwr.life == .train
  let off := memBase k + 0x20
  let chan := if bit v 8 then 0 else fld v 7 4
  if cmd = 0 ∨ 100 < fld v 22 16 then s.ignored off v
  else if cmd = 3 then
    match x.sweep with
    | some w =>
      ((s.setStack k { x with
        sweep := none, trainSt := trainWord false w.chan 3 w.margin (fld x.trainSt 15 8) (fld x.trainSt 22 16) }).applyBand k).freqTry k
    | none => s
  else if x.sweep.isSome ∨ x.chg.isSome ∨ s.pwr.standbyPend ∨
      (if cmd = 1 then !(boot || s.mode == .primed || s.mode == .woven) else !(boot || s.mode != .standby)) then s.ignored off v
  else s.setStack k (x.startSweep
    { margin := cmd == 2, chan := chan, all := bit v 8, inject := if cmd = 2 then fld v 22 16 else 0, band := x.band })

/-- A write of MEM_TRAIN: it waits while the control cores reload (Table 12.5). -/
def State.trainWrite (s : State) (k : Nat) (v : Word) : State :=
  if s.sec.reloading then s.setStack k { s.stack k with trainWait := (s.stack k).trainWait ++ [v] } else s.trainNow k v

/-- The training commands that waited for the control cores proceed, stack by stack (R260). -/
def State.trainResume (s : State) : State :=
  (upto s.nStacks).foldl (fun s k =>
    let l := (s.stack k).trainWait
    l.foldl (fun s v => s.trainNow k v) (s.setStack k { s.stack k with trainWait := [] })) s

/-- The set that a full sweep found: data of the 72 lanes, valid, validated clear (R300 step 3). -/
def Stack.writeSet (x : Stack) (c band : Nat) (lanes : List (Nat × Nat × Nat)) : Stack :=
  let n := setNo c x.rate band
  { x with
    dset := (upto 72).foldl (fun t l =>
      let e := lanes.getD l (0, 0, 0)
      tset 0 (n * 128 + l) (mkWord [(0, e.1 % 256), (8, e.2.1 % 256), (16, e.2.2 % 256)]) t) x.dset
    dflags := tset 0 n 1 x.dflags }

/-- SWEEP_DONE (R300, R301, R304): the result of one line channel; of an `all` sweep the next channel follows, and the status
keeps a failure and the worst margin. -/
def State.sweepDoneOp (s : State) (k : Nat) (r : SweepResult) : State :=
  let x := s.stack k
  match x.sweep with
  | some w =>
    if s.stackUp k && !s.sec.reloading then
      let c := w.chan
      let x := if w.margin then
          x.setChan c { x.chan c with lastMargin := some (x.rate, (x.chan c).band, r.pass && !(x.chan c).provisional, r.achieved) }
        else if r.pass then
          let x := x.writeSet c w.band r.lanes
          x.setChan c ((x.chan c).take w.band)
        else x
      let later := w.all && c != 0
      let res := if r.pass && !(later && fld x.trainSt 6 5 == 2) then 1 else 2
      let worst := if later then min r.worst (fld x.trainSt 15 8) else r.worst
      let ach := if later then min r.achieved (fld x.trainSt 22 16) else r.achieved
      let more := w.all && decide (c < 15)
      let x := { x with
        sweep := if more then some { w with chan := c + 1 } else none
        trainSt := trainWord more (if more then c + 1 else c) res w.margin worst ach }
      let s := s.setStack k x.settleMon
      if more then s else (s.applyBand k).freqTry k
    else s
  | none => s

/-- CA_PARITY_ERROR (R305): the first error of a command is retried and counted, the second raises class 23. -/
def State.caParityOp (s : State) (k c : Nat) (again : Bool) : State :=
  if s.stackUp k && decide (c < 16) then
    if again then s.raiseDev 23 else s.bump (chanBase k c + 0x14)
  else s

/-- The selected set of MEM_DSET_SEL: channel, rate, band. -/
def selSet (w : Word) : Nat × Nat × Nat := (fld w 3 0, fld w 5 4, fld w 7 6)

/-- The selected set is the set in use (R299). -/
def Stack.inUse (x : Stack) (c rate band : Nat) : Bool := rate == x.rate && band == (x.chan c).band

/-- The last margin sweep of the line channel ran on that set, passed and reached a load of 70 % (R301). -/
def Stack.mayValidate (x : Stack) (c rate band : Nat) : Bool :=
  match (x.chan c).lastMargin with
  | some (r, b, pass, load) => r == rate && b == band && pass && decide (70 ≤ load)
  | none => false

/-- A write of MEM_DSET_FLAGS (R299, R301). -/
def State.dflagsWrite (s : State) (k : Nat) (v : Word) : State :=
  let x := s.stack k
  let t := selSet (s.reg (memBase k + 0x40))
  let n := setNo t.1 t.2.1 t.2.2
  let used := x.inUse t.1 t.2.1 t.2.2
  let old := tget 0 x.dflags n
  if (bit v 1 && !x.mayValidate t.1 t.2.1 t.2.2) || (used && !bit v 1) then s.ignored (memBase k + 0x48) v
  else
    let f := if used then old % 2 + 2 else fld v 1 0
    s.setStack k { x with dflags := tset 0 n f x.dflags }.settleMon

/-- A write of MEM_DSET_DATA (R299). -/
def State.dsetWrite (s : State) (k : Nat) (v : Word) : State :=
  let x := s.stack k
  let w := s.reg (memBase k + 0x40)
  let t := selSet w
  if x.inUse t.1 t.2.1 t.2.2 then s.ignored (memBase k + 0x44) v
  else s.setStack k { x with dset := tset 0 (setNo t.1 t.2.1 t.2.2 * 128 + fld w 14 8) (maskW 0xFFFFFF v) x.dset }

/-- A write of line channel register `o` of channel `c` (R306). -/
def State.memcWrite (s : State) (k c o : Nat) (v : Word) : State :=
  let off := chanBase k c + o
  if o = 0 ∨ o = 4 ∨ o = 0x14 then s.setReg off 0
  else if o = 8 ∧ fld v 6 0 < 72 then s.setReg off (maskW 0x7F v)
  else s.ignored off v

/-- A write of the MEM window of stack `k` at window offset `o` (R306). -/
def State.memWrite (s : State) (k o : Nat) (v : Word) : State :=
  let off := memBase k + o
  let no := s.ignored off v
  if 0x10000 ≤ o then if o < 0x20000 then s.memcWrite k ((o - 0x10000) / 0x1000) (o % 0x1000) v else no
  else if o = 0x04 then s.freqWrite k v
  else if o = 0x08 then s.setReg off v
  else if o = 0x0C then if fld v 1 0 = 3 then no else s.setReg off (maskW 0xFF03 v)
  else if o = 0x10 then if 1000 ≤ fld v 15 0 ∧ fld v 15 0 ≤ 4680 then s.setReg off (maskW 0xFFFF v) else no
  else if o = 0x14 then
    if fld v 7 0 < fld v 15 8 ∧ fld v 15 8 ≤ 85 ∧ fld v 19 16 ≠ 0 then s.setReg off (maskW 0xFFFFF v) else no
  else if o = 0x1C then if fld v 7 0 = 0 then no else s.setReg off (maskW 0xFF v)
  else if o = 0x20 then s.trainWrite k v
  else if o = 0x28 ∨ o = 0x2C then s.setReg off 0
  else if o = 0x40 then
    if fld v 14 8 < 72 ∧ fld v 5 4 < 3 ∧ fld v 7 6 < 3 then s.setReg off (maskW 0x7FFF v) else no
  else if o = 0x44 then s.dsetWrite k v
  else if o = 0x48 then s.dflagsWrite k v
  else no

/-- A write of MEM register `o` reaches its stack: the device answers, or its firmware trains in boot step 4 (R300, R375); the
window of an absent, fenced or stopped stack ignores it (R2, R338, R375). -/
def State.whenMem (s : State) (k o : Nat) (v : Word) (f : State → State) : State :=
  let off := memBase k + o
  if (s.live || s.pwr.life == .train) && decide (k < 4) then
    if s.present off && !s.stopped off then f s else s.ignored off v
  else s

/-- SCRUB_READ. -/
def execScrubRead (k : Nat) (errs : List (Nat × Byte)) (s : State) : Host.Outcome State Fault Refusal := .next (s.scrubOp k errs)

/-- MEM_REQUEST. -/
def execMemRequest (addr : Nat) (op : LineOp) (ca : Nat) (s : State) : Host.Outcome State Fault Refusal := .next (s.memRequestOp addr op ca)

/-- ROW_CLOSE_TIMEOUT. -/
def execRowCloseTimeout (k c rank bank : Nat) (s : State) : Host.Outcome State Fault Refusal := .next (s.rowCloseOp k c rank bank)

/-- STACK_TEMP_REPORT. -/
def execStackTempReport (k temp : Nat) (s : State) : Host.Outcome State Fault Refusal := .next (s.tempReportOp k temp)

/-- BANK_REFRESH. -/
def execBankRefresh (k rank : Nat) (s : State) : Host.Outcome State Fault Refusal := .next (s.refreshOp k rank)

/-- RANK_POWER_DOWN. -/
def execRankPowerDown (k rank : Nat) (s : State) : Host.Outcome State Fault Refusal := .next (s.rankPdOp k rank)

/-- RANK_SELF_REFRESH. -/
def execRankSelfRefresh (k rank : Nat) (s : State) : Host.Outcome State Fault Refusal := .next (s.rankSrOp k rank)

/-- LOAD_WINDOW. -/
def execLoadWindow (k : Nat) (loads : List Nat) (margins : List (Nat × Nat × Nat)) (s : State) : Host.Outcome State Fault Refusal :=
  .next (s.loadWindowOp k loads margins)

/-- FREQ_CHANGE_REQUEST: a write of MEM_FREQ. -/
def execFreqChangeRequest (k : Nat) (v : Word) (s : State) : Host.Outcome State Fault Refusal := .next (s.whenMem k 0x04 v (·.freqWrite k v))

/-- FREQ_CHANGE_DONE. -/
def execFreqChangeDone (k : Nat) (s : State) : Host.Outcome State Fault Refusal := .next (s.freqDoneOp k)

/-- A MEM_TRAIN write with command `cmd`. -/
def trainAsk (cmd : Nat) (v : Word) : Word := maskW 0xFFFFFFFC v ||| w32 cmd

/-- FULL_SWEEP: a write of MEM_TRAIN with cmd 1. -/
def execFullSweep (k : Nat) (v : Word) (s : State) : Host.Outcome State Fault Refusal := .next (s.whenMem k 0x20 (trainAsk 1 v) (·.trainWrite k (trainAsk 1 v)))

/-- MARGIN_SWEEP: a write of MEM_TRAIN with cmd 2. -/
def execMarginSweep (k : Nat) (v : Word) (s : State) : Host.Outcome State Fault Refusal := .next (s.whenMem k 0x20 (trainAsk 2 v) (·.trainWrite k (trainAsk 2 v)))

/-- SWEEP_ABORT: a write of MEM_TRAIN with cmd 3. -/
def execSweepAbort (k : Nat) (v : Word) (s : State) : Host.Outcome State Fault Refusal := .next (s.whenMem k 0x20 (trainAsk 3 v) (·.trainWrite k (trainAsk 3 v)))

/-- SWEEP_DONE. -/
def execSweepDone (k : Nat) (r : SweepResult) (s : State) : Host.Outcome State Fault Refusal := .next (s.sweepDoneOp k r)

/-- CA_PARITY_ERROR. -/
def execCaParityError (k c : Nat) (again : Bool) (s : State) : Host.Outcome State Fault Refusal := .next (s.caParityOp k c again)

/-- DSET_FLAGS_WRITE: a write of MEM_DSET_FLAGS. -/
def execDsetFlagsWrite (k : Nat) (v : Word) (s : State) : Host.Outcome State Fault Refusal := .next (s.whenMem k 0x48 v (·.dflagsWrite k v))

end Sys2Proof.Machine
end

