-- ==== Sys2Proof/Machine/Image.lean ====
section
/-!
DEFINITION. The pattern image: header, directory, sections (R32 to R39), the structural rules (R40, Table 2.5), the order
of checks (R427) and the conflicts of a piece (R47). `checkImage` answers the first failing code or the pattern brought in.
-/
namespace Sys2Proof.Machine

/-- A directory entry (R32). -/
structure DirEntry where
  type : Nat
  off : Nat
  len : Nat
  flags : Nat
deriving DecidableEq, Repr

/-- Number of directory entries (Table 2.1). -/
def imgSections (im : List Byte) : Nat := leAt im 0x16 2

/-- The directory of an image. -/
def imgDir (im : List Byte) : List DirEntry :=
  (upto (imgSections im)).map fun i =>
    { type := leAt im (64 + 16 * i) 4, off := leAt im (68 + 16 * i) 4, len := leAt im (72 + 16 * i) 4,
      flags := leAt im (76 + 16 * i) 4 }

/-- Bytes of a section of a type. -/
def imgSec (im : List Byte) (type : Nat) : List Byte :=
  match (imgDir im).find? fun d => d.type == type with
  | some d => (im.drop d.off).take d.len
  | none => []

/-- Header kind (Table 2.1): piece. -/
def imgPiece (im : List Byte) : Bool := leAt im 6 1 == 2
def imgSerial (im : List Byte) : Nat := leAt im 0x0C 4
def imgBase (im : List Byte) : Nat := leAt im 0x10 4
def imgMask (im : List Byte) : Nat := leAt im 0x14 2

/-- Step 4 of R427: the header against the command, PAT_LEN and the part. -/
def headerTests (im : List Byte) (piece : Bool) (len : Nat) (a144 : Bool) : List (Bool × Nat) :=
  let variant := leAt im 7 1
  [(leAt im 0 4 == 0x4D565054, 1), (leAt im 4 2 == 1, 1),
   (leAt im 6 1 == (if piece then 2 else 1), 1),
   (zerosAt im 0x18 40, 1),
   (decide (variant ≤ 2), 1), (imgSerial im != 0, 1),
   (if piece then imgMask im != 0 else imgBase im == 0 && imgMask im == 0, 1),
   (leAt im 8 4 == len, 2),
   (variant == 0 || variant == (if a144 then 1 else 2), 5)]

/-- Section types that a kind requires (Table 2.2). -/
def neededTypes (piece : Bool) : List Nat := if piece then [2, 3, 8] else [1, 2, 3, 4, 5, 6, 7]

/-- Two byte ranges overlap. -/
def overlap (a la b lb : Nat) : Bool := decide (a < b + lb) && decide (b < a + la) && la != 0 && lb != 0

/-- Step 5 of R427: the directory. The whole of it lies before the trailer. -/
def dirTests (im : List Byte) (piece : Bool) : List (Bool × Nat) :=
  let ds := imgDir im
  let n := im.length
  let dirLen := 16 * imgSections im
  let idx := (upto ds.length).zip ds
  [(decide (1 ≤ imgSections im) && decide (imgSections im ≤ 16), 6),
   (decide (64 + dirLen + 128 ≤ n), 6),
   (ds.all fun d => d.flags == 0, 6),
   ((ds.all fun d => (neededTypes piece).contains d.type) && ((neededTypes piece).all fun t =>
      (ds.filter fun d => d.type == t).length == 1), 6),
   (ds.all fun d => d.off % 64 == 0, 6),
   (idx.all fun a => !overlap a.2.off a.2.len 0 (64 + dirLen) &&
      idx.all fun b => a.1 == b.1 || !overlap a.2.off a.2.len b.2.off b.2.len, 6),
   (ds.all fun d => decide (d.off + d.len + 128 ≤ n), 2)]

/-- Entries of 4 bytes of ROLES or TILESET. -/
def roleWords (sec : List Byte) : List Word := (upto 64).map fun i => w32 (leAt sec (4 * i) 4)

/-- A role entry is legal in itself (R34): role 0 to 2, gang 0 to 2, no field that its role does not use. -/
def roleOk (w : Word) : Bool :=
  let role := fld w 6 4
  let gang := fld w 9 8
  decide (role ≤ 2) && gang != 3 && fld w 31 20 == 0 &&
  (role == 1 || fld w 3 0 == 0) &&
  (gang != 0 || fld w 15 10 == 0) && (role == 1 || gang == 0) &&
  (role == 2 || fld w 19 16 == 0)

/-- The tests of ROLES and TILESET entries in image order (R34, R427 step 7): absent tiles, then entry rules. -/
def roleTests (ws : List Word) (tiles : Nat) : List (Bool × Nat) :=
  ((upto 64).zip ws).map fun e =>
    if 52 ≤ e.1 then (e.2 == 0, 1)
    else if tiles ≤ e.1 then (e.2 == 0, 5)
    else (roleOk e.2, 7)

/-- A PANELS entry from its 32 bytes (Table 2.4), without its programs. -/
def panelOf (e : List Byte) : Panel where
  tiles := leAt e 0 1
  classes := leAt e 1 1
  effort := leAt e 2 1
  partition := leAt e 3 1
  ports := leAt e 4 1
  ingest := leAt e 5 1
  maxSes := leAt e 6 2
  maxW := leAt e 8 2
  maxH := leAt e 10 2
  progMask := leAt e 12 4

/-- The tests of one PANELS entry (R35, R427 step 7): must-be-zero fields, then field ranges. Bits of classes, effort, ports and
ingest beyond those of Table 2.4 count as must-be-zero fields (DESIGN CHOICE, log 106). -/
def panelTests (e : List Byte) : List (Bool × Nat) :=
  let p := panelOf e
  if p.tiles = 0 then [(zerosAt e 0 32, 1)]
  else
    [(zerosAt e 16 16 && nfld p.classes 7 4 == 0 && nfld p.effort 7 3 == 0 && nfld p.ports 7 4 == 0 && nfld p.ingest 7 2 == 0, 1),
     (decide (p.tiles ≤ 52) && decide (p.partition ≤ 15) && decide (1 ≤ p.maxSes) && decide (p.maxSes ≤ 4096) &&
       decide (64 ≤ p.maxW) && decide (p.maxW ≤ 8192) && decide (64 ≤ p.maxH) && decide (p.maxH ≤ 8192), 12)]

/-- The panel numbers that a PANELS section holds entries for (R35). -/
def panelNums (im : List Byte) : List Nat := if imgPiece im then setBits (imgMask im) 16 else upto 16

/-- PANELS entries of an image. -/
def imgPanels (im : List Byte) : List (Nat × Panel) :=
  let sec := imgSec im 2
  let ns := panelNums im
  ((upto ns.length).zip ns).map fun e => (e.2, panelOf ((sec.drop (32 * e.1)).take 32))

/-- Split PROGRAMS into entries of header and words (R36); `none` where a remainder is shorter than an entry. -/
def splitProgs : Nat → List Byte → Option (List (List Byte × List Byte))
  | 0, bs => if bs.isEmpty then some [] else none
  | n + 1, bs =>
    if bs.isEmpty then some []
    else if bs.length < 16 then none
    else
      let len := 4 * leAt bs 4 4
      if bs.length < 16 + len then none
      else (splitProgs n (bs.drop (16 + len))).map fun t => ((bs.take 16, (bs.drop 16).take len) :: t)

/-- Microwords from bytes. -/
def wordsOf : List Byte → List Word
  | a :: b :: c :: d :: t => w32 (leNat [a, b, c, d]) :: wordsOf t
  | _ => []

/-- A program entry (R36). -/
def progOf (e : List Byte × List Byte) : Prog where
  codec := leAt e.1 0 1
  decode := leAt e.1 1 1 == 2
  profiles := leAt e.1 2 2
  check := w32 (leAt e.1 8 4)
  words := wordsOf e.2

/-- PROGRAMS entries of an image. -/
def imgProgs (im : List Byte) : List (List Byte × List Byte) := (splitProgs 32 (imgSec im 3)).getD []

/-- Tests of PROGRAMS entries: must-be-zero fields, then ranges. -/
def progTests (e : List Byte × List Byte) : List (Bool × Nat) :=
  [(nfld (leAt e.1 2 2) 15 4 == 0 && zerosAt e.1 12 4, 1),
   (decide (1 ≤ leAt e.1 0 1) && decide (leAt e.1 0 1 ≤ 4) && decide (1 ≤ leAt e.1 1 1) && decide (leAt e.1 1 1 ≤ 2) &&
      decide (1 ≤ leAt e.1 4 4) && decide (leAt e.1 4 4 ≤ 16384), 12)]

/-- MEMORY entries (R37). -/
def memWords (im : List Byte) : List Nat := (upto 17).map fun i => leAt (imgSec im 4) (8 * i) 8
def regionWord (w : Nat) : Region := { mask := nfld w 3 0, start := nfld w 15 8, count := nfld w 23 16 }

/-- Tests of a MEMORY entry: zero bits, then ranges of a declared region. -/
def memTests (w : Nat) : List (Bool × Nat) :=
  let r := regionWord w
  [(nfld w 7 4 == 0 && nfld w 63 24 == 0, 1),
   (r.count == 0 || (decide (2 ≤ r.start) && decide (r.start ≤ 143) && decide (r.count ≤ 142)), 12)]

/-- Step 7 of R427 for one section: its length or count, then its entries. -/
def secTests (im : List Byte) (a144 : Bool) (type : Nat) : List (Bool × Nat) :=
  let sec := imgSec im type
  let tiles := if a144 then 52 else 26
  if type = 1 ∨ type = 8 then (sec.length == 256, 6) :: roleTests (roleWords sec) tiles
  else if type = 2 then
    (sec.length == 32 * (panelNums im).length, 6) ::
      ((upto (panelNums im).length).map fun i => panelTests ((sec.drop (32 * i)).take 32)).flatten
  else if type = 3 then
    ((splitProgs 32 sec).isSome && !sec.isEmpty, 6) :: ((imgProgs im).map progTests).flatten
  else if type = 4 then
    (sec.length == 136, 6) :: ((memWords im).map memTests).flatten
  else if type = 5 then
    [(sec.length == 16, 6),
     (nfld (leAt sec 0 1) 7 2 == 0 && nfld (leAt sec 1 1) 7 2 == 0 && nfld (leAt sec 2 1) 7 3 == 0 && zerosAt sec 3 13, 1)]
  else if type = 6 then
    [(sec.length == 16, 6),
     (nfld (leAt sec 4 1) 7 2 == 0 && nfld (leAt sec 5 1) 7 2 == 0 && zerosAt sec 6 10, 1),
     ((upto 4).all fun q => leAt sec q 1 == 0 || (decide (4 ≤ leAt sec q 1) && decide (leAt sec q 1 ≤ 16)), 12),
     (leAt sec 4 1 != 3 && leAt sec 5 1 != 3, 12)]
  else
    [(sec.length == 16, 6), (zerosAt sec 4 12, 1),
     (decide (1 ≤ leAt sec 0 4) && decide (leAt sec 0 4 ≤ 262144), 12)]

/-- A full pattern names no stack, clothesline port or clock domain that the part lacks (Table 2.5, last row). On the MV-W9T-B072 the
caps of Q2, Q3 and F1 name absent domains (R38; DESIGN CHOICE, log 107). -/
def namesPresent (im : List Byte) (a144 : Bool) : Bool :=
  let ports := imgSec im 5
  let clocks := imgSec im 6
  a144 || (((memWords im).all fun w => decide (nfld w 3 0 < 4)) && !nbit (leAt ports 2 1) 2 &&
    leAt clocks 2 1 == 0 && leAt clocks 3 1 == 0 && leAt clocks 5 1 == 0)

/-- Programs that a panel's mask selects, in PROGRAMS order (R36). -/
def pickProgs (mask : Nat) (ps : List Prog) : List Prog :=
  (((upto ps.length).zip ps).filter fun e => nbit mask e.1).map (·.2)

/-- The structure that a full pattern brings in. -/
def fullPattern (im : List Byte) : Pattern :=
  let ps := (imgProgs im).map progOf
  let roles := ((upto 52).zip (roleWords (imgSec im 1))).filter fun e => e.2 != 0
  let panels := (imgPanels im).filterMap fun e =>
    if e.2.tiles = 0 then none else some (e.1, { e.2 with progs := pickProgs e.2.progMask ps })
  let regions := ((upto 17).zip (memWords im)).filterMap fun e =>
    let r := regionWord e.2
    if r.count = 0 then none else some (e.1, r)
  let ports := imgSec im 5
  let clocks := imgSec im 6
  { serial := w32 (imgSerial im), roles := roles, panels := panels, regions := regions,
    lane := [(0, nfld (leAt ports 0 1) 1 0), (1, nfld (leAt ports 1 1) 1 0)].filter fun e => e.2 != 0,
    lines := leAt ports 2 1 % 8,
    caps := ((upto 4).map fun q => (q, leAt clocks q 1)).filter fun e => e.2 != 0,
    hbmCap := [(0, leAt clocks 4 1 % 4), (1, leAt clocks 5 1 % 4)].filter fun e => e.2 != 0,
    pages := leAt (imgSec im 7) 0 4 }

/-- The tile of a ROLES word belongs to a panel of `mask`: active in one, or a spare warm for one (R39). -/
def inMask (w : Word) (mask : Nat) : Bool :=
  (fld w 6 4 == 1 && nbit mask (fld w 3 0)) || (fld w 6 4 == 2 && nbit mask (fld w 19 16))

/-- A TILESET entry governs the tile (R39): its tile is in the mask or unused. -/
def governed (old : Word) (mask : Nat) : Bool := inMask old mask || fld old 6 4 == 0

/-- The structure that a piece leaves in force (R45, R46): the pressed panels' entries, programs and tiles replaced. -/
def piecePattern (p : Pattern) (im : List Byte) : Pattern :=
  let mask := imgMask im
  let ps := (imgProgs im).map progOf
  let ws := roleWords (imgSec im 8)
  let roles := (upto 52).foldl (fun t k =>
    if governed (tget 0 p.roles k) mask then tset 0 k (ws.getD k 0) t else t) p.roles
  let panels := (imgPanels im).foldl (fun t e =>
    tset {} e.1 (if e.2.tiles = 0 then {} else { e.2 with progs := pickProgs e.2.progMask ps }) t) p.panels
  { p with serial := w32 (imgSerial im), roles := roles, panels := panels }

/-- The tiles of other panels that a piece's TILESET draws into panel `p` (R39); it conflicts (R47), but they count among the
tiles that the panel's entry names. -/
def drawnInto (old : Pattern) (im : List Byte) (p : Nat) : Nat :=
  ((upto 52).filter fun k =>
    let w := (roleWords (imgSec im 8)).getD k 0
    imgPiece im && !governed (tget 0 old.roles k) (imgMask im) && nbit (imgMask im) p && fld w 6 4 == 1 && fld w 3 0 == p).length

/-- Active tiles of panel `p` in a pattern. -/
def patActive (pt : Pattern) (p : Nat) : Nat :=
  (pt.roles.filter fun e => fld e.2 6 4 == 1 && fld e.2 3 0 == p).length

/-- The gang rules of Table 2.5 for tile `t` with entry `w`. -/
def gangOk (pt : Pattern) (t : Nat) (w : Word) : Bool :=
  let g := fld w 9 8
  let lead := fld w 15 10
  let pos := lead % 13
  let n := 2 ^ g
  g == 0 ||
    ((if g = 1 then pos % 2 == 0 && decide (pos ≤ 10) else pos == 0 || pos == 4 || pos == 8) &&
     decide (lead ≤ t) && decide (t < lead + n) &&
     ((upto n).all fun i =>
       let v := tget 0 pt.roles (lead + i)
       fld v 6 4 == 1 && fld v 9 8 == g && fld v 15 10 == lead && fld v 3 0 == fld w 3 0))

/-- Sum of the words of a panel's set. -/
def setSize (p : Panel) : Nat := (p.progs.map fun g => g.words.length).sum

/-- Two regions overlap: a stack in common and units in common. -/
def regionsMeet (a b : Region) : Bool :=
  (a.mask &&& b.mask) != 0 && decide (a.start < b.start + b.count) && decide (b.start < a.start + a.count)

/-- Step 8 of R427: the rules of Table 2.5 in table order. `checks` says whether every program check value matches, `mask` which
panels the image brings and `present` whether it names present units only. A panel mask naming a program that PROGRAMS lacks is a
field out of range (DEDUCED, log 31); a tile count that does not match ROLES has code 0x07, and a region with units but no stack
0x0A (DESIGN CHOICE, logs 108 and 109). -/
def structTests (pt : Pattern) (drawn : Nat → Nat) (checks : Bool) (nProgs mask : Nat) (present : Bool) (tiles fenced : Nat) :
    List (Bool × Nat) :=
  let reg (i : Nat) : Region := tget {} pt.regions i
  [(pt.roles.all fun e => fld e.2 6 4 != 1 || (tget {} pt.panels (fld e.2 3 0)).tiles != 0, 7),
   ((upto 16).all fun p => (tget {} pt.panels p).tiles == patActive pt p + drawn p, 7),
   (pt.roles.all fun e => gangOk pt e.1 e.2, 7),
   ((upto 16).all fun p => !nbit (tget {} pt.panels p).classes 0 ||
      pt.roles.any fun e => fld e.2 6 4 == 2 && fld e.2 19 16 == p, 8),
   (pt.roles.all fun e => fld e.2 6 4 != 2 || (tget {} pt.panels (fld e.2 19 16)).tiles != 0, 8),
   (pt.roles.all fun e => fld e.2 6 4 == 0 || tget 0 pt.caps (quadOf e.1) != 0, 12),
   ((pt.panels.all fun e => decide (setSize e.2 ≤ 16384)) && checks, 9),
   ((pt.regions.all fun a => decide (2 ≤ a.2.start) && decide (a.2.start + a.2.count ≤ 144) && a.2.mask != 0 &&
       pt.regions.all fun b => a.1 == b.1 || !regionsMeet a.2 b.2) &&
     (pt.panels.all fun e => (reg e.2.partition).count != 0), 10),
   (decide (pt.pages * 16384 ≤ (reg 16).size), 10),
   (pt.panels.all fun e =>
      (upto 2).all (fun n => (!nbit e.2.ports n && !nbit e.2.ingest n) || tget 0 pt.lane n != 0) &&
      (!nbit e.2.ports 3 || pt.lines != 0), 11),
   (pt.panels.all fun e => !nbit mask e.1 || decide (e.2.progMask < 2 ^ nProgs), 12),
   (present && (pt.roles.all fun e => decide (e.1 < tiles)) && (pt.regions.all fun e => (e.2.mask &&& fenced) == 0), 5)]

/-- Step 9 of R427: the conflicts of a piece (R46, R47). -/
def State.pieceTests (s : State) (im : List Byte) (pt : Pattern) : List (Bool × Nat) :=
  let mask := imgMask im
  let ws := roleWords (imgSec im 8)
  let old := s.pat
  [((upto 52).all fun k =>
      let o := tget 0 old.roles k
      let w := ws.getD k 0
      if governed o mask then
        -- a tile joins a panel of the mask only; a spare stays a spare, and nothing else becomes one
        (fld w 6 4 != 1 || nbit mask (fld w 3 0)) && (fld w 6 4 != 2 || nbit mask (fld w 19 16)) &&
          ((fld o 6 4 == 2) == (fld w 6 4 == 2))
      else w == 0, 14),
   ((setBits mask 16).all fun p =>
      let a := tget {} old.panels p
      let b := tget {} pt.panels p
      a.tiles == 0 || b.tiles == 0 || a.partition == b.partition, 14),
   (s.sessions.all fun e =>
      e.2.st == .closed || !nbit mask e.2.panel ||
        (let b := tget {} pt.panels e.2.panel
         let g := maxGang pt e.2.panel
         nbit b.classes e.2.cls &&
           (match e.2.force with
            | some c => fitsPanel e.2.cls c b g
            | none => true) &&
           (match e.2.pend with
            | some c => fitsPanel e.2.cls c b g
            | none => true)), 14),
   ((setBits mask 16).all fun p =>
      decide ((s.sessions.filter fun e => e.2.on p).length ≤ (tget {} pt.panels p).maxSes), 14)]

/-- The pattern that an image would leave in force. -/
def State.imagePattern (s : State) (im : List Byte) : Pattern :=
  if imgPiece im then piecePattern s.pat im else fullPattern im

/-- The sections that the patch image applies to each panel fit patch RAM and its redirect slots (R287). -/
def State.patchFits (s : State) (pt : Pattern) : Bool :=
  s.sec.patch.status != 1 || pt.panels.all fun e =>
    let u := e.2.patchUse s.sec.patch.sections
    decide (u.1 ≤ 4096) && decide (u.2 ≤ 64)

/-- Stacks fenced at boot, which count as absent (R375). -/
def State.fencedMask (s : State) : Nat := ((upto 4).map fun k => if (s.stack k).fenced then 2 ^ k else 0).sum

/-- Steps 4 to 9 of R427 in order: the first failing code, or `none`. -/
def State.checkImage (s : State) (piece : Bool) (len : Nat) (im : List Byte) : Option Nat :=
  let pt := s.imagePattern im
  let progs := imgProgs im
  let checks := (progs.all fun e => crc32c e.2 == w32 (leAt e.1 8 4)) && s.patchFits pt
  firstFail (headerTests im piece len s.a144 ++ dirTests im piece ++
    (if piece then [(imgBase im == s.pat.serial.toNat, 13)] else []) ++
    ((imgDir im).map fun d => secTests im s.a144 d.type).flatten ++
    structTests pt (drawnInto s.pat im) checks progs.length (if piece then imgMask im else 0xFFFF)
      (piece || namesPresent im s.a144) s.nTiles s.fencedMask ++
    (if piece then s.pieceTests im pt else []))

/-- The trailer that ends an image (R33). -/
def trailer (im : List Byte) : List Byte := im.drop (im.length - 128)

/-- The key slot that a trailer names. -/
def trailerSlot (im : List Byte) : Nat := leAt (trailer im) 4 4

/-- Slot `k` verifies an image of usage bit `u`: it holds a key, is not revoked and has the usage (R385). -/
def Sec.verifies (x : Sec) (k u : Nat) : Bool :=
  decide (k < 8) && nbit (tget 0 x.vk k) 4 && !nbit x.revoked k && nbit (tget 0 x.vk k) u

/-- The trailer's signature over what stands before it verifies under the key of its slot (R33). -/
def Sec.signed (x : Sec) (im : List Byte) : Bool :=
  let t := trailer im
  ecdsaOk (tget [] x.vkKey (trailerSlot im)) (sha384 (im.take (im.length - 128))) (leAt t 8 48) (leAt t 56 48)

/-- Step 3 of R427: trailer magic, key slot (R385), signature (R33). The trailer's 24 zero bytes are must-be-zero bytes checked with
the magic (DESIGN CHOICE, log 110). -/
def State.authCode (s : State) (im : List Byte) : Option Nat :=
  firstFail [(leAt (trailer im) 0 4 == 0x5349474E, 1), (zerosAt (trailer im) 104 24, 1), (s.sec.verifies (trailerSlot im) 1, 4),
    (s.sec.signed im, 3)]

/-- The trailer of an image has the form of R33. -/
def trailerForm (im : List Byte) : Bool := leAt (trailer im) 0 4 == 0x5349474E && zerosAt (trailer im) 104 24

end Sys2Proof.Machine
end

