-- ==== Sys2Proof/Machine/Loader.lean ====
section
/-!
DEFINITION. The pattern loader and the press cycle (R41 to R52, R427, R428): PAT_CMD and the steps of Tables 2.6 and 2.8.
-/
namespace Sys2Proof.Machine

/-- PAT_LEN is a legal length (R32). -/
def legalLen (v : Word) : Bool := decide (256 ≤ v.toNat) && decide (v.toNat ≤ 67108864)

/-- An accepted LOAD_FULL or LOAD_PIECE starts the fetch; an illegal PAT_LEN is rejected before any (R41, R427 step 1). -/
def State.loadStart (s : State) (piece : Bool) : State :=
  if legalLen (s.reg 0x1000C) then
    { s with ldr := { s.ldr with busy := true, phase := 1, piece := piece, clearing := false, image := [] } }
  else s.loaderEnd 2

/-- LOAD_FULL (Table 2.9; R303: ignored while a stack runs on a provisional set). -/
def State.loadFullOp (s : State) (v : Word) : State :=
  if (s.mode == .primed || s.mode == .woven) && s.allClosed && !s.ldr.busy && !s.pwr.standbyPend && !s.anyProvisional
  then s.loadStart false
  else s.ignored 0x10000 v

/-- LOAD_PIECE (Table 2.9). -/
def State.loadPieceOp (s : State) (v : Word) : State :=
  if (s.mode == .woven || s.mode == .running) && !s.ldr.busy && !s.pwr.standbyPend then s.loadStart true else s.ignored 0x10000 v

/-- ABORT (R52): accepted in phases 1 to 4, it ends the load or press with code 0x11. -/
def State.abortOp (s : State) (v : Word) : State :=
  if s.ldr.busy && s.ldr.phase != 5 && s.ldr.phase != 6 then s.loaderEnd 0x11 else s.ignored 0x10000 v

/-- CLEAR (R52): busy with phase 6 until the mode reads PRIMED. -/
def State.clearOp (s : State) (v : Word) : State :=
  if s.mode == .woven && s.allClosed && !s.ldr.busy && !s.pwr.standbyPend then
    { s with ldr := { s.ldr with busy := true, phase := 6, clearing := true, piece := false } }
  else s.ignored 0x10000 v

/-- A write of PAT_CMD by its cmd field (PAT_CMD, R52). -/
def State.patCmd (s : State) (v : Word) : State :=
  if fld v 3 0 = 1 then s.loadFullOp v
  else if fld v 3 0 = 2 then s.loadPieceOp v
  else if fld v 3 0 = 3 then s.abortOp v
  else if fld v 3 0 = 4 then s.clearOp v
  else s.ignored 0x10000 v

/-- The fabric powers down (R43, R52): every tile off and its stores cleared (R284), every quadrant PLL stopped. A retired
tile stays retired. -/
def State.fabricDown (s : State) : State :=
  let s := (upto s.nTiles).foldl (fun s t => s.modTile t fun x =>
    { x.cleared with
      role := if x.role == .retired then .retired else .unused
      panel := if x.role == .retired then x.panel else 0
      promoted := false, power := .off, since := if x.power == .off then x.since else s.now, work := none, abandon := 0 }) s
  (upto s.nQuads).foldl (fun s q => s.setQuad q { s.quad q with pll := false, mhz := 0, stepAt := none }) s

/-- The ports follow the PORTS section (R38): one that is off, or whose lane mode changes, has no link until it trains. `s` is
the device before the change, `t` after. -/
def State.setPorts (s t : State) : State :=
  let t := (upto 2).foldl (fun t p =>
    if tget 0 t.pat.lane p = tget 0 s.pat.lane p then t
    else t.setEth p { t.eth p with link := false, fec := false, anDone := false }) t
  { t with lin := { t.lin with ports := t.lin.ports.filter fun e => nbit t.pat.lines e.1 } }

/-- No pattern is in force. -/
def State.noPattern (s : State) : State :=
  let s := s.fabricDown
  s.setPorts { s with pat := {} }

/-- CLEAR_DONE: busy clears and the mode reads PRIMED (R52). -/
def State.clearDoneOp (s : State) : State :=
  if s.ldr.busy && s.ldr.clearing then
    let s := s.noPattern
    { s with ldr := { s.ldr with busy := false, phase := 0, clearing := false, kept := [] } }
  else s

/-- FETCH_DONE: fetch and authentication end (R42, R427 steps 2 and 3), and validation starts or the image is rejected. While
the control cores reload, the command waits (Table 12.5). -/
def State.fetchDoneOp (s : State) (r : FetchResult) : State :=
  if s.ldr.busy && s.ldr.phase == 1 && !s.sec.reloading then
    match r with
    | .failed => s.loaderEnd 0x12
    | .fetched im =>
      if im.length ≠ (s.reg 0x1000C).toNat then s
      else match s.authCode im with
        | some c => s.loaderEnd c
        | none => { s with ldr := { s.ldr with phase := 3, image := im } }
  else s

/-- Step 4 of Table 2.6: the new structure replaces the earlier one; quadrant PLLs with caps start, active tiles and spares
are powered. The ports keep their modes until step 6, and PAT_SERIAL and PAT_ROLE read the earlier pattern until step 7 (R51). -/
def State.powerFabric (s : State) (pt : Pattern) : State :=
  let s := { s with pat := { pt with serial := s.pat.serial, roles := s.pat.roles, lane := s.pat.lane, lines := s.pat.lines } }
  let s := (upto s.nQuads).foldl (fun s q =>
    let cap := tget 0 pt.caps q
    if cap = 0 then s.setQuad q { s.quad q with pll := false, mhz := 0 } else s.startPll q (cap * 100)) s
  (upto s.nTiles).foldl (fun s t => s.modTile t fun x => { x.withRole (tget 0 pt.roles t) s.now with strikes := 0 }) s

/-- Step 3 of Table 2.8: the scheduler stops admission on the pressed panels, and ARCHIVE work on them is abandoned. -/
def State.pressDrain (s : State) (im : List Byte) (pt : Pattern) : State :=
  let mask := imgMask im
  let s := { s with ldr := { s.ldr with phase := 4, pressing := mask, next := pt, rollback := s.pat, drainAt := s.now } }
  (upto s.nTiles).foldl (fun s t => match (s.tile t).work with
    | some u => if nbit mask (s.unitPanel u) ∧ (s.ses u.ses).cls = clsArchive then s.askAbandon 4 t else s
    | none => s) s

/-- VALIDATION_DONE (R427): the first failing code ends the load; else a full load powers the fabric and a press drains. -/
def State.validationDoneOp (s : State) : State :=
  if s.ldr.busy && s.ldr.phase == 3 && !s.sec.reloading then
    let im := s.ldr.image
    match s.checkImage s.ldr.piece (s.reg 0x1000C).toNat im with
    | some c => s.loaderEnd c
    | none =>
      let pt := s.imagePattern im
      if s.ldr.piece then s.pressDrain im pt
      else
        let s := s.powerFabric pt
        { s with ldr := { s.ldr with phase := 6, next := pt } }
  else s

/-- Promote a spare for each retired tile that the pattern names active (R255), ascending. -/
def State.promoteRetired (s : State) (roles : Tbl Word) (mask : Nat) : State :=
  (upto s.nTiles).foldl (fun s t =>
    let r := roleOf (tget 0 roles t)
    if (s.tile t).role == .retired && r.1 == .active && nbit mask r.2 then
      match nearest t (s.spares r.2) with
      | some k => s.promote k
      | none => s
    else s) s

/-- Load the stores of the tiles that serve panels of `mask`, but for tiles in self-test (R253). -/
def State.loadPanels (s : State) (mask : Nat) : State :=
  (upto s.nTiles).foldl (fun s t =>
    let x := s.tile t
    if (x.role == .active || x.role == .spare) && nbit mask x.panel then s.loadTile (s.panel x.panel) t else s) s

/-- The die's HBM rate cap (R38) lowers a faster stack at a load: a rate change is requested (R303). -/
def State.capRates (s : State) : State :=
  (upto s.nStacks).foldl (fun s k =>
    let cap := tget 0 s.pat.hbmCap (k / 2)
    let x := s.stack k
    if x.rate < cap && x.rateValid cap then (s.setStack k { x with fpend := some (cap, false), target := cap }).freqTry k else s) s

/-- The patch image meets the programs that a pattern selects: a match outside its program discards the image whole, class 6
is raised and every tile runs unpatched (R286). -/
def State.checkPatch (s : State) (pt : Pattern) : State :=
  if s.sec.patch.status == 1 && pt.panels.any fun e => e.2.patchBad s.sec.patch.sections then
    let s := { s with sec := { s.sec with patch := { status := 2 } } }
    ((upto s.nTiles).foldl (fun s t => s.modTile t fun x => { x with patch := [], redir := [], patchId := 0, patchSt := 2 }) s).raiseDev 6
  else s

/-- STORE_LOAD_DONE (Table 2.6 steps 5 to 7): the pattern takes effect, or a failed store check abandons the load (R43). -/
def State.storeLoadDoneOp (s : State) (fails : List Nat) : State :=
  if s.ldr.busy && s.ldr.phase == 6 && !s.ldr.clearing && !s.ldr.piece then
    let pt := s.ldr.next
    if fails.any fun t => fld (tget 0 pt.roles t) 6 4 != 0 && (s.tile t).role != .retired then
      s.noPattern.loaderEnd 0x10
    else
      let im := s.ldr.image
      let s := s.setPorts { s with pat := pt, ldr := { s.ldr with next := {} } }
      let s := (((s.checkPatch pt).loadPanels 0xFFFF).promoteRetired pt.roles 0xFFFF).capRates
      let s := (upto 16).foldl (fun s p => s.refloor p) s
      let s := { s with ldr := { s.ldr with kept := [im] } }
      s.loaderEnd 0
  else s

/-- Some picture of the pressed panels is in flight: a unit runs, or a picture other than ARCHIVE is admitted (R48). -/
def State.panelsBusy (s : State) (mask : Nat) : Bool :=
  (upto 16).any (fun p => nbit mask p && s.inFlight p) ||
    s.sessions.any fun e => nbit mask e.2.panel && e.2.cls != clsArchive && e.2.st != .closed && !e.2.pics.isEmpty

/-- QUIET_WINDOW_OPEN (R48 steps 5 and 6): new tiles are powered, released ones powered off. -/
def State.quietOpenOp (s : State) : State :=
  let mask := s.ldr.pressing
  if s.ldr.busy && s.ldr.phase == 4 && !s.panelsBusy mask then
    let pt := s.ldr.next
    let old := s.pat.roles
    let ts := (upto s.nTiles).filter fun t => governed (tget 0 old t) mask
    let save := ts.map fun t =>
      let x := s.tile t
      (t, (match x.role with
        | .active => 1
        | .spare => 2
        | _ => 0, x.panel, x.promoted))
    let s := { s with ldr := { s.ldr with phase := 5, rollTiles := save } }
    ts.foldl (fun s t =>
      let w := tget 0 pt.roles t
      let s := if fld w 6 4 ≠ 0 ∧ ¬ (s.quad (quadOf t)).pll then s.startPll (quadOf t) (tget 0 pt.caps (quadOf t) * 100) else s
      let r := (s.tile t).role
      let s := s.modTile t fun x => x.withRole w s.now
      if (s.tile t).role == .unused && r != .unused then s.modTile t Tile.cleared else s) s
  else s

/-- QUIET_WINDOW_CLOSE (R48 step 7, R50): the piece takes effect, or a failed store check rolls the press back. -/
def State.quietCloseOp (s : State) (fails : List Nat) : State :=
  let mask := s.ldr.pressing
  if s.ldr.busy && s.ldr.phase == 5 then
    if fails.any fun t => inMask (tget 0 s.ldr.next.roles t) mask then s.rollBack 0x10
    else
      let im := s.ldr.image
      let s := { s with pat := s.ldr.next, ldr := { s.ldr with kept := s.ldr.kept ++ [im] } }
      let s := ((s.checkPatch s.pat).loadPanels mask).promoteRetired s.pat.roles mask
      let s := (upto 16).foldl (fun s p => if nbit mask p then s.refloor p else s) s
      s.loaderEnd 0
  else s

/-- PRESS_TIMEOUT: no quiet instant within PAT_PRESS_LIMIT of step 3 (R50). -/
def State.pressTimeoutOp (s : State) : State :=
  if s.ldr.busy && s.ldr.phase == 4 && decide (s.ldr.drainAt + (s.reg 0x10018).toNat ≤ s.now) then s.loaderEnd 0x0F else s

/-- A write of the PAT block at block offset `o` (R51, Table 2.9). -/
def State.patWrite (s : State) (o : Nat) (v : Word) : State :=
  if o = 0 then s.patCmd v
  else if o = 0x04 ∨ o = 0x08 ∨ o = 0x0C then
    if s.ldr.busy then s.ignored (0x10000 + o) v
    else s.setReg (0x10000 + o) (maskW (if o = 0x04 then 0xFFFFFFC0 else if o = 0x08 then 0xFFFFFFFF else 0x7FFFFC0) v)
  else if o = 0x18 then if v = 0 then s.ignored 0x10018 v else s.setReg 0x10018 v
  else s.ignored (0x10000 + o) v

/-- LOAD_FULL: a write of 1 to PAT_CMD (R41). -/
def execLoadFull (s : State) : Host.Outcome State Fault Refusal := .next (if s.live then s.loadFullOp 1 else s)

/-- LOAD_PIECE: a write of 2 to PAT_CMD (R48). -/
def execLoadPiece (s : State) : Host.Outcome State Fault Refusal := .next (if s.live then s.loadPieceOp 2 else s)

/-- ABORT: a write of 3 to PAT_CMD (R52). -/
def execAbortLoad (s : State) : Host.Outcome State Fault Refusal := .next (if s.live then s.abortOp 3 else s)

/-- CLEAR: a write of 4 to PAT_CMD (R52). -/
def execClearPattern (s : State) : Host.Outcome State Fault Refusal := .next (if s.live then s.clearOp 4 else s)

/-- CLEAR_DONE (R52). -/
def execClearDone (s : State) : Host.Outcome State Fault Refusal := .next s.clearDoneOp

/-- FETCH_DONE (R42). -/
def execFetchDone (r : FetchResult) (s : State) : Host.Outcome State Fault Refusal := .next (s.fetchDoneOp r)

/-- VALIDATION_DONE (R427). -/
def execValidationDone (s : State) : Host.Outcome State Fault Refusal := .next s.validationDoneOp

/-- STORE_LOAD_DONE (R43). -/
def execStoreLoadDone (fails : List Nat) (s : State) : Host.Outcome State Fault Refusal := .next (s.storeLoadDoneOp fails)

/-- QUIET_WINDOW_OPEN (R48). -/
def execQuietWindowOpen (s : State) : Host.Outcome State Fault Refusal := .next s.quietOpenOp

/-- QUIET_WINDOW_CLOSE (R48). -/
def execQuietWindowClose (fails : List Nat) (s : State) : Host.Outcome State Fault Refusal := .next (s.quietCloseOp fails)

/-- PRESS_TIMEOUT (R50). -/
def execPressTimeout (s : State) : Host.Outcome State Fault Refusal := .next s.pressTimeoutOp

end Sys2Proof.Machine
end

