-- ==== Sys2Proof/Machine/Scheduling.lean ====
section
/-!
DEFINITION. Dispatch (R82 to R88, R247), what a unit starts from (R62, R141, R142, R259), idle power of tiles and
quadrants (R87, R376).
-/
namespace Sys2Proof.Machine

/-- A unit that waits for a tile. -/
structure Ready where
  ref : UnitRef
  cls : Nat
  deadline : Option Nat
  order : Nat
  replay : Bool
  gang : Nat
  panel : Nat
  failedOn : List Nat
deriving DecidableEq, Repr

/-- ARCHIVE work of session `n` is held: by a press of its panel (R48, R49) or an FLR of its VF (R335). -/
def State.archiveHeld (s : State) (n : Nat) : Bool :=
  nbit s.ldr.pressing (s.ses n).panel || (s.owner n != 0 && s.hif.flr.contains (s.owner n))

/-- Pictures of a session whose units may run: those in progress, and kept ones with a re-code (R171). -/
def Session.workPics (x : Session) : List Pic := x.pics ++ x.kept

/-- A reference of picture `q` has not committed yet: no picture reads a reference before that (R108; DEDUCED, log 37). -/
def Session.awaitsRef (x : Session) (q : Pic) : Bool := q.refs.any fun r => x.pics.any fun v => v.num == r

/-- A ready unit of picture `q` may start: parts of a ganged picture start together, with its lead part, once none runs any more (R86);
a replay starts alone (R250). -/
def Pic.startable (q : Pic) (u : WUnit) : Bool :=
  u.replay || q.gang ≤ 1 || (u.idx == 0 && q.units.all fun v => v.st == .ready && !v.replay)

/-- The ready units of panel `p` (R83, R108). -/
def State.readyUnits (s : State) (p : Nat) : List Ready :=
  ((s.sessions.filter fun e => e.2.panel == p && e.2.st != .closed).flatMap fun e =>
    if e.2.cls = clsArchive ∧ s.archiveHeld e.1 then []
    else e.2.workPics.flatMap fun q =>
      if q.doomed || e.2.awaitsRef q then []
      else (q.units.filter fun u => u.st == .ready && q.startable u).map fun u =>
        { ref := { ses := e.1, pic := q.num, idx := u.idx }, cls := e.2.cls, deadline := q.deadline, order := q.order,
          replay := u.replay, gang := q.gang, panel := p, failedOn := u.failedOn : Ready })

/-- Dispatch order (R83, R88): replays first, then the earlier deadline, LIVE, the lower band, the lower session, the earlier
admitted picture (DESIGN CHOICE, log 114); units without a deadline last, in order of admission. -/
def Ready.before (a b : Ready) : Bool :=
  let key (r : Ready) : List Nat :=
    [b2n (!r.replay), b2n r.deadline.isNone, r.deadline.getD r.order, b2n (r.cls != clsLive), r.ref.idx, r.ref.ses, r.order]
  (key a).lex (key b) (· < ·)

/-- Insert a unit in dispatch order. -/
def insReady (r : Ready) : List Ready → List Ready
  | [] => [r]
  | h :: t => if r.before h then r :: h :: t else h :: insReady r t

/-- Some tile of `ts` runs a unit. -/
def State.someRuns (s : State) (ts : List Nat) : Bool := ts.any fun t => (s.tile t).work.isSome

/-- The tile of a replay (R88, R247): a napping warm spare nearest the failed tile, a napping tile of the panel; with none
napping it waits for the first to commit, and where nothing runs it takes the panel's tiles and spares as R84 ranks them. -/
def State.replayTile (s : State) (r : Ready) : Option Nat :=
  let ok (t : Nat) : Bool := (s.tile t).idle && !(s.tile t).retireReq && !r.failedOn.contains t
  let nap (t : Nat) : Bool := ok t && (s.tile t).power == .nap
  let sp := s.spares r.panel
  let ac := s.active r.panel
  match nearest (r.failedOn.headD 0) (sp.filter nap) with
  | some t => some t
  | none => match ac.find? nap with
    | some t => some t
    | none =>
      if s.someRuns ac || s.someRuns sp then none
      else match s.pickTile (ac.filter ok) with
        | some t => some t
        | none => s.pickTile (sp.filter ok)

/-- The gangs of `g` tiles of panel `p` whose tiles are all free, as (highest wake rank, lead) (R84, R86). -/
def State.freeGangs (s : State) (p g : Nat) : List (Nat × Nat) :=
  (s.pat.roles.filter fun e =>
      fld e.2 6 4 == 1 && fld e.2 3 0 == p && 2 ^ fld e.2 9 8 == g && fld e.2 15 10 == e.1 &&
        (upto g).all fun i => let t := e.1 + i
          (s.tile t).role == .active && (s.tile t).panel == p && (s.tile t).idle && !(s.tile t).retireReq).map fun e =>
    (((upto g).map fun i => s.wakeRank (e.1 + i)).foldl max 0, e.1)

/-- NEAR and DECODE units that run on active tiles of panel `p`. -/
def State.nearRunning (s : State) (p : Nat) : Nat :=
  ((s.active p).filter fun t => match (s.tile t).work with
    | some u => (s.ses u.ses).cls == clsNear || (s.ses u.ses).cls == clsDecode
    | none => false).length

/-- live_floor leaves room for unit `r` (R82): a replay takes back what it had. -/
def State.hasRoom (s : State) (r : Ready) : Bool :=
  r.replay || (r.cls != clsNear && r.cls != clsDecode) || s.liveFloor r.panel == 0 ||
    decide (s.nearRunning r.panel + r.gang + s.liveFloor r.panel ≤ (s.active r.panel).length)

/-- The tiles that unit `r` takes now, or none (R82, R84, R86, R88). -/
def State.choose (s : State) (r : Ready) : Option (List Nat) :=
  if r.replay then (s.replayTile r).map fun t => [t]
  else
    if !s.hasRoom r then none
    else if r.gang ≤ 1 then (s.pickTile (s.active r.panel)).map fun t => [t]
    else
      match s.freeGangs r.panel r.gang with
      | [] => none
      | g :: gs =>
        let best := gs.foldl (fun b e => if e.1 < b.1 ∨ (e.1 = b.1 ∧ e.2 < b.2) then e else b) g
        some ((upto r.gang).map fun i => best.2 + i)

/-- The tile units of the ARCHIVE picture that R85 abandons: that with the latest deadline, or the latest admitted when
none has a deadline. -/
def State.victim (s : State) (p : Nat) : List Nat :=
  let runs := (upto s.nTiles).filterMap fun t => match (s.tile t).work with
    | some u => if (s.ses u.ses).cls = clsArchive ∧ (s.ses u.ses).panel = p ∧ (s.tile t).role = .active ∧ ¬ (s.tile t).ndl.committed then
        ((s.ses u.ses).pic? u.pic).map fun q => (t, u, q) else none
    | none => none
  let worse (a b : Nat × UnitRef × Pic) : Bool := match a.2.2.deadline, b.2.2.deadline with
    | some x, some y => decide (y < x)
    | some _, none => true
    | none, some _ => false
    | none, none => decide (b.2.2.order < a.2.2.order)
  match runs with
  | [] => []
  | h :: t =>
    let v := t.foldl (fun b e => if worse e b then e else b) h
    (runs.filter fun e => e.2.1.ses == v.2.1.ses && e.2.1.pic == v.2.1.pic).map (·.1)

/-- Some tile of panel `p` is being abandoned for a waiting unit already (R85). -/
def State.freeing (s : State) (p : Nat) : Bool := (s.active p).any fun t => nbit (s.tile t).abandon 5

/-- Rows that a picture's rate plan covers: its CTU rows (R142). -/
def planRows (c : Tbl Word) : Nat := ctuRows clsLive c

/-- Source lines of CTU row `j`. -/
def rowLines (c : Tbl Word) (j : Nat) : Nat := min (ctuSize c) (cH clsLive c - j * ctuSize c)

/-- Kind of a picture (R142, the kinds of Table 7.2): 0 P, 1 key, 2 cut, 3 first after INVALIDATE_REF, 3 + l for B. -/
def Pic.kind (p : Pic) : Nat :=
  if p.key then 1 else if p.afterInval then 3 else if p.cut then 2 else if p.bLevel = 0 then 0 else 3 + p.bLevel

/-- round(6 × log2(a / b) + q / cnt) within `q̄ ± 6` (R142), exactly: the largest k in the range whose rounding
interval the value reaches. q̄ is the mean `q / cnt`. -/
def firstQp (a b q cnt : Nat) : Int :=
  let mean := roundDiv q cnt
  let reach (k : Int) : Bool :=
    let e := (2 * k - 1) * cnt - 2 * q
    if 0 ≤ e then decide (b ^ (12 * cnt) * 2 ^ e.toNat ≤ a ^ (12 * cnt))
    else decide (b ^ (12 * cnt) ≤ a ^ (12 * cnt) * 2 ^ (-e).toNat)
  ((upto 13).map fun (i : Nat) => mean - 6 + (i : Int)).foldl (fun best k => if reach k then k else best) (mean - 6)

/-- QP limits (RC_LIMITS). -/
def qpMin (c : Tbl Word) : Int := fld (cget c 0x120) 7 0
def qpMax (c : Tbl Word) : Int := fld (cget c 0x120) 15 8

/-- Base QP of mode 2 (R143). -/
def baseQp (cls : Nat) (p : Pic) : Int :=
  let o : Int := if p.key then -3 else if p.cut then -2 else p.bLevel
  clampI ((fld (cget p.cfg 0x118) 5 0 : Nat) + o - (if cls = clsArchive then (min 4 p.laOffset : Nat) else 0)) (qpMin p.cfg) (qpMax p.cfg)

/-- Fixed QP of mode 3 (R143). -/
def fixedQp (p : Pic) : Int :=
  let w := cget p.cfg 0x11C
  if p.key then fld w 7 0 else if p.bLevel = 0 then fld w 15 8 else fld w 23 16

/-- Row weights and first-row QP of a picture's plan (R142, R143, R151). -/
def Session.plan (x : Session) (p : Pic) : List Nat × Int :=
  let c := p.cfg
  let rows := planRows c
  let lines := (upto rows).map (rowLines c)
  let mode := rcMode c
  if mode = 3 then (lines, fixedQp p)
  else if mode = 2 then (lines, baseQp x.cls p)
  else
    let h := tget {} x.rc.hist p.kind
    let w := if h.rowBits.length == rows && !p.key && !p.cut && h.rowBits.sum != 0 then h.rowBits else lines
    let q := if !p.cut && h.qpCnt != 0 && h.bits != 0 && p.target != 0 then
        firstQp (h.bits * second) p.target h.qpSum.toNat h.qpCnt
      else (Config.activityQp (p.target / second) (cW x.cls c * cH x.cls c) p.activity : Nat)
    (w, clampI q (qpMin c) (qpMax c))

/-- The plan of a picture is made once, as its first unit starts. -/
def State.planPic (s : State) (n num : Nat) : State :=
  let x := s.ses n
  match x.pic? num with
  | some p =>
    if x.cls = clsDecode ∨ p.weights ≠ [] then s
    else
      let w := x.plan p
      s.modSes n fun x => x.modPic num fun p => { p with weights := w.1, q0 := w.2 }
  | none => s

/-- The index in PROGRAMS order, within a panel's set, of the program that runs a session's units (R36). -/
def Panel.progFor (p : Panel) (codec : Nat) (dec : Bool) : Nat :=
  (p.progs.findIdx? fun g => g.codec == codec && g.decode == dec).getD 0

/-- The dispatch order that the scheduler puts into a tile's inbox (R320): one entry, end set, kind 0x01. -/
def orderEntry (k : Nat) : BitVec 128 := (0x81#8 : BitVec 8) ++ Config.inboxPayload k

/-- Wake tile `t` (R84, R376) and start unit `u` on it: its quadrant's PLL starts if stopped; the routine starts at its entry
in the program's entry vector, its first 16 words (R277's section, DEDUCED, log 20). -/
def State.startUnit (s : State) (u : UnitRef) (gang : List Nat) (t : Nat) : State :=
  let x := s.ses u.ses
  let pan := s.panel x.panel
  let dec := x.cls == clsDecode
  let codec := cCodec x.cls x.cfg
  let i := pan.progFor codec dec
  let e := Config.entryOf codec dec (decide (1 < gang.length))
  let q := quadOf t
  let woke := s.now + s.wakeCost t
  let s := if (s.quad q).pll then s else s.startPll q (tget 0 s.pat.caps q * 100)
  let r := s.fresh
  let s := (r.1.countTile t 0x47).modTile t fun y => { y with
    power := .run, work := some u, gang := gang, window := ((x.pic? u.pic).getD {}).refs.map fun r => (u.ses, r), abandon := 0, inbox := [orderEntry r.2]
    ndl := { y.ndl with state := 1, prog := i, entry := e % 16, committed := false, pc := pan.base i + e % 16 } }
  s.modUnit u fun w => { w with st := .running, tile := t, attempts := w.attempts + 1, woke := woke }

/-- The elements of a hint line that failed its label, `n` of line `row` from `col` on, are invalid (Table 12.4). -/
def HintPlane.lose (l : HintPlane) (row col n : Nat) : HintPlane :=
  { l with lines := l.lines.zipIdx.map fun e => if e.2 = row then
      e.1.zipIdx.map fun v => if col ≤ v.2 ∧ v.2 < col + n then none else v.1
    else e.1 }

/-- An input failure of unit `u` (R259, Table 12.4); the unit re-runs from its inputs without a further attempt. -/
def State.inputFail (s : State) (u : UnitRef) (f : InputFail) : State :=
  match s.unitOf u with
  | none => s
  | some (p, w) =>
    let again := w.lost.contains f.line
    let mark (s : State) : State := s.modUnit u fun w => { w with lost := f.line :: w.lost }
    match f.kind with
    | .hint row col n => s.modSes u.ses fun x => x.modPic u.pic fun p => { p with hint := p.hint.map (·.lose row col n) }
    | .decBits => s.modUnit u fun w => { w with bitLost := w.bitLost ++ [f.line] }
    | .decRef => s.modUnit u fun w => { w with refLost := true }
    | .source =>
      if again then
        if w.allTb then s else (s.modUnit u fun w => { w with allTb := true }).bump 0xF0020
      else
        let s := if p.space = 0 ∧ ¬ p.freed then s.bump 0xF001C else s
        mark s
    | .encRef k =>
      let s := s.modSes u.ses fun x => x.modPic u.pic fun p => { p with refs := p.refs.filter fun r => !laterEq r k }
      s.invalidateOp u.ses k
    | .bulk =>
      if again then s.modSes u.ses fun x => { (x.modPic u.pic fun p => { p with acc := {} }) with me := { x.me with coloc := [] } }
      else mark s

/-- Start unit `r` on `ts`; every part of a ganged picture starts with it (R86). -/
def State.launch (s : State) (r : Ready) (ts : List Nat) (inputs : List InputFail) : State :=
  let s := s.planPic r.ref.ses r.ref.pic
  let s := s.modUnit r.ref fun w => { w with bitLost := [], refLost := false }
  let s := inputs.foldl (fun s f => (s.inputFail r.ref f).raiseDev 16 0 r.ref.ses) s
  if ts.length ≤ 1 then ts.foldl (fun s t => s.startUnit r.ref ts t) s
  else (List.range ts.length).foldl (fun s i => s.startUnit { r.ref with idx := i } ts (ts.getD i 0)) s

/-- The first unit in dispatch order that finds its tiles, and whether one before it may pre-empt (R85): one that only a free tile lacks. -/
def State.firstFit (s : State) : List Ready → Bool → Option (Ready × List Nat) × Bool
  | [], pre => (none, pre)
  | r :: t, pre => match s.choose r with
    | some ts => (some (r, ts), pre)
    | none => s.firstFit t (pre || (r.cls != clsArchive && s.hasRoom r))

/-- UNIT_DISPATCH of panel `p` (R83): one unit starts, and a waiting LIVE, NEAR or DECODE unit abandons ARCHIVE work. -/
def State.dispatchOp (s : State) (p : Nat) (inputs : List InputFail) : State :=
  if !s.work || nbit s.resetting p || (nbit s.ldr.pressing p && s.ldr.phase == 5) then s
  else
    let rs := (s.readyUnits p).foldr insReady []
    let f := s.firstFit rs false
    let s := if f.2 && !s.freeing p then (s.victim p).foldl (fun s t => s.askAbandon 5 t) s else s
    match f.1 with
    | some (r, ts) => s.launch r ts inputs
    | none => s

/-- TILE_IDLE_OFF (R87): a napping tile powers off after SCH_IDLE_OFF without work; spares kept warm for panels that hold
LIVE sessions do not. Power-off flushes the inbox (R321). -/
def State.tileIdleOffOp (s : State) (t : Nat) : State :=
  let x := s.tile t
  let due := decide (x.since + (s.reg 0x20004).toNat ≤ s.now)
  if x.work.isNone && x.power == .nap && due && x.role != .selfTest && !s.pressNeeds t && !(x.role == .spare && s.holdsLive x.panel) then
    (s.flushInbox t).modTile t fun y => { y with power := .off, window := [], since := s.now, ndl := { y.ndl with state := 5 } }
  else s

/-- QUADRANT_PLL_STOP (R87): every tile of the quadrant has been off for SCH_IDLE_PLL; a self-test holds it (R253), and so does the
quiet window of a press (R51). -/
def State.pllStopOp (s : State) (q : Nat) : State :=
  let ts := (upto s.nTiles).filter fun t => quadOf t == q
  let ok (t : Nat) : Bool :=
    let x := s.tile t
    x.power == .off && x.work.isNone && x.role != .selfTest && decide (x.since + (s.reg 0x20008).toNat ≤ s.now)
  if (s.quad q).pll && ts.all ok && !s.pressNeedsQuad q then s.setQuad q { s.quad q with pll := false, mhz := 0, stepAt := none } else s

/-- UNIT_DISPATCH. -/
def execUnitDispatch (p : Nat) (inputs : List InputFail) (s : State) : Host.Outcome State Fault Refusal :=
  .next (s.dispatchOp p inputs)

/-- TILE_IDLE_OFF. -/
def execTileIdleOff (t : Nat) (s : State) : Host.Outcome State Fault Refusal := .next (s.tileIdleOffOp t)

/-- QUADRANT_PLL_STOP. -/
def execQuadrantPllStop (q : Nat) (s : State) : Host.Outcome State Fault Refusal := .next (s.pllStopOp q)

end Sys2Proof.Machine
end

