-- ==== Sys2Proof/Machine/Motion.lean ====
section
/-!
DEFINITION. Hints as the motion search reads them (R114, R115, R118 to R120, R126).
-/
namespace Sys2Proof.Machine

/-- An IEEE binary16 value in units of 2^-24; `none` for a NaN or an infinity (R115). -/
def f16 (w : BitVec 16) : Option Int :=
  let n := w.toNat
  let e := nfld n 14 10
  let m := nfld n 9 0
  let v : Int := if e = 0 then m else ((1024 + m) * 2 ^ (e - 1) : Nat)
  if e = 31 then none else some (if nbit n 15 then -v else v)

/-- A vector component in units of 2^-24 luma pixel (Table 6.3): `dim` is the picture's width or height. -/
def hintComp (vfmt dim : Nat) (w : BitVec 16) : Option Int :=
  if vfmt = 0 then some (w.toInt * 2 ^ 22) else if vfmt = 1 then f16 w else (f16 w).map (· * dim)

/-- A hint element converted to 1/16 pixel (R115): vector, confidence, ui, disocc; `none` when invalid. -/
structure Hint where
  x : Int
  y : Int
  conf : Nat
  ui : Bool
  disocc : Bool
deriving DecidableEq, Repr

/-- Convert an element (R115). `fmt` is the fmt word, `jx`, `jy` the jitter, `aux` whether an auxiliary plane exists. -/
def convHint (fmt : Nat) (jx jy : Int) (aux : Bool) (w h : Nat) (e : HintElem) : Option Hint :=
  let vf := nfld fmt 1 0
  match hintComp vf w e.x, hintComp vf h e.y with
  | some x, some y =>
    let x := if nbit fmt 5 then -x else x
    let y := if nbit fmt 5 then -y else y
    let y := if nbit fmt 6 then -y else y
    let x := roundDiv (x - jx * 2 ^ 20) (2 ^ 20)
    let y := roundDiv (y - jy * 2 ^ 20) (2 ^ 20)
    if vf ≠ 0 ∧ (131072 < x.natAbs ∨ 131072 < y.natAbs) then none
    else some {
      x := x, y := y, conf := if aux then nfld e.aux.toNat 3 0 else nfld fmt 11 8
      ui := aux && nbit e.aux.toNat 4, disocc := aux && nbit e.aux.toNat 5 }
  | _, _ => none

/-- Spread of a component. -/
def spread (l : List Int) : Int := (l.foldl max (l.headD 0)) - (l.foldl min (l.headD 0))

/-- The block hint of an 8×8 block (R118): UI, disoccluded, and the hint if it has one. -/
def blockHint (es : List Hint) : Bool × Bool × Option Hint :=
  let ui := decide (es.length < 2 * (es.filter (·.ui)).length)
  let dis := es.any fun e => !e.ui && e.disocc
  let cs := es.filter fun e => !e.ui
  match lowerMedian (cs.map (·.x)), lowerMedian (cs.map (·.y)) with
  | some x, some y =>
    let conf := (cs.map (·.conf)).foldl min 15
    let wide := decide (128 < spread (cs.map (·.x))) || decide (128 < spread (cs.map (·.y)))
    (ui, dis, some { x := x, y := y, conf := if wide then conf - 4 else conf, ui := ui, disocc := dis })
  | _, _ => (ui, dis, none)

/-- The 16×16 hint (R119) from its 8×8 blocks. -/
def hint16 (bs : List (Bool × Bool × Option Hint)) : Option Hint :=
  let hs := bs.filterMap fun b => if b.2.1 then none else b.2.2
  match lowerMedian (hs.map (·.x)), lowerMedian (hs.map (·.y)), lowerMedian (hs.map fun h => (h.conf : Int)) with
  | some x, some y, some c => some { x := x, y := y, conf := c.toNat, ui := false, disocc := false }
  | _, _, _ => none

/-- Signed distance in pictures from reference `r` to picture `n` (R120), modulo 2^24. -/
def picDist (n r : Nat) : Int := sFld ((n + 2 ^ 24 - r % 2 ^ 24) % 2 ^ 24) 24

/-- Distance to the nearest reference. -/
def nearestDist (n : Nat) (refs : List Nat) : Option Int :=
  match refs.map (picDist n) with
  | [] => none
  | d :: t => some (t.foldl (fun b e => if e.natAbs < b.natAbs then e else b) d)

/-- The reduced hints of a 16×16 block of picture `p` (R115, R118, R119): its 8×8 block hints and the 16×16 hint. -/
structure BlockHints where
  parts : List (Bool × Bool × Option Hint) := []
  whole : Option Hint := none
deriving DecidableEq, Repr

/-- The elements that serve the 8×8 block in column `i` and row `j` (R114, R118): those whose place on the luma grid lies in the
block, or the one that covers it. -/
def HintPlane.at8 (l : HintPlane) (i j : Nat) : List HintElem :=
  let k := 2 ^ nfld l.fmt 4 2
  let n := max 1 (8 / k)
  (upto n).flatMap fun b => (upto n).filterMap fun a => (l.lines[8 * j / k + b]?).bind fun (r : List (Option HintElem)) => (r[8 * i / k + a]?).join

/-- An element of the plane of a `w` × `h` source, converted. -/
def HintPlane.conv (l : HintPlane) (w h : Nat) (e : HintElem) : Option Hint := convHint l.fmt l.jx l.jy l.aux w h e

/-- The planes hold an invalid element (R115), as those of a failed line are (R259). -/
def HintPlane.bad (l : HintPlane) (w h : Nat) : Bool := l.lines.any fun (r : List (Option HintElem)) => r.any fun e => (e.bind (l.conv w h)).isNone

/-- Width and height of the source that a picture's hints and static map lie on: rank 0's for a lower rank (R101, R126). -/
def Pic.dims (p : Pic) (w h : Nat) : Nat × Nat := p.top.getD (w, h)

/-- The place on that source of the point (x, y) of the picture's own rendition, truncated (R126). -/
def Pic.mapped (p : Pic) (w h x y : Nat) : Nat × Nat :=
  let d := p.dims w h
  (d.1 * x / max 1 w, d.2 * y / max 1 h)

/-- Index of a 16×16 block in a motion field. -/
def blockIdx (bx by_ : Nat) : Nat := by_ * 1024 + bx

/-- The block hint of the 8×8 block of the picture in column `i` and row `j`: for a lower rank that of the rank-0 block which holds
its mapped centre (R126). -/
def Pic.hint8 (p : Pic) (w h i j : Nat) : Bool × Bool × Option Hint :=
  match p.hint with
  | none => (false, false, none)
  | some l =>
    let d := p.dims w h
    let m := p.mapped w h (8 * i + 4) (8 * j + 4)
    blockHint ((l.at8 (m.1 / 8) (m.2 / 8)).filterMap (l.conv d.1 d.2))

/-- Reduce the hints of the 16×16 block in column `bx` and row `by_`. -/
def blockOf (p : Pic) (w h bx by_ : Nat) : BlockHints :=
  match p.hint with
  | none => {}
  | some _ =>
    let bs := (upto 4).map fun k => p.hint8 w h (2 * bx + k % 2) (2 * by_ + k / 2)
    { parts := bs, whole := hint16 bs }

/-- A vector of the grid of rank 0's source on the grid of the picture's own rendition (R101, R126). -/
def ownScale (p : Pic) (w h : Nat) (v : Int × Int) : Int × Int :=
  let d := p.dims w h
  (roundDiv (v.1 * w) (max 1 d.1), roundDiv (v.2 * h) (max 1 d.2))

/-- The hint of a block on the grid of the picture's own rendition (R126). -/
def ownVec (p : Pic) (w h : Nat) (q : Hint) : Int × Int := ownScale p w h (q.x, q.y)

/-- The 16×16 hints of the block rows from `r` on, `k` of them, on the picture's own grid. -/
def Pic.rowHints (p : Pic) (w h r k : Nat) : List (Int × Int) :=
  if p.hint.isNone then [] else
    (upto k).flatMap fun j => (upto (ceilDiv w 16)).filterMap fun i =>
      if ceilDiv h 16 ≤ r + j then none else (blockOf p w h i (r + j)).whole.map (ownVec p w h)

/-- The block is marked in the static map (R101): for a lower rank the rank-0 block that holds its mapped centre (log 123). -/
def Pic.static (p : Pic) (w h bx by_ : Nat) : Bool :=
  let m := p.mapped w h (16 * bx + 8) (16 * by_ + 8)
  p.statics.contains (blockIdx (m.1 / 16) (m.2 / 16))

/-- The lower median of a picture's 16×16 hints, by component (Table 6.5 GLOBAL). -/
def Pic.hintMedian (p : Pic) (w h : Nat) : Option (Int × Int) :=
  let l := p.rowHints w h 0 (ceilDiv h 16)
  (lowerMedian (l.map (·.1))).bind fun x => (lowerMedian (l.map (·.2))).map fun y => (x, y)

/-- What the rank-0 block at the mapped centre handed down (R126). -/
def Pic.handed (p : Pic) (w h bx by_ : Nat) : ColVec :=
  let m := p.mapped w h (16 * bx + 8) (16 * by_ + 8)
  tget {} p.hand (blockIdx (m.1 / 16) (m.2 / 16))

/-- log2 of the partition estimate of a lower rank's block (R127): the rank-0 coding-block size over sx, to the nearest power of two
in log2 with halves upwards, between the minimum coding block and the CTU. -/
def Pic.partSeed (p : Pic) (w h bx by_ : Nat) : Option Nat :=
  match p.top with
  | some (w0, _) =>
    if bit (cget p.cfg 0x190) 1 then
      let z := (p.handed w h bx by_).size * w
      let k := ((upto 8).filter fun k => decide (2 ^ (2 * k + 1) * w0 ^ 2 ≤ z ^ 2)).length
      let least := if fld (cget p.cfg 0x040) 2 0 = 1 then 4 else fld (cget p.cfg 0x080) 3 1
      some (min (Nat.log2 (ctuSize p.cfg)) (max least k))
    else none
  | none => none

end Sys2Proof.Machine
end

