-- ==== Sys2Proof/Machine/Candidates.lean ====
section
/-!
DEFINITION. The search windows (R121, R122), the candidate list of a 16×16 block (R123 to R126), and what a refresh cycle
restricts (R148, R149).
-/
namespace Sys2Proof.Machine

/-- Distances of the references in use, the nearest first (R120, R123); of two equally near, the one listed first. -/
def refDists (p : Pic) : List Int :=
  (p.refs.map (picDist p.num)).foldl (fun l d => l.filter (fun e => e.natAbs ≤ d.natAbs) ++ d :: l.filter (fun e => d.natAbs < e.natAbs)) []

/-- The ranges of the windows in luma pixels (R121, Table 6.4, ME_RANGE). -/
def ranges (p : Pic) : Nat × Nat :=
  let m := maxRange p.refs.length (bit (cget p.cfg 0x048) 4)
  let r := cget p.cfg 0x188
  (if fld r 4 0 = 0 then m.1 else min m.1 (16 * fld r 4 0), if fld r 11 8 = 0 then m.2 else min m.2 (16 * fld r 11 8))

/-- Limits of a vector in 1/16 pixel by codec (R122): horizontal and vertical; none where the rule gives none. -/
def vecLimits (codec : Nat) : Option (Int × Int) × Option (Int × Int) :=
  if codec = 1 then (none, some (-8192, 8188))
  else if codec = 3 then (some (-32766, 32766), some (-32766, 32766))
  else (some (-131072, 131072), some (-131072, 131072))

/-- The offset of a window in 1/16 pixel (R122): the row's median to a multiple of 8 pixels, within the limits of the codec. -/
def offsetOf (lim : Option (Int × Int)) (range : Nat) (m : Option Int) : Int :=
  let o := 128 * roundDiv (m.getD 0) 128
  match lim with
  | some l => clampI o (l.1 + 16 * range) (l.2 - 16 * range)
  | none => o

/-- The window of a reference at distance `d` for a CTU row whose 16×16 hints are `row`: its edges in full pixels. -/
def windowOf (p : Pic) (row : List (Int × Int)) (d : Int) : (Int × Int) × (Int × Int) :=
  let r := ranges p
  let lim := vecLimits (fld (cget p.cfg 0x040) 2 0)
  let row := if bit (cget p.cfg 0x188) 16 then row else []
  let ox := offsetOf lim.1 r.1 (lowerMedian (row.map fun v => v.1 * d))
  let oy := offsetOf lim.2 r.2 (lowerMedian (row.map fun v => v.2 * d))
  (((ox - 16 * r.1 + 15) / 16, (ox + 16 * r.1) / 16), ((oy - 16 * r.2 + 15) / 16, (oy + 16 * r.2) / 16))

/-- A candidate of R123: its kind, the place of its reference, the nearest being 0, the vector in full pixels, and the confidence
of a hint. -/
structure MvCand where
  kind : Nat
  ref : Nat
  x : Int
  y : Int
  conf : Nat := 15
deriving DecidableEq, Repr

/-- `v` / `den` in 1/16 pixel to full pixels, halves away from zero (R124 step 4). -/
def fullPel (v : Int) (den : Int) : Int := roundDiv (if den < 0 then -v else v) (16 * max 1 den.natAbs)

/-- What the candidates of a picture's blocks are built from. -/
structure SearchEnv where
  p : Pic
  w : Nat
  h : Nat
  /-- Distances of the references, the nearest first. -/
  dists : List Int
  coloc : Tbl ColVec
  glob : Option (Int × Int)

/-- Reference by reference, the candidates that `f` gives for its place and its distance. -/
def perRef (ds : List Int) (f : Nat → Int → List MvCand) : List MvCand :=
  ((upto ds.length).map fun i => f i (ds.getD i 1)).flatten

/-- The hint of a block as a candidate for a reference at distance `d` (R120, R126). -/
def hintCand (e : SearchEnv) (kind ref : Nat) (d : Int) (q : Hint) : MvCand :=
  let dims := e.p.top.getD (e.w, e.h)
  { kind := kind, ref := ref, x := fullPel (q.x * e.w * d) dims.1, y := fullPel (q.y * e.h * d) dims.2, conf := q.conf }

/-- A vector over distance `v.dist` as a candidate for a reference at distance `d`. -/
def scaled (kind ref : Nat) (d : Int) (v : ColVec) : MvCand :=
  { kind := kind, ref := ref, x := fullPel (v.x * d) v.dist, y := fullPel (v.y * d) v.dist }

/-- The hand-me-down candidate (R126): rank 0's vector at the mapped centre, divided by the ratio of the renditions. -/
def handme (e : SearchEnv) (b : MotionBlock) : List MvCand :=
  match e.p.top with
  | none => []
  | some (w0, h0) =>
    let v := e.p.handed e.w e.h b.bx b.by_
    if !bit (cget e.p.cfg 0x190) 0 || !v.inter || e.dists.isEmpty then []
    else match e.dists.findIdx? (· == v.dist) with
      | some i => [{ kind := 6, ref := i, x := fullPel (v.x * e.w) w0, y := fullPel (v.y * e.h) h0 }]
      | none =>
        let d := e.dists.headD 1
        [{ kind := 6, ref := 0, x := fullPel (v.x * e.w * d) (w0 * v.dist), y := fullPel (v.y * e.h * d) (h0 * v.dist) }]

/-- The left, above and above-right 16×16 blocks (Table 6.5 SPATIAL). -/
def nearBlocks (bx by_ : Nat) : List (Nat × Nat) :=
  (if bx = 0 then [] else [(bx - 1, by_)]) ++ if by_ = 0 then [] else [(bx, by_ - 1), (bx + 1, by_ - 1)]

/-- The candidates of one kind (Table 6.5); `field` holds the blocks of the unit coded before. -/
def kindCands (e : SearchEnv) (field : Tbl ColVec) (b : MotionBlock) (hs : BlockHints) (kind : Nat) : List MvCand :=
  let least := fld (cget e.p.cfg 0x18C) 3 0
  if kind = 0 then perRef e.dists fun i _ => [{ kind := 0, ref := i, x := 0, y := 0 }]
  else if kind = 1 then
    match hs.whole with
    | some q => if least ≤ q.conf then perRef e.dists fun i d => [hintCand e 1 i d q] else []
    | none => []
  else if kind = 2 then
    match e.dists with
    | [] => []
    | d :: _ => hs.parts.filterMap fun a =>
      a.2.2.bind fun q => if !a.2.1 && decide (least ≤ q.conf) then some (hintCand e 2 0 d q) else none
  else if kind = 3 then
    let near := (nearBlocks b.bx b.by_).map fun a => tget {} field (blockIdx a.1 a.2)
    perRef e.dists fun i d => (near.filter (·.inter)).map (scaled 3 i d)
  else if kind = 4 then
    let v := tget {} e.coloc (blockIdx b.bx b.by_)
    if e.p.cut || !v.inter then [] else perRef e.dists fun i d => [scaled 4 i d v]
  else if kind = 5 then
    match e.glob with
    | some g => if e.p.cut then [] else perRef e.dists fun i d => [{ kind := 5, ref := i, x := fullPel (g.1 * d) 1, y := fullPel (g.2 * d) 1 }]
    | none => []
  else if kind = 6 then handme e b
  else perRef e.dists fun i _ =>
    match (b.preds[i]?).join with
    | some g => [{ kind := 7, ref := i, x := fullPel g.1 1, y := fullPel g.2 1 }]
    | none => []

/-- Move the candidates that `f` picks to just after the last one of kind `k`; without one they stay (DEDUCED, log 96). -/
def moveAfter (k : Nat) (f : MvCand → Bool) (l : List MvCand) : List MvCand :=
  let rest := l.filter fun c => !f c
  match rest.reverse.findIdx? (·.kind == k) with
  | none => l
  | some i => rest.take (rest.length - i) ++ l.filter f ++ rest.drop (rest.length - i)

/-- Drop a candidate whose reference and position equal an earlier one's. -/
def dedup (l : List MvCand) : List MvCand :=
  l.foldl (fun a c => if a.any (fun q => q.ref == c.ref && q.x == c.x && q.y == c.y) then a else a ++ [c]) []

/-- The candidates of a block in the order of R124 steps 1 to 3, before the windows clamp them. -/
def orderedCands (e : SearchEnv) (field : Tbl ColVec) (b : MotionBlock) (hs : BlockHints) : List MvCand :=
  let w := cget e.p.cfg 0x18C
  let o := (cget e.p.cfg 0x180).toNat
  let kinds := ((upto 8).map fun i => nfld o (4 * i + 3) (4 * i)).takeWhile (· != 15)
  let l := (kinds.map (kindCands e field b hs)).flatten
  let isHint (c : MvCand) : Bool := c.kind == 1 || c.kind == 2
  let l := if e.p.demoted then moveAfter 4 isHint l else moveAfter 3 (fun c => isHint c && decide (c.conf < fld w 7 4)) l
  let front (c : MvCand) : Bool := c.kind == 0 && c.ref == 0
  if bit w 8 && hs.parts.any (·.1) then l.filter front ++ l.filter fun c => !front c else l

/-- A search window: its edges in full pixels, horizontally and vertically. -/
abbrev Win := (Int × Int) × (Int × Int)

/-- The CTU columns of a picture that a picture of a refresh cycle codes intra (R148): the first, and the one after the last. -/
def stripeOf (c : Tbl Word) (i : Nat) : Nat × Nat :=
  let cols := ctuCols clsLive c
  let k := ceilDiv cols (max 1 (cycleLen c))
  (i * k, min ((i + 1) * k) cols)

/-- A 16×16 block lies in the picture's stripe (R148). -/
def Pic.inStripe (p : Pic) (bx : Nat) : Bool :=
  match p.refresh with
  | some i =>
    let c := 16 * bx / ctuSize p.cfg
    let z := stripeOf p.cfg i
    !p.key && decide (z.1 ≤ c) && decide (c < z.2)
  | none => false

/-- Luma columns of the refreshed area of the reference `r` of a picture of a cycle (R149); none of a picture before the cycle. -/
def Pic.refreshed (p : Pic) (r : Nat) : Nat :=
  match p.areas.find? fun e => e.1 == r with
  | some e => (stripeOf p.cfg e.2).2 * ctuSize p.cfg - 8
  | none => 0

/-- The reference pictures in the order of `refDists`. -/
def Pic.refAt (p : Pic) (d : Int) : Nat := (p.refs.find? fun r => picDist p.num r == d).getD 0

/-- The part of a window that a block may use (R149): left of the stripe of a refresh cycle only samples inside the reference's
refreshed area, less 4 for interpolation. None where nothing of the window is left (log 123). -/
def Pic.usable (p : Pic) (bx : Nat) (d : Int) (w : Win) : Option Win :=
  match p.refresh with
  | some i =>
    if 16 * bx / ctuSize p.cfg < (stripeOf p.cfg i).1 then
      let hi : Int := p.refreshed (p.refAt d) - 20 - 16 * bx
      if p.refreshed (p.refAt d) = 0 ∨ min w.1.2 hi < w.1.1 then none else some ((w.1.1, min w.1.2 hi), w.2)
    else some w
  | none => some w

/-- A candidate within its window (R122, R149), and whether the window clamped it; none where the block may not use its reference. -/
def MvCand.within (c : MvCand) (wins : List (Option Win)) : Option (MvCand × Bool) :=
  ((wins[c.ref]?).join).map fun a =>
    let d := { c with x := clampI c.x a.1.1 a.1.2, y := clampI c.y a.2.1 a.2.2 }
    (d, d != c)

/-- The windows of the references of a block whose CTU row has the 16×16 hints `row`. -/
def SearchEnv.wins (e : SearchEnv) (row : List (Int × Int)) (b : MotionBlock) : List (Option Win) :=
  e.dists.map fun d => e.p.usable b.bx d (windowOf e.p row d)

/-- The candidate list of a block whose CTU row has the 16×16 hints `row` (R124), and how many candidates R122 clamped. -/
def candList (e : SearchEnv) (field : Tbl ColVec) (row : List (Int × Int)) (b : MotionBlock) (hs : BlockHints) : List MvCand × Nat :=
  let wins := e.wins row b
  let cs := (orderedCands e field b hs).filterMap (·.within wins)
  let l := (dedup (cs.map (·.1))).take (fld (cget e.p.cfg 0x184) 4 0)
  let l := if l.any (·.ref == 0) then l
    else match MvCand.within { kind := 0, ref := 0, x := 0, y := 0 } wins with
      | some z => l.dropLast ++ [z.1]
      | none => l
  (l, (cs.filter (·.2)).length)

end Sys2Proof.Machine
end

