-- ==== Sys2Proof/Machine/Search.lean ====
section
/-!
DEFINITION. The search itself (R128): the candidates that are refined, the patterns of Table 6.6, the vectors found; what the motion
field keeps of them (R123, R125), the partition seeds (R127) and hint trust (R129). The sample differences are free values (log 123).
-/
namespace Sys2Proof.Machine

/-- λ_mv of R128 for a row QP: the nearest integer to lambda_scale / 64 × sqrt(0.57 × 2^((QP − 12) / 3)). -/
def lambdaMv (scale : Nat) (qp : Int) : Nat := (root6 (scale ^ 6 * 57 ^ 3 * 2 ^ qp.toNat / (64 ^ 5 * 10 ^ 6 * 2 ^ 12)) 16 0 + 1) / 2

/-- A vector in 1/16 pixel on the reference at a place of the list. -/
structure Found where
  ref : Nat
  x : Int
  y : Int
deriving DecidableEq, Repr

/-- What the search of one block needs. -/
structure Scorer where
  e : SearchEnv
  b : MotionBlock
  wins : List (Option Win)
  lam : Nat

/-- ME_LIST.precision and ENC_EFFORT.effort. -/
def Scorer.precision (k : Scorer) : Nat := fld (cget k.e.p.cfg 0x184) 13 12
def Scorer.effort (k : Scorer) : Nat := fld (cget k.e.p.cfg 0x050) 1 0

/-- The picture number of a reference. -/
def Scorer.refPic (k : Scorer) (f : Found) : Nat := k.e.p.refAt (k.e.dists.getD f.ref 1)

/-- λ_mv × bits of a vector against PRED, or against (0, 0) where that is unavailable (log 123). -/
def Scorer.rate (k : Scorer) (f : Found) : Nat :=
  let g := ((k.b.preds[f.ref]?).join).getD (0, 0)
  k.lam * Config.mvBits k.precision (f.x - g.1) (f.y - g.2)

/-- Cost at full pel (R128). -/
def Scorer.full (k : Scorer) (f : Found) : Nat :=
  Config.sad k.e.p.order (k.refPic f) k.b.bx k.b.by_ (f.x / 16) (f.y / 16) + k.rate f

/-- Cost of one part at a sub-pel position. -/
def Scorer.part (k : Scorer) (i : Nat) (f : Found) : Nat :=
  Config.satd k.e.p.order (k.refPic f) k.b.bx k.b.by_ i f.x f.y + k.rate f

/-- Cost of the block at a sub-pel position. -/
def Scorer.sub (k : Scorer) (f : Found) : Nat :=
  ((upto 4).map fun i => Config.satd k.e.p.order (k.refPic f) k.b.bx k.b.by_ i f.x f.y).sum + k.rate f

/-- The position lies in its window (R122). -/
def Scorer.inside (k : Scorer) (f : Found) : Bool :=
  match (k.wins[f.ref]?).join with
  | some w => decide (16 * w.1.1 ≤ f.x) && decide (f.x ≤ 16 * w.1.2) && decide (16 * w.2.1 ≤ f.y) && decide (f.y ≤ 16 * w.2.2)
  | none => false

/-- One iteration of a pattern: the points around the centre that lie in the window, row by row. -/
def Scorer.turn (k : Scorer) (cost : Found → Nat) (ps : List (Int × Int)) (c : Found) : Found :=
  bestOf cost ((ps.map fun d => { c with x := c.x + d.1, y := c.y + d.2 }).filter k.inside) c

/-- The small diamond, at full pel. -/
def diamond : List (Int × Int) := [(0, -16), (-16, 0), (16, 0), (0, 16)]

/-- The points of a square of `n` steps of `d` each way, its centre left out. -/
def square (n : Nat) (d : Int) : List (Int × Int) :=
  ((upto (2 * n + 1)).flatMap fun (j : Nat) => (upto (2 * n + 1)).map fun (i : Nat) => (((i : Int) - n) * d, ((j : Int) - n) * d)).filter (· != (0, 0))

/-- `n` iterations of a pattern. -/
def Scorer.turns (k : Scorer) (cost : Found → Nat) (ps : List (Int × Int)) (n : Nat) (c : Found) : Found :=
  (upto n).foldl (fun c _ => k.turn cost ps c) c

/-- Refinement of a kept candidate (Table 6.6); with precision 2 it stops at full pel. -/
def Scorer.refine (k : Scorer) (c : Found) : Found :=
  let f :=
    if k.effort = 0 then k.turns k.full diamond 2 c
    else if k.effort = 1 then k.turn k.full (square 1 16) (k.turns k.full diamond 4 c)
    else k.turns k.full diamond 2 (k.turn k.full (square 2 16) c)
  if k.precision = 2 then f
  else
    let q := k.turn k.sub (square 1 4) (k.turn k.sub (square 1 8) f)
    if k.effort = 2 ∧ k.precision = 1 then k.turn k.sub (square 1 2) q else q

/-- Final cost of a result. -/
def Scorer.cost (k : Scorer) (f : Found) : Nat := if k.precision = 2 then k.full f else k.sub f

/-- The results of the candidates refined (R128): those of the `refine` lowest costs. -/
def Scorer.results (k : Scorer) (l : List MvCand) : List Found :=
  (lowest k.full (fld (cget k.e.p.cfg 0x184) 10 8) (l.map fun c => { ref := c.ref, x := 16 * c.x, y := 16 * c.y })).map k.refine

/-- Cost of the average of a forward and a backward result. -/
def Scorer.bi (k : Scorer) (f g : Found) : Nat :=
  Config.biSatd k.e.p.order (k.refPic f) (k.refPic g) k.b.bx k.b.by_ f.x f.y g.x g.y + k.rate f + k.rate g

/-- The best of some results, the first of equal ones. -/
def Scorer.best (k : Scorer) : List Found → Option Found
  | [] => none
  | f :: t => some (bestOf k.cost t f)

/-- What the search of a block finds: its vector, and the backward one where the average of the best forward and the best backward
result is better (R128); the motion field then keeps the forward one (log 123). -/
def Scorer.winner (k : Scorer) (l : List MvCand) : Option (Found × Option Found) :=
  let rs := k.results l
  let past (f : Found) : Bool := decide (0 < k.e.dists.getD f.ref 1)
  (k.best rs).map fun w =>
    match k.best (rs.filter past), k.best (rs.filter fun f => !past f) with
    | some f, some g => if k.bi f g < k.cost w then (f, some g) else (w, none)
    | _, _ => (w, none)

/-- The vectors of the parts of a block (Table 6.6, 8×8 sub-blocks): quarter-pel points around the winner and around the part's own
8×8 hint; for H.264 at thorough effort the 4×4 blocks go on from their 8×8 block. -/
def Scorer.parts (k : Scorer) (hs : BlockHints) (w : Found) : List (Int × Int) :=
  if k.effort = 0 ∨ k.precision = 2 then []
  else
    let own (i : Nat) : Found :=
      let a := k.turn (k.part i) (square 1 4) w
      match (hs.parts[i]?).bind (·.2.2) with
      | some q =>
        let v := ownVec k.e.p k.e.w k.e.h q
        let d := k.e.dists.getD w.ref 1
        let g : Found := { ref := w.ref, x := 4 * roundDiv (v.1 * d) 4, y := 4 * roundDiv (v.2 * d) 4 }
        if k.inside g then bestOf (k.part i) [k.turn (k.part i) (square 1 4) g] a else a
      | none => a
    let eight := (upto 4).map own
    let four := if k.effort = 2 ∧ fld (cget k.e.p.cfg 0x040) 2 0 = 1 then
        (upto 16).map fun i => k.turn (k.part (4 + i)) (square 1 4) (eight.getD (i / 8 * 2 + i % 4 / 2) w)
      else []
    (eight ++ four).map fun f => (f.x, f.y)

/-- The result of one block: what the field keeps, its parts' vectors, the candidates clamped, and whether it counts for trust and
agrees. -/
structure BlockOut where
  col : ColVec
  subs : List (Int × Int) := []
  clamped : Nat := 0
  counted : Bool := false
  agrees : Bool := false

/-- Search one block (R123 to R129), `field` holding the blocks of the unit coded before it and `qp` being the QP of its row. A static
block takes ZERO on the nearest reference without evaluation (R125). A block of a refresh stripe is intra (R148), and so is one with a
disoccluded part under disocc_intra (R125). -/
def searchBlock (e : SearchEnv) (field : Tbl ColVec) (qp : Int) (b : MotionBlock) : BlockOut :=
  let hs := blockOf e.p e.w e.h b.bx b.by_
  let ctu := ctuSize e.p.cfg
  let row := e.p.rowHints e.w e.h (16 * b.by_ / ctu * (ctu / 16)) (ctu / 16)
  let k : Scorer := { e := e, b := b, wins := e.wins row b, lam := lambdaMv (fld (cget e.p.cfg 0x090) 15 8) qp }
  let static := e.p.static e.w e.h b.bx b.by_
  let l := if static then ([], 0) else candList e field row b hs
  let found := if static then (if e.dists.isEmpty then none else some ({ ref := 0, x := 0, y := 0 }, none)) else k.winner l.1
  let intra := e.p.inStripe b.bx || (bit (cget e.p.cfg 0x18C) 9 && hs.parts.any (·.2.1))
  match found with
  | none => { col := { size := b.size }, clamped := l.2 }
  | some (f, _) =>
    let inter := b.inter && !intra
    let d := e.dists.getD f.ref 1
    let trust : Bool × Bool := match hs.whole, e.dists with
      | some q, d :: _ =>
        let v := ownVec e.p e.w e.h q
        let counted := inter && !hs.parts.any (·.1) && !static
        (counted, counted && decide ((f.x - v.1 * d).natAbs ≤ 32) && decide ((f.y - v.2 * d).natAbs ≤ 32))
      | _, _ => (false, false)
    { col := if inter then { inter := true, x := f.x, y := f.y, dist := d, size := b.size } else { size := b.size }
      subs := if static then [] else k.parts hs f, clamped := l.2, counted := trust.1, agrees := trust.2 }

/-- The blocks of a unit join those of its picture as it commits (R123, R129), in coding order, each of which sees the blocks of the
unit before it. `qps` are the QPs of the unit's CTU rows from row `row0` on. -/
def PicMotion.take (m : PicMotion) (e : SearchEnv) (row0 : Nat) (qps : List Int) (bs : List MotionBlock) : PicMotion :=
  let d := e.p.dims e.w e.h
  let m := { m with invalid := m.invalid || (e.p.hint.map fun l => l.bad d.1 d.2).getD false }
  (bs.foldl (fun (r : PicMotion × Tbl ColVec) b =>
    let i := blockIdx b.bx b.by_
    let o := searchBlock e r.2 (qps.getD (16 * b.by_ / ctuSize e.p.cfg - row0) 0) b
    ({ r.1 with
        counted := r.1.counted + b2n o.counted, agreed := r.1.agreed + b2n o.agrees, clamped := r.1.clamped + o.clamped
        field := tset {} i o.col r.1.field, subs := tset [] i o.subs r.1.subs
        seeds := match e.p.partSeed e.w e.h b.bx b.by_ with
          | some k => tset 0 i k r.1.seeds
          | none => r.1.seeds },
      tset {} i o.col r.2)) (m, [])).1

/-- Trust and the ME_STAT counts at a picture commit (R129, R132); the motion field becomes the co-located one (R123), and `glob` is
the median of a LIVE picture's hints (Table 6.5). -/
def Motion.commit (m : Motion) (p : Pic) (glob : Option (Int × Int)) : Motion :=
  let w := cget p.cfg 0x18C
  let k := p.mot
  let agree := if k.counted = 0 then m.agree else 100 * k.agreed / k.counted
  let lowNow := k.counted != 0 && decide (agree < fld w 23 16)
  let highNow := k.counted != 0 && decide (fld w 31 24 ≤ agree)
  let low := if k.counted = 0 then m.low else if lowNow then min 2 (m.low + 1) else 0
  let base := if p.key then false else m.demoted
  let enter := !base && !p.key && decide (2 ≤ low) && lowNow
  let dem := if p.key then false else if base then !highNow else enter
  { m with
    demoted := dem, low := if p.key then 0 else low, agree := agree, hintless := p.hint.isNone
    clamped := min 0xFFFF k.clamped, invalid := min 0xFFFF (m.invalid + b2n k.invalid)
    demotions := min 0xFFFF (m.demotions + b2n enter), coloc := k.field, glob := glob.orElse fun _ => m.glob }

end Sys2Proof.Machine
end

