-- ==== Sys2Proof/Machine/Rate.lean ====
section
/-!
DEFINITION. Rate control of a unit as it codes (R141 to R147) and of a picture as it commits (R135, R136, R142, R144,
R148 to R150, R155), and the check values of R243.
-/
namespace Sys2Proof.Machine

/-- CTU rows and columns of gang part `i` of `g` (R109): first row, rows, columns. H.264 splits rows, the others columns;
parts have equal counts and the last takes the remainder. -/
def partOf (c : Tbl Word) (g i : Nat) : Nat × Nat × Nat :=
  let rows := ctuRows clsLive c
  let cols := ctuCols clsLive c
  if fld (cget c 0x040) 2 0 = 1 then
    let per := rows / max 1 g
    (i * per, if i + 1 = g then rows - i * per else per, cols)
  else
    let per := cols / max 1 g
    (0, rows, if i + 1 = g then cols - i * per else per)

/-- First CTU column of unit `i` of a picture: a tile column's (R109). -/
def unitCol (cls : Nat) (p : Pic) (i : Nat) : Nat :=
  if cls = clsLive ∨ fld (cget p.cfg 0x040) 2 0 = 1 then 0 else i * (ctuCols clsLive p.cfg / max 1 p.gang)

/-- CTU rows of unit `i` of a picture: first row, rows, columns. -/
def unitRows (cls : Nat) (p : Pic) (i : Nat) : Nat × Nat × Nat :=
  if cls = clsLive then
    let per := cBand p.cfg / ctuSize p.cfg
    (i * per, min per (ctuRows cls p.cfg - i * per), ctuCols cls p.cfg)
  else partOf p.cfg p.gang i

/-- The cap in bits that unit `i` of a picture is coded under (R141). -/
def shareCap (cls : Nat) (p : Pic) (i : Nat) : Nat :=
  if cls = clsLive ∨ p.gang ≤ 1 then p.cap
  else
    let u := partOf p.cfg p.gang i
    p.cap * (u.2.1 * u.2.2) / max 1 (ctuRows cls p.cfg * ctuCols cls p.cfg)

/-- Bound of a threadbare CTU in bits (Table 7.3). -/
def tbBound (p : Pic) : Nat := if p.key then (tbBounds p.cfg).2.1 else (tbBounds p.cfg).1

/-- Planned total of the rows before the next as a fraction `num / den` in 1/1,441,440,000 bit (R142, R143): `done` rows
of the plan from row `first_`, scaled to the part's columns. -/
def planned (cls : Nat) (p : Pic) (i done : Nat) : Nat × Nat :=
  let u := unitRows cls p i
  let start := if cls = clsLive then 0 else u.1
  let t := if rcMode p.cfg = 2 then 3 * p.cap * second / 4 else p.target
  (t * ((p.weights.drop start).take done).sum * u.2.2, max 1 (p.weights.sum * ctuCols cls p.cfg))

/-- clamp(round(gain / 64 × 6 × log2(S / P)), ± `mx`) of R143, exactly: S is `a`, P is `num / den`. A zero plan under spent
bits gives the largest step, and no bits spent under a plan the smallest. -/
def qpStep (gain mx a num den : Nat) : Int :=
  let s := a * den
  let reach (k : Nat) (x y : Nat) : Bool := decide (2 ^ (16 * (2 * k - 1)) * y ^ (3 * gain) ≤ x ^ (3 * gain))
  let up := ((upto mx).filter fun k => reach (k + 1) s num).length
  let down := ((upto mx).filter fun k => reach (k + 1) num s).length
  if gain = 0 ∨ s = num then 0
  else if num = 0 then mx
  else if s = 0 then -(mx : Int)
  else (up : Int) - down

/-- QP of the next row (R143): the first row's QP, or the last row's moved by the step. -/
def nextQp (cls : Nat) (p : Pic) (i : Nat) (a : Acc) : Int :=
  let c := p.cfg
  let mode := rcMode c
  match a.rowQps.getLast? with
  | none => p.q0
  | some q =>
    let pl := planned cls p i a.rowQps.length
    let d := qpStep (fld (cget c 0x140) 15 8) (fld (cget c 0x140) 2 0) (a.rowBits.sum * second) pl.1 pl.2
    if mode = 3 then q
    else if mode = 2 then max (baseQp cls p) (clampI (q + max d 0) (qpMin c) (qpMax c))
    else clampI (q + d) (qpMin c) (qpMax c)

/-- Code one CTU (R145), whose threadbare form keeps the bound of Table 7.3: `left` bits are reserved for what follows it; `allTb` codes the band threadbare. -/
def codeCtu (p : Pic) (allTb : Bool) (cap row col : Nat) (qi : Int) (c : CtuIn) (left : Nat) (a : Acc) (rowTb : Bool) : Acc × Nat × Bool :=
  let fits := decide (a.total + c.bits + left ≤ cap)
  if !allTb && !a.capHit && fits then
    let off := if rcMode p.cfg = 3 ∨ fld (cget p.cfg 0x088) 19 16 = 0 then 0 else c.aq
    let aq := clampI (qi + off) (qpMin p.cfg) (qpMax p.cfg)
    ({ a with total := a.total + c.bits, qpSum := a.qpSum + aq, qpCnt := a.qpCnt + 1 }, c.bits, rowTb)
  else
    ({ a with
        total := a.total + min c.tb (tbBound p), capHit := a.capHit || !fits
        tb := match a.tb with
          | some x => some x
          | none => some (row, col) }, min c.tb (tbBound p), true)

/-- Code the CTUs of a row from column `col`. -/
def codeRow (p : Pic) (allTb : Bool) (cap bound row : Nat) (qi : Int) :
    Nat → List CtuIn → Nat → Acc → Nat → Bool → Acc × Nat × Bool
  | _, [], _, a, bits, tb => (a, bits, tb)
  | col, c :: t, left, a, bits, tb =>
    let r := codeCtu p allTb cap row col qi c (left - bound) a tb
    codeRow p allTb cap bound row qi (col + 1) t (left - bound) r.1 (bits + r.2.1) r.2.2

/-- Code the rows of unit `i` (R143 to R145). `hd` is what the unit's headers cost, which its first row holds (Table 7.4);
`left` is the reserve of the CTUs of this unit and later ones with the headers of later bands. -/
def codeRows (cls : Nat) (p : Pic) (i : Nat) (allTb : Bool) (cap bound : Nat) :
    Nat → List (List CtuIn) → Nat → Nat → Acc → Acc
  | _, [], _, _, a => a
  | row, cs :: t, hd, left, a =>
    let q := nextQp cls p i a
    let r := codeRow p allTb cap bound row q (unitCol cls p i) cs left a hd false
    let a := { r.1 with
      rowBits := r.1.rowBits ++ [r.2.1], rowQps := r.1.rowQps ++ [q], tbRows := r.1.tbRows + b2n r.2.2 }
    codeRows cls p i allTb cap bound (row + 1) t 0 (left - cs.length * bound) a

/-- What a CTU costs: every CTU of a repeat picture is coded skip, as a threadbare one is (R96, R146). -/
def Pic.ctu (p : Pic) (c : CtuIn) : CtuIn := if p.repeated && !p.key then { c with bits := c.tb } else c

/-- Code unit `w` of picture `p` with what the datapath reports (R144, R145): the accumulators after it. A gang part keeps
its own, a band goes on from the band before. -/
def codeUnit (cls : Nat) (p : Pic) (w : WUnit) (r : UnitResult) : Acc :=
  let u := unitRows cls p w.idx
  let bound := tbBound p
  let hdr := 8 * (tbBounds p.cfg).2.2
  let live := decide (cls = clsLive)
  let a := if live then p.acc else {}
  let total := ctuRows cls p.cfg * ctuCols cls p.cfg
  let before := u.1 * u.2.2
  let ctus := if live then total - before else u.2.1 * u.2.2
  let heads := if live then (p.units.length - 1 - w.idx) * hdr else 0
  let left := ctus * bound + heads
  codeRows cls p w.idx w.allTb (shareCap cls p w.idx) bound u.1 (r.rows.map fun l => l.map p.ctu) r.hdrBits left { a with total := a.total + r.hdrBits }

/-- Accumulators of the whole picture from its units: rows in order for LIVE and H.264, sums across tile columns. -/
def Pic.total (p : Pic) (cls : Nat) : Acc :=
  if cls = clsLive ∨ p.gang ≤ 1 then (if cls = clsLive then p.acc else (p.units.headD {}).acc)
  else
    let as := p.units.map (·.acc)
    let rows := fld (cget p.cfg 0x040) 2 0 == 1
    let n := (as.map fun a => a.rowBits.length).foldl max 0
    { total := (as.map (·.total)).sum
      rowBits := if rows then as.flatMap (·.rowBits) else (upto n).map fun j => (as.map fun a => a.rowBits.getD j 0).sum
      rowQps := as.flatMap (·.rowQps)
      tb := as.findSome? (·.tb)
      tbRows := if rows then (as.map (·.tbRows)).sum else (as.map (·.tbRows)).foldl max 0
      qpSum := (as.map (·.qpSum)).foldl (· + ·) 0
      qpCnt := (as.map (·.qpCnt)).sum }

/-- Filler bytes of a picture of `bits` bits that commits now (R136): mode 0 with filler set. -/
def Session.filler (x : Session) (t : RateTerms) (p : Pic) (bits : Nat) : Nat :=
  if t.mode = 0 ∧ bit (cget p.cfg 0x100) 3 then
    let excess : Int := x.rc.f - bits * second + t.rPic - t.b
    if 0 < excess then ceilDiv excess.toNat (8 * second) else 0
  else 0

/-- c of Table 7.2 for LIVE: bits × 2^((QP − 30) / 6) in 1/2^20, truncated. -/
def liveC (bits : Nat) (qp : Int) : Nat :=
  let e : Int := qp - 30 + 120
  if 0 ≤ e then root6 (bits ^ 6 * 2 ^ e.toNat) 80 0 else root6 (bits ^ 6 / 2 ^ (-e).toNat) 80 0

/-- Mean QP of the normally coded CTUs, rounded (R155); a free value named by `seq` where there is none. -/
def Acc.meanQp (a : Acc) (seq : Nat) : Int :=
  if a.qpCnt = 0 then (Config.emptyMeanQp seq : Nat) else roundDiv a.qpSum a.qpCnt

/-- Rate control at a picture commit (R135, R139, R142, R144): `bits` is s_n, filler included, `mean` its mean QP. -/
def Session.rateCommit (x : Session) (t : RateTerms) (p : Pic) (a : Acc) (bits : Nat) (mean : Int) : Session :=
  let f := x.rc.f - bits * second + t.rPic * (1 + p.dropsAfter)
  let avg := (cget p.cfg 0x104).toNat * t.period
  let hist := if p.key || p.cut then dropRows x.rc.hist else x.rc.hist
  { x with rc := { x.rc with
      f := if t.mode = 3 then x.rc.f else min (t.b : Int) f
      d := if t.mode = 1 then x.rc.d + bits * second - avg else x.rc.d
      cs := if p.cut then x.rc.cs else (p.c.toList ++ x.rc.cs).take 64
      lastC := if x.cls = clsLive then liveC bits mean else 0
      hist := tset {} p.kind { rowBits := a.rowBits, bits := bits, qpSum := a.qpSum, qpCnt := a.qpCnt } hist } }

/-- References, refresh cycle and long-term reference at a picture commit (R106, R148 to R150). recovery_pending stays while a
later recovery point is to come (R69). -/
def Session.refCommit (x : Session) (p : Pic) : Session :=
  let n := fld (cget p.cfg 0x124) 23 8
  let done := match p.refresh, x.refresh with
    | some i, some (_, len) => p.cycle == x.cycle && decide (len ≤ i + 1)
    | _, _ => false
  let since := x.rc.sinceLtr + 1
  let nth := n != 0 && decide (n ≤ since)
  let takes := x.cls == clsLive && !p.noRef && (p.key || done || nth)
  { x with
    refs := if p.noRef then x.refs else (if p.key then [p.num] else (p.num :: x.refs).take 16)
    ltr := if takes then some p.num else if p.key then none else x.ltr
    refresh := match p.refresh, x.refresh with
      | some i, some (k, len) => if p.cycle = x.cycle then (if len ≤ i + 1 then none else some (max k (i + 1), len)) else some (k, len)
      | _, r => r
    recPend := x.recPend && !(p.recovery && !x.recNext && x.pics.all fun q => q.num == p.num || !q.recovery)
    rc := { x.rc with sinceLtr := if takes then 0 else since } }

/-- The encode class words of a committed picture (R155). `fill` is F after removal in bits. -/
def Session.encWords (x : Session) (t : RateTerms) (p : Pic) (a : Acc) (bits filler : Nat) (fill mean : Int) : Tbl Word :=
  let qps := a.rowQps
  let lo := qps.foldl min (qps.headD 0)
  let hi := qps.foldl max (qps.headD 0)
  let cols := ctuCols clsLive p.cfg
  let cyc := match x.refresh with
    | some (k, len) => (k * ceilDiv cols (max 1 len), len - k, true)
    | none => (0, 0, false)
  [(0x3BC, mkWord [(0, mean.toNat % 256), (8, lo.toNat % 256), (16, hi.toNat % 256), (24, min 255 a.tbRows)]),
   (0x3C0, match a.tb with
      | some q => mkWord [(0, q.1), (16, q.2)]
      | none => 0xFFFFFFFF),
   (0x3C4, w32 (p.target / second)), (0x3C8, w32 p.cap), (0x3CC, w32 bits), (0x3D0, w32 filler),
   (0x3D4, w32 (if t.mode = 3 then 0 else (fill / second).toNat)), (0x3D8, w32 t.r),
   (0x3DC, w32 (min 0xFFFFFFFF x.tbPictures)), (0x3E0, w32 (min 0xFFFFFFFF x.cuts)),
   (0x3E4, w32 (min 0xFFFFFFFF x.recoveries)),
   (0x3E8, mkWord [(0, cyc.1), (16, min 255 cyc.2.1), (24, b2n cyc.2.2), (25, b2n x.ltr.isSome)]),
   (0x3EC, w32 (x.ltr.getD 0)),
   (0x3F0, mkWord [(0, b2n p.key), (1, b2n p.cut), (2, b2n p.recovery), (3, b2n (qps.any fun q => q == qpMax p.cfg)),
      (4, b2n (qps.any fun q => q == qpMin p.cfg)), (5, b2n p.limited)]),
   (0x3F4, w32 (min 0xFFFFFFFF x.bufLimited))]

/-- The symbol check value (R243). -/
def symCheck (ws : List Word) : Word := crc32c (ws.flatMap fun w => leBytes 4 w.toNat)

/-- The pixel check value (R243). -/
def pixCheck (ps : List (BitVec 16)) : Word := crc32c (ps.flatMap fun w => leBytes 2 w.toNat)

/-- The tests of Table 12.1 that fail, as bits 0 Parse to 6 Cap (RCT_STATUS). -/
def failedTests (dec : Bool) (rank0 : Bool) (capOk : Bool) (r : UnitResult) : Nat :=
  let f (n : Nat) (ok : Bool) : Nat := if ok then 0 else 2 ^ n
  f 0 r.parseOk + f 1 (dec || symCheck r.symsCoder == symCheck r.symsProof)
    + f 2 (pixCheck r.pixPrimary == pixCheck r.pixMirror) + f 3 r.storeOk + f 4 (!dec || r.boundsOk)
    + f 5 (!rank0 || r.scalerOk) + f 6 (dec || capOk)

/-- The RCT registers after a commit check (R414). -/
def rctWords (dec : Bool) (ses fails : Nat) (r : UnitResult) : Tbl Word :=
  ([(0x6000, mkWord [(0, if fails = 0 then 1 else 2), (4, fails), (16, ses)]),
    (0x6004, if dec then 0 else symCheck r.symsCoder), (0x6008, if dec then 0 else symCheck r.symsProof),
    (0x600C, pixCheck r.pixPrimary), (0x6010, pixCheck r.pixMirror)]).filter fun e => e.2 != 0

end Sys2Proof.Machine
end

