-- ==== Sys2Proof/Machine/Packets.lean ====
section
/-!
DEFINITION. The packets of an encode unit (R136, R156, R158, R159, R161) and what their syntax says beyond the blocks (R106 to R111,
R134, R137, R149, R152); the hamper page lines that hold them (R161, R163), and the forms in which the host reads them (R169).
-/
namespace Sys2Proof.Machine

/-- Emulation prevention over a NAL unit's payload (R156; PRESUMED from the codec standards, log 120): after two zero bytes a byte of
at most 3 follows a byte 3. `z` zero bytes stand before. -/
def emulate : Nat → List Byte → List Byte
  | _, [] => []
  | z, b :: t =>
    if 2 ≤ z ∧ b.toNat ≤ 3 then 3 :: b :: emulate (if b = 0 then 1 else 0) t
    else b :: emulate (if b = 0 then z + 1 else 0) t

/-- A 4-byte leb128 padded with continuation bits (R158). -/
def leb4 (n : Nat) : List Byte :=
  [BitVec.ofNat 8 (n % 128 + 128), BitVec.ofNat 8 (n / 128 % 128 + 128), BitVec.ofNat 8 (n / 16384 % 128 + 128),
   BitVec.ofNat 8 (n / 2097152 % 128)]

/-- A packet in hamper form with its length slot (R158): before a NAL unit, or as the obu_size after an OBU's header. -/
def pktForm (codec : Nat) (p : Pkt) : List Byte :=
  if codec = 3 then p.hdr ++ leb4 p.body.length ++ p.body
  else
    let nal := p.hdr ++ emulate 0 p.body
    beBytes 4 nal.length ++ nal

/-- A packet has some byte beside its slot: none has zero length (R158). -/
def pktSome (p : Pkt) : Bool := !(p.hdr.isEmpty && p.body.isEmpty)

/-- Bytes of a packet without its slot. -/
def pktSize (codec : Nat) (p : Pkt) : Nat := (pktForm codec p).length - 4

/-- The picture starts a refresh cycle (R148). -/
def Pic.startsCycle (p : Pic) : Bool := !p.key && p.refresh == some 0

/-- The picture carries parameter sets or a sequence header (R111, ENC_FLAGS.ps_every_key). -/
def Pic.sendsSets (p : Pic) : Bool := p.newSets || (p.key && bit (cget p.cfg 0x05C) 1)

/-- A packet of kind `k` stands in unit `idx` of the picture (R137, R149, R159, Table 8.2): picture-level packets in the first, the
frame header for AV1, slices and tile groups in each; the machine adds the filler itself. -/
def Pic.wants (p : Pic) (idx : Nat) (k : PktKind) : Bool :=
  let av1 := fld (cget p.cfg 0x040) 2 0 == 3
  let hrd := bit (cget p.cfg 0x100) 2
  let lead := idx == 0
  match k with
  | .aud => lead && bit (cget p.cfg 0x05C) 0
  | .sets => lead && p.sendsSets
  | .bufPeriod => lead && hrd && !av1 && (p.key || p.startsCycle)
  | .picTiming => lead && hrd && !av1
  | .recPoint => lead && !av1 && p.startsCycle
  | .hdr => lead && p.key && bit (cget p.cfg 0x05C) 3
  | .frame => lead && av1
  | .slice => true
  | .filler => false

/-- The order of the packets in a unit (Table 8.2). -/
def pktOrder : List PktKind := [.aud, .sets, .bufPeriod, .picTiming, .recPoint, .hdr, .frame, .slice]

/-- The packets of unit `idx` of the picture, in order, of those that the coder can write (R159). -/
def unitPkts (p : Pic) (idx : Nat) (r : UnitResult) : List Pkt :=
  pktOrder.flatMap fun k => if p.wants idx k then r.pkts.filter fun q => q.kind == k && pktSome q else []

/-- Bytes of a unit's packets with their length slots, filler apart (R158, R160). -/
def unitBytes (p : Pic) (idx : Nat) (r : UnitResult) : Nat :=
  ((unitPkts p idx r).map fun q => (pktForm (fld (cget p.cfg 0x040) 2 0) q).length).sum

/-- Header of a filler packet: filler data NAL unit, or padding OBU (R136; codes PRESUMED from the codec standards, log 120). -/
def fillerHdr (codec : Nat) : List Byte :=
  if codec = 1 then [0x0C] else if codec = 2 then [0x4C, 0x01] else if codec = 3 then [0x7A] else [0x00, 0xC9]

/-- Bytes of filler that the picture carries for a need of `n` (R136): at least the smallest filler packet (DESIGN CHOICE,
log 120). -/
def fillerBytes (codec n : Nat) : Nat := if n = 0 then 0 else max n ((fillerHdr codec).length + 5)

/-- The filler packet of `n` bytes, slot included. -/
def fillerPkt (codec n : Nat) : List Pkt :=
  if n = 0 then []
  else [{ kind := .filler, hdr := fillerHdr codec, body := List.replicate (n - (fillerHdr codec).length - 5) 0xFF ++ [0x80] }]

/-- The physical address of byte `o` of hamper page `n` (R163): offset 16,384 × n + o of region 16. -/
def State.pageAddr (s : State) (n o : Nat) : Nat := (tget {} s.pat.regions 16).phys (16384 * n + o)

/-- The physical address and generation of line `i` of a unit's pages. -/
def State.unitLine (s : State) (pages : List (Nat × Nat)) (i : Nat) : Nat × Nat :=
  let g := pages.getD (i / 256) (0, 0)
  (s.pageAddr g.1 (64 * (i % 256)), g.2)

/-- Write bytes into the lines of a unit's pages from line `i`, whose first `skip` bytes stay, each line with a label made for it
(R161, Table 1.5). `k` bounds the lines. -/
def State.writeLines (s : State) (pages : List (Nat × Nat)) : Nat → Nat → Nat → List Byte → State
  | 0, _, _, _ => s
  | k + 1, i, skip, bytes =>
    if bytes.isEmpty then s
    else
      let a := s.unitLine pages i
      let cur := s.bytes a.1 64
      let new := bytes.take (64 - skip)
      let line := cur.take skip ++ new ++ cur.drop (skip + new.length)
      ((s.access (decodeLine a.1)).writeLine a.1 line (careLabel line (foldWord a.1 a.2))).writeLines pages k (i + 1) 0
        (bytes.drop (64 - skip))

/-- A committed unit's bytes go to its pages, the last line padded with zeros (R161). -/
def State.writeUnit (s : State) (pages : List (Nat × Nat)) (bytes : List Byte) : State :=
  let n := ceilDiv bytes.length 64
  s.writeLines pages n 0 0 (bytes ++ List.replicate (64 * n - bytes.length) 0)

/-- The same bytes go again to bytes `at_` on of the unit (R171). -/
def State.rewriteUnit (s : State) (pages : List (Nat × Nat)) (at_ : Nat) (bytes : List Byte) : State :=
  s.writeLines pages (ceilDiv (at_ % 64 + bytes.length) 64) (at_ / 64) (at_ % 64) bytes

/-- Read `n` bytes of a unit from line `i` on, verifying each line (R169): the bytes, or the offset of the line that failed. `k` bounds
the lines. -/
def State.readLines (s : State) (pages : List (Nat × Nat)) : Nat → Nat → Nat → State × Except Nat (List Byte)
  | 0, _, _ => (s, .ok [])
  | k + 1, i, n =>
    if n = 0 then (s, .ok [])
    else
      let a := s.unitLine pages i
      let r := s.fetchLine a.1 a.2
      match r.2 with
      | none => (r.1, .error (64 * i))
      | some d =>
        let t := r.1.readLines pages k (i + 1) (n - min n 64)
        (t.1, t.2.map (d.1.take n ++ ·))

/-- Read the `n` bytes of a unit. -/
def State.readUnit (s : State) (pages : List (Nat × Nat)) (n : Nat) : State × Except Nat (List Byte) :=
  s.readLines pages (ceilDiv n 64) 0 n

/-- Bytes of the OBU header and its extension. -/
def obuHdr (b : Byte) : Nat := if b.getLsbD 2 then 2 else 1

/-- The number of a 4-byte leb128. -/
def lebAt (bs : List Byte) : Nat := bs.foldr (fun b a => 128 * a + b.toNat % 128) 0

/-- Annex B form (R169): 00 00 00 01 in place of each slot. `k` bounds the packets. -/
def annexB (codec : Nat) : Nat → List Byte → List Byte
  | 0, bs => bs
  | k + 1, bs =>
    if bs.isEmpty then []
    else
      let h := if codec = 3 then obuHdr (bs.headD 0) else 0
      let slot := (bs.drop h).take 4
      let n := if codec = 3 then lebAt slot else beAt slot
      bs.take h ++ [0, 0, 0, 1] ++ (bs.drop (h + 4)).take n ++ annexB codec k (bs.drop (h + 4 + n))

/-- The form that OUT_BIND.fmt selects (R169): 1 and 2 keep the slots. -/
def hostForm (c : Tbl Word) (bs : List Byte) : List Byte :=
  if fld (cget c 0x200) 3 1 = 0 then annexB (fld (cget c 0x040) 2 0) bs.length bs else bs

/-- The type that the picture is signalled with (R106). -/
def Pic.type (cls : Nat) (p : Pic) : PicType :=
  let codec := fld (cget p.cfg 0x040) 2 0
  if p.key then
    if codec = 1 then .idr else if codec = 3 then .keyFrame else if cls = clsLive then .idrNLp else .idrWRadl
  else if p.bLevel = 0 then .p else .b

/-- How a unit of the picture is packed (R107, R109). -/
def Pic.form (cls : Nat) (p : Pic) : UnitForm :=
  let codec := fld (cget p.cfg 0x040) 2 0
  if codec = 1 then .slice
  else if codec = 3 then .tile (if cls = clsLive then (if 4096 < cW cls p.cfg then 2 else 1) else max 1 p.gang)
  else if cls ≠ clsLive then (if p.gang ≤ 1 then .slice else .tile p.gang)
  else if codec = 2 then .independentSegment
  else .rasterSlice

/-- The smallest coding block (R112). -/
def minBlock (c : Tbl Word) : Nat := if fld (cget c 0x040) 2 0 = 1 then 16 else 2 ^ fld (cget c 0x080) 3 1

/-- A size padded to the smallest coding block (R110). -/
def paddedSize (c : Tbl Word) (n : Nat) : Nat := ceilDiv n (minBlock c) * minBlock c

/-- The level code that the bitstream carries (R110): the number of ENC_CODEC.level, AV1's seq_level_idx, or the unconstrained
level. -/
def levelCode (codec : Nat) : Option Nat → Nat
  | some n => if codec = 3 then (n / 10 - 2) * 4 + n % 10 else n
  | none => if codec = 2 then 85 else if codec = 4 then 155 else 31

/-- Tools that the blocks of the picture may use (R104, Tables 5.5 to 5.8): B tools in B pictures, weighted prediction where lookahead
found a fade, and intra block copy of AV1 in key frames. -/
def Pic.tools (p : Pic) : Nat :=
  let codec := fld (cget p.cfg 0x040) 2 0
  let t := fld (cget p.cfg 0x084) 15 0
  let off (t n : Nat) (drop : Bool) : Nat := if drop ∧ t.testBit n then t - 2 ^ n else t
  let t := off t 0 (p.key || p.bLevel == 0)
  let t := off t 1 (codec ≤ 2 && !p.fade)
  off t 5 (codec == 3 && !p.key)

/-- The tools that the blocks of the picture choose among (R104), outside and in CTUs of screen content. -/
def Pic.toolNames (cls : Nat) (p : Pic) (screen : Bool) : List String :=
  let c := p.cfg
  let rows := toolRows (fld (cget c 0x040) 2 0) (fld (cget c 0x040) 7 4) (fld (cget c 0x050) 1 0) cls (bit (cget c 0x048) 4)
  (rows.filter fun t => t.applies p.tools screen (decide (1 < p.gang)) (fld (cget c 0x088) 19 16 != 0)).map (·.name)

/-- What the syntax of the picture says (R92, R106 to R111, R134, R136, R137, R149, R152, R156): `x` before its commit, `q` its first
row's QP. -/
def Session.syntaxOf (x : Session) (t : RateTerms) (m : Nat) (p : Pic) : PicSyntax :=
  let c := p.cfg
  let codec := fld (cget c 0x040) 2 0
  let src := fld (cget c 0x048) 3 0
  let hrd := bit (cget c 0x100) 2
  let high := bit (cget c 0x040) 16
  let period := hrd && codec != 3 && (p.key || p.startsCycle)
  { pic := p.num, type := p.type x.cls, refs := p.refs, longTerm := x.ltr.filter fun l => p.refs.contains l
    form := p.form x.cls, units := p.units.length, crossFilter := codec == 3
    lateLines := if codec = 3 ∧ x.cls = clsLive ∧ 1 < p.units.length then 8 else 0
    level := levelCode codec ((levelNo x.cls c m).getD none), tier := high
    codedW := paddedSize c (cW x.cls c), codedH := paddedSize c (cH x.cls c)
    cropW := paddedSize c (cW x.cls c) - cW x.cls c, cropH := paddedSize c (cH x.cls c) - cH x.cls c
    chromaLoc0 := !bit (cget c 0x048) 4 && (decide (2 ≤ src) && decide (src ≤ 5))
    qp := if codec = 3 then 5 * p.q0 else p.q0, qpStep := if codec = 3 then 5 else 1
    tools := p.tools, used := p.toolNames x.cls false, screenTools := p.toolNames x.cls true
    effort := fld (cget c 0x050) 1 0, cabac := codec != 1 || fld (cget c 0x040) 7 4 != 0
    noCdfUpdate := codec == 3 && x.cls == clsLive
    tmvp := p.refresh.isNone && bit (cget c 0x084) 2
    cbr := t.mode == 0 && bit (cget c 0x100) 3
    hrd := if hrd then some (t.r, t.b / second) else none
    initDelay := if period ∧ t.r ≠ 0 then some (x.rc.f.toNat / t.r) else none
    recovery := if codec ≠ 3 ∧ p.startsCycle then some (cycleLen c - 1) else none
    hdr := if p.key ∧ bit (cget c 0x05C) 3 then some ((upto 6).map fun i => cget c (0x060 + 4 * i)) else none }

/-- AV1: the CDFs that the picture leaves (Table 8.1): those of its largest tile, for a class other than LIVE. -/
def Session.keepCdf (x : Session) (p : Pic) (parts : List (Nat × List Byte)) : Session :=
  if fld (cget p.cfg 0x040) 2 0 = 3 ∧ x.cls ≠ clsLive then
    let big := parts.foldl (fun (b : Nat × List Byte) e => if b.1 < e.1 then e else b) (0, [])
    { x with cdfs := tset [] p.num big.2 x.cdfs }
  else x

end Sys2Proof.Machine
end

