-- ==== Sys2Proof/Machine/Decoder.lean ====
section
/-!
DEFINITION. What the decoder makes of a parsed access unit: framing and missing bytes (R176, R180), parameter sets (R173, R191), darning
(R188, R192), darned references and taint (R193, R194), reference buffers (R187), the window picture (R175, R181).
-/
namespace Sys2Proof.Machine

/-- What framing alone finds in a run of bytes: syntax errors, and a length that runs past the bytes behind it (Table 9.4). -/
structure Framing where
  errs : Nat := 0
  long : Bool := false

/-- Frame a run of NAL units with 4-byte length prefixes. `k` bounds the units. -/
def framePrefixed : Nat → List Byte → Framing → Framing
  | 0, _, f => f
  | k + 1, bs, f =>
    if bs.isEmpty then f
    else if bs.length < 4 then { f with errs := f.errs + 1 }
    else
      let n := beAt (bs.take 4)
      if n = 0 then framePrefixed k (bs.drop 4) { f with errs := f.errs + 1 }
      else if bs.length - 4 < n then { errs := f.errs + 1, long := true }
      else framePrefixed k (bs.drop (4 + n)) f

/-- A leb128 number and its bytes; none where it takes more than 8, or the bytes end first. -/
def lebOf : Nat → List Byte → Option (Nat × Nat)
  | 0, _ => none
  | _, [] => none
  | k + 1, b :: t =>
    if b.toNat < 128 then some (b.toNat, 1) else (lebOf k t).map fun e => (b.toNat % 128 + 128 * e.1, e.2 + 1)

/-- Frame a low-overhead OBU stream: an OBU without a size reaches the end; zero is legal for temporal delimiters and padding alone
(OBU header layout and type codes PRESUMED, log 125). -/
def frameObus : Nat → List Byte → Framing → Framing
  | 0, _, f => f
  | k + 1, bs, f =>
    match bs with
    | [] => f
    | b :: _ =>
      let t := nfld b.toNat 6 3
      let bs := bs.drop (obuHdr b)
      if !b.getLsbD 1 then f
      else match lebOf 8 bs with
        | none => { f with errs := f.errs + 1 }
        | some (n, m) =>
          if bs.length - m < n then { errs := f.errs + 1, long := true }
          else frameObus k (bs.drop (m + n)) { f with errs := f.errs + b2n (n == 0 && t != 2 && t != 15) }

/-- Frame a run of bytes in the form of DEC_CODEC.in_fmt; Annex B start codes leave nothing to find. -/
def frameRun (fmt : Nat) (bs : List Byte) : Framing :=
  if fmt = 1 then framePrefixed bs.length bs {} else if fmt = 2 then frameObus bs.length bs {} else {}

/-- Framing of an access unit that is cut at `cuts`, ascending (R180): each cut ends the syntax unit in progress with a syntax error, and
a length that runs past a cut sets no truncated flag. `at_` is where `bs` begins. -/
def frameAu (fmt : Nat) : Nat → List Byte → List Nat → Framing
  | _, bs, [] => frameRun fmt bs
  | at_, bs, c :: t =>
    let a := frameRun fmt (bs.take (c - at_))
    let b := frameAu fmt c (bs.drop (c - at_)) t
    { errs := max 1 a.errs + b.errs, long := b.long }

/-- A chroma format and depth that the decoder supports (Table 9.1). -/
def decFormat (codec chroma depth : Nat) : Bool :=
  decide (depth ≤ 10) && (if codec = 1 then decide (chroma ≤ 1) else if codec = 3 then chroma != 2 && decide (chroma ≤ 3) else decide (chroma ≤ 3))

/-- Tile columns and rows within Table 9.4; H.264 has none. -/
def tilesOk (codec cols rows : Nat) : Bool :=
  if codec = 1 then true
  else if codec = 3 then decide (cols ≤ 64) && decide (cols * rows ≤ 128)
  else decide (cols ≤ 20) && decide (rows ≤ 22)

/-- A set is accepted (R173, R174, R191, Table 9.4): levels are not enforced. -/
def setOk (c : Tbl Word) (z : SetIn) : Bool :=
  let codec := fld (cget c 0x300) 2 0
  let size (n mx : Nat) : Bool := decide (64 ≤ n) && decide (n ≤ 8192) && decide (n ≤ mx)
  z.idOk && tilesOk codec z.cols z.rows &&
    (z.ofPic || (!z.excluded && decide (z.profile < 4) && bit (cget c 0x300) (4 + z.profile) && decFormat codec z.chroma z.depth &&
      size z.width (fld (cget c 0x304) 13 0) && size z.height (fld (cget c 0x304) 29 16) && decide (z.dpb ≤ fld (cget c 0x320) 12 8)))

/-- The set with an identifier. -/
def Dec.set? (d : Dec) (ofPic : Bool) (id : Nat) : Option SetIn := d.sets.find? fun z => z.ofPic == ofPic && z.id == id

/-- The sets of an access unit, in order (R191): a rejected one leaves its identifier empty. -/
def Dec.takeSets (d : Dec) (c : Tbl Word) (l : List SetIn) : Dec :=
  l.foldl (fun d z =>
    let rest := d.sets.filter fun y => !(y.ofPic == z.ofPic && y.id == z.id)
    if setOk c z then { d with sets := rest ++ [z] } else { d with sets := rest, setsRejected := d.setsRejected + 1 }) d

/-- The sequence-level set of a picture, where the picture is decodable (R191). -/
def Dec.format (d : Dec) (r : DecResult) : Option SetIn :=
  if r.headerOk && (r.picId.map fun k => (d.set? true k).isSome).getD true then d.set? false r.seqId else none

/-- CTU columns and CTUs of a picture. -/
def streamCols (z : SetIn) : Nat := ceilDiv z.width (max 1 z.ctu)
def streamCtus (z : SetIn) : Nat := streamCols z * ceilDiv z.height (max 1 z.ctu)

/-- What the parts of a picture leave: CTUs covered and darned, and the syntax errors met, each with its CTU. -/
structure Darn where
  covered : List Nat := []
  darned : List Nat := []
  errs : List (Nat × Nat) := []

/-- The CTUs of a part that an error at its `i`-th CTU darns (R192): from the first CTU of that CTU's row in the part on. -/
def darnFrom (cols : Nat) (l : List Nat) (i : Nat) : List Nat :=
  let row := l.getD (min i (l.length - 1)) 0 / max 1 cols
  l.drop ((l.findIdx? fun k => k / max 1 cols == row).getD 0)

/-- Take one part (R191, R192, Table 9.4): a first CTU outside the picture or already covered, or too many references, discards it; an
inter slice without references is an error at its first CTU. -/
def Darn.part (a : Darn) (cols count dpb : Nat) (p : PartIn) : Darn :=
  match p.ctus with
  | [] => a
  | k :: _ =>
    if count ≤ k ∨ a.covered.contains k then { a with errs := a.errs ++ [(k, 3)] }
    else if p.inter ∧ (16 < p.active ∨ dpb < p.active) then a
    else
      let l := p.ctus.filter fun k => decide (k < count)
      let a := { a with covered := a.covered ++ l }
      if p.inter ∧ p.active = 0 then { a with darned := a.darned ++ l, errs := a.errs ++ [(k, 2)] }
      else match p.err with
        | some e => { a with
            darned := a.darned ++ darnFrom cols l e.at_, errs := a.errs ++ [(l.getD (min e.at_ (l.length - 1)) k, e.kind)] }
        | none => a

/-- Parts of a picture that are decoded (Table 9.4); later ones are discarded. -/
def partLimit (codec : Nat) (z : SetIn) : Nat := if codec = 3 then z.cols * z.rows else 600

/-- The parts of a picture; CTUs that no part covers are darned at its end, and those that read a failed reference line (R188, R192).
Errors for a failed bitstream line (kind 6) exist only where one failed. -/
def darnPic (codec dpb : Nat) (z : SetIn) (r : DecResult) (bitLost refLost : Bool) : Darn :=
  let n := streamCtus z
  let fit (e : PartErr) : PartErr := if e.kind = 6 ∧ ¬ bitLost then { e with kind := 1 } else e
  let ps := (r.parts.take (partLimit codec z)).map fun p => { p with err := p.err.map fit }
  let a := ps.foldl (fun (a : Darn) p => a.part (streamCols z) n dpb p) {}
  let grey := if refLost then r.grey.filter fun k => a.covered.contains k && !a.darned.contains k else []
  { a with darned := (a.darned ++ grey).dedup ++ (upto n).filter fun k => !a.covered.contains k }

/-- Darned references (R193): one entry a missing picture; an entry marked as never received (R195) that a CTU reads. It names the buffer
of the nearest earlier decoded picture in output order, or none. -/
def Dec.darnRefs (d : Dec) (r : DecResult) : Dec :=
  let before (poc : Int) : List DpbEntry := d.dpb.filter fun e => !e.darned && !e.gone && e.cvs == d.cvs && decide (e.poc < poc)
  let near (poc : Int) : DpbEntry := ((before poc).foldl (fun (b : Option DpbEntry) e => match b with
    | some o => if o.poc < e.poc then some e else some o
    | none => some e) none).getD {}
  let hit (e : DpbEntry) : Bool := e.gone && r.reads.any fun l => l.2.contains e.pic
  let miss := r.missing.filter fun k => !d.dpb.any fun e => e.pic == k.1
  { d with
    dpb := (d.dpb.map fun e => if hit e then { e with gone := false, tainted := true, darned := true, buf := (near e.poc).buf, planes := (near e.poc).planes } else e)
      ++ miss.map fun k => { pic := k.1, tainted := true, darned := true, cvs := d.cvs, poc := k.2, buf := (near k.2).buf, planes := (near k.2).planes }
    darnedRefs := d.darnedRefs + miss.length + (d.dpb.filter hit).length }

/-- CTUs that read a tainted entry (R194), those darned apart. -/
def Dec.taintedCtus (d : Dec) (r : DecResult) (darned : List Nat) : Nat :=
  (r.reads.filter fun l => !darned.contains l.1 && d.dpb.any fun e => e.tainted && l.2.contains e.pic).length

/-- A committed picture enters the DPB in the first buffer that no entry names, whose generation rises (R23, R187). -/
def Dec.enter (d : Dec) (e : DpbEntry) : Dec :=
  match (upto d.buffers).find? fun k => !d.dpb.any fun e => e.buf == some k with
  | some k => { d with dpb := d.dpb ++ [{ e with buf := some k }], bufGen := tset 0 k ((tget 0 d.bufGen k + 1) % 65536) d.bufGen }
  | none => { d with dpb := d.dpb ++ [e] }

/-- A sample of a plane at (x, y), whose edges are padded (R187); an empty plane is mid-grey `g`. -/
def padSample (g : Nat) (p : List (List Nat)) (x y : Nat) : Nat :=
  match p[min y (p.length - 1)]? with
  | some l => l.getD (min x (l.length - 1)) g
  | none => g

/-- The vector that motion copy gives CTU `k`: of the nearest decoded inter CTU above it in the same column (R192). -/
def darnVec (cols : Nat) (darned : List Nat) (r : DecResult) (k : Nat) : Int × Int :=
  let at_ (row : Nat) : Option (Int × Int) :=
    let j := row * cols + k % max 1 cols
    if darned.contains j then none else (r.vecs.find? fun v => v.1 == j).map (·.2)
  ((upto (k / max 1 cols)).reverse.findSome? at_).getD (0, 0)

/-- The CTU that a sample of plane `i` lies in, by the chroma format. -/
def ctuOf (z : SetIn) (i x y : Nat) : Nat :=
  let sx := if i != 0 && (z.chroma == 1 || z.chroma == 2) then 2 else 1
  let sy := if i != 0 && z.chroma == 1 then 2 else 1
  y * sy / max 1 z.ctu * streamCols z + x * sx / max 1 z.ctu

/-- The coded picture with its darned CTUs (R188, R192): by DEC_BUDGET.darn, mid-grey for those of a failed reference line. Without
references they come from the picture output most recently. -/
def darnPlanes (c : Tbl Word) (z : SetIn) (r : DecResult) (d : Dec) (darned : List Nat) (refLost : Bool) : List (List (List Nat)) :=
  if darned.isEmpty then r.planes
  else
    let mode := fld (cget c 0x324) 9 8
    let g := 2 ^ (z.depth - 1)
    let ref := match r.list0.bind fun k => d.dpb.find? fun e => e.pic == k with
      | some e => e.planes
      | none => d.shown
    r.planes.zipIdx.map fun p => p.1.zipIdx.map fun l => l.1.zipIdx.map fun v =>
      let k := ctuOf z p.2 v.2 l.2
      let plane := ref.getD p.2 []
      if !darned.contains k then v.1
      else if mode == 2 || (refLost && r.grey.contains k) then g
      else
        let m := if mode == 0 && r.list0.isSome && !plane.isEmpty then darnVec (streamCols z) darned r k else (0, 0)
        if m = (0, 0) then padSample g plane v.2 l.2 else Config.darnSample (fld (cget c 0x300) 2 0) plane m.1 m.2 v.2 l.2

/-- The cropped picture (R181). -/
def cropPlanes (z : SetIn) (r : DecResult) (ps : List (List (List Nat))) : List (List (List Nat)) :=
  ps.zipIdx.map fun p =>
    let sx := if p.2 != 0 && (z.chroma == 1 || z.chroma == 2) then 2 else 1
    let sy := if p.2 != 0 && z.chroma == 1 then 2 else 1
    ((p.1.drop (r.cropY / sy)).take (ceilDiv r.height sy)).map fun l => (l.drop (r.cropX / sx)).take (ceilDiv r.width sx)

/-- A chroma plane of format `a` in the window's format (R175): `full` is 4:4:4, else 4:2:0. -/
def toChroma (a : Nat) (full : Bool) (w h : Nat) (p : List (List Nat)) : List (List Nat) :=
  if full then
    if a = 1 then (doubleRows h p).map (doubleLine w) else if a = 2 then p.map (doubleLine w) else p
  else if a = 2 then halveRows p else if a = 3 then halveRows (p.map halveLine) else p

/-- The window format (DEC_OUT.fmt): 4:4:4, and 10 bits. -/
def winFull (c : Tbl Word) : Bool := bit (cget c 0x308) 1
def winDepth (c : Tbl Word) : Nat := if bit (cget c 0x308) 0 then 10 else 8

/-- The picture is converted for its window (R175). -/
def converted (c : Tbl Word) (z : SetIn) : Bool := z.depth != winDepth c || z.chroma != (if winFull c then 3 else 1)

/-- Film grain is applied to the window copy (R175). -/
def grainOn (c : Tbl Word) (r : DecResult) : Bool := fld (cget c 0x300) 2 0 == 3 && bit (cget c 0x308) 5 && r.grain

/-- The planes of the window copy (R175) of the cropped picture `ps`: film grain, depth, chroma. -/
def windowPlanes (c : Tbl Word) (z : SetIn) (pic : Nat) (r : DecResult) (ps : List (List (List Nat))) : List (List (List Nat)) :=
  let grained := if grainOn c r then
      ps.zipIdx.map fun p => p.1.zipIdx.map fun l => l.1.zipIdx.map fun v => Config.grainSample pic p.2 v.2 l.2 v.1
    else ps
  let ps := grained.map fun p => p.map fun l => l.map (toDepth z.depth (winDepth c))
  let full := winFull c
  let mid := List.replicate (if full then r.height else ceilDiv r.height 2)
    (List.replicate (if full then r.width else ceilDiv r.width 2) (2 ^ (winDepth c - 1)))
  match ps with
  | [] => []
  | y :: cs => if z.chroma = 0 then [y, mid, mid] else y :: cs.map (toChroma z.chroma full r.width r.height)

/-- A sample in the window (Table 5.1): P010 holds it in bits 15:6, 4:4:4 10-bit in bits 9:0. -/
def winSample (c : Tbl Word) (v : Nat) : List Byte :=
  let f := fld (cget c 0x308) 1 0
  if f = 1 then leBytes 2 (64 * v) else if f = 3 then leBytes 2 v else leBytes 1 v

/-- The lines of the window copy by their offset in the slot (R181), clipped to max_width × max_height (R187). -/
def windowLines (c : Tbl Word) (ps : List (List (List Nat))) : List (Nat × List Byte) :=
  let pitch := (cget c 0x314).toNat
  let mw := fld (cget c 0x304) 13 0
  let mh := fld (cget c 0x304) 29 16
  let plane (base : Nat) (p : List (List Nat)) : List (Nat × List Byte) :=
    (p.take mh).zipIdx.map fun l => (base + pitch * l.2, (l.1.take mw).flatMap (winSample c))
  match ps with
  | [y, u, v] =>
    plane 0 y ++ (if winFull c then plane (pitch * mh) u ++ plane (2 * pitch * mh) v
      else ((u.zip v).take (ceilDiv mh 2)).zipIdx.map fun e =>
        (pitch * mh + pitch * e.2, ((e.1.1.zip e.1.2).take (ceilDiv mw 2)).flatMap fun a => winSample c a.1 ++ winSample c a.2))
  | y :: _ => plane 0 y
  | [] => []

/-- Write a line of bytes at a device address that is a multiple of 64, each beat with a label made for it (Table 1.5). `k` bounds the
beats. -/
def State.writeDev (s : State) (gen : Nat) : Nat → Nat → List Byte → State
  | 0, _, _ => s
  | k + 1, a, bytes =>
    if bytes.isEmpty then s
    else
      let s := match s.physOf a with
        | none => s
        | some p =>
          let new := bytes.take 64
          let line := new ++ (s.bytes p 64).drop new.length
          (s.access (decodeLine p)).writeLine p line (careLabel line (foldWord p gen))
      s.writeDev gen k (a + 64) (bytes.drop 64)

/-- A picture is written into its slot of a window in HBM (R182, R183). -/
def State.writeWindow (s : State) (c : Tbl Word) (slot gen : Nat) (ls : List (Nat × List Byte)) : State :=
  let base := joinW (cget c 0x30C) (cget c 0x310) + slot * (cget c 0x318).toNat
  ls.foldl (fun s e => s.writeDev gen (ceilDiv e.2.length 64) (base + e.1) e.2) s

/-- The cycle budget of an access unit (R185): `samples` its coded luma samples, a 4:2:2 or 4:4:4 picture's counted twice. -/
def cycleBudget (mult samples bytes : Nat) : Nat := ceilDiv (mult * samples * 3) 20 + 3 * bytes + 65536

/-- The results of the members of a gang as one (R189): the lead's header, every member's parts in order. -/
def joinParts (l : List DecResult) : DecResult :=
  let h := l.headD {}
  { h with
    parts := l.flatMap (·.parts), reads := l.flatMap (·.reads), grey := l.flatMap (·.grey)
    vecs := l.flatMap (·.vecs), otherErrs := (l.map (·.otherErrs)).sum }

end Sys2Proof.Machine
end

