-- ==== Sys2Proof/Machine/Framer.lean ====
section
/-!
DEFINITION. Packets on the wire: how a unit is split at a subscriber's port (R210, R221, R343, R369), the RTP payloads of Table 10.6,
the frames that carry them (R201, R208, R209, R212), and what the MAC and the filters read in a received frame (R201, R205). The
codes and layouts inside the standards that those rules name are PRESUMED (log 126).
-/
namespace Sys2Proof.Machine

/-- Cut `n` bytes into pieces of at most `k`. -/
def pieces (k n : Nat) : List Nat :=
  if k = 0 then [] else (List.replicate (n / k) k) ++ (if n % k = 0 then [] else [n % k])

/-- leb128 of least length, at most `k` bytes. -/
def lebMin : Nat → Nat → List Byte
  | 0, _ => []
  | k + 1, n => if n < 128 then [BitVec.ofNat 8 n] else BitVec.ofNat 8 (n % 128 + 128) :: lebMin k (n / 128)

/-- Payload bytes of one aggregation packet, or of a single unit (Table 10.6): STAP-A, AP, or an AV1 aggregation header
with at most 3 elements. -/
def aggSize (codec : Nat) (g : List Nat) : Nat :=
  if codec = 3 then 1 + g.sum + (g.dropLast.map fun n => (lebMin 5 n).length).sum
  else if g.length ≤ 1 then g.sum
  else (if codec = 1 then 1 else 2) + (g.map (· + 2)).sum

/-- Join consecutive whole units, each its size and header, while they fit a packet (R210). -/
def joinUnits (codec budget : Nat) : List (Nat × List Byte) → List (Nat × List Byte) → List (List (Nat × List Byte))
  | cur, [] => if cur.isEmpty then [] else [cur]
  | cur, n :: t =>
    let g := cur ++ [n]
    if cur.isEmpty then joinUnits codec budget g t
    else if aggSize codec (g.map (·.1)) ≤ budget ∧ (codec ≠ 3 ∨ g.length ≤ 3) then joinUnits codec budget g t
    else cur :: joinUnits codec budget [n] t

/-- Bytes of hamper form that a group of units takes. -/
def groupBytes (g : List (Nat × List Byte)) : Nat := (g.map fun n => n.1 + 4).sum

/-- Fragments of a unit (FU-A, FU, AV1 fragments), from byte `a` of the unit of work on, of these sizes. -/
def fragPkts (codec : Nat) (hdr : List Byte) : Nat → Bool → List Nat → List EPkt
  | _, _, [] => []
  | a, lead, k :: t =>
    let extra := if codec = 1 then 2 else if codec = 3 then 1 else 3
    let cover := if lead then k + (if codec = 3 then 0 else hdr.length) + 4 else k
    { bytes := k + extra, at_ := a, cover := cover, form := .frag hdr lead t.isEmpty } :: fragPkts codec hdr (a + cover) false t

/-- Packets of one group: whole, or a single unit fragmented to the budget. -/
def groupPkts (codec budget a : Nat) (g : List (Nat × List Byte)) : List EPkt :=
  let ns := g.map (·.1)
  if aggSize codec ns ≤ budget then [{ bytes := aggSize codec ns, at_ := a, cover := groupBytes g, form := .whole ns }]
  else
    let extra := if codec = 1 then 2 else if codec = 3 then 1 else 3
    let hdr := (g.headD (0, [])).2
    fragPkts codec hdr a true (pieces (budget - extra) (ns.sum - if codec = 3 then 0 else hdr.length))

/-- Packets of consecutive groups. -/
def placeGroups (codec budget : Nat) : Nat → List (List (Nat × List Byte)) → List EPkt
  | _, [] => []
  | a, g :: t => groupPkts codec budget a g ++ placeGroups codec budget (a + groupBytes g) t

/-- Packets that carry unit bytes as they are, of these sizes. -/
def rawPkts : Nat → List Nat → List EPkt
  | _, [] => []
  | a, k :: t => { bytes := k, at_ := a, cover := k, form := .raw } :: rawPkts (a + k) t

/-- Split a unit's packets, each its size and header, for a subscriber's port (R210, R221, R343, R369). AV1 on Ethernet drops the
temporal delimiter. -/
def splitUnit (port codec budget : Nat) (agg td : Bool) (pkts : List (Nat × List Byte)) : List EPkt :=
  if port = 2 then rawPkts 0 (pieces 2032 (groupBytes pkts))
  else if port = 3 then rawPkts 0 (pieces 2048 (groupBytes pkts))
  else
    let skip := codec == 3 && td
    let ns := if skip then pkts.drop 1 else pkts
    placeGroups codec budget (if skip then groupBytes (pkts.take 1) else 0)
      (if agg then joinUnits codec budget [] ns else ns.map fun n => [n])

/-- Where the length slots of a unit's packets lie (R158), from byte `a` on. -/
def slotsOf (codec : Nat) : Nat → List (Nat × List Byte) → List Nat
  | _, [] => []
  | a, n :: t => (a + if codec = 3 then n.2.length else 0) :: slotsOf codec (a + n.1 + 4) t

/-- Bytes `a` on of a unit with the start code 00 00 00 01 in place of each slot (R169, R343). -/
def startCodes (slots : List Nat) (a : Nat) (bs : List Byte) : List Byte :=
  bs.zipIdx.map fun b => match slots.find? fun p => decide (p ≤ a + b.2) && decide (a + b.2 < p + 4) with
    | some p => if a + b.2 = p + 3 then 1 else 0
    | none => b.1

/-- A packet without its slot (R209); an OBU's obu_has_size_field is cleared (Table 10.6). -/
def bareUnit (codec : Nat) (d : List Byte) : List Byte :=
  if codec = 3 then
    let h := obuHdr (d.headD 0)
    (d.headD 0 &&& 0xFD) :: (d.take h).tail ++ d.drop (h + 4)
  else d.drop 4

/-- Cut hamper bytes into units of these sizes. -/
def cutUnits (codec : Nat) : List Nat → List Byte → List (List Byte)
  | [], _ => []
  | n :: t, d => bareUnit codec (d.take (n + 4)) :: cutUnits codec t (d.drop (n + 4))

/-- Byte `i` of a unit. -/
def ubyte (u : List Byte) (i : Nat) : Nat := (u.getD i 0).toNat

/-- The lowest of some numbers. -/
def lowestOf (l : List Nat) : Nat := l.foldl min (l.headD 0)

/-- The header of a STAP-A or an AP over NAL units (Table 10.6). -/
def joinHdr (codec : Nat) (us : List (List Byte)) : List Byte :=
  let f := if us.any fun u => nbit (ubyte u 0) 7 then 0x80 else 0
  let tid := lowestOf (us.map fun u => ubyte u 1 % 8)
  if codec = 1 then [BitVec.ofNat 8 (f + (us.map fun u => ubyte u 0 / 32 % 4).foldl max 0 * 32 + 24)]
  else if codec = 2 then
    let layer := lowestOf (us.map fun u => ubyte u 0 % 2 * 32 + ubyte u 1 / 8)
    [BitVec.ofNat 8 (f + 48 * 2 + layer / 32), BitVec.ofNat 8 (layer % 32 * 8 + tid)]
  else [BitVec.ofNat 8 (f + lowestOf (us.map fun u => ubyte u 0 % 64)), BitVec.ofNat 8 (28 * 8 + tid)]

/-- The header bytes of a fragment of the NAL unit with header `hdr` (Table 10.6): `lead` its first, `last` its last, and that the last
of a picture. -/
def fragHdr (codec : Nat) (hdr : List Byte) (lead last endPic : Bool) : List Byte :=
  let b0 := ubyte hdr 0
  let b1 := ubyte hdr 1
  let se := 128 * b2n lead + 64 * b2n last
  if codec = 1 then [BitVec.ofNat 8 (b0 / 32 * 32 + 28), BitVec.ofNat 8 (se + b0 % 32)]
  else if codec = 2 then [BitVec.ofNat 8 (b0 / 128 * 128 + 49 * 2 + b0 % 2), BitVec.ofNat 8 b1, BitVec.ofNat 8 (se + b0 / 2 % 64)]
  else [BitVec.ofNat 8 b0, BitVec.ofNat 8 (29 * 8 + b1 % 8), BitVec.ofNat 8 (se + 32 * b2n (last && endPic) + b1 / 8)]

/-- The AV1 aggregation header (Table 10.6). -/
def av1Hdr (z y : Bool) (w : Nat) (n : Bool) : Byte := BitVec.ofNat 8 (128 * b2n z + 64 * b2n y + 16 * w + 8 * b2n n)

/-- OBU elements: each but the last behind its length. -/
def av1Elems : List (List Byte) → List Byte
  | [] => []
  | [u] => u
  | u :: t => lebMin 5 u.length ++ u ++ av1Elems t

/-- The payload of a packet from the unit bytes that it carries (R210): `newSeq` that it begins a key picture with a sequence header,
`endPic` that it ends its picture. -/
def payload (codec : Nat) (newSeq endPic : Bool) (form : PktForm) (d : List Byte) : List Byte :=
  match form with
  | .raw => d
  | .whole ns =>
    let us := cutUnits codec ns d
    if codec = 3 then av1Hdr false false us.length newSeq :: av1Elems us
    else match us with
      | [u] => u
      | _ => joinHdr codec us ++ us.flatMap fun u => beBytes 2 u.length ++ u
  | .frag hdr lead last =>
    let bare := if lead then bareUnit codec d else d
    if codec = 3 then av1Hdr (!lead) (!last) 1 newSeq :: bare
    else fragHdr codec hdr lead last endPic ++ (if lead then bare.drop hdr.length else bare)

/-- 16-bit words, most significant byte first, the last padded with zero. -/
def words16 : List Byte → List Nat
  | a :: b :: t => (256 * a.toNat + b.toNat) :: words16 t
  | [a] => [256 * a.toNat]
  | [] => []

/-- The one's complement sum of bytes, at most 2^32 words of them. -/
def onesSum (bs : List Byte) : Nat :=
  let n := (words16 bs).sum
  let n := n % 65536 + n / 65536
  let n := n % 65536 + n / 65536
  n % 65536 + n / 65536

/-- One byte step of the reflected CRC-32 of the FCS. -/
def fcsByte (c : BitVec 32) (b : Byte) : BitVec 32 :=
  let c := c ^^^ b.setWidth 32
  let f := crcBit 0xEDB88320
  f (f (f (f (f (f (f (f c)))))))

/-- The FCS of a frame (R201). -/
def fcs (bs : List Byte) : Word := (bs.foldl fcsByte 0xFFFFFFFF) ^^^ 0xFFFFFFFF

/-- Pad a frame to the least size and append its FCS (Table 10.2). -/
def withFcs (f : List Byte) : List Byte :=
  let f := f ++ List.replicate (60 - f.length) 0
  f ++ leBytes 4 (fcs f).toNat

/-- The RTP header (R209). -/
def rtpHdr (e : List Byte) (seq ts : Nat) (marker : Bool) : List Byte :=
  [0x80, BitVec.ofNat 8 (128 * b2n marker + leAt e 0x0B 1)] ++ beBytes 2 seq ++ beBytes 4 ts ++ beBytes 4 (leAt e 0x20 4)

/-- The IV of R212. -/
def srtpIv (e : List Byte) (roc seq : Nat) (salt : List Byte) : List Byte :=
  ([0, 0] ++ beBytes 4 (leAt e 0x20 4) ++ beBytes 4 roc ++ beBytes 2 seq).zipWith (· ^^^ ·) salt

/-- What follows the RTP header (R212): the payload, or its ciphertext and 16-byte tag under the slot's key and salt, from which no
session key is derived (DEDUCED, log 126). -/
def protect (e slot hdr pay : List Byte) (roc seq : Nat) : List Byte :=
  if flSrtp e then
    let key := slot.take (slot.length - 12)
    let iv := srtpIv e roc seq (slot.drop (slot.length - 12))
    gcmSeal key iv hdr pay
  else pay

/-- The UDP header and its data; `pseudo` is the pseudo-header without the length (Table 10.2). -/
def udpPart (e pseudo data : List Byte) (sums : Bool) : List Byte :=
  let n := data.length + 8
  let h (c : Nat) : List Byte := beBytes 2 (leAt e 0x1C 2) ++ beBytes 2 (leAt e 0x1E 2) ++ beBytes 2 n ++ beBytes 2 c
  let c := 65535 - onesSum (pseudo ++ beBytes 2 n ++ h 0 ++ data)
  h (if sums then (if c = 0 then 65535 else c) else 0) ++ data

/-- The IP packet of a flow (Table 10.2): DF set, no options; `src` the port's address. -/
def ipPart (e src data : List Byte) (ident label : Nat) : List Byte :=
  let dscp := leAt e 0x09 1 % 64
  let ttl := leAt e 0x0A 1
  if flIp6 e then
    let dst := (e.drop 0x0C).take 16
    let u := udpPart e (src ++ dst ++ [0, 17]) data true
    beBytes 4 (6 * 2 ^ 28 + dscp * 2 ^ 22 + label % 2 ^ 20) ++ beBytes 2 u.length ++ [17, BitVec.ofNat 8 ttl] ++ src ++ dst ++ u
  else
    let dst := (e.drop 0x0C).take 4
    let u := udpPart e (src ++ dst ++ [0, 17]) data (nbit (leAt e 0x08 1) 1)
    let h (c : Nat) : List Byte :=
      [0x45, BitVec.ofNat 8 (dscp * 4)] ++ beBytes 2 (20 + u.length) ++ beBytes 2 ident ++ [0x40, 0, BitVec.ofNat 8 ttl, 17]
        ++ beBytes 2 c ++ src ++ dst
    h (65535 - onesSum (h 0)) ++ u

/-- The Ethernet frame of a flow (R208): `mac` the port's, the tag of the flow. -/
def ethFrame (e mac ip : List Byte) : List Byte :=
  let v := leAt e 0x06 2
  let tag := if nbit v 15 then [0x81, 0x00] ++ beBytes 2 (nfld v 14 12 * 2 ^ 13 + v % 4096) else []
  withFcs (e.take 6 ++ mac ++ tag ++ (if flIp6 e then [0x86, 0xDD] else [0x08, 0x00]) ++ ip)

/-- Sample Row Data headers from byte `o` on (R205): length, row and offset of each, and where they end; `none` where one extends past
`stop`. `k` bounds them. -/
def srdHeads (d : List Byte) (stop : Nat) : Nat → Nat → Option (List (Nat × Nat × Nat) × Nat)
  | 0, _ => none
  | k + 1, o =>
    let w (i : Nat) : Nat := beAt ((d.drop (o + i)).take 2)
    if stop < o + 6 then none
    else
      let h := (w 0, w 2 % 32768, w 4 % 32768)
      if nbit (w 4) 15 then (srdHeads d stop k (o + 6)).map fun r => (h :: r.1, r.2) else some ([h], o + 6)

/-- The data of Sample Row Data segments from byte `o` on: row, offset, bytes. -/
def srdData (d : List Byte) : Nat → List (Nat × Nat × Nat) → List (Nat × Nat × List Byte)
  | _, [] => []
  | o, h :: t => (h.2.1, h.2.2, (d.drop o).take h.1) :: srdData d (o + h.1) t

/-- Next headers that are IPv6 extension headers. -/
def ip6Ext : List Nat := [0, 43, 44, 50, 51, 60, 135, 139, 140]

/-- Read a frame, FCS included (Table 10.2, R205). -/
def readFrame (bs : List Byte) : EthFrame :=
  let d := bs.take (bs.length - 4)
  let be (o n : Nat) : Nat := beAt ((d.drop o).take n)
  let outer := be 12 2
  let o := if outer = 0x8100 then 18 else 14
  let type := be (o - 2) 2
  let ip := if type = 0x0800 then 4 else if type = 0x86DD then 6 else 0
  let u := o + if ip = 4 then 20 else 40
  let stop := o + if ip = 4 then be (o + 2) 2 else 40 + be (o + 4) 2
  let proto := if ip = 4 then be (o + 9) 1 else be (o + 6) 1
  let addrs := if ip = 4 then (d.drop (o + 12)).take 8 else (d.drop (o + 8)).take 32
  let isUdp := ip != 0 && proto == 17
  let ulen := be (u + 4) 2
  let r := u + 8
  let c := r + 12 + 4 * (be r 1 % 16)
  let h := c + if nbit (be r 1) 4 then 4 + 4 * be (c + 2) 2 else 0
  let heads := srdHeads d (u + ulen) 1500 (h + 2)
  let segs := match heads with
    | some g => srdData d g.2 g.1
    | none => []
  { fcsOk := fcs d == w32 (leAt bs (bs.length - 4) 4), length := bs.length, dstMac := BitVec.ofNat 48 (be 0 6)
    secondTag := outer == 0x88A8 || (outer == 0x8100 && (type == 0x8100 || type == 0x88A8))
    isPause := type == 0x8808 && be o 2 == 1, ip := ip
    ipBad := (ip == 4 && (be o 1 != 0x45 || be (o + 6) 2 % 0x4000 != 0 || onesSum ((d.drop o).take 20) != 65535))
      || (ip == 6 && (be o 1 / 16 != 6 || ip6Ext.contains proto)) || (ip != 0 && decide (d.length < stop))
    isUdp := isUdp
    udpBad := isUdp && (decide (ulen < 8) || decide (stop < u + ulen) ||
      (be (u + 6) 2 != 0 && onesSum (addrs ++ [0, 17] ++ beBytes 2 ulen ++ (d.drop u).take ulen) != 65535))
    dstIp := if ip = 4 then addrs.drop 4 else addrs.drop 16, dstUdp := be (u + 2) 2
    pt := be (r + 1) 1 % 128, marker := nbit (be (r + 1) 1) 7, rtpTs := w32 (be (r + 4) 4), ssrc := w32 (be (r + 8) 4)
    seq := be h 2 * 65536 + be (r + 2) 2, srd := segs
    srdOverrun := heads.isNone || decide (u + ulen < (heads.map fun g => g.2 + (g.1.map (·.1)).sum).getD 0)
    payload := d }

end Sys2Proof.Machine
end

