-- ==== Sys2Proof/Machine/Commit.lean ====
section
/-!
DEFINITION. What the COMMIT of a unit releases (R277): packets to subscribers (R210, R221, R232), deliveries to the host
(R169, R170), pages (R166), rate control, references and the fold (R72, R155), for encode and decode units; and the end of
a unit that failed (R247, R249, R191).
-/
namespace Sys2Proof.Machine

/-- Drop the oldest queued unit with no packet sent of a subscriber at its queue_max (R232). -/
def State.makeRoom (s : State) (sub : Nat) : State :=
  let y := s.sub sub
  let mx := fld (tget 0 y.d 2) 15 8
  if y.queue.length ≤ mx then s
  else match y.queue.find? (·.fresh) with
    | some q => ((s.setSub sub { y with queue := y.queue.erase q }).dropUnit q).bump 0xE0104
    | none => s

/-- A committed unit joins subscriber `sub`'s queue (R221, R232): one entry, split into packets from now on; a disabled
subscriber, and a unit past its stale instant, release its pages. -/
def State.enqueueSub (s : State) (sub : Nat) (q : QUnit) (td : Bool) (pkts : List (Nat × List Byte)) : State :=
  let y := s.sub sub
  let d0 := tget 0 y.d 0
  if !bit d0 31 then s.dropUnit q
  else
    let port := s.subNow sub
    let ps := splitUnit port q.codec (s.subBudget sub port).toNat (port < 2 && flAggregate y.flowNext) td pkts
    let q := { q with
      pkts := ps, sent := (ps.headD {}).at_
      slots := if port = 2 ∧ leAt y.flowNext 2 1 = 0 then slotsOf q.codec 0 pkts else [] }
    let stale := (tget 0 y.d 3).toNat
    if stale ≠ 0 ∧ q.commit + stale < s.now then (s.dropUnit q).bump 0xE0108
    else (s.setSub sub { y with queue := y.queue ++ [q] }).makeRoom sub

/-- The record flags of an encode unit but for eos and wrap (Table 8.3). -/
def recFlags (p : Pic) (tb last : Bool) (filler : Nat) : Nat :=
  b2n p.key + 2 * b2n p.recovery + 16 * b2n tb + 32 * b2n last + 128 * b2n (filler != 0)

/-- The deliveries of a committed encode unit (R169, R170): one a band for LIVE with per_band set, else one a picture, at
its last unit. -/
def State.deliver (s : State) (n : Nat) (p : Pic) (w : WUnit) (last : Bool) (tb : Bool) : State :=
  let x := s.ses n
  let c := p.cfg
  let copy := bit (cget c 0x200) 0
  let per := x.cls == clsLive && bit (cget c 0x200) 4
  let base : OutItem := {
    pic := p.num, pts := p.pts, dts := dtsAt p.cfg p.pts, commit := s.now, cfgSeq := p.cfgSeq, copy := copy, record := hasOutRing c }
  let part (u : WUnit) : OutPart := { idx := u.idx, bytes := u.bytes, packets := u.packets, pages := if copy then u.pages else [] }
  if per then
    s.pushOut n { base with
      band := w.idx, bands := cBands x.cls c, parts := [part w], flags := recFlags p tb last w.filler }
  else if last then s.pushOut n { base with parts := p.units.map part, flags := recFlags p tb true w.filler }
  else s

/-- Owner bits that a picture's commit clears (R94, R116, R178). -/
def State.giveBack (s : State) (n : Nat) (p : Pic) : State :=
  let s := if p.freed ∨ (s.ses n).cls = clsDecode then s else s.emit (.ownerClear n 0 p.inIdx)
  let s := match p.hintIdx with
    | some h => s.emit (.ownerClear n 1 h.1)
    | none => s
  p.heldIn.foldl (fun s i => s.emit (.ownerClear n 0 i)) s

/-- Kept pictures of which no page is held any more go (R171). -/
def State.pruneKept (s : State) (n : Nat) : State :=
  s.modSes n fun x => { x with kept := x.kept.filter fun p => p.units.any fun u =>
    u.recode || (u.pages.any fun g => (s.page g.1).held && (s.page g.1).gen == g.2) }

/-- What follows the rinse of a picture of session `n` (R58, R61, R63): the fold is published, a waiting set applies, a
drained stream ends. -/
def State.afterPic (s : State) (n : Nat) : State :=
  let s := s.markEos n
  let s := (s.pruneKept n).publish n
  let x := s.ses n
  let s := if x.rinses then s.applyPending n else s
  (s.endDrain n).drainLower n

/-- A committed reference takes a buffer that holds none of the session's references, whose generation rises (R23). -/
def Session.placeRef (x : Session) (num : Nat) : Session :=
  let held := x.refBuf.filter fun e => x.refs.contains e.1 || x.ltr == some e.1
  if x.refs.contains num then
    let k := ((upto 32).find? fun k => held.all fun e => e.2 != k + 1).getD 0
    { x with refBuf := tset 0 num (k + 1) held, refGen := tset 0 k ((tget 0 x.refGen k + 1) % 65536) x.refGen }
  else { x with refBuf := held }

/-- Count a late commit (R89): ARCHIVE units are not counted. -/
def State.countLate (s : State) (n : Nat) (p : Pic) : State :=
  match p.deadline with
  | some d => if d < s.now ∧ (s.ses n).cls ≠ clsArchive then s.bump 0x20020 else s
  | none => s

/-- An encode picture's last unit has committed: rate control, references, trust, counters (R135, R144, R129, R155). -/
def State.finishPic (s : State) (n num : Nat) (filler : Nat) : State :=
  let x := s.ses n
  match x.pics.find? fun q => q.num == num with
  | none => s
  | some p =>
    let t := termsOf x.cls p.cfg (maxGang s.pat x.panel)
    let a := p.total x.cls
    let bytes := (p.units.map (·.bytes)).sum
    let bits := 8 * bytes
    let fill := x.rc.f - bits * second
    let r := s.fresh
    let s := r.1
    let mean := a.meanQp r.2
    let x := (x.rateCommit t p a bits mean).refCommit p
    let x := { x with cdfs := x.cdfs.filter fun e => x.refs.contains e.1 }.placeRef num
    let x := { x with
      pictures := (x.pictures + 1) % 2 ^ 32, lastPic := p.num, lastBytes := bytes, threadbare := a.tb.isSome
      concealed := false
      tbPictures := x.tbPictures + b2n a.tb.isSome, cuts := x.cuts + b2n p.cut
      recoveries := x.recoveries + b2n p.recovery, bufLimited := x.bufLimited + b2n p.limited
      me := x.me.commit p (if x.cls = clsLive then p.hintMedian (cW x.cls p.cfg) (cH x.cls p.cfg) else none) }
    let x := { x with cwords := x.encWords t p a bits filler fill mean }
    let x := { x with cwords := x.meWords }
    let used := consumers p.cfg
    let x := { x with
      pics := x.pics.filter fun q => q.num != num
      kept := if used.isEmpty then x.kept else x.kept ++ [p] }
    let s := (s.setSes n x).freeAll p.pages
    let s := s.giveBack n p
    let s := s.followTop n num p.cfg 0 true
    s.afterPic n

/-- What the candidates of a picture of the session are built from (R123): its co-located field and the picture's global vector, for
LIVE the last picture's where it has no hints. -/
def Session.searchEnv (x : Session) (p : Pic) : SearchEnv :=
  let w := cW x.cls p.cfg
  let h := cH x.cls p.cfg
  { p := p, w := w, h := h, dists := refDists p, coloc := x.me.coloc
    glob := if x.cls = clsLive then (p.hintMedian w h).orElse fun _ => x.me.glob else p.glob.map (ownScale p w h) }

/-- Rank 0's committed motion field goes down to the lower ranks' pictures of the same number (R126). -/
def State.handDown (s : State) (n num : Nat) (field : Tbl ColVec) : State :=
  let x := s.ses n
  if x.member && x.rank == 0 then
    ((s.members n).filter fun m => m != n).foldl (fun s m => s.modSes m fun y =>
      { (y.modPic num fun p => { p with hand := field }) with
        owed := y.owed.map fun q => if q.num = num then { q with hand := field } else q }) s
  else s

/-- A unit of work, or a gang part, that commits: with what its tile produced and the accumulators after it. -/
structure CommitPart where
  w : WUnit
  r : UnitResult
  a : Acc

/-- The bytes that the parts add to the picture, each part after the one before (R165), with the filler at the end (R136). -/
def CommitPart.bytes (p : Pic) (e : CommitPart) : List Byte :=
  (unitPkts p e.w.idx e.r).flatMap (pktForm (fld (cget p.cfg 0x040) 2 0))

/-- Each part with the offset of its bytes. -/
def partOffsets (p : Pic) : Nat → List CommitPart → List (CommitPart × Nat)
  | _, [] => []
  | at_, e :: t => (e, at_) :: partOffsets p (at_ + (e.bytes p).length) t

/-- The picture after its parts have committed as one unit: the lead part holds the bytes, packets and pages. -/
def Pic.tookParts (p : Pic) (ps : List CommitPart) (lead : WUnit) (pages : List Nat) (live : Bool) : Pic :=
  let at_ := partOffsets p 0 ps
  { p with
    units := p.units.map fun u => match at_.find? fun e => e.1.w.idx == u.idx with
      | some e =>
        { u with
          st := .committed, replay := false, lost := [], result := none, acc := e.1.a, at_ := e.2, own := (e.1.bytes p).length
          bytes := if u.idx = lead.idx then lead.bytes else 0
          packets := if u.idx = lead.idx then lead.packets else 0
          filler := if u.idx = lead.idx then lead.filler else 0
          pages := if u.idx = lead.idx then lead.pages else [] }
      | none => u
    acc := if live then (ps.head?.map (·.a)).getD p.acc else p.acc, pages := pages }

/-- COMMIT of an encode unit (R277): of a band, of a picture, or of a ganged picture with all its parts (R86, R165). -/
def State.commitEnc (s : State) (n : Nat) (p : Pic) (ps : List CommitPart) : State :=
  match ps with
  | [] => s
  | e :: _ =>
    let x := s.ses n
    let live := decide (x.cls = clsLive)
    let g := maxGang s.pat x.panel
    let t := termsOf x.cls p.cfg g
    let codec := fld (cget p.cfg 0x040) 2 0
    let mine (v : WUnit) : Bool := ps.any fun e => e.w.idx == v.idx
    let last := p.units.all fun v => mine v || v.done
    let raw := ps.flatMap (·.bytes p)
    let sofar := (p.units.map fun v => if mine v then 0 else v.bytes).sum
    let filler := if last then fillerBytes codec (x.filler t p (8 * (sofar + raw.length))) else 0
    let pkts := ps.flatMap (fun e => unitPkts p e.w.idx e.r) ++ fillerPkt codec filler
    let bytes := raw ++ (fillerPkt codec filler).flatMap (pktForm codec)
    let k := ceilDiv bytes.length 16384
    let pages := p.pages.take k
    let used := consumers p.cfg
    let s := if used.isEmpty then s.freeAll pages else s.fillPages used.length bytes.length pages
    let gens := if used.isEmpty then [] else s.withGens pages
    let s := if used.isEmpty then s else s.writeUnit gens bytes
    let w : WUnit := { e.w with bytes := bytes.length, packets := pkts.length, pages := gens, filler := filler }
    let p' := p.tookParts ps w (p.pages.drop k) live
    let p' : Pic := { p' with mot := ps.foldl (fun m e => m.take (x.searchEnv p) (if live then 0 else (unitRows x.cls p e.w.idx).1) e.a.rowQps e.r.motion) p.mot }
    let x := { x with
      pics := x.pics.map fun (q : Pic) => if q.num = p.num then p' else q
      commitTime := s.now, commitSeq := p.cfgSeq, band := if live then p'.doneBands else x.band
      bands := if live then cBands x.cls p.cfg else x.bands
      syn := if p.doneBands = 0 then x.syntaxOf t (minBytes x.cls p.cfg g) p else x.syn }
    let x := x.keepCdf p (ps.map fun e => (e.r.rows.flatten.length, e.r.cdf))
    let s := s.setSes n x
    let s := s.countLate n p
    let q : QUnit := {
      ses := n, pic := p.num, band := e.w.idx, commit := s.now, lastOfPic := last, key := p.key
      firstOfPic := p.doneBands == 0, pts := p.pts, live := live, pages := gens, codec := codec
      newSeq := p.doneBands == 0 && p.key && p.sendsSets }
    let td := bit (cget p.cfg 0x05C) 0 && e.w.idx == 0
    let s := (outSubs p.cfg).foldl (fun s e =>
      s.enqueueSub e.2 { q with consumer := e.1 + 1 } td (pkts.map fun k => (pktSize codec k, k.hdr))) s
    let s := s.deliver n p' ((p'.unit? e.w.idx).getD w) last (ps.any fun e => e.a.tb.isSome)
    let s := s.handDown n p.num p'.mot.field
    let s := if live then s.followTop n p.num p.cfg p'.doneBands false else s
    if last then s.finishPic n p.num filler else if live then s.publish n else s

/-- Re-code of a committed unit (R171): the same bytes fill the same pages; it counts as a replay and may be late. -/
def State.commitRecode (s : State) (u : UnitRef) (p : Pic) (w : WUnit) (r : UnitResult) : State :=
  let pages := if w.pages.isEmpty then (p.units.headD {}).pages else w.pages
  let codec := fld (cget p.cfg 0x040) 2 0
  let bytes := CommitPart.bytes p { w := w, r := r, a := {} } ++ (fillerPkt codec w.filler).flatMap (pktForm codec)
  let s := s.rewriteUnit pages w.at_ (bytes.take (w.own + w.filler))
  let s := s.modUnit u fun w => { w with st := .committed, recode := false, recoded := true, replay := false }
  s.countLate u.ses p

/-- What an access unit comes to (R180, R191 to R194): its decoder state before its output, its record and its errors. -/
structure DecEnd where
  d : Dec
  out : DecOut
  undec : Bool
  pic : Bool
  shown : Bool
  conceal : Bool
  lines : List (Nat × List Byte) := []

/-- Settle access unit `p` of a session: `lost` says that it ended without a result (R249). -/
def Session.settle (x : Session) (now : Nat) (p : Pic) (lost : Bool) (r : DecResult) : DecEnd :=
  let c := p.cfg
  let codec := fld (cget c 0x300) 2 0
  let bitLost := p.units.flatMap (·.bitLost)
  let d0 := x.dec.takeSets c (if lost then [] else r.sets)
  let z := d0.format r
  let undec := lost || (r.hasPicture && (p.auBytes == 0 || z.isNone))
  let z := z.getD {}
  let pic := r.hasPicture && !undec
  let d0 := if pic && r.key then { d0 with dpb := d0.dpb.map fun e => { e with tainted := false }, cvs := d0.cvs + 1 } else d0
  let d1 := if pic then d0.darnRefs r else d0
  let dn := if pic then darnPic codec (fld (cget c 0x320) 12 8) z r (!bitLost.isEmpty) (p.units.any (·.refLost)) else {}
  let darned := dn.darned.length
  let tainted := if pic then d1.taintedCtus r dn.darned else 0
  let conceal := decide (0 < darned + tainted)
  let stop := pic && p.units.any (·.budget)
  let cuts := sortNat (p.breaks ++ bitLost.map (64 * ·))
  let fr := if lost then {} else frameAu (fld (cget c 0x300) 9 8) 0 p.bits cuts
  let ends := (dn.errs.filter fun e => e.2 == 1 || e.2 == 6).length
  let errs := if lost then 0 else (dn.errs.length - ends) + r.otherErrs + max ends fr.errs
  let cut := p.truncated || fr.long
  let late := p.late || (match p.deadline with
    | some d => decide (d < now)
    | none => false)
  let flags := b2n (pic && r.key) + 2 * b2n (pic && r.recoveryDone) + 4 * b2n undec + 16 * b2n conceal
    + 32 * b2n (decide (d0.darnedRefs < d1.darnedRefs)) + 64 * b2n (decide (0 < tainted)) + 128 * b2n stop + 256 * b2n cut
    + 512 * b2n late + 1024 * b2n (pic && converted c z) + 2048 * b2n (pic && grainOn c r)
  let shown := pic && r.shown
  let planes := if pic then darnPlanes c z r d1 dn.darned (p.units.any (·.refLost)) else []
  let lines := if shown then windowLines c (windowPlanes c z p.num r (cropPlanes z r planes)) else []
  let out : DecOut := {
    pic := p.num, slot := p.slot, width := min r.width (fld (cget c 0x304) 13 0), height := min r.height (fld (cget c 0x304) 29 16)
    flags := flags, pts := p.pts, darned := darned, tainted := tainted, commit := now, ctus := streamCtus z
    colour := mkWord [(0, r.colour % 2 ^ 25), (25, z.chroma), (27, b2n (z.depth == 10))], cvs := d0.cvs, poc := r.poc
    stage := if bit (cget c 0x308) 4 then [] else lines, planes := if shown then planes else [] }
  let place (k : Nat) : Word := mkWord [(0, k / max 1 (streamCols z)), (16, k % max 1 (streamCols z))]
  let d2 := if pic then
      let d := { d1 with dpb := d1.dpb.filter fun e => !r.removes.contains e.pic }
      let d := if r.isRef then d.enter { pic := p.num, tainted := conceal, cvs := d.cvs, poc := r.poc, planes := planes } else d
      if r.recoveryDone then { d with dpb := d.dpb.map fun e => { e with tainted := false } } else d
    else d1
  let drop := r.discards.filterMap fun k => (d2.written.find? fun o => o.pic == k).map (·.slot)
  { d := { d2 with
      slots := drop.foldl (fun t k => tset 0 k 0 t) (tset 0 p.slot (if shown then 2 else 0) d2.slots)
      written := (d2.written.filter fun o => !r.discards.contains o.pic) ++ (if shown then [out] else [])
      concealPics := d2.concealPics + b2n conceal, syntaxErrs := d2.syntaxErrs + errs, budgetStops := d2.budgetStops + b2n stop
      undecodable := d2.undecodable + b2n undec, lastDarned := darned, lastTainted := tainted
      lastSize := if pic then mkWord [(0, z.width), (16, z.height)] else d2.lastSize
      errPos := if stop then place (((upto (streamCtus z)).find? fun k => !dn.covered.contains k).getD 0) else match dn.errs.getLast? with
        | some e => place e.1
        | none => d2.errPos
      errKind := if stop then 5 else match dn.errs.getLast? with
        | some e => e.2
        | none => d2.errKind }
    out := out, undec := undec, pic := pic, shown := shown, conceal := conceal
    lines := if bit (cget c 0x308) 4 then lines else [] }

/-- An access unit ends (R191, R194, R196): undecodable, without a picture, or decoded into its slot; `e` is what it came to. -/
def State.finishDec (s : State) (n : Nat) (p : Pic) (e : DecEnd) (r : DecResult) : State :=
  let x := s.ses n
  let c := p.cfg
  let s := s.setSes n { x with
    dec := e.d, pictures := (x.pictures + 1) % 2 ^ 32, lastPic := p.num, commitTime := s.now, commitSeq := p.cfgSeq
    concealed := e.conceal, recPend := x.recPend && !(e.pic && (r.key || r.recoveryDone))
    pics := x.pics.filter fun q => q.num != p.num }
  let s := if e.undec then
      let s := s.modSes n fun x => { x with dec := x.dec.recorded e.out }
      s.pushOut n { pic := p.num, pts := p.pts, commit := s.now, record := hasOutRing c, flags := e.out.flags
                    dec := some { e.out with slot := 0xFFFF, width := 0, height := 0, ctus := 0, colour := 0 } }
    else s
  let s := if e.pic then s.outputPics n c r.outputs else s
  let s := s.modSes n fun x => { x with cwords := x.dec.words }
  let s := s.giveBack n p
  s.afterPic n

/-- COMMIT of an access unit (R182, R194); `r` is what its parts found. A shown picture's lines enter its space 1 slot. -/
def State.commitDec (s : State) (n : Nat) (p : Pic) (r : DecResult) : State :=
  let s := s.countLate n p
  let e := (s.ses n).settle s.now p false r
  (s.writeWindow p.cfg p.slot (tget 0 e.d.slotGen p.slot) e.lines).finishDec n p e r

/-- Access unit `p` ends without a result (R249). -/
def State.lostUnit (s : State) (n : Nat) (p : Pic) : State := s.finishDec n p ((s.ses n).settle s.now p true {}) {}

/-- Tiles that run units of picture `num` of session `n` stop (R249), each with its packet FIFO flushed (R162). -/
def State.dropPicUnits (s : State) (n num : Nat) : State :=
  (upto s.nTiles).foldl (fun s t => match (s.tile t).work with
    | some u => if u.ses = n ∧ u.pic = num ∧ ¬ (s.tile t).ndl.committed then (if (s.ses n).cls = clsDecode then s else s.bump 0xB0018).modTile t (·.rest s.now) else s
    | none => s) s

/-- A lost picture's committed bands stay with their consumers, and their inputs with them (R171); the host releases those that no
record of a band has described (R166). -/
def State.keepBands (s : State) (n : Nat) (p : Pic) (per : Bool) : State :=
  let us := p.units.filter fun u => u.done && !u.pages.isEmpty
  let s := if us.isEmpty then s else s.modSes n fun x => { x with kept := x.kept ++ [{ p with units := us }] }
  let s := if bit (cget p.cfg 0x200) 0 ∧ ¬ per then s.releasePages 0 (us.flatMap (·.pages)) else s
  s.pruneKept n

/-- Picture `num`, a reference of picture `q` admitted behind it, is dropped: `q`, which has not begun, predicts from the last committed
references instead (R81), and without any becomes a key picture (DEDUCED, log 105). -/
def Pic.without (q : Pic) (num : Nat) (refs : List Nat) : Pic :=
  if q.refs.contains num then
    let l := q.refs.filter fun r => r != num
    let l := (l ++ refs.filter fun r => !l.contains r).take q.refs.length
    { q with refs := l, key := q.key || l.isEmpty, refresh := if l.isEmpty then none else q.refresh }
  else q

/-- An admitted encode picture is dropped with reason 5 (R249): its pages go, it becomes no reference, lower ranks lose
their picture with it (DEDUCED), and a LIVE session's next picture is a key picture. -/
def State.losePic (s : State) (n num band : Nat) : State :=
  let x := s.ses n
  match x.pics.find? fun q => q.num == num with
  | none => s
  | some p =>
    let t := termsOf x.cls p.cfg (maxGang s.pat x.panel)
    let s := s.dropPicUnits n num
    let x := if p.units.any fun u => u.st == .waitRow then x.rowsPast num else x
    let x := { x with pics := (x.pics.filter fun (q : Pic) => q.num != num).map fun (q : Pic) => q.without num x.refs }
    let x := x.noteDrop t p.order (1 + p.dropsAfter)
    let x := if x.cls = clsLive then { x with rc := { x.rc with forceKey := true } } else x
    let s := (s.setSes n x).freeAll p.pages
    let s := s.giveBack n { p with freed := p.freed || x.lower }
    let per := x.cls == clsLive && bit (cget p.cfg 0x200) 4
    let s := s.keepBands n p per
    let s := s.countDrop n num 5 p.pts (if per then band else 0) per
    let s := if x.idleRinse then s.applyPending n else s
    (s.endDrain n).drainLower n

/-- The picture and those of the lower ranks that come from it are lost. -/
def State.loseAll (s : State) (n num band : Nat) : State :=
  let x := s.ses n
  let low := if x.member && x.rank == 0 then (s.members n).filter fun m => m != n else []
  let s := s.losePic n num band
  low.foldl (fun s m =>
    let s := s.modSes m (·.unowe num)
    s.losePic m num 0) s

/-- The last attempt of a unit failed (R249). -/
def State.finalFail (s : State) (u : UnitRef) : State :=
  let s := s.bump 0xF0018
  let x := s.ses u.ses
  match x.pics.find? fun q => q.num == u.pic with
  | none => s
  | some p =>
    if x.cls = clsDecode then (s.dropPicUnits u.ses u.pic).lostUnit u.ses p
    else s.loseAll u.ses u.pic u.idx

/-- A unit failed on tile `t` (R247 to R249): a replay after a commit check, a patch move after a tile fault, or, with its
attempts used up, the end of the picture. -/
def State.unitFailed (s : State) (u : UnitRef) (t : Nat) (replay : Bool) : State :=
  match s.unitOf u with
  | none => s
  | some (_, w) =>
    if fld (s.reg 0xF0000) 2 0 ≤ w.attempts ∧ ¬ w.recode then s.finalFail u
    else if replay then
      let s := s.modUnit u fun w => { w with st := .ready, replay := true, budget := false, failedOn := [t] }
      ((s.modSes u.ses fun x => { x with replays := min 0xFFFFFFFF (x.replays + 1) }).bump 0xF0010).count 5 0
    else s.patchMove u (some t)

/-- Tile `t` enters self-test (R247, R252): it leaves its unit and its role waits. -/
def State.enterSelfTest (s : State) (t : Nat) : State :=
  s.modTile t fun x => { x with
    role := .selfTest, back := if x.role == .selfTest then x.back else x.role, power := .run, work := none, gang := [], window := []
    abandon := 0, strikes := min 255 (x.strikes + 1), inbox := []
    ndl := { x.ndl with state := 4, gpr := [], loops := [], issued := [], committed := false } }

end Sys2Proof.Machine
end

