-- ==== Sys2Proof/Machine/Needle.lean ====
section
/-!
DEFINITION. The needle (R275 to R289): fetch through the redirect slots, the eight microword classes, the commit point
(R277, R282) and the commit check that a COMMIT word closes (R242).
-/
namespace Sys2Proof.Machine

/-- Fields of a microword (R275). -/
def opClass (w : Word) : Nat := fld w 31 29
def opVariant (w : Word) : Nat := fld w 28 27
def opA (w : Word) : Nat := fld w 26 21
def opB (w : Word) : Nat := fld w 20 15
def opImm (w : Word) : Nat := fld w 14 0

/-- Codes of the classes (Table 14.1). -/
def clMove : Nat := 0
def clIssue : Nat := 1
def clWait : Nat := 2
def clBranch : Nat := 3
def clLoop : Nat := 4
def clCommit : Nat := 5
def clYield : Nat := 6
def clTrap : Nat := 7

/-- The lowest enabled redirect slot that matches a control-store address (R283). -/
def Tile.redirect (t : Tile) (pc : Nat) : Option Nat :=
  (upto 64).find? fun k =>
    let w := tget 0 t.redir k
    bit w 31 && fld w 13 0 == pc

/-- What the needle reports of the word at `pc` (R288, NDL_PC): its address and, in patch RAM, the slot that led there. -/
def Tile.reportAt (t : Tile) (pc : Nat) : Word :=
  if pc < 0x4000 then
    match t.redirect pc with
    | some k => mkWord [(0, 0x4000 + fld (tget 0 t.redir k) 27 16), (15, 1), (16, k)]
    | none => w32 pc
  else if 0x4000 ≤ fld t.ndl.shown 14 0 then mkWord [(0, pc), (15, fld t.ndl.shown 21 15)]
  else w32 pc

/-- The word at `pc` (R276, R283); `none` at 0x5000 or above. -/
def Tile.wordAt (t : Tile) (pc : Nat) : Option Word :=
  if pc < 0x4000 then
    match t.redirect pc with
    | some k => some (tget 0 t.patch (fld (tget 0 t.redir k) 27 16))
    | none => some (tget 0 t.store pc)
  else if pc < 0x5000 then some (tget 0 t.patch (pc - 0x4000))
  else none

/-- A needle register (R275). -/
def Needle.reg (n : Needle) (a : Nat) : Word := tget 0 n.gpr a

/-- The address after the word at `at_` in the loops in progress: back to the first word while passes are left. -/
def loopNext (at_ : Nat) : List (Nat × Nat × Nat) → Nat × List (Nat × Nat × Nat)
  | [] => (at_ + 1, [])
  | (lo, hi, left) :: t =>
    if at_ = hi then
      if 1 < left then (lo, (lo, hi, left - 1) :: t) else loopNext at_ t
    else (at_ + 1, (lo, hi, left) :: t)

/-- Advance past the word just issued. -/
def Needle.advance (n : Needle) : Needle :=
  let r := loopNext (fld n.shown 14 0) n.loops
  { n with pc := r.1, loops := r.2 }

/-- The word issues: it is reported, counted for sampling (R405; a WAIT that repeats in place is one word), and the
dispatch order that the inbox held has been taken (R320). -/
def Tile.issue (t : Tile) : Tile :=
  { t with inbox := []
           sampCnt := if t.ndl.state = 2 then t.sampCnt else t.sampCnt + 1
           ndl := { t.ndl with shown := t.reportAt t.ndl.pc, state := 1 } }

/-- Effect of MOVE on the needle (Table 14.1); which variant takes the register is a free value (log 20). -/
def Needle.move (n : Needle) (w : Word) : Needle :=
  let v := if Config.moveTakesRegister (opVariant w) then n.reg (opB w)
    else Config.moveImmediate (BitVec.ofNat 6 (opB w)) (BitVec.ofNat 15 (opImm w))
  ({ n with gpr := tset 0 (opA w) v n.gpr }).advance

/-- Effect of ISSUE on the needle: operation imm starts on unit a with the operand in register b. -/
def Needle.start (n : Needle) (w : Word) : Needle :=
  ({ n with issued := tset (0, 0) (opA w) (opImm w, n.reg (opB w)) n.issued }).advance

/-- Effect of WAIT: in place while the condition does not hold. -/
def Needle.wait (n : Needle) (holds : Bool) : Needle := if holds then n.advance else { n with state := 2 }

/-- Effect of BRANCH: unconditional for variant 0, else on the flag (log 20). -/
def Needle.branch (n : Needle) (w : Word) (flag : Bool) : Needle :=
  if opVariant w = 0 ∨ flag = Config.branchOnSet (opVariant w) then { n with pc := opImm w } else n.advance

/-- Effect of LOOP: the words up to imm run as often as register a says (DEDUCED, log 20); a count of 0 passes them by. -/
def Needle.loop (n : Needle) (w : Word) : Needle :=
  let k := (n.reg (opA w)).toNat
  let m := n.advance
  if k = 0 then { n with pc := opImm w + 1 } else { m with loops := (m.pc, opImm w, k) :: m.loops }

/-- Bits of the unit against its cap or part share (R140, R141, Table 12.1 Cap); a band counts with those before it. -/
def capOk (cls : Nat) (p : Pic) (w : WUnit) (r : UnitResult) : Bool :=
  let sofar := if cls = clsLive then (p.units.map fun v => if v.idx < w.idx then v.bytes else 0).sum else 0
  decide (8 * (sofar + unitBytes p w.idx r) ≤ shareCap cls p w.idx)

/-- The failed commit-check tests of tile `t`'s unit, bits 0 Parse to 6 Cap. -/
def State.checkUnit (s : State) (u : UnitRef) (p : Pic) (w : WUnit) (r : UnitResult) : Nat :=
  let x := s.ses u.ses
  failedTests (x.cls == clsDecode) (x.member && x.rank == 0) (x.cls == clsDecode || capOk x.cls p w r) r

/-- The RCT registers after a commit check of tile `t` (R414). -/
def State.noteRct (s : State) (t : Nat) (u : UnitRef) (fails : Nat) (bad : Bool) (r : UnitResult) : State :=
  let ws := rctWords ((s.ses u.ses).cls == clsDecode) u.ses fails r
  let ws := if bad ∧ fails = 0 then tset 0 0x6000 (mkWord [(0, 2), (16, u.ses)]) ws else ws
  s.modTile t fun y => { y with rct := ws }

/-- The routine of tile `t` ends as a failed commit check (R247, R277): FIFO flushed (R162), self-test, a replay, class 8,
and class 20 where the bounds test failed (R187). -/
def State.trapUnit (s : State) (t : Nat) (r : UnitResult) : State :=
  match (s.tile t).work with
  | none => s
  | some u =>
    let fails := match s.unitOf u with
      | some (p, w) => s.checkUnit u p w r
      | none => 0
    let done := (s.tile t).ndl.committed
    let s := s.noteRct t u fails true r
    let s := (s.bump (tileBase t + 0x2018)).bump 0xB0018
    let s := s.enterSelfTest t
    let s := if done then s else s.unitFailed u t true
    s.collect ([{ cls := 8, unit := t, ses := u.ses }]
      ++ (if (s.ses u.ses).cls = clsDecode ∧ ¬ r.boundsOk then [{ cls := 20, unit := t, ses := u.ses }] else []))

/-- The commit of unit `w` may take effect: of a LIVE band after every earlier band (R62). -/
def mayCommit (cls : Nat) (p : Pic) (w : WUnit) : Bool :=
  cls != clsLive || p.units.all fun v => decide (w.idx ≤ v.idx) || v.done

/-- The tile's side of a COMMIT that the check passes (R277, R414): counted, and a tile that was asked to retire does so
(R254). -/
def State.tileCommits (s : State) (t : Nat) (u : UnitRef) (r : UnitResult) : State :=
  let s := s.noteRct t u 0 false r
  (((s.bump (tileBase t + 0x2010)).count 4 0).countTile t 0x45).modTile t fun y => { y with ndl := { y.ndl with committed := true } }

/-- What the COMMIT of a unit releases (R277). -/
def State.unitCommits (s : State) (u : UnitRef) (p : Pic) (w : WUnit) (r : UnitResult) : State :=
  let x := s.ses u.ses
  if w.recode then s.commitRecode u p w r
  else if x.cls = clsDecode then s.commitDec u.ses p r.dec
  else s.commitEnc u.ses p [{ w := w, r := r, a := codeUnit x.cls p w r }]

/-- The last member of a gang has finished (R86): the picture commits with every part. -/
def State.gangCommits (s : State) (n : Nat) (p : Pic) : State :=
  let x := s.ses n
  if x.cls = clsDecode then s.commitDec n p (joinParts (p.units.map fun w => (w.result.getD {}).dec))
  else s.commitEnc n p (p.units.map fun w =>
    let r := w.result.getD {}
    { w := w, r := r, a := codeUnit x.cls p w r })

/-- COMMIT of a gang part (R86, R250): it waits for the other members. Where an access unit holds fewer parts than its gang has
members, the lead has decoded it alone and the others are released (R189). -/
def State.gangPart (s : State) (u : UnitRef) (p : Pic) (r : UnitResult) : State :=
  if (s.ses u.ses).cls = clsDecode ∧ u.idx = 0 ∧ r.dec.parts.length < p.units.length then
    (s.dropPicUnits u.ses u.pic).commitDec u.ses p r.dec
  else
    let s := s.modUnit u fun w => { w with st := .parked, result := some r, replay := false }
    match (s.ses u.ses).pic? u.pic with
    | some p => if p.units.all fun v => v.st == .parked then s.gangCommits u.ses p else s
    | none => s

/-- Bands whose COMMIT has issued take effect in band order once every earlier band has committed (R62, R144); one that no
longer meets its cap fails its check then and is replayed. `k` bounds the bands. -/
def State.commitParked (s : State) (u : UnitRef) : Nat → State
  | 0 => s
  | k + 1 =>
    match (s.ses u.ses).pic? u.pic with
    | none => s
    | some p =>
      match p.units.find? fun v => v.st == .parked && mayCommit (s.ses u.ses).cls p v with
      | none => s
      | some v =>
        let r := v.result.getD {}
        let w := { v with result := none }
        let ref := { u with idx := v.idx }
        let s := if capOk (s.ses u.ses).cls p w r then s.unitCommits ref p w r
          else (s.unitFailed ref v.tile true).collect [{ cls := 8, unit := v.tile, ses := u.ses }]
        s.commitParked u k

/-- COMMIT that the check passes (R277): a band before which every band has committed takes effect, and with it the parked
ones after it; another band is parked (DEDUCED, log 39). -/
def State.commitUnit (s : State) (t : Nat) (u : UnitRef) (p : Pic) (w : WUnit) (r : UnitResult) : State :=
  let s := s.tileCommits t u r
  let s :=
    if (s.ses u.ses).cls ≠ clsLive ∧ 1 < p.units.length ∧ ¬ w.recode then s.gangPart u p r
    else if mayCommit (s.ses u.ses).cls p w then (s.unitCommits u p w r).commitParked u p.units.length
    else s.modUnit u fun w => { w with st := .parked, result := some r }
  let s := s.latePromotion t
  (if (s.tile t).retireReq then s.retireTile t else s).retestAll

/-- The COMMIT word of tile `t` issues: the commit check passes, or the routine ends as a TRAP (R242, R277). A second
COMMIT of the unit is a TRAP. -/
def State.commitWord (s : State) (t : Nat) (r : UnitResult) : State :=
  let y := s.tile t
  match y.work with
  | none => s
  | some u =>
    match s.unitOf u with
    | none => s.modTile t fun y => { y.issue with ndl := y.issue.ndl.advance }
    | some (p, w) =>
      if y.ndl.committed then (s.modTile t Tile.issue).trapUnit t r
      else
        let fails := s.checkUnit u p w r
        let s := s.modTile t Tile.issue
        if fails ≠ 0 then s.trapUnit t r
        else (s.modTile t fun y => { y with ndl := y.ndl.advance }).commitUnit t u p w r

/-- YIELD (R277): after the unit's COMMIT the tile naps; before it, a TRAP. -/
def State.yieldWord (s : State) (t : Nat) : State :=
  let s := s.modTile t Tile.issue
  if (s.tile t).ndl.committed then s.modTile t (·.rest s.now) else s.trapUnit t {}

/-- The needle of tile `t` fetches: it runs a routine, its quadrant's clock runs, no abandonment waits for the boundary
(R281) and the device is in service. -/
def State.fetches (s : State) (t : Nat) : Bool :=
  let y := s.tile t
  s.live && decide (t < s.nTiles) && y.work.isSome && y.abandon == 0 && (y.ndl.state == 1 || y.ndl.state == 2)
    && (s.quad (quadOf t)).pll

/-- A microword of class `cl` issues on tile `t`: `f` is its effect. The command names the word that the needle fetched: with
another class nothing issues (log 41). A fetch at 0x5000 or above is a TRAP with code 0x7FFF (R276). -/
def State.needle (s : State) (t cl : Nat) (f : State → Word → State) : State :=
  if s.fetches t then
    let s' := if (s.tile t).ndl.state = 2 then s.countTile t 0x42 else s.countTile t 0x41
    match (s.tile t).wordAt (s.tile t).ndl.pc with
    | none => (s'.modTile t Tile.issue).trapUnit t {}
    | some w => if opClass w = cl then f s' w else s
  else s

/-- A word that acts on the needle alone. -/
def State.ndlWord (s : State) (t : Nat) (f : Needle → Needle) : State :=
  s.modTile t fun y => { y.issue with ndl := f y.issue.ndl }

/-- MOVE (Table 14.1). -/
def execMove (t : Nat) (s : State) : Host.Outcome State Fault Refusal :=
  .next (s.needle t clMove fun s w => s.ndlWord t (·.move w))

/-- ISSUE (Table 14.1). -/
def execIssue (t : Nat) (s : State) : Host.Outcome State Fault Refusal :=
  .next (s.needle t clIssue fun s w => s.ndlWord t (·.start w))

/-- WAIT (Table 14.1). -/
def execWait (t : Nat) (holds : Bool) (s : State) : Host.Outcome State Fault Refusal :=
  .next (s.needle t clWait fun s _ => s.ndlWord t (·.wait holds))

/-- BRANCH (Table 14.1). -/
def execBranch (t : Nat) (flag : Bool) (s : State) : Host.Outcome State Fault Refusal :=
  .next (s.needle t clBranch fun s w => s.ndlWord t (·.branch w flag))

/-- LOOP (Table 14.1). -/
def execLoop (t : Nat) (s : State) : Host.Outcome State Fault Refusal :=
  .next (s.needle t clLoop fun s w => s.ndlWord t (·.loop w))

/-- COMMIT (R277). -/
def execCommit (t : Nat) (r : UnitResult) (s : State) : Host.Outcome State Fault Refusal :=
  .next (s.needle t clCommit fun s _ => s.commitWord t r)

/-- YIELD (R277). -/
def execYield (t : Nat) (s : State) : Host.Outcome State Fault Refusal :=
  .next (s.needle t clYield fun s _ => s.yieldWord t)

/-- TRAP (R277). -/
def execTrap (t : Nat) (r : UnitResult) (s : State) : Host.Outcome State Fault Refusal :=
  .next (s.needle t clTrap fun s _ => (s.modTile t Tile.issue).trapUnit t r)

end Sys2Proof.Machine
end

