-- ==== Sys2Proof/Machine/Dependability.lean ====
section
/-!
DEFINITION. What happens to tiles outside the microwords: abandonment (R281), tile faults and the watchdog (R248), self-test
(R252, R253), RETIRE and RETEST (R254, R255), the end of a panel reset (R267), the decoder's cycle budget (R185).
-/
namespace Sys2Proof.Machine

/-- ROUTINE_ABANDON (R281): the needle acts on the requests it holds. -/
def State.abandonOp (s : State) (t : Nat) : State :=
  if s.live && decide (t < s.nTiles) && (s.tile t).role != .selfTest then s.abandonTile t else s

/-- A fault of R248 on tile `t` of class `k`: the routine stops for cause 2, the unit moves as a patch move unless it had
committed, and the tile enters self-test. -/
def State.tileBroken (s : State) (t k : Nat) : State :=
  let y := s.tile t
  let s := if y.work.isSome then s.stopRoutine t 2 else s
  let s := s.enterSelfTest t
  let s := match y.work with
    | some u => if y.ndl.committed then s else s.unitFailed u t false
    | none => s
  s.raise k t 0 (match y.work with
    | some u => u.ses
    | none => 0)

/-- The tile is in service: it runs or waits in its role. -/
def Tile.inService (t : Tile) : Bool := t.role == .active || t.role == .spare

/-- TILE_WATCHDOG (R248): no CTU completed in time while the tile ran a unit. -/
def State.watchdogOp (s : State) (t : Nat) : State :=
  let y := s.tile t
  if s.live && decide (t < s.nTiles) && y.inService && y.work.isSome && !y.ndl.committed then s.tileBroken t 11 else s

/-- TILE_FAULT (R248): store parity is class 9, an uncorrectable window-store word class 10. On a tile that a press or a full
load is loading it counts as a failed store check (R43, R51). A tile without power reads no store. -/
def State.tileFaultOp (s : State) (t : Nat) (k : TileFaultKind) : State :=
  let y := s.tile t
  let c := match k with
    | .storeParity => 9
    | .windowWord => 10
  if s.live && decide (t < s.nTiles) && y.inService && y.power != .off then
    if s.ldr.busy && s.ldr.phase == 5 && inMask (tget 0 s.ldr.next.roles t) s.ldr.pressing then s.rollBack 0x10
    else if s.ldr.busy && s.ldr.phase == 6 && !s.ldr.clearing then s.noPattern.loaderEnd 0x10
    else s.tileBroken t c
  else s

/-- A tile returns from a passed self-test (R252, R255): its stores hold the program set in force, it naps in its role; a
retested tile is a spare of the panel that it last served. -/
def State.selfTestPass (s : State) (t : Nat) : State :=
  let y := s.tile t
  let role := if y.retest then .spare else y.back
  let s := s.loadTile (s.panel y.panel) t
  let s := s.modTile t fun x => { x with
    role := role, back := .unused, retest := false, result := 1, power := if role == .unused then .off else .nap
    promoted := if y.retest then false else x.promoted
    since := s.now, work := none, ndl := { x.ndl with state := if role == .unused then 5 else 0 } }
  let s := if role == .unused then s.modTile t fun x => { x.cleared with panel := 0 } else s
  let s := s.refloor y.panel
  if (s.tile t).retireReq then s.retireTile t else s

/-- A tile fails its self-test (Table 12.3 step 4): counted, retired, class 12. -/
def State.selfTestFail (s : State) (t : Nat) : State :=
  let s := s.bump 0xF0024
  let y := s.tile t
  let s :=
    if y.retest then s.modTile t fun x => { x with
      role := .retired, back := .unused, retest := false, power := .off, since := s.now, ndl := { x.ndl with state := 5 } }
    else s.retireTile t
  let s := s.modTile t fun x => { x with result := 2 }
  s.raise 12 t

/-- SELF_TEST_DONE (R252). -/
def State.selfTestOp (s : State) (t : Nat) (e : SelfTestEnd) : State :=
  if s.live && decide (t < s.nTiles) && (s.tile t).role == .selfTest then
    match e with
    | .pass => s.selfTestPass t
    | _ => s.selfTestFail t
  else s

/-- RETIRE of tile `t` is accepted (DEP_TILE_CMD): not the last in-service active tile of a panel in use. -/
def State.retireOk (s : State) (t : Nat) : Bool :=
  let y := s.tile t
  let last := y.role == .active && decide ((s.active y.panel).length ≤ 1) && s.sessions.any fun e => e.2.on y.panel
  decide (t < s.nTiles) && y.inService && !last

/-- RETIRE (R254): at once, or at the commit of the unit that the tile runs. -/
def State.retireOp (s : State) (t : Nat) (v : Word) : State :=
  if s.retireOk t then
    if (s.tile t).work.isSome then s.modTile t fun y => { y with retireReq := true } else s.retireTile t
  else s.ignored 0xF0008 v

/-- RETEST (R255): a retired tile runs self-test; its strikes start again. A stopped quadrant PLL starts for it. -/
def State.retestOp (s : State) (t : Nat) (v : Word) : State :=
  if decide (t < s.nTiles) && (s.tile t).role == .retired then
    let q := quadOf t
    let s := if (s.quad q).pll then s else s.startPll q (tget 0 s.pat.caps q * 100)
    s.modTile t fun y => { y with
      role := .selfTest, back := .spare, retest := true, strikes := 0, power := .run, retireReq := false
      ndl := { y.ndl with state := 4 } }
  else s.ignored 0xF0008 v

/-- A write of DEP_TILE_CMD. -/
def State.tileCmd (s : State) (v : Word) : State :=
  if fld v 9 8 = 1 then s.retireOp (fld v 5 0) v
  else if fld v 9 8 = 2 then s.retestOp (fld v 5 0) v
  else s.ignored 0xF0008 v

/-- PANEL_RESET_DONE (R267): with every unit of the panel abandoned, its tiles and spares reload; those of `fails` are
retired, and the units are dispatched again. -/
def State.panelResetDone (s : State) (p : Nat) (fails : List Nat) : State :=
  if s.live && nbit s.resetting p && !s.inFlight p then
    let ts := s.serving p
    let s := { s with resetting := s.resetting &&& (0xFFFF - 2 ^ p) }
    let s := ts.foldl (fun s t => if fails.contains t then s.retireTile t else s.loadTile (s.panel p) t) s
    s.refloor p
  else s

/-- Cycles of tile `t` since the wake for the unit that it runs, at its clock (R185). -/
def State.cyclesSince (s : State) (t woke : Nat) : Nat := (s.now - woke) * (s.clock (quadOf t) * 1000000) / second

/-- BUDGET_STOP (R185, R189): the decode unit that tile `t` runs has used its budget, and commits with
budget_stop. -/
def State.budgetOp (s : State) (b : BudgetIn) : State :=
  let t := b.tile
  match (s.tile t).work with
  | some u =>
    match s.unitOf u with
    | some (p, w) =>
      let k := cycleBudget (fld (cget p.cfg 0x324) 5 0) b.samples p.auBytes
      let k := if 1 < p.units.length then k * b.part / max 1 b.whole else k
      if s.live && (s.ses u.ses).cls == clsDecode && !(s.tile t).ndl.committed && decide (k ≤ s.cyclesSince t w.woke) then
        s.modUnit u fun w => { w with budget := true }
      else s
    | none => s
  | none => s

/-- ROUTINE_ABANDON. -/
def execRoutineAbandon (t : Nat) (s : State) : Host.Outcome State Fault Refusal := .next (s.abandonOp t)

/-- TILE_WATCHDOG. -/
def execTileWatchdog (t : Nat) (s : State) : Host.Outcome State Fault Refusal := .next (s.watchdogOp t)

/-- TILE_FAULT. -/
def execTileFault (t : Nat) (k : TileFaultKind) (s : State) : Host.Outcome State Fault Refusal := .next (s.tileFaultOp t k)

/-- SELF_TEST_DONE. -/
def execSelfTestDone (t : Nat) (e : SelfTestEnd) (s : State) : Host.Outcome State Fault Refusal := .next (s.selfTestOp t e)

/-- RETIRE: a write of DEP_TILE_CMD with cmd 1. -/
def execRetire (t : Nat) (s : State) : Host.Outcome State Fault Refusal :=
  .next (if s.live then s.retireOp t (mkWord [(0, t % 64), (8, 1)]) else s)

/-- RETEST: a write of DEP_TILE_CMD with cmd 2. -/
def execRetest (t : Nat) (s : State) : Host.Outcome State Fault Refusal :=
  .next (if s.live then s.retestOp t (mkWord [(0, t % 64), (8, 2)]) else s)

/-- PANEL_RESET_DONE. -/
def execPanelResetDone (p : Nat) (fails : List Nat) (s : State) : Host.Outcome State Fault Refusal :=
  .next (s.panelResetDone p fails)

/-- BUDGET_STOP. -/
def execBudgetStop (b : BudgetIn) (s : State) : Host.Outcome State Fault Refusal :=
  .next (s.budgetOp b)

end Sys2Proof.Machine
end

