-- ==== Sys2Proof/Machine/Delivery.lean ====
section
/-!
DEFINITION. Delivery to the host (R169, R170, R183, R196): the byte buffer, the output and decode records, and the re-code of
a committed unit whose page failed its label (R171).
-/
namespace Sys2Proof.Machine

/-- Index 0xFFFF_FFFF_FFFF_FFFF of a record without bytes in a buffer (R170, Table 9.5). -/
def noAddr : Nat := 0xFFFFFFFFFFFFFFFF

/-- An encode output record (Table 8.3), owner bit clear (R66). -/
def encRecord (o : OutItem) (off flags : Nat) : List Byte :=
  leBytes 8 off ++ leBytes 4 o.bytes ++ leBytes 4 (o.pic % 2 ^ 24) ++ leBytes 2 o.band ++ leBytes 2 o.bands
    ++ leBytes 4 flags ++ leBytes 8 o.pts ++ leBytes 8 o.dts ++ leBytes 8 o.commit ++ leBytes 4 o.cfgSeq.toNat
    ++ leBytes 2 o.packets ++ leBytes 6 0 ++ leBytes 4 0

/-- A decode output record (Table 9.5). -/
def decRecord (c : Tbl Word) (o : OutItem) (d : DecOut) : List Byte :=
  let addr := if d.slot = 0xFFFF then noAddr
    else joinW (cget c 0x30C) (cget c 0x310) + d.slot * (cget c 0x318).toNat
  leBytes 8 addr ++ leBytes 2 d.slot ++ leBytes 2 0 ++ leBytes 4 (d.pic % 2 ^ 24) ++ leBytes 2 d.width
    ++ leBytes 2 d.height ++ leBytes 4 o.flags ++ leBytes 8 d.pts ++ leBytes 4 d.darned ++ leBytes 4 d.tainted
    ++ leBytes 8 d.commit ++ leBytes 4 d.ctus ++ leBytes 4 d.colour.toNat ++ leBytes 4 0 ++ leBytes 4 0

/-- Bytes of the byte buffer (OUT_BUF_SIZE). -/
def bufSize (c : Tbl Word) : Nat := 2 ^ fld (cget c 0x20C) 4 0

/-- Where a unit of `bytes` goes in a buffer of `size` bytes filled up to `fill`: offset and wrap flag (R169). -/
def place (size fill bytes : Nat) : Nat × Bool := if size - fill < bytes then (0, true) else (fill, false)

/-- The unit may be written at `off` (R169). -/
def roomFor (size head off bytes : Nat) : Bool := decide (bytes ≤ (head + 2 * size - off - 1) % size)

/-- Write a record at the output tail and advance it (R66, R67). -/
def State.writeOut (s : State) (n : Nat) (bytes : List Byte) : State :=
  let x := s.ses n
  let sz := ringSize x.cfg 0x2E0
  (s.setSes n { x with outTail := (x.outTail + 1) % sz }).emit (.record n (x.outTail % sz) bytes)

/-- The units of picture `p` whose bytes unit `idx` holds: the band, or every part of the picture (R165). -/
def Pic.sharing (p : Pic) (idx : Nat) : List Nat :=
  match p.unit? idx with
  | some w => if p.units.any fun v => v.idx != idx && v.own != 0 && v.pages.isEmpty then p.units.map (·.idx) else [w.idx]
  | none => []

/-- A committed unit is coded again from its kept inputs (R171), a ganged picture part by part: a replay without an admission test. -/
def State.recodeUnit (s : State) (u : UnitRef) : State :=
  let s := s.modSes u.ses fun x => x.modPic u.pic fun p =>
    let l := p.sharing u.idx
    { p with units := p.units.map fun w =>
        if l.contains w.idx then { w with st := .ready, recode := true, replay := true, failedOn := [] } else w }
  ((s.modSes u.ses fun x => { x with replays := min 0xFFFFFFFF (x.replays + 1) }).bump 0xF0010).count 5 0

/-- Remove the queued units that `f` picks from every subscriber and release their pages; they are not flushes. -/
def State.dropQueued (s : State) (f : QUnit → Bool) : State :=
  (s.subs.map (·.1)).foldl (fun s k =>
    let y := s.sub k
    ((y.queue.filter f).foldl State.dropUnit (s.setSub k { y with queue := y.queue.filter fun q => !f q }))) s

/-- A delivery without unit `u`; nothing is left of one that copied nothing else. -/
def OutItem.without (o : OutItem) (u : UnitRef) : Option OutItem :=
  let ps := o.parts.filter fun e => !(o.copy && o.pic == u.pic && e.idx == u.idx)
  if ps.isEmpty && !o.parts.isEmpty then none else some { o with parts := ps }

/-- The re-written page failed again (R171): the unit's packets and copies end, its pages go, its picture counts as dropped,
once. -/
def State.giveUpUnit (s : State) (u : UnitRef) : State :=
  let s := s.dropQueued fun q => q.ses == u.ses && q.pic == u.pic && q.band == u.idx
  let x := s.ses u.ses
  let gone := (x.outq.filter fun o => o.copy && o.pic == u.pic).flatMap fun o => o.parts.filter fun e => e.idx == u.idx
  let counted := (x.pic? u.pic).any (·.gaveUp)
  let x := { x with outq := x.outq.filterMap fun (o : OutItem) => o.without u, dropped := x.dropped + b2n (!counted) }
  let s := s.setSes u.ses (x.modPic u.pic fun p => { p with gaveUp := true })
  gone.foldl (fun s e => s.releasePages 0 e.pages) s

/-- A committed page of unit `u` failed its label (R171). -/
def State.pageFailed (s : State) (u : UnitRef) : State :=
  match s.unitOf u with
  | some (_, w) => if w.recoded then s.giveUpUnit u else if w.recode then s else s.recodeUnit u
  | none => s

/-- Some unit of a delivery waits for its re-code. -/
def State.beingRecoded (s : State) (n : Nat) (o : OutItem) : Bool :=
  match (s.ses n).pic? o.pic with
  | some p => o.parts.any fun e => (p.sharing e.idx).any fun i => match p.unit? i with
    | some w => w.recode
    | none => false
  | none => false

/-- The record of a delivery, when its session has an output ring. -/
def State.recordOf (s : State) (n : Nat) (o : OutItem) (off flags : Nat) : State :=
  if o.record then
    match o.dec with
    | some d => s.writeOut n (decRecord (s.ses n).cfg o d)
    | none => s.writeOut n (encRecord o off flags)
  else s

/-- Read the units of a delivery from their pages (R169): the bytes, or the unit whose line failed its label. -/
def State.readParts (s : State) : List OutPart → State × Except Nat (List Byte)
  | [] => (s, .ok [])
  | e :: t =>
    let r := s.readUnit e.pages e.bytes
    match r.2 with
    | .error _ => (r.1, .error e.idx)
    | .ok bs =>
      let l := r.1.readParts t
      (l.1, l.2.map (bs ++ ·))

/-- The unit of a delivery that holds byte `k`. -/
def partAt : List OutPart → Nat → Nat
  | [], _ => 0
  | e :: t, k => if t.isEmpty ∨ k < e.bytes then e.idx else partAt t (k - e.bytes)

/-- The first delivery of session `n`, one that copies a unit, goes out (R169): into the byte buffer in the form of OUT_BIND.fmt, then
the record; `at_` is its place. -/
def State.deliverUnit (s : State) (n : Nat) (o : OutItem) (rest : List OutItem) (at_ : Nat × Bool) (bytes : List Byte) : State :=
  let x := s.ses n
  let s := s.setSes n { x with outq := rest, bufFill := at_.1 + o.bytes }
  let s := s.emit (.unitData n at_.1 (hostForm x.cfg bytes))
  let s := s.releasePages 0 o.pages
  (s.recordOf n o at_.1 (o.flags + 64 * b2n at_.2)).pruneKept n

/-- A delivery that copies a unit: it waits for room in the byte buffer (R169); a label failure of a page, which the copy meets or
which `bad` reports at a byte of the unit, is class 17 and a re-code of the unit that holds the page (R171). -/
def State.deliverCopy (s : State) (n : Nat) (o : OutItem) (rest : List OutItem) (bad : Option Nat) : State :=
  let x := s.ses n
  let size := bufSize x.cfg
  let at_ := place size x.bufFill o.bytes
  if !roomFor size x.bufHead at_.1 o.bytes then s
  else
    let r := s.readParts o.parts
    let fail (i : Nat) : State := (r.1.pageFailed { ses := n, pic := o.pic, idx := i }).raiseDev 17 0 n
    match bad, r.2 with
    | some k, _ => fail (partAt o.parts k)
    | none, .error i => fail i
    | none, .ok bs => r.1.deliverUnit n o rest at_ bs

/-- A delivery of a decoded picture (R182, R183): the window copy, made again after a label failure (DEDUCED, log 43), then the record, from which on
the slot is held. -/
def State.deliverDec (s : State) (n : Nat) (o : OutItem) (d : DecOut) (rest : List OutItem) (bad : Bool) : State :=
  if bad && o.copy then s.raiseDev 17 0 n
  else
    let s := s.modSes n fun x => { x with outq := rest }
    let s := if o.copy ∧ d.slot ≠ 0xFFFF then s.emit (.windowCopy n d.slot d.stage) else s
    let s := s.recordOf n o 0 o.flags
    if d.slot = 0xFFFF then s
    else s.modSes n fun x => { x with dec := { x.dec with slots := tset 0 d.slot 3 x.dec.slots } }

/-- HOST_UNIT_DELIVERY (R169, R170, R183): the oldest delivery of session `n`. A full output ring holds it (R67), and so does a re-code
of what it copies. Pages that it released let waiting pictures be tested again (R79). -/
def State.deliveryOp (s : State) (n : Nat) (bad : Option Nat) : State :=
  let x := s.ses n
  match x.outq with
  | [] => s
  | o :: rest =>
    if !s.live || (o.record && x.outFull) || s.beingRecoded n o then s
    else match o.dec with
      | some d => s.deliverDec n o d rest bad.isSome
      | none =>
        if o.copy && !o.parts.isEmpty then (s.deliverCopy n o rest bad).retestAll
        else
          let off := if bit (cget x.cfg 0x200) 0 then x.bufFill else noAddr
          (s.setSes n { x with outq := rest }).recordOf n o off o.flags

/-- HOST_UNIT_DELIVERY. -/
def execHostUnitDelivery (n : Nat) (bad : Option Nat) (s : State) : Host.Outcome State Fault Refusal :=
  .next (s.deliveryOp n bad)

end Sys2Proof.Machine
end

