-- ==== Sys2Proof/Machine/Ethernet.lean ====
section
/-!
DEFINITION. The Ethernet ports below the mangle: links and failover (R199, R200, R217, R218), the receive filters, punt and
ST 2110-20 ingest (R201 to R207), stamps (R215) and the host transmit ring's tail (R216).
-/
namespace Sys2Proof.Machine

/-- A port counter (MGL_ETHn_CNT): 0 rx_frames, 1 rx_fcs, 2 rx_drop, 3 rx_pause, 4 punted, 5 tx_frames, 6 tx_lost,
7 loop_fail, 8 ingest_bad, 9 ingest_lost. -/
def ethCnt (p k : Nat) : Nat := ethBase p + 0x100 + 4 * k

/-- Lane mode of port `p` (R199). -/
def State.laneMode (s : State) (p : Nat) : Nat := tget 0 s.pat.lane p

/-- MGL_ETHn_LAT: the value written, else the derived one, a free value (log 23). -/
def State.ethLat (s : State) (p : Nat) : Word :=
  match (s.eth p).lat with
  | some w => w
  | none => Config.ethLatency (s.laneMode p)

/-- Receive stamp of port `p` now (R215). -/
def State.rxStamp (s : State) (p : Nat) : Nat := mod64 ((s.now : Int) - fld (s.ethLat p) 15 0)

/-- Transmit stamp of port `p` now (R215). -/
def State.txStamp (s : State) (p : Nat) : Nat := mod64 ((s.now : Int) + fld (s.ethLat p) 31 16)

/-- Post a change of link state (R200, Table 17.4). -/
def State.postLink (s : State) (p : Nat) (up : Bool) : State :=
  s.post 0 (some 4) (s.evRec (0x090 + p) 4 (mkWord [(0, b2n up), (1, s.laneMode p)]))

/-- ETH_LINK_UP (R200). -/
def State.linkUpOp (s : State) (p : Nat) : State :=
  if s.live && decide (p < 2) && s.laneMode p != 0 && !(s.eth p).link then
    let an := bit (s.reg (ethBase p)) 0
    (s.setEth p { s.eth p with link := true, fec := true, anDone := an, upAt := s.now }).postLink p true
  else s

/-- Subscribers whose service lies on port `p` and that have an egress flow entry. -/
def State.flowsOf (s : State) (p : Nat) : List Nat :=
  (s.subs.filter fun e => fld (tget 0 e.2.d 2) 7 6 == p && e.2.hasFlow).map (·.1)

/-- Drop the packets of a subscriber's queue that exceed the budget of its port (R239), counted in tx_lost; a unit left
without packets releases its pages. -/
def State.trimQueue (s : State) (n : Nat) : State :=
  let p := s.subNow n
  let b := (s.subBudget n p).toNat
  let x := s.sub n
  let lost := (x.queue.map fun q => (q.pkts.filter fun k => decide (b < k.bytes)).length).sum
  let q := x.queue.map fun q => { q with pkts := q.pkts.filter fun k => decide (k.bytes ≤ b) }
  let gone := q.filter fun q => q.pkts.isEmpty
  let s := s.setSub n { x with queue := q.filter fun q => !q.pkts.isEmpty }
  gone.foldl State.dropUnit (if lost = 0 then s else s.bump (ethCnt p 6) lost)

/-- Failover of port `p` (R217): each flow with a backup moves to it. -/
def State.failover (s : State) (p : Nat) : State :=
  (s.flowsOf p).foldl (fun s n =>
    let x := s.sub n
    if x.moved ∨ flBackup x.entry = 0xFF then s else (s.setSub n { x with moved := true }).trimQueue n) s

/-- The source of the picture that took ingest picture `q` of flow `k`, and of its lower ranks, as it has arrived (R98, R101, R205). -/
def State.ingestSource (s : State) (k : Nat) (q : IngPic) : State :=
  let e := (s.flow k).entry
  let n := inSes e
  let x := s.ses n
  match x.pics.find? fun p => p.ing == some (k, q.rtpTs) with
  | none => s
  | some p =>
    let w := cW x.cls p.cfg
    let h := cH x.cls p.cfg
    let src := ingestPicture p.cfg (inSampling e) w h q.rows
    let f := ingestForm (inSampling e)
    let coded := taped p.cfg w h p.pts (codedPicture p.cfg f w h src)
    let s := s.modSes n fun x =>
      let x := x.modPic p.num fun p => { p with
        source := src, coded := coded, statics := staticMap w h coded p.before, activity := meanActivity w h coded }
      let x := x.modPic ((p.num + 1) % 2 ^ 24) fun p => { p with before := coded }
      if x.lastAdm = some p.num then { x with lastSource := src, lastCoded := coded } else x
    let lower (y : Session) (r : Pic) : Pic := { r with
      source := src
      coded := taped r.cfg (cW y.cls r.cfg) (cH y.cls r.cfg) p.pts (scaledPicture p.cfg r.cfg f w h (cW y.cls r.cfg) (cH y.cls r.cfg) src)
      statics := staticMap w h coded p.before, activity := meanActivity w h coded }
    (if x.member && x.rank == 0 then (s.members n).filter (· != n) else []).foldl (fun s m => s.modSes m fun y =>
      { y.modPic p.num (lower y) with owed := y.owed.map fun r => if r.num = p.num then lower y r else r }) s

/-- An ingest picture closes (R206): missing packets count, the picture that took it gets every row token and gives its
entry back. -/
def State.closeIng (s : State) (k : Nat) (q : IngPic) : State :=
  let f := s.flow k
  let n := inSes f.entry
  let lost := q.lastSeq + 1 - q.firstSeq - q.seqs.length
  let s := s.setFlow k { f with pics := f.pics.map fun (r : IngPic) => if r.rtpTs = q.rtpTs then { r with closed := true } else r }
  let s := (if lost = 0 then s else s.bump (ethCnt (inPort f.entry) 9) lost).ingestSource k q
  let x := s.ses n
  match x.pics.find? fun p => p.ing == some (k, q.rtpTs) with
  | none => s
  | some p =>
    (s.modSes n fun x => x.modPic p.num fun r => r.tokens (x.cls == clsLive) (cH x.cls r.cfg)).sourceIn n p

/-- Close every open picture of flow `k` that `due` picks. -/
def State.closeWhere (s : State) (k : Nat) (due : IngPic → Bool) : State :=
  ((s.flow k).pics.filter fun q => !q.closed && due q).foldl (fun s q => s.closeIng k q) s

/-- ETH_LINK_DOWN (R200, R217, R218): the event, class 26, failover of the egress flows, close of the ingest pictures. -/
def State.linkDownOp (s : State) (p : Nat) : State :=
  if s.live && decide (p < 2) && (s.eth p).link then
    let s := s.setEth p { s.eth p with link := false, fec := false, anDone := false }
    let s := (s.postLink p false).failover p
    let s := (s.ingest.filter fun e => inEnable e.2.entry && inPort e.2.entry == p).foldl (fun s e =>
      s.closeWhere e.1 fun _ => true) s
    s.raiseDev 26
  else s

/-- FAILBACK (R217): a moved flow returns at a picture boundary once its primary has been up for HOLD. -/
def State.failbackOp (s : State) (n : Nat) : State :=
  let x := s.sub n
  let p := s.subPort n
  let boundary := match x.queue with
    | [] => true
    | q :: _ => q.fresh && q.firstOfPic
  if s.live && x.moved && bit (s.reg (ethBase p)) 2 && (s.eth p).link && boundary
      && decide ((s.eth p).upAt + (s.reg (ethBase p + 0x2C)).toNat ≤ s.now) then
    (s.setSub n { x with moved := false }).trimQueue n
  else s

/-- The port MAC (MGL_ETHn_MAC_LO, _HI), first octet most significant. -/
def State.portMac (s : State) (p : Nat) : Nat := (s.reg (ethBase p + 8)).toNat + fld (s.reg (ethBase p + 12)) 15 0 * 2 ^ 32

/-- A multicast MAC: the group bit of its first octet. -/
def isMulticast (mac : Nat) : Bool := nbit mac 40

/-- The MAC of a multicast IP address: 01-00-5E and 23 bits, or 33-33 and 32 bits; none for a unicast address. -/
def groupMac (ip6 : Bool) (ip : List Byte) : Option Nat :=
  let b (i : Nat) : Nat := (ip.getD i 0).toNat
  if ip6 then
    if b 0 = 0xFF then some (0x333300000000 + b 12 * 2 ^ 24 + b 13 * 2 ^ 16 + b 14 * 2 ^ 8 + b 15) else none
  else if b 0 / 16 = 14 then some (0x01005E000000 + b 1 % 128 * 2 ^ 16 + b 2 * 2 ^ 8 + b 3)
  else none

/-- The address filter of Table 10.2. -/
def State.macOk (s : State) (p mac : Nat) : Bool :=
  (!isMulticast mac && mac == s.portMac p) || mac == 0xFFFFFFFFFFFF
    || mac == 0x011B19000000 || mac == 0x0180C200000E || mac == 0x01005E000181
    || s.ingest.any fun e => inEnable e.2.entry && inPort e.2.entry == p &&
        groupMac (inIp6 e.2.entry) (e.2.entry.take 16) == some mac

/-- An ingest flow's destination is that of a frame (R203): address, UDP port and payload type (DEDUCED, log 44). -/
def flowMatch (e : List Byte) (p : Nat) (f : EthFrame) : Bool :=
  inEnable e && inPort e == p && f.isUdp && inUdp e == f.dstUdp && inPt e == f.pt &&
    (if inIp6 e then f.ip == 6 && f.dstIp == e.take 16 else f.ip == 4 && f.dstIp.take 4 == e.take 4)

/-- A ring of port `p` at `off` (PUNT 0x30, HTX 0x48): its size, or 0 when disabled (R219). -/
def State.ethRing (s : State) (p off : Nat) : Nat :=
  let b := ethBase p + off
  let lg := fld (s.reg (b + 8)) 3 0
  if (s.reg b = 0 ∧ s.reg (b + 4) = 0) ∨ lg < 4 ∨ 12 < lg then 0 else 2 ^ lg

/-- Write a frame to the punt ring of port `p` (R202), or drop it. -/
def State.punt (s : State) (p : Nat) (f : EthFrame) : State :=
  let size := s.ethRing p 0x30
  let e := s.eth p
  let head := fld (s.reg (ethBase p + 0x3C)) 11 0
  if !bit (s.reg (ethBase p)) 1 || size == 0 || (e.puntTail + 1) % size == head % size then s.bump (ethCnt p 2)
  else
    let len := f.length - 4
    let s := (s.setEth p { e with puntTail := (e.puntTail + 1) % size }).bump (ethCnt p 4)
    s.emit (.punt p e.puntTail (min len 2032) (p + 2 * b2n (decide (2032 < len))) (s.rxStamp p) (f.payload.take (min len 2032)))

/-- Later in the order of 32-bit RTP timestamps. -/
def tsLater (a b : Word) : Bool := a != b && decide ((a - b).toNat < 2 ^ 31)

/-- Some session picture still reads ingest picture `ts` of flow `k`, or no descriptor has taken it. -/
def State.ingHeld (s : State) (k : Nat) (q : IngPic) : Bool :=
  let x := s.ses (inSes (s.flow k).entry)
  !q.taken || (x.workPics).any fun p => p.ing == some (k, q.rtpTs)

/-- A new ingest picture opens (R206, R207): earlier open pictures close; of the flow's buffers one that nothing holds is
taken, else the oldest that no descriptor took is discarded and counted, else the new one is discarded whole. -/
def State.openIng (s : State) (k : Nat) (f : EthFrame) (p : Nat) : State :=
  let s := s.closeWhere k fun q => tsLater f.rtpTs q.rtpTs
  let fl := s.flow k
  let held := fl.pics.filter fun q => s.ingHeld k q
  let new_ : IngPic := { rtpTs := f.rtpTs, frame0 := s.rxStamp p, firstSeq := if fl.high = 0 then f.seq else fl.high + 1 }
  let put (l : List IngPic) : State := s.setFlow k { s.flow k with pics := l ++ [new_], skip := none }
  if held.length < inDepth fl.entry then put held
  else match held.find? fun q => !q.taken with
    | some q => (put (held.erase q)).bump (ethCnt p 9) (max 1 q.seqs.length)
    | none => s.setFlow k { fl with pics := held, skip := some f.rtpTs }

/-- Data put at byte `at_` of a row of `n` bytes. -/
def putRow (n at_ : Nat) (data : List Byte) (row : List (Option Byte)) : List (Option Byte) :=
  let row := if row.isEmpty then List.replicate n none else row
  row.take at_ ++ data.map some ++ row.drop (at_ + data.length)

/-- Segments of a packet added to a picture's rows (R205): `n` bytes a row. -/
def IngPic.add (q : IngPic) (sampling n : Nat) (f : EthFrame) : IngPic :=
  let g := pgroup sampling
  { q with
    rows := f.srd.foldl (fun t e =>
      if e.2.2.isEmpty then t else tset [] e.1 (putRow n (e.2.1 / g.2 * g.1) e.2.2 (tget [] t e.1)) t) q.rows
    lastSeq := max q.lastSeq f.seq, seqs := if q.seqs.contains f.seq then q.seqs else f.seq :: q.seqs }

/-- The rows of a packet enter its picture, and the rows complete from the top those of the session's picture that it feeds (R205, R206). -/
def State.ingestRows (s : State) (k : Nat) (f : EthFrame) : State :=
  let fl := s.flow k
  let n := inSes fl.entry
  let x := s.ses n
  let line := ingestLine (inSampling fl.entry) (cW x.cls x.cfg)
  let s := s.setFlow k { fl with pics := fl.pics.map fun (q : IngPic) =>
    if q.rtpTs = f.rtpTs ∧ ¬ q.closed then q.add (inSampling fl.entry) line f else q }
  match (s.flow k).pics.find? fun q => q.rtpTs == f.rtpTs && !q.closed with
  | some q => match (s.ses n).pics.find? fun r => r.ing == some (k, q.rtpTs) with
    | some r => (s.ingestSource k q).modSes n fun x => x.modPic r.num (·.tokens (x.cls == clsLive) (q.rowsDone line (cH x.cls x.cfg)))
    | none => s
  | none => s

/-- An ST 2110-20 packet of flow `k` (R205, R206): its rows are written, its picture closes at the marker, and complete
rows post tokens. -/
def State.ingestPkt (s : State) (k p : Nat) (f : EthFrame) : State :=
  let fl := s.flow k
  let n := inSes fl.entry
  let x := s.ses n
  let w := cW x.cls x.cfg
  let h := cH x.cls x.cfg
  let g := pgroup (inSampling fl.entry)
  let outside := f.srd.any fun e => !e.2.2.isEmpty &&
    (decide (h ≤ e.1) || decide (w < e.2.1 + e.2.2.length / g.1 * g.2) || e.2.2.length % g.1 != 0)
  if f.srdOverrun || outside || (inCheckSsrc fl.entry && f.ssrc.toNat != inSsrc fl.entry) then s.bump (ethCnt p 8)
  else if f.seq + 1024 ≤ fl.high then s
  else if fl.skip = some f.rtpTs then s.bump (ethCnt p 9)
  else
    let known := fl.pics.any fun q => q.rtpTs == f.rtpTs
    let older := !known && fl.pics.any fun q => tsLater q.rtpTs f.rtpTs
    if older then s
    else
      let s := if known then s else s.openIng k f p
      let fl := s.flow k
      let s := s.setFlow k { fl with high := max fl.high f.seq }
      if fl.skip = some f.rtpTs then s.bump (ethCnt p 9)
      else
        let s := s.ingestRows k f
        if f.marker then s.closeWhere k fun q => q.rtpTs == f.rtpTs else s

/-- What ETH_FRAME_RECEIVE does with what it reads (R201, R202): checks, filter, then ingest, punt or drop. -/
def State.frameOp (s : State) (p : Nat) (f : EthFrame) : State :=
  if !(s.live && decide (p < 2) && (s.eth p).link) then s
  else
    let s := s.bump (ethCnt p 0)
    let mtu := fld (s.reg (ethBase p + 0x24)) 13 0
    let drop := s.bump (ethCnt p 2)
    if !f.fcsOk then s.bump (ethCnt p 1)
    else if f.length < 64 ∨ mtu + 22 < f.length then drop
    else if f.isPause then s.bump (ethCnt p 3)
    else if f.secondTag || f.ipBad || f.udpBad || !s.macOk p f.dstMac.toNat then drop
    else match s.ingest.find? fun e => flowMatch e.2.entry p f with
      | some e => s.ingestPkt e.1 p f
      | none => s.punt p f

/-- Ready time of an ingest picture (R206, R207). -/
def State.ingReady (s : State) (k : Nat) (q : IngPic) : Nat :=
  let x := s.ses (inSes (s.flow k).entry)
  match x.pics.find? fun p => p.ing == some (k, q.rtpTs) with
  | some p => p.ready
  | none => q.frame0 + cPeriod x.cls x.cfg

/-- INGEST_CLOSE_TIMEOUT (R206): pictures of the flow whose ready time plus one band time has passed. -/
def State.ingTimeoutOp (s : State) (k : Nat) : State :=
  let x := s.ses (inSes (s.flow k).entry)
  if s.live then s.closeWhere k fun q => decide (s.ingReady k q + tBand x.cls x.cfg ≤ s.now) else s

/-- HTX_TAIL_WRITE (R216, R219): a tail at or beyond the ring's size is ignored. -/
def State.htxTail (s : State) (p : Nat) (v : Word) : State :=
  let off := ethBase p + 0x54
  if s.ethRing p 0x48 ≤ fld v 11 0 then s.ignored off v else s.setReg off (maskW 0xFFF v)

/-- ETH_LINK_UP. -/
def execEthLinkUp (p : Nat) (s : State) : Host.Outcome State Fault Refusal := .next (s.linkUpOp p)

/-- ETH_LINK_DOWN. -/
def execEthLinkDown (p : Nat) (s : State) : Host.Outcome State Fault Refusal := .next (s.linkDownOp p)

/-- FAILBACK. -/
def execFailback (sub : Nat) (s : State) : Host.Outcome State Fault Refusal := .next (s.failbackOp sub)

/-- ETH_FRAME_RECEIVE. -/
def execEthFrameReceive (p : Nat) (frame : List Byte) (s : State) : Host.Outcome State Fault Refusal :=
  .next (s.frameOp p (readFrame frame))

/-- INGEST_CLOSE_TIMEOUT. -/
def execIngestCloseTimeout (k : Nat) (s : State) : Host.Outcome State Fault Refusal := .next (s.ingTimeoutOp k)

/-- HTX_TAIL_WRITE. -/
def execHtxTailWrite (p : Nat) (v : Word) (s : State) : Host.Outcome State Fault Refusal :=
  .next (if s.live && decide (p < 2) then s.htxTail p v else s)

end Sys2Proof.Machine
end

