-- ==== Sys2Proof/Machine/Mangle.lean ====
section
/-!
DEFINITION. The mangle (R220 to R241): buckets, selection at a port, the hand-off of packets to Ethernet (R208 to R214), HOST
(R343, R344) and LINE (R369), gate lists, and the writes of the MGL block (R219, R241).
-/
namespace Sys2Proof.Machine

/-- Settings of a bucket (R220): packets per period, period, depth, whole_unit. -/
structure Shape where
  rate : Nat
  period : Nat
  depth : Nat
  whole : Bool
deriving DecidableEq, Repr

/-- The settings in a pair of DATA0 and DATA1 words (MGL_SUB_DATA, MGL_SVC_DATA). -/
def shapeOf (d0 d1 : Word) : Shape := { rate := fld d0 15 0, period := d1.toNat, depth := fld d0 27 16, whole := bit d0 28 }

/-- Settings of a bucket of the mangle. -/
def State.shape (s : State) : BucketId → Shape
  | .sub n => shapeOf (tget 0 (s.sub n).d 0) (tget 0 (s.sub n).d 1)
  | .svc n => shapeOf (s.svc n).d0 (s.svc n).d1
  | .port p => { shapeOf (s.reg (0xE3000 + 0x10 * p)) (s.reg (0xE3004 + 0x10 * p)) with whole := false }

/-- A bucket of the mangle. -/
def State.bucket (s : State) : BucketId → Bucket
  | .sub n => (s.sub n).bucket
  | .svc n => (s.svc n).bucket
  | .port p => tget {} s.portBkt p

/-- Write service `k`. -/
def State.setSvc (s : State) (k : Nat) (x : Svc) : State := { s with svcs := tset {} k x s.svcs }

/-- Write a bucket of the mangle. -/
def State.setBucket (s : State) (b : BucketId) (x : Bucket) : State :=
  match b with
  | .sub n => s.setSub n { s.sub n with bucket := x }
  | .svc n => s.setSvc n { s.svc n with bucket := x }
  | .port p => { s with portBkt := tset {} p x s.portBkt }

/-- The level has a bucket (R224); a port with a rate and no period never lacks credit (DEDUCED, log 46). -/
def Shape.has (h : Shape) : Bool := h.rate != 0 && h.period != 0

/-- The floor of R225. -/
def creditFloor : Int := -4095

/-- CREDIT_RISE (R223): below depth, when the accumulator has reached the period, one credit. -/
def State.riseOp (s : State) (b : BucketId) : State :=
  let h := s.shape b
  let x := s.bucket b
  let a := x.a + h.rate * (s.now - x.at_)
  if s.live && h.has && decide (x.c < h.depth) && decide (h.period ≤ a) then
    s.setBucket b { c := x.c + 1, a := if x.c + 1 = h.depth then 0 else a - h.period, at_ := s.now }
  else s

/-- An accepted change of a bucket (R226): c restarts at depth or 0, a at 0. -/
def State.resetBucket (s : State) (b : BucketId) (full : Bool) : State :=
  s.setBucket b { c := if full then ((s.shape b).depth : Int) else 0, a := 0, at_ := s.now }

/-- A level lets a packet pass (R224, R225): credit, or the rest of a whole unit above the floor. -/
def State.passes (s : State) (b : BucketId) (more : Bool) : Bool :=
  let h := s.shape b
  let c := (s.bucket b).c
  !h.has || decide (1 ≤ c) || (more && h.whole && decide (creditFloor < c))

/-- The charge of one packet at a level (R224, R225): an arrival at the floor is counted; below depth a begins to grow. -/
def State.charge (s : State) (b : BucketId) : State :=
  let h := s.shape b
  if h.has then
    let x := s.bucket b
    let y : Bucket := if (h.depth : Int) ≤ x.c then { c := x.c - 1, a := 0, at_ := s.now } else { x with c := x.c - 1 }
    let s := s.setBucket b y
    if y.c ≤ creditFloor then s.bump 0xE0110 else s
  else s

/-- The subscriber's bucket is derived (R234): a session feeds it with its OUT_PACE.auto bit set. -/
def State.autoPaced (s : State) (n : Nat) : Bool :=
  s.sessions.any fun e => e.2.st != .closed && e.2.cls != clsDecode &&
    (outSubs e.2.cfg).any fun k => k.2 == n && bit (cget e.2.cfg 0x240) k.1

/-- Rate, depth and period are legal together (MGL_SUB_DATA0, _DATA1). -/
def shapeLegal (d0 d1 : Word) : Bool := fld d0 15 0 == 0 || (fld d0 27 16 != 0 && d1 != 0)

/-- DATA0 to DATA3 may not become subscriber `n`'s entry (R226, R239, R241). -/
def State.subBars (s : State) (n : Nat) : Bool :=
  let w (i : Nat) : Word := s.reg (0xE1010 + 4 * i)
  let old := s.shape (.sub n)
  let new_ := shapeOf (w 0) (w 1)
  let moved := fld (w 2) 7 6 != s.subPort n && !(s.sub n).queue.isEmpty
  let derivedChange := s.autoPaced n && !(new_.rate == old.rate && new_.period == old.period && new_.depth == old.depth)
  !shapeLegal (w 0) (w 1) || (bit (w 0) 31 && fld (w 2) 15 8 == 0) || moved || derivedChange

/-- SUB_COMMIT (R226, R239, R241): DATA0 to DATA3 apply to subscriber `n`. -/
def State.subCommitTo (s : State) (n : Nat) : State :=
  let w (i : Nat) : Word := s.reg (0xE1010 + 4 * i)
  let x := s.sub n
  let old := s.shape (.sub n)
  let new_ := shapeOf (w 0) (w 1)
  let s := s.setSub n { x with
    d := tset 0 0 (maskW 0x9FFFFFFF (w 0)) (tset 0 1 (w 1) (tset 0 2 (maskW 0xFFFF (w 2)) (tset 0 3 (w 3) [])))
    moved := x.moved && fld (w 2) 7 6 == s.subPort n }
  let s := if new_ = old then s else s.resetBucket (.sub n) (bit (w 0) 29)
  if bit (w 0) 31 then s else s.flushSub n

/-- A write of MGL_SUB_SEL (R241): the index, then load, commit and flush as asked. One whose commit is refused changes nothing
(R9). -/
def State.subSel (s : State) (v : Word) : State :=
  let n := fld v 11 0
  let s' := s.setReg 0xE1000 (maskW 0xFFF v)
  let s' := if bit v 13 then
      (upto 4).foldl (fun s i => s.setReg (0xE1010 + 4 * i) (tget 0 (s.sub n).d i)) s' else s'
  if bit v 14 && s'.subBars n then s.ignored 0xE1000 v
  else
    let s' := if bit v 14 then s'.subCommitTo n else s'
    if bit v 15 then s'.flushSub n else s'

/-- DATA0 to DATA2 may not become a service's entry (R241). -/
def State.svcBars (s : State) : Bool :=
  let w (i : Nat) : Word := s.reg (0xE2010 + 4 * i)
  !shapeLegal (w 0) (w 1) || (bit (w 0) 30 && (shapeOf (w 0) (w 1)).rate != 0) || fld (w 2) 15 8 == 0

/-- SVC_COMMIT (R226, R241): DATA0 to DATA2 apply to service `k`. -/
def State.svcCommitTo (s : State) (k : Nat) : State :=
  let w (i : Nat) : Word := s.reg (0xE2010 + 4 * i)
  let x := s.svc k
  let old := s.shape (.svc k)
  let new_ := shapeOf (w 0) (w 1)
  let s := s.setSvc k { x with d0 := maskW 0xDFFFFFFF (w 0), d1 := w 1, d2 := maskW 0xFF77 (w 2) }
  if new_ = old then s else s.resetBucket (.svc k) (bit (w 0) 29)

/-- A write of MGL_SVC_SEL (R241). One whose commit is refused changes nothing (R9). -/
def State.svcSel (s : State) (v : Word) : State :=
  let k := fld v 7 0
  let s' := s.setReg 0xE2000 (maskW 0xFF v)
  let s' := if bit v 13 then
      let x := s.svc k
      ((s'.setReg 0xE2010 x.d0).setReg 0xE2014 x.d1).setReg 0xE2018 x.d2
    else s'
  if bit v 14 && s'.svcBars then s.ignored 0xE2000 v
  else if bit v 14 then s'.svcCommitTo k else s'

/-- A write of MGL_PORTn_SHAPE or MGL_PORTn_PERIOD (R226): a change resets the port's credit. -/
def State.portShape (s : State) (p : Nat) (isPeriod : Bool) (v : Word) : State :=
  let off := 0xE3000 + 0x10 * p + 4 * b2n isPeriod
  if !isPeriod && fld v 15 0 != 0 && fld v 27 16 == 0 then s.ignored off v
  else
    let old := s.shape (.port p)
    let s := s.setReg off (if isPeriod then v else maskW 0x8FFFFFFF v)
    if s.shape (.port p) = old then s else s.resetBucket (.port p) (bit (s.reg (0xE3000 + 0x10 * p)) 31)

/-- The 64 bytes of MGL_FLOW_DATA0 to DATA15. -/
def State.flowData (s : State) : List Byte := (upto 16).flatMap fun i => leBytes 4 (s.reg (0xEA040 + 4 * i)).toNat

/-- An ingest flow commit is refused (MGL_FLOW_SEL): its session, old or new, is in use; another enabled entry on the port has
its destination; the entry is enabled with an illegal field (DEDUCED, log 44). -/
def State.ingestBusy (s : State) (k : Nat) (e : List Byte) : Bool :=
  let busy (n : Nat) : Bool :=
    let st := (s.ses n).st
    st == .running || st == .paused || st == .draining
  let old := (s.flow k).entry
  (!old.isEmpty && busy (inSes old)) || busy (inSes e) || (inEnable e && !ingestOk e) ||
    s.ingest.any fun o => o.1 != k && inEnable o.2.entry && inPort o.2.entry == inPort e && inUdp o.2.entry == inUdp e
      && o.2.entry.take 16 == e.take 16

/-- A write of MGL_FLOW_SEL (R219). One whose commit is refused changes nothing (R9). -/
def State.flowSel (s : State) (v : Word) : State :=
  let n := fld v 11 0
  let s' := s.setReg 0xEA000 (maskW 0x1FFF v)
  let s' := if bit v 13 then
      let e := if bit v 12 then (s.flow n).entry else (s.sub n).flowNext
      (upto 16).foldl (fun s i => s.setReg (0xEA040 + 4 * i) (w32 (leAt e (4 * i) 4))) s'
    else s'
  let e := s'.flowData
  if bit v 12 && (decide (32 ≤ n) || (bit v 14 && s'.ingestBusy n e)) then s.ignored 0xEA000 v
  else if !bit v 14 then s'
  else if bit v 12 then s'.setFlow n { entry := e }
  else s'.setSub n { s'.sub n with flowNext := e, hasFlow := true }

/-- Gate state of Ethernet port `p`. -/
def State.gate (s : State) (p : Nat) : Gate := (s.eth p).gate

/-- Write a port's gate state. -/
def State.setGate (s : State) (p : Nat) (g : Gate) : State := s.setEth p { s.eth p with gate := g }

/-- The admin list's length, and its cycle (R236, R237). -/
def State.gLen (s : State) (p : Nat) : Nat := fld (s.reg (ethBase p + 0x150)) 8 0
def State.gCycle (s : State) (p : Nat) : Nat := (s.reg (ethBase p + 0x14C)).toNat

/-- Entry `k` of the admin list. -/
def State.gAdm (s : State) (p k : Nat) : Word := s.reg (ethBase p + 0x400 + 4 * k)

/-- The admin list is legal (R236, R238). -/
def State.gateLegal (s : State) (p : Nat) : Bool :=
  let c := s.gCycle p
  decide (2883 ≤ c) && decide (c ≤ 1441440000) && decide (1 ≤ s.gLen p) && decide (s.gLen p ≤ 256) &&
    (upto (s.gLen p)).all fun k => fld (s.gAdm p k) 31 8 != 0

/-- A write of MGL_ETHn_GCTL (R237, R238): change computes T, cancel withdraws a pending change. -/
def State.gateCtl (s : State) (p : Nat) (v : Word) : State :=
  let off := ethBase p + 0x140
  if bit v 1 then
    if !s.gateLegal p then s.ignored off v
    else
      let base := joinW (s.reg (ethBase p + 0x144)) (s.reg (ethBase p + 0x148))
      let t := if s.now < base then base else base + ((s.now - base) / s.gCycle p + 1) * s.gCycle p
      s.setGate p { s.gate p with pending := true, pendOn := bit v 0, chg := t }
  else if bit v 2 then s.setGate p { s.gate p with pending := false }
  else s

/-- GATE_LIST_START (R237): at T the admin list becomes the operating list, or every gate opens. -/
def State.gateStartOp (s : State) (p : Nat) : State :=
  let g := s.gate p
  if s.live && decide (p < 2) && g.pending && decide (g.chg ≤ s.now) then
    if g.pendOn then
      let l := (upto (s.gLen p)).foldl (fun t k => tset 0 k (s.gAdm p k) t) []
      s.setGate p { g with
        oper := l, operLen := s.gLen p, operCycle := s.gCycle p, on := true, entry := 0, entryAt := g.chg
        cycleAt := g.chg, pending := false }
    else s.setGate p { g with oper := [], operLen := 0, on := false, entry := 0, pending := false }
  else s

/-- When the entry that starts at `at_` ends (R236): the list is cut at the cycle, the last entry holds to its end. -/
def Gate.endOf (g : Gate) (k at_ cycleAt : Nat) : Nat :=
  let stop := cycleAt + g.operCycle
  if g.operLen ≤ k + 1 then stop else min stop (at_ + fld (tget 0 g.oper k) 31 8)

/-- The entry after entry `k`: (entry, start, cycle start). -/
def Gate.after (g : Gate) (k at_ cycleAt : Nat) : Nat × Nat × Nat :=
  let e := g.endOf k at_ cycleAt
  if g.operLen ≤ k + 1 ∨ cycleAt + g.operCycle ≤ e then (0, cycleAt + g.operCycle, cycleAt + g.operCycle) else (k + 1, e, cycleAt)

/-- GATE_ENTRY_ADVANCE (R236). -/
def State.gateAdvanceOp (s : State) (p : Nat) : State :=
  let g := s.gate p
  if s.live && decide (p < 2) && g.on && decide (g.endOf g.entry g.entryAt g.cycleAt ≤ s.now) then
    let n := g.after g.entry g.entryAt g.cycleAt
    s.setGate p { g with entry := n.1, entryAt := n.2.1, cycleAt := n.2.2 }
  else s

/-- When the gate of class `tc` closes, at or after the present entry, looking `fuel` entries ahead; `none` for never. -/
def Gate.closes (g : Gate) (tc : Nat) : Nat → Nat → Nat → Nat → Option Nat
  | 0, _, _, _ => none
  | fuel + 1, k, at_, cyc =>
    if bit (tget 0 g.oper k) tc then
      let n := g.after k at_ cyc
      g.closes tc fuel n.1 n.2.1 n.2.2
    else some at_

/-- A frame of `wire` bytes of class `tc` may start at port `p` (R227, R236): its gate is open and it ends before the gate
closes, by the operating list and by a pending change. -/
def State.gateOpen (s : State) (p tc wire : Nat) : Bool :=
  let g := s.gate p
  let rate := if s.laneMode p = 1 then 100000000000 else if s.laneMode p = 2 then 200000000000 else 400000000000
  let fin := s.now + ceilDiv (wire * 8 * second) rate
  let later (t : Option Nat) : Bool := match t with
    | some t => decide (fin ≤ t)
    | none => true
  if !g.on then true
  else bit (tget 0 g.oper g.entry) tc && later (g.closes tc (g.operLen + 1) g.entry g.entryAt g.cycleAt)
    && (!(g.pending && g.pendOn && !bit (s.gAdm p 0) tc) || later (some g.chg))

/-- Bytes on the wire of a frame of `n` bytes without FCS: FCS, minimum size, preamble and gap (Table 10.2, R236). -/
def wireBytes (n : Nat) : Nat := max 64 (n + 4) + 20

/-- Ethernet bytes of an RTP packet without FCS (R211). -/
def rtpFrame (e : List Byte) (pay : Nat) : Nat :=
  14 + (if nbit (leAt e 6 2) 15 then 4 else 0) + (if flIp6 e then 40 else 20) + 8 + 12 + pay + (if flSrtp e then 16 else 0)

/-- A head unit starts its flow's next picture. -/
def QUnit.starts (q : QUnit) : Bool := q.fresh && q.firstOfPic

/-- The entry under which a subscriber's next packet goes (R213, R219): at a picture's first packet the committed entry
applies and next_slot takes over. -/
def Sub.nextEntry (x : Sub) (q : QUnit) : List Byte :=
  if q.starts ∨ x.flow.isEmpty then
    let e := x.flowNext
    if flNextSlot e = 0xFFFF then e else putBytes (putBytes e 0x2C (leBytes 2 (flNextSlot e))) 0x2E (leBytes 2 0xFFFF)
  else x.flow

/-- The subscriber's next packet switches slots (R213). -/
def Sub.switches (x : Sub) (q : QUnit) : Bool := q.starts && flNextSlot x.flowNext != 0xFFFF

/-- Key slot `k` holds a key (R390). -/
def State.slotFull (s : State) (k : Nat) : Bool := !(tget [] s.sec.keys k).isEmpty

/-- Size of a function's host packet ring, 0 when disabled (HIF_HPR_SIZE). -/
def Func.hprEntries (f : Func) : Nat :=
  if (f.hprLo = 0 ∧ f.hprHi = 0) ∨ f.hprSize < 4 ∨ 12 < f.hprSize then 0 else 2 ^ f.hprSize

/-- A free entry is left in the ring of function `fn` (R344). -/
def State.hprRoom (s : State) (fn : Nat) : Bool :=
  let f := s.fn fn
  let n := f.hprEntries
  n != 0 && (f.hprTail + 1) % n != f.hprHead % n

/-- A subscriber that can send its head packet from port `p`. -/
structure Cand where
  sub : Nat
  svc : Nat
  q : QUnit
  isLive : Bool
deriving DecidableEq, Repr

/-- The head packet of subscriber `n` is eligible at its own level and at port `p` (R224 to R227, R213, R344). -/
def State.candOf (s : State) (p n : Nat) : Option Cand :=
  let x := s.sub n
  let k := s.subSvc n
  match x.queue with
  | [] => none
  | q :: _ =>
    let e := x.nextEntry q
    let recoding := match s.unitOf { ses := q.ses, pic := q.pic, idx := q.band } with
      | some (_, w) => w.recode
      | none => false
    let flow := if p < 2 then
        (!x.stopped || s.slotFull (flKeySlot e)) && (!x.limit || x.switches q) &&
          s.gateOpen p (fld (s.svc k).d2 6 4) (wireBytes (rtpFrame e (q.pkts.headD {}).bytes))
      else p != 2 || s.hprRoom (leAt x.entry 0 2)
    if bit (tget 0 x.d 0) 31 && s.subNow n == p && bit (s.svc k).d0 31 && !recoding && flow
        && s.passes (.sub n) (!q.fresh) then
      some { sub := n, svc := k, q := q, isLive := bit (s.svc k).d0 30 }
    else none

/-- Eligible subscribers of port `p`, ascending. -/
def State.cands (s : State) (p : Nat) : List Cand := s.subs.filterMap fun e => s.candOf p e.1

/-- The live packet that goes next (R227 step 1): the earliest commit, then the lower subscriber. -/
def liveFirst : List Cand → Option Cand
  | [] => none
  | c :: t => match liveFirst t with
    | some d => if d.q.commit < c.q.commit then some d else some c
    | none => some c

/-- Within a service (R227): a subscriber in a train keeps the turn, else the next in number. -/
def inService (last : Nat) (whole : Cand → Bool) (g : List Cand) : Option Cand :=
  match g.find? fun c => c.sub == last && !c.q.fresh && whole c with
  | some c => some c
  | none => match g.find? fun c => decide (last < c.sub) with
    | some c => some c
    | none => g.head?

/-- The service after `k` in a ring of services, ascending. -/
def ringNext (ring : List Nat) (k : Nat) : Nat := (ring.find? fun j => decide (k < j)).getD (ring.headD 0)

/-- Deficit round robin within one priority (R227 step 2), from service `cur`: the packet that goes and the state with its
deficits. -/
def State.drr (s : State) (p : Nat) (ring : List Nat) (cs : List Cand) : Nat → Nat → State × Option Cand
  | 0, _ => (s, none)
  | fuel + 1, cur =>
    let v := s.svc cur
    let whole (c : Cand) : Bool := (s.shape (.sub c.sub)).whole || (s.shape (.svc c.svc)).whole
    let nxt := ringNext ring cur
    let turn (s : State) : State :=
      let y := s.svc nxt
      s.setSvc nxt { y with deficit := y.deficit + fld y.d2 15 8 }
    match inService v.lastSub whole (cs.filter fun c => c.svc == cur) with
    | some c =>
      if 1 ≤ v.deficit ∨ (!c.q.fresh ∧ whole c) then
        let s := s.setSvc cur { v with deficit := v.deficit - 1, lastSub := c.sub }
        (s.setEth p { s.eth p with turn := cur }, some c)
      else (turn s).drr p ring cs fuel nxt
    | none => (turn (s.setSvc cur { v with deficit := 0 })).drr p ring cs fuel nxt

/-- The non-live packet that goes next (R227 step 2). -/
def State.nonLive (s : State) (p : Nat) (cs : List Cand) : State × Option Cand :=
  let cs := cs.filter fun c => !c.isLive && s.passes (.svc c.svc) (!c.q.fresh)
  match (upto 8).find? fun pr => cs.any fun c => fld (s.svc c.svc).d2 2 0 == pr with
  | none => (s, none)
  | some pr =>
    let ring := (s.svcs.filter fun e => e.1 / 64 == p && bit e.2.d0 31 && !bit e.2.d0 30 && fld e.2.d2 2 0 == pr).map (·.1)
    let cur := (s.eth p).turn
    let cs := cs.filter fun c => fld (s.svc c.svc).d2 2 0 == pr
    if ring.contains cur then s.drr p ring cs (2 * ring.length + 2) cur
    else
      let k := ring.headD 0
      let y := s.svc k
      (s.setSvc k { y with deficit := y.deficit + fld y.d2 15 8 }).drr p ring cs (2 * ring.length + 2) k

/-- The packet has left its queue (R166): pages read to their last line are released, with the unit's last packet all of
them. -/
def State.takePkt (s : State) (n : Nat) : State :=
  let x := s.sub n
  match x.queue with
  | [] => s
  | q :: t =>
    let k := q.pkts.headD {}
    let sent := k.at_ + k.cover
    let rest := q.pkts.tail
    let k := if rest.isEmpty then q.pages.length else sent / 16384 - q.sent / 16384
    let q' := { q with pkts := rest, sent := sent, fresh := false, pages := q.pages.drop k }
    let s := s.setSub n { x with queue := if rest.isEmpty then t else q' :: t }
    (s.releasePages q.consumer (q.pages.take k)).pruneKept q.ses

/-- Charges of a packet (R224, R230), and a late live packet (R231). -/
def State.chargeAll (s : State) (p : Nat) (c : Cand) : State :=
  let s := (((s.charge (.sub c.sub)).charge (.svc c.svc)).charge (.port p)).count 0x10 p
  if c.isLive ∧ c.q.commit + 216216 < s.now then (s.bump 0xE0100).count 0x11 p else s

/-- The source address of port `p` (MGL_ETHn_IP4, _IP6). -/
def State.portIp (s : State) (p : Nat) (ip6 : Bool) : List Byte :=
  let w (i : Nat) : List Byte := beBytes 4 (s.reg (ethBase p + 0x10 + 4 * i)).toNat
  if ip6 then w 1 ++ w 2 ++ w 3 ++ w 4 else w 0

/-- The frame of subscriber `n`'s next packet at port `p`, of a picture with RTP timestamp `ts`, over its unit bytes `d` (R201, R208 to
R212). -/
def State.rtpFrameOf (s : State) (p n : Nat) (q : QUnit) (ts : Nat) (d : List Byte) : List Byte :=
  let x := s.sub n
  let e := x.flow
  let marker := q.lastOfPic && decide (q.pkts.length ≤ 1)
  let hdr := rtpHdr e x.seq ts marker
  let pay := payload q.codec (q.fresh && q.newSeq) marker (q.pkts.headD {}).form d
  let data := hdr ++ protect e (tget [] s.sec.keys (flKeySlot e)) hdr pay x.roc x.seq
  ethFrame e (beBytes 6 (s.portMac p)) (ipPart e (s.portIp p (flIp6 e)) data (Config.ipIdent n x.seq) (Config.flowLabel n))

/-- The RTP packet of an Ethernet subscriber goes out (R209, R212, R217). -/
def State.sendRtp (s : State) (p : Nat) (c : Cand) (d : List Byte) : State :=
  let x := s.sub c.sub
  let e := x.flow
  let pay := (c.q.pkts.headD {}).bytes
  let ts := (c.q.pts / 16016 + flTsOffset e) % 2 ^ 32
  let marker := c.q.lastOfPic && decide (c.q.pkts.length ≤ 1)
  let frame := s.rtpFrameOf p c.sub c.q ts d
  let s := s.setSub c.sub { x with
    seq := (x.seq + 1) % 65536, roc := if x.seq = 65535 then (x.roc + 1) % 2 ^ 32 else x.roc }
  let s := (s.takePkt c.sub).chargeAll p c
  if (s.eth p).link then
    (s.bump (ethCnt p 5)).emit (.rtp p c.sub x.seq ts marker pay (if flSrtp e then some x.roc else none) (flKeySlot e) frame)
  else s.bump (ethCnt p 6)

/-- Hand-off of an Ethernet packet (R171, R212 to R214): the entry for it takes force, then the slot, the index limit, the
line labels and the loopback decide; `d` are its unit bytes. -/
def State.handEth (s : State) (p : Nat) (c : Cand) (chk : EgressCheck) (d : List Byte) : State :=
  let x := s.sub c.sub
  let sw := x.switches c.q
  let e := x.nextEntry c.q
  let s := s.setSub c.sub { x with
    flow := e, flowNext := if sw then e else x.flowNext
    seq := if sw ∧ x.limit then 0 else x.seq, roc := if sw ∧ x.limit then 0 else x.roc
    limit := x.limit && !sw, stopped := false }
  let x := s.sub c.sub
  let u : UnitRef := { ses := c.q.ses, pic := c.q.pic, idx := c.q.band }
  if flSrtp e ∧ ¬ s.slotFull (flKeySlot e) then
    ((s.setSub c.sub { x with stopped := true }).takePkt c.sub).bump (ethCnt p 6)
  else if flSrtp e ∧ 2 ^ 48 - 1 ≤ x.roc * 65536 + x.seq then
    (s.setSub c.sub { x with limit := true }).post 0 (some 4) (s.evRec (0x092 + p) 2 (w32 c.sub))
  else match chk with
    | .good => s.sendRtp p c d
    | .labelFail => (s.pageFailed u).raiseDev 18 0 c.q.ses
    | .loopOnce => ((s.bump (ethCnt p 7)).raiseDev 19 0 c.q.ses).sendRtp p c d
    | .loopTwice =>
      let s := ((s.bump (ethCnt p 7) 2).raiseDev 19 0 c.q.ses).raiseDev 19 0 c.q.ses
      s.giveUpUnit u

/-- The header of a host packet ring entry (R343). -/
def hprHeader (x : Sub) (c : Cand) : List Byte :=
  let flags := b2n (decide (c.q.pkts.length ≤ 1)) + 2 * b2n c.q.fresh + 4 * b2n c.q.key + 8 * b2n c.q.lastOfPic
  leBytes 2 (c.q.pkts.headD {}).bytes ++ leBytes 2 flags ++ leBytes 2 c.sub ++ leBytes 2 0
    ++ leBytes 4 (leAt x.entry 4 4) ++ leBytes 4 (c.q.pic % 2 ^ 24)

/-- Hand-off of a HOST packet (R343, R344). -/
def State.handHost (s : State) (c : Cand) (ok : Bool) (d : List Byte) : State :=
  if !ok then (s.pageFailed { ses := c.q.ses, pic := c.q.pic, idx := c.q.band }).raiseDev 18 0 c.q.ses
  else
    let x := s.sub c.sub
    let fn := leAt x.entry 0 2
    let f := s.fn fn
    let entry := hprHeader x c ++ startCodes c.q.slots (c.q.pkts.headD {}).at_ d
    let s := s.emit (.hpr fn f.hprTail (entry ++ List.replicate (2048 - entry.length) 0))
    let tail := (f.hprTail + 1) % f.hprEntries
    let s := (s.setFn fn { s.fn fn with hprTail := tail }).setSub c.sub { x with flow := x.nextEntry c.q }
    let s := (s.takePkt c.sub).chargeAll 2 c
    if c.q.pkts.length ≤ 1 then s.post fn (some 6) (s.evRec 0x094 1 (w32 tail) c.q.ses) else s

/-- Hand-off of a LINE packet: a PKT frame (R369). -/
def State.handLine (s : State) (c : Cand) (ok : Bool) (d : List Byte) : State :=
  if !ok then (s.pageFailed { ses := c.q.ses, pic := c.q.pic, idx := c.q.band }).raiseDev 18 0 c.q.ses
  else
    let x := s.sub c.sub
    let s := s.setSub c.sub { x with flow := x.nextEntry c.q }
    let last := b2n (decide (c.q.pkts.length ≤ 1))
    let s := (s.takePkt c.sub).chargeAll 3 c
    s.sendTo ftPkt (leAt x.entry 0 4 % 2 ^ 18) last ([c.sub, (c.q.pkts.headD {}).bytes] ++ d.map (·.toNat))

/-- A host transmit frame (R216, R227 step 3): lowest precedence, traffic class 0, never charged. The 64 bytes of its ring entry, and
the frame that the entry's address holds. -/
def State.handHtx (s : State) (p : Nat) (htx : List Byte) : State :=
  let entry := htx.take 64
  let size := s.ethRing p 0x48
  let i := (s.eth p).htxHead
  let tail := fld (s.reg (ethBase p + 0x54)) 11 0
  let len := leAt entry 8 2
  let skip := decide (len < 60) || decide (9212 < len)
  if size = 0 ∨ i % size = tail % size ∨ entry.length ≠ 64 ∨ ¬ ownerBit entry then s
  else if !skip && !s.gateOpen p 0 (wireBytes len) then s
  else
    let s := s.setEth p { s.eth p with htxHead := (i + 1) % size }
    if skip then s.emit (.htxDone p i 0)
    else
      let data := (htx.drop 64).take len
      let frame := withFcs (data ++ List.replicate (len - data.length) 0)
      let stamp := if nbit (leAt entry 10 2) 0 then some (s.txStamp p) else none
      let s := if (s.eth p).link then (s.bump (ethCnt p 5)).emit (.hostFrame p i stamp frame) else s.bump (ethCnt p 6)
      s.emit (.htxDone p i (stamp.getD 0))

/-- The mangle reads the hamper lines that hold the next packet of a queued unit, and verifies each (R25): the packet's unit bytes. -/
def State.readPkt (s : State) (q : QUnit) : State × Option (List Byte) :=
  let k := q.pkts.headD {}
  let o := k.at_ - q.sent / 16384 * 16384
  let n := o % 64 + k.cover
  if q.pages.isEmpty then (s, some [])
  else
    let r := s.readLines q.pages (ceilDiv n 64) (o / 64) n
    (r.1, match r.2 with
      | .ok d => some (d.drop (o % 64))
      | .error _ => none)

/-- Hand a selected packet to its port, once its lines have been read. -/
def State.handOff (s : State) (p : Nat) (c : Cand) (chk : EgressCheck) : State :=
  let r := s.readPkt c.q
  let d := r.2.getD []
  let chk := if r.2.isSome then chk else .labelFail
  if p < 2 then r.1.handEth p c chk d
  else if p = 2 then r.1.handHost c (chk == .good) d
  else r.1.handLine c (chk == .good) d

/-- PACKET_SELECT (R227): port `p` selects and hands off at most one packet: live, non-live, host. Pages that it released let waiting
pictures be tested again (R79). -/
def State.selectOp (s : State) (p : Nat) (htx : List Byte) (chk : EgressCheck) : State :=
  if !s.live || decide (4 ≤ p) || (decide (p < 2) && s.laneMode p == 0) then s
  else
    let cs := s.cands p
    let pc := (s.bucket (.port p)).c
    let portHas := (s.shape (.port p)).has
    let live := if portHas && decide (pc ≤ creditFloor) then none else liveFirst (cs.filter (·.isLive))
    match live with
    | some c => (s.handOff p c chk).retestAll
    | none =>
      let r := if s.passes (.port p) false then s.nonLive p cs else (s, none)
      match r.2 with
      | some c => (r.1.handOff p c chk).retestAll
      | none => if p < 2 then r.1.handHtx p htx else r.1

/-- UNIT_STALE (R232): units of subscriber `n` past their stale limit lose their remaining packets. -/
def State.staleOp (s : State) (n : Nat) : State :=
  let x := s.sub n
  let lim := (tget 0 x.d 3).toNat
  let old (q : QUnit) : Bool := decide (q.commit + lim ≤ s.now)
  if s.live && lim != 0 then
    let gone := x.queue.filter old
    let s := s.setSub n { x with queue := x.queue.filter fun q => !old q }
    gone.foldl (fun s q => ((s.dropUnit q).pruneKept q.ses).bump 0xE0108) s
  else s

/-- A write of an Ethernet port's window at `r` (R219, R236 to R238). -/
def State.ethWrite (s : State) (p r : Nat) (v : Word) : State :=
  let off := ethBase p + r
  let put (m : Nat) : State := s.setReg off (maskW m v)
  let held := (s.gate p).pending
  if r = 0x00 then put 0x7
  else if r = 0x08 then put 0xFFFFFFFF
  else if r = 0x0C then if isMulticast (fld v 15 0 * 2 ^ 32) then s.ignored off v else put 0xFFFF
  else if 0x10 ≤ r ∧ r ≤ 0x20 then put 0xFFFFFFFF
  else if r = 0x24 then if fld v 13 0 < 1280 ∨ 9194 < fld v 13 0 then s.ignored off v else put 0x3FFF
  else if r = 0x28 then s.setEth p { s.eth p with lat := some v }
  else if r = 0x2C then if v = 0 then s.ignored off v else put 0xFFFFFFFF
  else if r = 0x30 ∨ r = 0x48 then put 0xFFFFFFC0
  else if r = 0x34 ∨ r = 0x4C then put 0xFFFFFFFF
  else if r = 0x38 ∨ r = 0x50 then put 0xF
  else if r = 0x3C then if s.ethRing p 0x30 ≤ fld v 11 0 then s.ignored off v else put 0xFFF
  else if r = 0x54 then s.htxTail p v
  else if 0x100 ≤ r ∧ r ≤ 0x124 then s.setReg off 0
  else if r = 0x140 then s.gateCtl p v
  else if r = 0x144 ∨ r = 0x148 ∨ r = 0x14C then if held then s.ignored off v else put 0xFFFFFFFF
  else if r = 0x150 then
    if held ∨ fld v 8 0 = 0 ∨ 256 < fld v 8 0 then s.ignored off v else put 0x1FF
  else if 0x400 ≤ r ∧ r < 0x800 then if held then s.ignored off v else put 0xFFFFFFFF
  else s.ignored off v

/-- A write of the MGL block at block offset `o` (R219, R241). -/
def State.mglWrite (s : State) (o : Nat) (v : Word) : State :=
  if 0x100 ≤ o ∧ o ≤ 0x110 then s.setReg (0xE0000 + o) 0
  else if o = 0x1000 then s.subSel v
  else if o = 0x1010 then s.setReg 0xE1010 (maskW 0xBFFFFFFF v)
  else if o = 0x1014 ∨ o = 0x101C then s.setReg (0xE0000 + o) v
  else if o = 0x1018 then s.setReg 0xE1018 (maskW 0xFFFF v)
  else if o = 0x2000 then s.svcSel v
  else if o = 0x2010 ∨ o = 0x2014 then s.setReg (0xE0000 + o) v
  else if o = 0x2018 then s.setReg 0xE2018 (maskW 0xFF77 v)
  else if 0x3000 ≤ o ∧ o < 0x3040 ∧ o % 16 = 0 then s.portShape ((o - 0x3000) / 16) false v
  else if 0x3000 ≤ o ∧ o < 0x3040 ∧ o % 16 = 4 then s.portShape ((o - 0x3000) / 16) true v
  else if 0x8000 ≤ o ∧ o < 0xA000 then s.ethWrite ((o - 0x8000) / 0x1000) (o % 0x1000) v
  else if o = 0xA000 then s.flowSel v
  else if 0xA040 ≤ o ∧ o < 0xA080 then s.setReg (0xE0000 + o) v
  else s.ignored (0xE0000 + o) v


/-- FLOW_LOAD: a write of MGL_FLOW_SEL with load set. -/
def execFlowLoad (v : Word) (s : State) : Host.Outcome State Fault Refusal := .next (s.whenLive (·.flowSel (v ||| 0x2000)))

/-- FLOW_COMMIT: a write of MGL_FLOW_SEL with commit set. -/
def execFlowCommit (v : Word) (s : State) : Host.Outcome State Fault Refusal := .next (s.whenLive (·.flowSel (v ||| 0x4000)))

/-- CREDIT_RISE. -/
def execCreditRise (b : BucketId) (s : State) : Host.Outcome State Fault Refusal := .next (s.riseOp b)

/-- PACKET_SELECT. -/
def execPacketSelect (p : Nat) (htx : List Byte) (chk : EgressCheck) (s : State) : Host.Outcome State Fault Refusal :=
  .next (s.selectOp p htx chk)

/-- UNIT_STALE. -/
def execUnitStale (n : Nat) (s : State) : Host.Outcome State Fault Refusal := .next (s.staleOp n)

/-- SUB_LOAD: a write of MGL_SUB_SEL with load set. -/
def execSubLoad (v : Word) (s : State) : Host.Outcome State Fault Refusal := .next (s.whenLive (·.subSel (v ||| 0x2000)))

/-- SUB_COMMIT: a write of MGL_SUB_SEL with commit set. -/
def execSubCommit (v : Word) (s : State) : Host.Outcome State Fault Refusal := .next (s.whenLive (·.subSel (v ||| 0x4000)))

/-- SUB_FLUSH: a write of MGL_SUB_SEL with flush set. -/
def execSubFlush (v : Word) (s : State) : Host.Outcome State Fault Refusal := .next (s.whenLive (·.subSel (v ||| 0x8000)))

/-- SVC_LOAD: a write of MGL_SVC_SEL with load set. -/
def execSvcLoad (v : Word) (s : State) : Host.Outcome State Fault Refusal := .next (s.whenLive (·.svcSel (v ||| 0x2000)))

/-- SVC_COMMIT: a write of MGL_SVC_SEL with commit set. -/
def execSvcCommit (v : Word) (s : State) : Host.Outcome State Fault Refusal := .next (s.whenLive (·.svcSel (v ||| 0x4000)))

/-- PORT_SHAPE_WRITE: a write of MGL_PORTn_SHAPE. -/
def execPortShapeWrite (p : Nat) (v : Word) (s : State) : Host.Outcome State Fault Refusal :=
  .next (s.whenLive fun s => if p < 4 then s.portShape p false v else s)

/-- GATE_CHANGE: a write of MGL_ETHn_GCTL with change set. -/
def execGateChange (p : Nat) (v : Word) (s : State) : Host.Outcome State Fault Refusal :=
  .next (s.whenLive fun s => if p < 2 then s.gateCtl p (v ||| 0x2) else s)

/-- GATE_CANCEL: a write of MGL_ETHn_GCTL with cancel set and change clear. -/
def execGateCancel (p : Nat) (v : Word) (s : State) : Host.Outcome State Fault Refusal :=
  .next (s.whenLive fun s => if p < 2 then s.gateCtl p (maskW 0x1 v ||| 0x4) else s)

/-- GATE_LIST_START. -/
def execGateListStart (p : Nat) (s : State) : Host.Outcome State Fault Refusal := .next (s.gateStartOp p)

/-- GATE_ENTRY_ADVANCE. -/
def execGateEntryAdvance (p : Nat) (s : State) : Host.Outcome State Fault Refusal := .next (s.gateAdvanceOp p)

end Sys2Proof.Machine
end

