-- ==== Sys2Proof/Machine/Hif.lean ====
section
/-!
DEFINITION. The host port (R329 to R353): the PCIe link, function-level resets and VF ranges (R333, R335), baskets and MSI-X
(R346 to R349), claims of pending-bit sources (R352), and the writes of the HIF block and of the VF windows.
-/
namespace Sys2Proof.Machine

/-- HIF_LINK (R353). -/
def linkWord (speed width : Nat) (flit : Bool) : Word := mkWord [(0, speed % 8), (4, width % 32), (9, b2n flit), (10, 1)]

/-- The PCIe link is up. -/
def State.linkUp (s : State) : Bool := bit s.hif.link 10

/-- Write the link state. -/
def State.setLink (s : State) (w : Word) : State := { s with hif := { s.hif with link := w } }

/-- PCIE_LINK_UP (R329): the link trains in boot, wake and service. -/
def State.pcieUpOp (s : State) (speed width : Nat) (flit : Bool) : State :=
  if s.pwr.life = .held ∨ s.pwr.life = .standby ∨ s.pwr.life = .rejected ∨ s.pwr.tripped ∨ speed = 0 ∨ 6 < speed
    ∨ ¬ (width = 1 ∨ width = 2 ∨ width = 4 ∨ width = 8 ∨ width = 16) then s
  else s.setLink (linkWord speed width flit)

/-- PCIE_LINK_DOWN (R330): loss of a link that was up raises class 1 in a device in service. -/
def State.pcieDownOp (s : State) : State :=
  if s.linkUp then
    let live := s.live
    let s := s.setLink 0
    if live then s.raiseDev 1 else s
  else s

/-- Count an ignored write of a function's own register at offset `o` of its HIF window (R353). -/
def State.ignFn (s : State) (fn o : Nat) (v : Word) : State := if fn = 0 then s.ignored (0x30000 + o) v else s.ignoredVf fn o v

/-- Sessions of VF `vf`, ascending, that are not CLOSED. -/
def State.vfSessions (s : State) (vf : Nat) : List Nat :=
  let r := s.vfRange vf
  (s.sessions.filter fun e => decide (r.1 ≤ e.1) && decide (e.1 < r.1 + r.2) && e.2.st != .closed).map (·.1)

/-- Flush the queues of the subscribers on HOST that name function `fn` (R344). -/
def State.flushHost (s : State) (fn : Nat) : State :=
  (s.subs.map (·.1)).foldl (fun s k => if s.subNow k = 2 ∧ leAt (s.sub k).flow 0 2 = fn ∨ s.subNow k = 2 ∧ leAt (s.sub k).flowNext 0 2 = fn
    then s.flushSub k else s) s

/-- VF_FLR (R335 steps 1 and 2, R344): admission stops, ARCHIVE units are abandoned, host writes end, the host packet ring is
disabled. -/
def State.vfFlrOp (s : State) (vf : Nat) : State :=
  if !s.live || vf == 0 || decide (63 < vf) || s.hif.flr.contains vf then s
  else
    let s := { s with hif := { s.hif with flr := s.hif.flr ++ [vf] } }
    let s := (upto s.nTiles).foldl (fun s t => match (s.tile t).work with
      | some u => if s.owner u.ses = vf ∧ (s.ses u.ses).cls = clsArchive then s.askAbandon 5 t else s
      | none => s) s
    let f := s.fn vf
    (s.setFn vf { f with hprLo := 0, hprHi := 0 }).flushHost vf

/-- VF_ENABLE_CLEAR (R335): an FLR of every VF. -/
def State.vfEnableOp (s : State) : State := (upto 63).foldl (fun s k => s.vfFlrOp (k + 1)) s

/-- A unit of session `n` still runs, or waits for a tile that it will get (R335 step 2). -/
def State.unitsLeft (s : State) (n : Nat) : Bool :=
  let x := s.ses n
  ((upto s.nTiles).any fun t => match (s.tile t).work with
    | some u => u.ses == n
    | none => false) ||
  (x.cls != clsArchive && x.workPics.any fun p => !p.doomed && p.units.any fun u => u.st == .ready || u.st == .running)

/-- Close a session of a VF under FLR (R335 steps 3 and 4): a destination fails its source's migration first. -/
def State.flrClose (s : State) (n : Nat) : State :=
  let x := s.ses n
  let s := match x.mig with
    | some g =>
      if x.st == .migrating && !g.out then
        match s.migPeer n with
        | some m => if (s.ses m).st == .migrating then s.migFail m else s.migDstFail n
        | none => s.migDstFail n
      else s
    | none => s
  if (s.ses n).st = .closed then s else s.closeOp n

/-- FLR_COMPLETE (R335 steps 3 to 5). -/
def State.flrDoneOp (s : State) (vf : Nat) : State :=
  if s.live && s.hif.flr.contains vf && (s.vfSessions vf).all (fun n => !s.unitsLeft n) then
    let s := (s.vfSessions vf).foldl (fun s n => s.flrClose n) s
    let s := s.setFn vf {}
    let s := (upto 4).foldl (fun s k => s.setReg (vf * 2 ^ 24 + 0x30 + 4 * k) 0) s
    { s with hif := { s.hif with flr := s.hif.flr.erase vf } }
  else s

/-- Every session of a range is CLOSED. -/
def State.rangeClosed (s : State) (base count : Nat) : Bool :=
  s.sessions.all fun e => !(decide (base ≤ e.1) && decide (e.1 < base + count)) || e.2.st == .closed

/-- A write of HIF_VFn_SESS (R333). -/
def State.vfSess (s : State) (vf : Nat) (v : Word) : State :=
  let off := 0x31000 + 0x10 * vf
  let old := s.vfRange vf
  let b := fld v 11 0
  let c := fld v 25 16
  let clash := (upto 63).any fun k =>
    let o := s.vfRange (k + 1)
    k + 1 != vf && decide (b < o.1 + o.2) && decide (o.1 < b + c) && c != 0 && o.2 != 0
  if 960 < c ∨ 4096 < b + c ∨ clash ∨ ¬ s.rangeClosed old.1 old.2 ∨ ¬ s.rangeClosed b c then s.ignored off v
  else s.setReg off (maskW 0x3FF0FFF v)

/-- A write of a VF's registers in the PF's window (R333, R353). -/
def State.vfRegs (s : State) (vf o : Nat) (v : Word) : State :=
  let off := 0x31000 + 0x10 * vf + o
  let r := s.vfRange vf
  if vf = 0 ∨ 63 < vf then s.ignored off v
  else if o = 0 then s.vfSess vf v
  else if o = 4 ∨ o = 8 then if s.rangeClosed r.1 r.2 then s.setReg off (maskW 0xFFFF v) else s.ignored off v
  else s.ignored off v

/-- A write of BKT_CTL (R346, R348, R349). -/
def State.bktCtl (s : State) (fn : Nat) (v : Word) : State :=
  let f := s.fn fn
  if bit v 0 then
    if f.enable then s
    else if f.size < 6 ∨ 16 < f.size then s.ignFn fn 0x100 v
    else s.setFn fn { f with enable := true, head := 0, tail := 0, phase := true, armed := true, hold := [] }
  else if f.enable then
    s.setFn fn { f with
      enable := false, hold := [], armed := false
      lost := min 0xFFFF (f.lost + (f.hold.map (·.count)).foldl (· + ·) 0) }
  else s

/-- A write of BKT_HEAD (R346 to R348): it arms the basket and drains the hold; unread records left send the message at once,
which disarms it. -/
def State.bktHead (s : State) (fn : Nat) (v : Word) : State :=
  let f := s.fn fn
  let h := fld v 15 0
  let n := f.entries
  if !f.enable || decide (n ≤ h) || decide ((f.tail + n - f.head) % n < (h + n - f.head) % n) then s.ignFn fn 0x110 v
  else
    let s := s.setFn fn { f with head := h, armed := true }
    let s := s.drainHold fn 64
    let f := s.fn fn
    if f.armed ∧ f.unread then (s.setFn fn { f with armed := false }).message fn else s

/-- A write of a basket register at basket offset `o` (R353). -/
def State.bktWrite (s : State) (fn o : Nat) (v : Word) : State :=
  let f := s.fn fn
  if o = 0 then s.bktCtl fn v
  else if o = 4 ∧ ¬ f.enable then s.setFn fn { f with baseLo := maskW 0xFFFFFFC0 v }
  else if o = 8 ∧ ¬ f.enable then s.setFn fn { f with baseHi := v }
  else if o = 0xC ∧ ¬ f.enable then s.setFn fn { f with size := fld v 4 0 }
  else if o = 0x10 then s.bktHead fn v
  else if o = 0x18 then s.setFn fn { f with mod := v }
  else if o = 0x1C then s.setFn fn { f with lost := 0, masked := 0 }
  else if o = 0x20 then s.setFn fn { f with mask := fld v 6 0 }
  else s.ignFn fn (0x100 + o) v

/-- An enabled HOST subscriber names function `fn` (R344). -/
def State.hprNamed (s : State) (fn : Nat) : Bool :=
  s.subs.any fun e => bit (tget 0 e.2.d 0) 31 && s.subNow e.1 == 2 && leAt (if e.2.flow.isEmpty then e.2.flowNext else e.2.flow) 0 2 == fn

/-- A write of a host packet ring register, `o` from HPR_LO (R344, R353). -/
def State.hprWrite (s : State) (fn o : Nat) (v : Word) : State :=
  let f := s.fn fn
  let no := s.ignFn fn (0x140 + o) v
  if o = 0x0C then if fld v 11 0 < f.hprEntries then s.setFn fn { f with hprHead := fld v 11 0 } else no
  else if s.hprNamed fn then no
  else if o = 0 then s.setFn fn { f with hprLo := maskW 0xFFFFFFC0 v }
  else if o = 4 then s.setFn fn { f with hprHi := v }
  else if o = 8 then s.setFn fn { f with hprSize := fld v 3 0 }
  else no

/-- The waiting message of a function is due: BKT_MOD has passed (R348). -/
def State.modExpiry (s : State) (fn : Nat) : State :=
  let f := s.fn fn
  let due := match f.lastMsg with
    | some t => decide (t + f.mod.toNat ≤ s.now)
    | none => true
  if s.live && f.msgDue && due then s.message fn else s

/-- MSI-X masks as they now stand; a pending message is sent once nothing masks it (R348). -/
def State.setMasks (s : State) (fn : Nat) (enable fnMask vecMask : Bool) : State :=
  let f := { s.fn fn with msixEn := enable, fnMask := fnMask, vecMask := vecMask }
  if f.unmasked ∧ f.pba then (s.setFn fn { f with pba := false }).message fn else s.setFn fn f

/-- A write of the MSI-X table entry at word offset `o` (R332): address low (4-byte aligned), address high, data, Vector
Control. -/
def State.msixWrite (s : State) (fn o : Nat) (v : Word) : State :=
  let f := s.fn fn
  if o = 0xC then s.setMasks fn f.msixEn f.fnMask (bit v 0)
  else s.setFn fn { f with table := tset 0 o (if o = 0 then maskW 0xFFFFFFFC v else v) f.table }

/-- A read of HIF_CLAIM (R352): the lowest pending enabled source is claimed; a level source goes into service. -/
def State.claim (s : State) : State :=
  match (setBits (s.hif.pend &&& s.hif.pendEn) 32).head? with
  | some n =>
    let d := (tget {} s.hif.info n).detail
    let s := s.clearPend n
    if levelSource n then
      { s with hif := { s.hif with inService := s.hif.inService ||| 2 ^ n, info := tset {} n { detail := d } s.hif.info } }
    else s
  | none => s

/-- The value that a read of HIF_CLAIM returns (R350, R352). -/
def State.claimValue (s : State) : Word :=
  match (setBits (s.hif.pend &&& s.hif.pendEn) 32).head? with
  | some n => w32 (0x40 + n)
  | none => 0xFFF

/-- The record of pending source `n` (R352). -/
def State.pendRecord (s : State) (n : Nat) : BktRec :=
  let i := tget {} s.hif.info n
  { src := 0x40 + n, typ := 3, count := max 1 i.count, detail := i.detail, time := i.time, ses := i.ses }

/-- A write of HIF_EOI (R352). -/
def State.eoi (s : State) (v : Word) : State :=
  let n := fld v 4 0
  if !levelSource n || !nbit s.hif.inService n then s.ignored 0x3020C v
  else
    let s := { s with hif := { s.hif with inService := s.hif.inService - 2 ^ n } }
    if nbit s.hif.asserted n then
      let i : PendInfo := { count := 1, detail := (tget ({} : PendInfo) s.hif.info n).detail, time := s.now % 2 ^ 48, ses := 0 }
      let s := { s with hif := { s.hif with pend := s.hif.pend ||| 2 ^ n, info := tset {} n i s.hif.info } }
      if nbit s.hif.pendEn n then s.post 0 none (s.pendRecord n) else s
    else { s with hif := { s.hif with info := tset {} n {} s.hif.info } }

/-- A write of HIF_PEND_EN (R352): each bit set while its source is pending writes one record. -/
def State.pendEnable (s : State) (v : Word) : State :=
  let old := s.hif.pendEn
  let s := { s with hif := { s.hif with pendEn := fld v 4 0 } }
  (upto 5).foldl (fun s n =>
    if bit v n && !nbit old n && nbit s.hif.pend n then s.post 0 none (s.pendRecord n) else s) s

/-- PENDING_SOURCE_ASSERT (R351, R352): a level source rises, an edge source asserts; only source 0 names a session. -/
def State.sourceAssert (s : State) (n : Nat) (detail : Word) (ses : Nat) : State :=
  if !s.live || decide (5 ≤ n) then s
  else if levelSource n then s.raiseLevel n detail
  else s.assertSrc n detail (if n = 0 then ses % 4096 else 0)

/-- PENDING_SOURCE_DEASSERT (R351, R352). -/
def State.sourceDrop (s : State) (n : Nat) : State :=
  if s.live && levelSource n && nbit s.hif.asserted n then
    if nbit s.hif.inService n then { s with hif := { s.hif with asserted := s.hif.asserted - 2 ^ n } } else s.deassertSrc n
  else s

/-- A write of the HIF block at block offset `o` (R353). -/
def State.hifWrite (s : State) (o : Nat) (v : Word) : State :=
  if 0x100 ≤ o ∧ o < 0x128 then s.bktWrite 0 (o - 0x100) v
  else if 0x140 ≤ o ∧ o < 0x154 then s.hprWrite 0 (o - 0x140) v
  else if o = 0x204 then s.pendEnable v
  else if o = 0x20C then s.eoi v
  else if 0x280 ≤ o ∧ o < 0x300 then s.setReg (0x30000 + o) 0
  else if 0x1010 ≤ o ∧ o < 0x1400 then s.vfRegs ((o - 0x1000) / 0x10) (o % 0x10) v
  else s.ignored (0x30000 + o) v

/-- A command that concerns function `fn` of a running device. -/
def State.onFn (s : State) (fn : Nat) (f : State → State) : State :=
  if s.live && decide (fn < 64) && !(fn != 0 && s.hif.flr.contains fn) then f s else s

/-- PCIE_LINK_DOWN. -/
def execPcieLinkDown (s : State) : Host.Outcome State Fault Refusal := .next s.pcieDownOp

/-- PCIE_LINK_UP. -/
def execPcieLinkUp (speed width : Nat) (flit : Bool) (s : State) : Host.Outcome State Fault Refusal := .next (s.pcieUpOp speed width flit)

/-- VF_FLR. -/
def execVfFlr (vf : Nat) (s : State) : Host.Outcome State Fault Refusal := .next (s.vfFlrOp vf)

/-- VF_ENABLE_CLEAR. -/
def execVfEnableClear (s : State) : Host.Outcome State Fault Refusal := .next s.vfEnableOp

/-- FLR_COMPLETE. -/
def execFlrComplete (vf : Nat) (s : State) : Host.Outcome State Fault Refusal := .next (s.flrDoneOp vf)

/-- VF_SESS_WRITE: a write of HIF_VFn_SESS. -/
def execVfSessWrite (vf : Nat) (v : Word) (s : State) : Host.Outcome State Fault Refusal := .next (s.whenLive (·.vfRegs vf 0 v))

/-- BKT_ENABLE: a write of BKT_CTL. -/
def execBktEnable (fn : Nat) (v : Word) (s : State) : Host.Outcome State Fault Refusal := .next (s.onFn fn (·.bktCtl fn v))

/-- BKT_HEAD_WRITE: a write of BKT_HEAD. -/
def execBktHeadWrite (fn : Nat) (v : Word) (s : State) : Host.Outcome State Fault Refusal := .next (s.onFn fn (·.bktHead fn v))

/-- MSIX_MODERATION_EXPIRY. -/
def execMsixModerationExpiry (fn : Nat) (s : State) : Host.Outcome State Fault Refusal := .next (s.modExpiry fn)

/-- MSIX_UNMASK. -/
def execMsixUnmask (fn : Nat) (enable fnMask vecMask : Bool) (s : State) : Host.Outcome State Fault Refusal :=
  .next (s.onFn fn (·.setMasks fn enable fnMask vecMask))

/-- BKT_MASK_WRITE: a write of BKT_MASK. -/
def execBktMaskWrite (fn : Nat) (v : Word) (s : State) : Host.Outcome State Fault Refusal := .next (s.onFn fn (·.bktWrite fn 0x20 v))

/-- HIF_CLAIM: a read of HIF_CLAIM. -/
def execHifClaim (s : State) : Host.Outcome State Fault Refusal := .next (s.whenLive (·.claim))

/-- HIF_EOI: a write of HIF_EOI. -/
def execHifEoi (v : Word) (s : State) : Host.Outcome State Fault Refusal := .next (s.whenLive (·.eoi v))

/-- PEND_EN_WRITE: a write of HIF_PEND_EN. -/
def execPendEnWrite (v : Word) (s : State) : Host.Outcome State Fault Refusal := .next (s.whenLive (·.pendEnable v))

/-- PENDING_SOURCE_ASSERT. -/
def execPendingSourceAssert (n : Nat) (detail : Word) (ses : Nat) (s : State) : Host.Outcome State Fault Refusal :=
  .next (s.sourceAssert n detail ses)

/-- PENDING_SOURCE_DEASSERT. -/
def execPendingSourceDeassert (n : Nat) (s : State) : Host.Outcome State Fault Refusal := .next (s.sourceDrop n)

/-- HPR_HEAD_WRITE: a write of HIF_HPR_HEAD. -/
def execHprHeadWrite (fn : Nat) (v : Word) (s : State) : Host.Outcome State Fault Refusal := .next (s.onFn fn (·.hprWrite fn 0x0C v))

end Sys2Proof.Machine
end

