-- ==== Sys2Proof/Machine/Clothesline.lean ====
section
/-!
DEFINITION. The clothesline (R354 to R370): links and retries, pegging, the stitch timebase over the line, failover notices,
status rounds, PKT frames, and the writes of the LIN block. Frames of a device are handled in the order received; a payload
whose bytes the spec lays out nowhere is carried as the values it holds (log 60).
-/
namespace Sys2Proof.Machine

/-- Send a link acknowledge for every frame received so far (R357). -/
def State.sendAck (s : State) (p : Nat) : State :=
  let x := s.lport p
  (s.setLport p { x with unacked := 0 }).emit (.linkCtl p false ((x.rxSeq + 65535) % 65536))

/-- A frame arrives in order on a link that is up; it is acknowledged after 16 (R357) and dropped at 255 hops (Table 18.2). A
frame out of sequence awaits its replay. -/
def State.rxFrame (s : State) (p : Nat) (h : LineHdr) (f : State → State) : State :=
  let x := s.lport p
  if s.live && x.up && h.seq == x.rxSeq then
    let s := s.setLport p { x with rxSeq := (x.rxSeq + 1) % 65536, unacked := x.unacked + 1 }
    let s := if 16 ≤ x.unacked + 1 then s.sendAck p else s
    if 255 ≤ h.hops then s.bump 0x90080 else f s
  else s

/-- This device is addressed by `a`. -/
def Line.me (l : Line) (a : Nat) : Bool := l.valid && l.addr == a

/-- The port on which a frame received at `p` for address `dst` goes on (R358). -/
def Line.onward (l : Line) (p dst : Nat) : Nat :=
  if l.manager then
    if lineIdx dst = lineIdx l.addr then 1 else if lineIdx l.addr < lineIdx dst then 2 else 0
  else if p = 0 then 1 else 0

/-- Forward a frame (R358): at the end of a chain it is dropped and counted, and a PEG_NAK with the same dst goes back to its
source, unless it is a PEG_NAK itself. -/
def State.forward (s : State) (p : Nat) (h : LineHdr) (type dst : Nat) (info : List Nat) (bulk : Option MigBulk := none) : State :=
  let f : LFrame := { type := type, dst := h.dst, src := h.src, flags := h.flags, hops := h.hops + 1, info := info, bulk := bulk }
  let out := s.lin.onward p dst
  if (s.lport out).up then s.sendFrame out f
  else
    let s := s.bump 0x90080
    if type = ftPegNak then s
    else s.sendFrame p { type := ftPegNak, dst := h.dst, src := h.src, flags := 0, hops := 0, info := [0] }

/-- Deliver a frame to this device, or forward it. -/
def State.rxLine (s : State) (p : Nat) (h : LineHdr) (type : Nat) (info : List Nat) (f : State → State)
    (bulk : Option MigBulk := none) : State :=
  s.rxFrame p h fun s => if s.lin.me h.dst then f s else s.forward p h type h.dst info bulk

/-- Change the clothesline state. -/
def State.modLin (s : State) (f : Line → Line) : State := { s with lin := f s.lin }

/-- Send a frame on a port if its link is up: there may be no neighbour. -/
def State.sendIfUp (s : State) (p : Nat) (f : LFrame) : State := if (s.lport p).up then s.sendFrame p f else s

/-- A PEG for the next device on a port (R359), carrying address `a`; its dst is 0, which no device below holds. -/
def State.pegNext (s : State) (p a : Nat) : State :=
  s.sendIfUp p { type := ftPeg, dst := 0, src := s.lin.addr, info := [a] }

/-- Forward pegging below this device (R359 step 4): `a` is the address that the PEG carried. -/
def State.pegBelow (s : State) (a : Nat) : State :=
  let s := if a % 64 < 63 then s.pegNext 1 (a + 1) else s
  if s.lin.manager ∧ lineIdx a < 4095 then s.pegNext 2 ((lineIdx a + 1) * 64) else s

/-- The system head pegs its ports (R359): it takes address 0. -/
def State.pegHead (s : State) : State := (s.modLin fun l => { l with addr := 0, valid := true }).pegBelow 0

/-- PEG_ACK with this device's serial (R359 step 3), to its manager, or for a manager to the system head. -/
def State.sendPegAck (s : State) : State :=
  s.sendTo ftPegAck (if s.lin.manager then 0 else lineIdx s.lin.addr * 64) 0 [s.serial.toNat]

/-- Key of a table entry: a position on a manager, a line index on the system head (R359). -/
def Line.key (l : Line) (manager : Bool) (a : Nat) : Nat :=
  if l.head then (if manager then lineIdx a else 4096 + a % 64) else a % 64

/-- The answer of a table holder to a request (R361): the entry with the serial, else the lowest free one. -/
def Line.assign (l : Line) (manager : Bool) (serial : Dword) : Option Nat :=
  let addr (n : Nat) : Nat := if manager then n * 64 else lineIdx l.addr * 64 + n
  let cand := (upto (if manager then 4096 else 64)).tail.map addr
  match cand.find? fun a => tget 0 l.table (l.key manager a) == serial && serial != 0 with
  | some a => some a
  | none => cand.find? fun a => tget 0 l.table (l.key manager a) == 0

/-- A PEG_REQ that reached its table holder, or goes on towards it (R361). -/
def State.pegRequest (s : State) (p : Nat) (serial : Dword) (manager : Bool) : State :=
  let l := s.lin
  if if manager then l.head else l.manager then
    match l.assign manager serial with
    | some a =>
      let s := s.modLin fun l => { l with table := tset 0 (l.key manager a) serial l.table }
      s.sendFrame p { type := ftPeg, dst := a, src := l.addr, info := [a, serial.toNat] }
    | none =>
      (s.sendFrame p { type := ftPegNak, dst := 0, src := l.addr, info := [1, serial.toNat] }).note l.addr 5 1
  else s.sendFrame 0 { type := ftPegReq, dst := 0, src := 0, info := [serial.toNat, b2n manager] }

/-- Requests that waited for this device's address go on (R361). -/
def State.pegWaiting (s : State) : State :=
  let due := s.lin.reqDue
  due.foldl (fun s r => s.pegRequest r.1 r.2.1 r.2.2) (s.modLin fun l => { l with reqDue := [] })

/-- Some session is MIGRATING (R360). -/
def State.migrating (s : State) : Bool := s.sessions.any fun e => e.2.st == .migrating

/-- Act on a PEG carrying address `a` (R359, R360): role check, address, PEG_ACK, forwarding. An address once held is kept. -/
def State.pegTake (s : State) (a : Nat) : State :=
  let l := s.lin
  if l.valid then s.sendPegAck.pegBelow a
  else if l.manager != (a % 64 == 0) then
    let s := s.sendFrame 0 { type := ftPegNak, dst := a, src := a, info := [2, s.serial.toNat] }
    let d := (noteDetail a 5 0).toNat
    let s := s.sendFrame 0 { type := ftNote, dst := lineIdx a * 64, src := a, info := [d] }
    if lineIdx a = 0 then s else s.sendFrame 0 { type := ftNote, dst := 0, src := a, info := [d] }
  else ((s.modLin fun l => { l with addr := a % 2 ^ 18, valid := true }).sendPegAck.pegBelow a).pegWaiting

/-- PEG (R359, R360): on LINE-UP. One that answers a request further down goes on to it. -/
def State.pegOp (s : State) (h : LineHdr) (a : Nat) : State :=
  s.rxFrame 0 h fun s =>
    if s.lin.valid && h.dst != 0 && h.dst != s.lin.addr then
      let f : LFrame := { type := ftPeg, dst := h.dst, src := h.src, flags := h.flags, hops := h.hops + 1, info := [a] }
      s.sendIfUp (if s.lin.manager && lineIdx h.dst != lineIdx s.lin.addr then 2 else 1) f
    else if s.migrating then s.modLin fun l => { l with pegDue := some a }
    else s.pegTake a

/-- A deferred PEG takes effect once no session migrates (R360). -/
def State.pegDeferred (s : State) : State :=
  match s.lin.pegDue with
  | some a => if s.migrating then s else (s.modLin fun l => { l with pegDue := none }).pegTake a
  | none => s

/-- PEG_REQ (R361): it waits while this device is unaddressed. -/
def State.pegReqOp (s : State) (p : Nat) (h : LineHdr) (serial : Dword) (manager : Bool) : State :=
  s.rxFrame p h fun s =>
    if p = 0 then s.bump 0x90080
    else if s.lin.valid then s.pegRequest p serial manager
    else s.modLin fun l => { l with reqDue := l.reqDue ++ [(p, serial, manager)] }

/-- A device has been heard from (R361). -/
def State.heard (s : State) (a : Nat) : State :=
  if s.lin.reach.contains a then s else s.modLin fun l => { l with reach := l.reach ++ [a] }

/-- PEG_ACK (R359): the table of the manager or system head records the serial. -/
def State.pegAckOp (s : State) (p : Nat) (h : LineHdr) (serial : Dword) : State :=
  s.rxLine p h ftPegAck [serial.toNat] fun s =>
    let mgr := h.src % 64 == 0
    if s.lin.manager && !(mgr && !s.lin.head) then
      (s.modLin fun l => { l with table := tset 0 (l.key mgr h.src) serial l.table }).heard h.src
    else s

/-- Migrations over the line whose peer satisfies `q` meet a transfer error (R71, R364). -/
def State.lineMigErrors (s : State) (q : Nat → Bool) : State :=
  let hit := (s.sessions.filter fun e => e.2.st == .migrating && match e.2.mig with
    | some g => g.peer != s.lin.addr && g.phase != 0 && q g.peer
    | none => false).map (·.1)
  hit.foldl (fun s n => match (s.ses n).mig with
    | some g => if g.out then s.migFail n else s.migDstFail n
    | none => s) s

/-- PEG_NAK (R358, R359, R361): for this device's own frame, a transfer error towards the address that nothing answers; a
request refused leaves the device unaddressed until LIN_CMD request. -/
def State.pegNakOp (s : State) (p : Nat) (h : LineHdr) (full : Bool) : State :=
  s.rxFrame p h fun s =>
    if !s.lin.valid then (if p = 0 ∧ full then s else s.forward p h ftPegNak h.src [b2n full])
    else if h.src = s.lin.addr then
      (s.modLin fun l => { l with reach := l.reach.filter (· != h.dst) }).lineMigErrors (· == h.dst)
    else s.forward p h ftPegNak h.src [b2n full]

/-- This device disciplines its timebase from its parent (R362). -/
def Line.follows (l : Line) : Bool := !nbit l.ctl 2 && !l.head

/-- TIME_SYNC from a child (R362): stamped and answered. -/
def State.timeSyncOp (s : State) (p : Nat) (h : LineHdr) : State :=
  s.rxFrame p h fun s =>
    if p = 0 then s.bump 0x90080
    else s.sendFrame p { type := ftTimeResp, dst := h.src, src := s.lin.addr, info := [s.now, s.now] }

/-- TIME_SYNC_TIMER (R362): a following device sends TIME_SYNC and stamps t1. -/
def State.timeTimerOp (s : State) : State :=
  if s.live && s.lin.follows && (s.lport 0).up then
    (s.sendFrame 0 { type := ftTimeSync, dst := 0, src := s.lin.addr }).modLin fun l => { l with t1 := some s.now }
  else s

/-- Slew or step the timebase by an offset to the parent (R362). -/
def State.discipline (s : State) (off : Int) : State :=
  if 144144 < off.natAbs ∧ ¬ s.anyRunning then { s with pwr := { s.pwr with step := some off } }
  else { s with pwr := { s.pwr with slew := off, slewTicks := 0 } }

/-- TIME_RESP (R362, R363): delay and offset, then discipline; locked after 8 consecutive exchanges within 4 st. -/
def State.timeRespOp (s : State) (h : LineHdr) (t2 t3 : Nat) : State :=
  s.rxFrame 0 h fun s =>
    match s.lin.t1 with
    | some t1 =>
      if s.lin.follows then
        let d (a b : Nat) : Int := (a : Int) - (b : Int)
        let delay := (d s.now t1 - d t3 t2).tdiv 2
        let off := (d t2 t1 + d t3 s.now).tdiv 2
        let good := if off.natAbs ≤ 4 then min 8 (s.lin.good + 1) else 0
        let s := s.modLin fun l => { l with
          t1 := none, delay := BitVec.ofInt 32 delay, offset := BitVec.ofInt 32 off, good := good
          locked := good == 8, holdover := false }
        s.discipline off
      else s
    | none => s

/-- NOTE (R366): its receiver posts pending source 2 and does not forward it. -/
def State.noteOp (s : State) (p : Nat) (h : LineHdr) (detail : Word) : State :=
  s.rxLine p h ftNote [detail.toNat] fun s => s.assertSrc 2 detail 0

/-- LIN_RX entries; 0 when the ring is disabled (R370). -/
def State.rxEntries (s : State) : Nat :=
  let k := fld (s.reg 0x90068) 3 0
  if (s.reg 0x90060 = 0 ∧ s.reg 0x90064 = 0) ∨ k < 4 ∨ 12 < k then 0 else 2 ^ k

/-- PKT (R369): written to the LIN_RX ring, or dropped and counted when it is full. -/
def State.pktOp (s : State) (p : Nat) (h : LineHdr) (sub : Nat) (payload : List Byte) : State :=
  s.rxLine p h ftPkt ([sub, payload.length] ++ payload.map (·.toNat)) fun s =>
    let n := s.rxEntries
    let t := s.lin.rxTail
    if n = 0 ∨ (t + 1) % max 1 n = fld (s.reg 0x9006C) 11 0 % max 1 n then s.bump 0x90080
    else
      let hdr := leBytes 2 payload.length ++ leBytes 2 (h.flags % 2) ++ leBytes 4 h.src ++ leBytes 4 sub ++ leBytes 4 0
      (s.emit (.lineRx t hdr payload)).modLin fun l => { l with rxTail := (t + 1) % n }

/-- LINK_ACK (R357): frames up to the acknowledged one leave the replay buffer, and waiting frames follow. -/
def State.linkAckOp (s : State) (p seq : Nat) : State :=
  let x := s.lport p
  if s.live && x.up && (x.replay.any fun e => e.1 == seq) then
    let rest := (x.replay.dropWhile fun e => e.1 != seq).drop 1
    (s.setLport p { x with replay := rest, replays := 0 }).drainWait p 65
  else s

/-- A clothesline link goes down (R357, R363, R364, R366): class 27, notices, holdover, failed transfers. -/
def State.lineDown (s : State) (p : Nat) : State :=
  let s := s.setLport p { lost := true }
  let s := s.raiseDev 27
  let l := s.lin
  if p = 0 then
    let s := s.modLin fun l => { l with
      locked := false, good := 0, t1 := none, holdover := l.holdover || l.follows }
    let s := s.assertSrc 2 (noteDetail l.addr 4 0) 0
    s.lineMigErrors fun a => l.route a == 0
  else
    let s := s.modLin fun l => { l with reach := l.reach.filter fun a => l.route a != p }
    (s.note l.addr 2 (p - 1)).lineMigErrors fun a => l.route a == p

/-- LINK_NAK (R357): frames before the failed one are acknowledged, and it and those behind it are sent again; a frame that
fails after 8 replays takes the link down. -/
def State.linkNakOp (s : State) (p seq : Nat) : State :=
  let x := s.lport p
  if s.live && x.up && (x.replay.any fun e => e.1 == seq) then
    let rest := x.replay.dropWhile fun e => e.1 != seq
    let k := if rest.length = x.replay.length then x.replays else 0
    if 8 ≤ k then s.lineDown p
    else
      let s := s.setLport p { x with replay := rest, replays := k + 1 }
      let s := rest.foldl (fun s e => s.emit (.line p e.1 e.2)) s
      s.bump 0x90084 rest.length
  else s

/-- LINK_ACK_TIMER (R357). -/
def State.ackTimerOp (s : State) (p : Nat) : State :=
  let x := s.lport p
  if s.live && x.up && x.unacked != 0 then s.sendAck p else s

/-- LINE_LINK_DOWN (R357). -/
def State.lineDownOp (s : State) (p : Nat) : State := if s.live && (s.lport p).up then s.lineDown p else s

/-- LINE_LINK_UP (R359, R361, R366): an enabled port trains; LINE-UP without an address asks for one, a restored child link
is notified, and the system head pegs. -/
def State.lineUpOp (s : State) (p : Nat) : State :=
  let x := s.lport p
  if s.live && nbit s.pat.lines p && !x.up && s.pat.serial != 0 then
    let s := s.setLport p { up := true, lost := false }
    if p = 0 then
      if s.lin.valid || s.lin.head then s
      else s.sendFrame 0 { type := ftPegReq, dst := 0, src := 0, info := [s.serial.toNat, b2n s.lin.manager] }
    else
      let s := if x.lost then s.note s.lin.addr 3 (p - 1) else s
      if s.lin.head then s.pegHead else s
  else s

/-- LINE_FRAME_ERROR (R357): a bad CRC is answered with a NAK; an unknown type or a broken must-be-zero field is dropped and
counted. -/
def State.frameErrOp (s : State) (p : Nat) (e : FrameErr) : State :=
  let x := s.lport p
  if s.live && x.up then
    match e with
    | .badCrc seq => s.emit (.linkCtl p true (seq % 65536))
    | _ =>
      let s := s.setLport p { x with rxSeq := (x.rxSeq + 1) % 65536, unacked := x.unacked + 1 }
      let s := if 16 ≤ x.unacked + 1 then s.sendAck p else s
      s.bump 0x90080
  else s

/-- The device's own summary (Table 18.4). -/
def State.summary (s : State) : Summary :=
  { w0 := mkWord [(0, s.lin.addr), (18, 1), (20, b2n s.lin.locked), (21, s.mode.code)]
    devices := 1
    running := (s.sessions.filter fun e => e.2.st == .running).length
    tiles := ((upto s.nTiles).filter fun t => (s.tile t).inService).length
    free := s.freePages
    dropped := s.lin.drops
    hottest := max (tget 0 s.pwr.temp 0) (max (tget 0 s.pwr.temp 1) (tget 0 s.pwr.temp 2))
    fault := (s.flt.units.map fun e => if e.2.unacked then e.2.last + 1 else 0).foldl max 0 }

/-- The eight words of a summary entry (Table 18.4). -/
def Summary.words (m : Summary) : List Word :=
  let c (n : Nat) : Word := w32 (min 0xFFFFFFFF n)
  [m.w0, c m.devices, c m.running, c m.tiles, c m.free, c m.dropped, mkWord [(0, m.hottest % 65536), (16, m.fault % 65536)], 0]

/-- A published entry read back. -/
def Line.entry (l : Line) (base k : Nat) : Summary :=
  let w (i : Nat) : Word := tget 0 l.tables (base + 0x40 + 32 * k + 4 * i)
  { w0 := w 0, devices := (w 1).toNat, running := (w 2).toNat, tiles := (w 3).toNat, free := (w 4).toNat
    dropped := (w 5).toNat, hottest := fld (w 6) 15 0, fault := fld (w 6) 31 16 }

/-- Totals of a published table (R367 steps 3 and 4) under the sender's address. -/
def Line.totals (l : Line) (base addr : Nat) : Summary :=
  let es := ((upto 64).map (l.entry base)).filter fun e => e.devices != 0
  let sum (f : Summary → Nat) : Nat := (es.map f).foldl (· + ·) 0
  let top (f : Summary → Nat) : Nat := (es.map f).foldl max 0
  { w0 := mkWord [(0, addr), (18, 1), (19, b2n (es.any fun e => bit e.w0 19)), (20, b2n (es.all fun e => bit e.w0 20)),
      (21, top fun e => fld e.w0 23 21)]
    devices := sum (·.devices), running := sum (·.running), tiles := sum (·.tiles), free := sum (·.free)
    dropped := sum (·.dropped), hottest := top (·.hottest), fault := top (·.fault) }

/-- Key of a report of the round in progress. -/
def reportKey (level k : Nat) : Nat := level * 4096 + k

/-- Publish a table window (R367, R368): entries with a report take it, the others keep their values and carry stale. -/
def State.publishTable (s : State) (base level round : Nat) : State :=
  s.modLin fun l =>
    let t := (upto 64).foldl (fun t k =>
      let off := base + 0x40 + 32 * k
      match l.reports.find? fun e => e.1 == reportKey level k with
      | some e => ((Summary.words e.2).zipIdx).foldl (fun t w => tset 0 (off + 4 * w.2) w.1 t) t
      | none =>
        let old := tget 0 t off
        if old = 0 then t
        else tset 0 off (if l.reach.contains (fld old 17 0) ∨ fld old 17 0 = l.addr then old ||| 0x80000
          else (old ||| 0x80000) &&& 0xFFFBFFFF) t) l.tables
    let g := tget 0 t base + 1
    { l with tables := tset 0 base g (tset 0 (base + 0xFFC) g
        (tset 0 (base + 8) (loW round) (tset 0 (base + 12) (hiW round) t)))
             reports := l.reports.filter fun e => e.1 / 4096 != level }

/-- Keep a report of the round (R367). -/
def State.storeReport (s : State) (level k : Nat) (m : Summary) : State :=
  s.modLin fun l => { l with reports := tset {} (reportKey level k) m l.reports }

/-- The device is the head of its trunk (R356). -/
def Line.trunkHead (l : Line) : Bool := l.valid && l.manager && l.addr / 64 % 64 == 0

/-- Totals go to the next level: kept here where this device is the receiver, else sent in an AGG frame. -/
def State.sendAgg (s : State) (level dst k : Nat) (m : Summary) : State :=
  if s.lin.me dst then s.storeReport level k m
  else s.sendTo ftAgg dst 1 ([s.lin.round, level] ++ (Summary.words m).map (·.toNat))

/-- A trunk head whose reachable lines have all reported sends the trunk's totals to the system head (R367 step 4). -/
def State.trunkTotals (s : State) : State :=
  let l := s.lin
  let trunk := l.addr / 4096
  let due := (l.addr :: l.reach).filter fun a => a % 64 == 0 && a / 4096 == trunk
  if l.trunkHead && due.all fun a => l.reports.any fun e => e.1 == reportKey 1 (lineIdx a % 64) then
    let es := l.reports.filter fun e => e.1 / 4096 == 1
    let tmp : Line := { l with tables := es.foldl (fun t e => ((Summary.words e.2).zipIdx).foldl (fun t w =>
      tset 0 (0x40 + 32 * (e.1 % 4096) + 4 * w.2) w.1 t) t) [] }
    s.sendAgg 2 0 trunk (tmp.totals 0 l.addr)
  else s

/-- A manager publishes its line table and sends the line's totals to its trunk head (R367 steps 2 and 3). -/
def State.publishLine (s : State) : State :=
  let s := s.publishTable 0 0 s.lin.round
  let s := s.modLin fun l => { l with pubLine := true }
  let l := s.lin
  (s.sendAgg 1 (l.addr / 4096 * 4096) (lineIdx l.addr % 64) (l.totals 0 l.addr)).trunkTotals

/-- Every reachable member of the line has reported (R367 step 2). -/
def Line.allIn (l : Line) : Bool :=
  ((l.addr :: l.reach).filter fun a => lineIdx a == lineIdx l.addr).all fun a =>
    l.reports.any fun e => e.1 == reportKey 0 (a % 64)

/-- LINE_TABLE_PUBLISH (R367): at the last report, or half a period after the boundary. -/
def State.linePublishOp (s : State) : State :=
  let l := s.lin
  if s.live && l.valid && l.manager && !l.pubLine && (l.allIn || decide (l.round + (s.reg 0x90018).toNat / 2 ≤ s.now)) then s.publishLine
  else s

/-- AGG (R367): a report of the round in progress is kept by its receiver. -/
def State.aggOp (s : State) (p : Nat) (h : LineHdr) (round level : Nat) (m : Summary) : State :=
  s.rxLine p h ftAgg ([round, level] ++ (Summary.words m).map (·.toNat)) fun s =>
    let s := s.heard h.src
    if round ≠ s.lin.round then s
    else if level = 0 then if s.lin.manager ∧ lineIdx h.src = lineIdx s.lin.addr then s.storeReport 0 (h.src % 64) m else s
    else if level = 1 then if s.lin.trunkHead then (s.storeReport 1 (lineIdx h.src % 64) m).trunkTotals else s
    else if level = 2 then if s.lin.head then s.storeReport 2 (h.src / 4096) m else s
    else s

/-- AGG_ROUND (R367): at a round boundary the trunk and system tables of the last round are published, and every addressed
device samples and reports. -/
def State.aggRoundOp (s : State) : State :=
  let per := max 1 (s.reg 0x90018).toNat
  let b := s.now / per * per
  let l := s.lin
  if s.live && l.valid && b != l.round then
    let s := if l.manager && !l.pubLine then s.publishLine else s
    let s := if l.trunkHead then s.publishTable 0x1000 1 l.round else s
    let s := if l.head then s.publishTable 0x2000 2 l.round else s
    let m := s.summary
    let s := s.modLin fun l => { l with round := b, drops := 0, reports := [], pubLine := !l.manager }
    s.sendAgg 0 (lineIdx l.addr * 64) (l.addr % 64) m
  else s

/-- LIN_CMD peg (R359, R360). -/
def State.linPegCmd (s : State) (v : Word) : State := if !s.lin.head || s.migrating then s.ignored 0x9001C v else s.pegHead

/-- LIN_CMD request (R361). -/
def State.linRequestCmd (s : State) : State :=
  s.sendIfUp 0 { type := ftPegReq, dst := 0, src := s.lin.addr, info := [s.serial.toNat, b2n s.lin.manager] }

/-- LIN_CMD release (R361): ignored while the device named in the entry is reachable. -/
def State.linReleaseCmd (s : State) (v : Word) : State :=
  let n := fld v 17 2
  let l := s.lin
  let a := if l.head then n * 64 else lineIdx l.addr * 64 + n
  if !l.manager || n == 0 || decide ((if l.head then 4095 else 63) < n) || l.reach.contains a then s.ignored 0x9001C v
  else s.modLin fun l => { l with table := tset 0 n 0 l.table }

/-- A write of LIN_CMD. -/
def State.linCmd (s : State) (v : Word) : State :=
  if fld v 1 0 = 1 then s.linPegCmd v
  else if fld v 1 0 = 2 then s.linRequestCmd
  else if fld v 1 0 = 3 then s.linReleaseCmd v
  else s.ignored 0x9001C v

/-- A write of LIN_CTL: role and head keep their values while an address is held; head needs role in the same write. -/
def State.linCtl (s : State) (v : Word) : State :=
  s.modLin fun l =>
    let rh := if l.valid then l.ctl % 4 else if bit v 0 then fld v 1 0 else 0
    { l with ctl := rh + 4 * b2n (bit v 2) }

/-- A write of the LIN block at block offset `o` (R370). -/
def State.linWrite (s : State) (o : Nat) (v : Word) : State :=
  let off := 0x90000 + o
  let inRange (lo : Nat) : Bool := decide (lo ≤ v.toNat) && decide (v.toNat ≤ 1441440000)
  if o = 0 then s.linCtl v
  else if o = 0x0C then if inRange 144144 then s.setReg off v else s.ignored off v
  else if o = 0x18 then if inRange 1441440 then s.setReg off v else s.ignored off v
  else if o = 0x1C then s.linCmd v
  else if o = 0x40 then s.setReg off (maskW 0xFFF v)
  else if o = 0x60 then s.setReg off (maskW 0xFFFFFFC0 v)
  else if o = 0x64 then s.setReg off v
  else if o = 0x68 then s.setReg off (maskW 0xF v)
  else if o = 0x6C then s.setReg off (maskW 0xFFF v)
  else if o = 0x80 ∨ o = 0x84 then s.setReg off 0
  else s.ignored off v

/-- A write of LIN_CMD with command `c`. -/
def linAsk (c : Nat) (v : Word) : Word := maskW 0xFFFFFFFC v ||| w32 c

/-- PEG. -/
def execPeg (h : LineHdr) (a : Nat) (s : State) : Host.Outcome State Fault Refusal := .next (s.pegOp h a)

/-- PEG_REQ. -/
def execPegReq (p : LinePort) (h : LineHdr) (serial : Dword) (m : Bool) (s : State) : Host.Outcome State Fault Refusal :=
  .next (s.pegReqOp (LinePort.code p) h serial m)

/-- PEG_ACK. -/
def execPegAck (p : LinePort) (h : LineHdr) (serial : Dword) (s : State) : Host.Outcome State Fault Refusal :=
  .next (s.pegAckOp (LinePort.code p) h serial)

/-- PEG_NAK. -/
def execPegNak (p : LinePort) (h : LineHdr) (full : Bool) (s : State) : Host.Outcome State Fault Refusal :=
  .next (s.pegNakOp (LinePort.code p) h full)

/-- TIME_SYNC. -/
def execTimeSync (p : LinePort) (h : LineHdr) (s : State) : Host.Outcome State Fault Refusal := .next (s.timeSyncOp (LinePort.code p) h)

/-- TIME_RESP. -/
def execTimeResp (h : LineHdr) (t2 t3 : Nat) (s : State) : Host.Outcome State Fault Refusal := .next (s.timeRespOp h t2 t3)

/-- TIME_SYNC_TIMER. -/
def execTimeSyncTimer (s : State) : Host.Outcome State Fault Refusal := .next s.timeTimerOp

/-- NOTE. -/
def execNote (p : LinePort) (h : LineHdr) (d : Word) (s : State) : Host.Outcome State Fault Refusal := .next (s.noteOp (LinePort.code p) h d)

/-- AGG. -/
def execAgg (p : LinePort) (h : LineHdr) (round level : Nat) (m : Summary) (s : State) : Host.Outcome State Fault Refusal :=
  .next (s.aggOp (LinePort.code p) h round level m)

/-- PKT. -/
def execPkt (p : LinePort) (h : LineHdr) (sub : Nat) (b : List Byte) (s : State) : Host.Outcome State Fault Refusal :=
  .next (s.pktOp (LinePort.code p) h sub b)

/-- LINK_ACK. -/
def execLinkAck (p : LinePort) (seq : Nat) (s : State) : Host.Outcome State Fault Refusal := .next (s.linkAckOp (LinePort.code p) seq)

/-- LINK_NAK. -/
def execLinkNak (p : LinePort) (seq : Nat) (s : State) : Host.Outcome State Fault Refusal := .next (s.linkNakOp (LinePort.code p) seq)

/-- LINK_ACK_TIMER. -/
def execLinkAckTimer (p : LinePort) (s : State) : Host.Outcome State Fault Refusal := .next (s.ackTimerOp (LinePort.code p))

/-- LINE_LINK_DOWN. -/
def execLineLinkDown (p : LinePort) (s : State) : Host.Outcome State Fault Refusal := .next (s.lineDownOp (LinePort.code p))

/-- LINE_LINK_UP. -/
def execLineLinkUp (p : LinePort) (s : State) : Host.Outcome State Fault Refusal := .next (s.lineUpOp (LinePort.code p))

/-- LINE_FRAME_ERROR. -/
def execLineFrameError (p : LinePort) (e : FrameErr) (s : State) : Host.Outcome State Fault Refusal := .next (s.frameErrOp (LinePort.code p) e)

/-- AGG_ROUND. -/
def execAggRound (s : State) : Host.Outcome State Fault Refusal := .next s.aggRoundOp

/-- LINE_TABLE_PUBLISH. -/
def execLineTablePublish (s : State) : Host.Outcome State Fault Refusal := .next s.linePublishOp

/-- LIN_PEG: a write of LIN_CMD with cmd 1. -/
def execLinPeg (v : Word) (s : State) : Host.Outcome State Fault Refusal := .next (s.whenLive (·.linCmd (linAsk 1 v)))

/-- LIN_REQUEST: a write of LIN_CMD with cmd 2. -/
def execLinRequest (v : Word) (s : State) : Host.Outcome State Fault Refusal := .next (s.whenLive (·.linCmd (linAsk 2 v)))

/-- LIN_RELEASE: a write of LIN_CMD with cmd 3. -/
def execLinRelease (v : Word) (s : State) : Host.Outcome State Fault Refusal := .next (s.whenLive (·.linCmd (linAsk 3 v)))

end Sys2Proof.Machine
end

