-- ==== Sys2Proof/Machine/Dma.lean ====
section
/-!
DEFINITION. The DMA channels (R307 to R319), the tile inbox flush (R320, R321), the lottery arbiters (R322 to R324) and the
check-value units (R325, R326), with the writes of their blocks (R328).
-/
namespace Sys2Proof.Machine

/-- A channel that the host drives (Table 16.1); C63 belongs to the loader while a pattern command runs. -/
def State.hostChan (s : State) (n : Nat) : Bool := (decide (56 ≤ n) && decide (n ≤ 61)) || (n == 63 && !s.ldr.busy)

/-- A channel that the session engine or the hub drives. -/
def devChan (n : Nat) : Bool := decide (n < 56) || n == 62

/-- A LIVE channel (Table 16.1). -/
def State.liveChan (s : State) (n : Nat) : Bool := decide (n < 32) || (s.chan n).live

/-- A BULK channel: neither LIVE nor C62. -/
def State.bulkChan (s : State) (n : Nat) : Bool := !s.liveChan n && n != 62

/-- Channels that are ready for a mover or hold one. -/
def State.moverAsked (s : State) : List Nat := (s.chans.filter fun e => e.2.order.isSome).map (·.1)

/-- Movers that the BULK channels may hold (R312): of the 12, those that neither the ready LIVE channels, at most DMA_CTL.live_max, nor
C62, which uses 8, take. -/
def State.bulkMovers (s : State) : Nat :=
  12 - min (fld (s.reg 0xA0000) 2 0) (s.moverAsked.filter s.liveChan).length - (if s.moverAsked.contains 62 then 8 else 0)

/-- The place of a channel that asks for a mover now: behind every other. -/
def State.nextOrder (s : State) : Nat := (s.chans.map fun e => (e.2.order.getD 0) + 1).foldl max 0

/-- The place of channel `n` among those that ask for a mover. -/
def State.orderOf (s : State) (n : Nat) : Nat := (s.chan n).order.getD s.nextOrder

/-- Channel `n` has a mover (R312, R313): a LIVE channel takes its turn and C62 its movers at once; the BULK channels that became ready
first hold theirs to the end of the descriptor, unless LIVE channels and C62 take so many that the last of them lose theirs
(which BULK channel loses one is a DESIGN CHOICE, log 122). -/
def State.hasMover (s : State) (n : Nat) : Bool :=
  !s.bulkChan n ||
    decide ((s.moverAsked.filter fun k => k != n && s.bulkChan k && decide (s.orderOf k < s.orderOf n)).length < s.bulkMovers)

/-- Movers that channel `n` uses while it moves: C62 eight, any other one. -/
def State.moversOf (s : State) (n : Nat) : Nat :=
  if (s.chan n).desc.isNone || !s.hasMover n then 0 else if n = 62 then 8 else 1

/-- Entries of a host channel's ring; 0 where SIZE is not 4 to 16. -/
def Chan.entries (x : Chan) : Nat := if x.size < 4 ∨ 16 < x.size then 0 else 2 ^ x.size

/-- Read a descriptor (Table 16.2). -/
def parseDesc (b : List Byte) : Desc :=
  let flags := leAt b 0x3C 4
  { src := leAt b 0 8, dst := leAt b 8 8, srcStride := leAtI b 0x10 4, dstStride := leAtI b 0x14 4,
    len := leAt b 0x18 3, req := leAt b 0x1B 1, lines := leAt b 0x1C 2, srcGen := leAt b 0x1E 2,
    srcWbase := leAt b 0x20 8, dstWbase := leAt b 0x28 8, srcWsize := leAt b 0x30 4, dstWsize := leAt b 0x34 4,
    dstGen := leAt b 0x38 2, burst := leAt b 0x3A 2, srcSpace := nfld flags 1 0, dstSpace := nfld flags 3 2 }

/-- Bytes of a line on one side (R310): rounded up to 64 on the HBM side. -/
def Desc.foot (d : Desc) (space : Nat) : Nat := if space = 1 then ceilDiv d.len 64 * 64 else d.len

/-- A side's extent lies within its window (R310). -/
def Desc.inWindow (d : Desc) (space addr : Nat) (stride : Int) (wbase wsize : Nat) : Bool :=
  let span := stride * ((d.lines : Int) - 1)
  let lo := (addr : Int) + min 0 span
  let hi := (addr : Int) + max 0 span + (d.foot space : Int)
  decide ((wbase : Int) ≤ lo) && decide (hi ≤ (wbase : Int) + 64 * (wsize : Int))

/-- An HBM-side window lies within one MEMORY region window, and its addresses are line aligned (R310). -/
def State.hbmSide (s : State) (space addr : Nat) (stride : Int) (wbase wsize : Nat) : Bool :=
  space != 1 || (addr % 64 == 0 && stride % 64 == 0 && wbase % 64 == 0 &&
    match regionOf s.pat.regions wbase with
    | some (r, o) => decide (o + 64 * wsize ≤ (tget {} s.pat.regions r).size)
    | none => false)

/-- The checks of R310, with `dev` for a device channel, whose descriptors take no request line (R314). -/
def State.descOk (s : State) (dev : Bool) (b : List Byte) : Bool :=
  let d := parseDesc b
  let flags := leAt b 0x3C 4
  let n1 := (d.lines : Int) != 1
  d.len != 0 && decide (d.req ≤ 16) && !(dev && d.req != 0) && d.lines != 0 && d.srcWsize != 0 && d.dstWsize != 0
    && decide (d.srcSpace < 2) && decide (d.dstSpace < 2) && nfld flags 30 4 == 0 && !(d.srcSpace == 0 && d.dstSpace == 0)
    && s.hbmSide d.srcSpace d.src d.srcStride d.srcWbase d.srcWsize && s.hbmSide d.dstSpace d.dst d.dstStride d.dstWbase d.dstWsize
    && !(d.srcSpace == 1 && d.dstSpace == 1 && d.len % 64 != 0)
    && d.inWindow d.srcSpace d.src d.srcStride d.srcWbase d.srcWsize && d.inWindow d.dstSpace d.dst d.dstStride d.dstWbase d.dstWsize
    && !(n1 && decide (d.dstStride.natAbs < d.foot d.dstSpace))

/-- Stacks in a descriptor's HBM-side region masks (R318). -/
def State.touched (s : State) (d : Desc) : Nat :=
  let m (space wbase : Nat) : Nat := if space = 1 then
      match regionOf s.pat.regions wbase with
      | some (r, _) => (tget {} s.pat.regions r).mask
      | none => 0
    else 0
  m d.srcSpace d.srcWbase ||| m d.dstSpace d.dstWbase

/-- Channels whose descriptor moves on stack `k`, ascending (R318). -/
def State.movingOn (s : State) (k : Nat) : List Nat :=
  (s.chans.filter fun e => match e.2.desc with
    | some d => nbit (s.touched d) k
    | none => false).map (·.1)

/-- A move in progress: the state, bytes written, beats moved, and the status that ended it. -/
structure Mover where
  s : State
  done : Nat := 0
  beats : Nat := 0
  st : Nat := 0

/-- Where a move must stop: after a number of beats with a status, or before the beat that passes a number of bytes. -/
structure MoveEnd where
  beats : Option (Nat × Nat) := none
  bytes : Option Nat := none

/-- Read beat `j` of line `i` (R311): from the host's data, or a verified line of HBM. -/
def State.readBeat (s : State) (x : Chan) (d : Desc) (i j : Nat) : State × Option (List Byte × Nat × Word) :=
  if d.srcSpace = 1 then
    let a := ((d.src : Int) + d.srcStride * i).toNat + 64 * j
    match s.physOf a with
    | none => (s.bump (memBase (s.decErrStack a) + 0x2C), none)
    | some p =>
      let r := s.fetchLine p d.srcGen
      (r.1, r.2.map fun e => (e.1, p, e.2))
  else (s, some ((x.data.drop (i * d.len + 64 * j)).take (min 64 (d.len - 64 * j)), 0, 0))

/-- Write beat `j` of line `i` (R311, Table 16.3): a whole labelled line of HBM, or bytes to the host. -/
def State.writeBeat (s : State) (n : Nat) (d : Desc) (i j : Nat) (b : List Byte × Nat × Word) : State :=
  let a := ((d.dst : Int) + d.dstStride * i).toNat + 64 * j
  let m := min 64 (d.len - 64 * j)
  if d.dstSpace = 1 then
    match s.physOf a with
    | none => s.bump (memBase (s.decErrStack a) + 0x2C)
    | some p =>
      let data := b.1.take m ++ List.replicate (64 - m) 0
      let label := if d.srcSpace = 1 then rebase b.2.2 (foldWord b.2.1 d.srcGen) (foldWord p d.dstGen)
        else careLabel data (foldWord p d.dstGen)
      (s.access (decodeLine p)).writeLine p data label
  else s.emit (.dmaData n a (b.1.take m))

/-- Move one beat, unless the move has ended. -/
def Mover.beat (m : Mover) (n : Nat) (x : Chan) (d : Desc) (e : MoveEnd) (i j : Nat) : Mover :=
  let k := min 64 (d.len - 64 * j)
  if m.st ≠ 0 then m
  else match e.beats with
  | some (lim, st) => if lim ≤ m.beats then { m with st := st } else go k
  | none => match e.bytes with
    | some lim => if lim < m.done + k then { m with st := 5 } else go k
    | none => go k
where
  go (k : Nat) : Mover :=
    let r := m.s.readBeat x d i j
    match r.2 with
    | some b => { m with s := r.1.writeBeat n d i j b, done := m.done + k, beats := m.beats + 1 }
    | none => { m with s := r.1, st := 4 }

/-- Move a channel's descriptor to its end (R311). -/
def State.moveAll (s : State) (n : Nat) (d : Desc) (e : MoveEnd) : Mover :=
  let x := s.chan n
  (upto d.lines).foldl (fun m i => (upto (ceilDiv d.len 64)).foldl (fun m j => m.beat n x d e i j) m) { s := s }

/-- The 64 bytes of a descriptor as written back (Table 16.2, R316): status, owner clear, done. -/
def wroteBack (b : List Byte) (status done : Nat) : List Byte :=
  let flags := leAt b 0x3C 4 % 16 + status * 16
  b.take 0x30 ++ leBytes 8 done ++ (b.drop 0x38).take 4 ++ leBytes 4 flags

/-- The write-back of a host channel's descriptor: to host memory, or to its line of a ring in HBM, labelled (R308, R316). -/
def State.sendWriteback (s : State) (n : Nat) (b : List Byte) (status done : Nat) : State :=
  let x := s.chan n
  let s := s.emit (.writeback n x.head status done)
  if x.ringSpace then
    match s.physOf (joinW x.baseLo x.baseHi + 64 * x.head) with
    | some p =>
      let data := wroteBack b status done
      (s.access (decodeLine p)).writeLine p data (careLabel data (foldWord p Config.ringGeneration))
    | none => s
  else s

/-- A descriptor ends (R315 to R317): written back on a host channel, COUNT decremented, the event posted at zero, and a
waiting disable applied. -/
def State.descEnd (s : State) (n : Nat) (b : List Byte) (status done : Nat) : State :=
  if s.hostChan n then
    let s := s.sendWriteback n b status done
    let x := s.chan n
    let head := (x.head + 1) % max 1 x.entries
    let s := s.setChan n { x with
      head := head, count := x.count - 1, last := status, desc := none, raw := [], data := [], moved := 0, order := none
      state := if x.stopping then 6 else 0, enable := x.enable && !x.stopping, stopping := false }
    if x.count = 1 then s.post 0 (some 0) (s.evRec n 1 (mkWord [(0, status), (16, head)])) else s
  else
    s.setChan n { s.chan n with desc := none, raw := [], data := [], moved := 0, order := none, state := 0, last := status }

/-- A stack that a descriptor touches has a held power-down request, or sleeps or wakes (R318). -/
def State.powerWait (s : State) (d : Desc) : Bool := (upto 4).any fun k => nbit (s.touched d) k && (s.dom k).st != 0

/-- Request a wake of every sleeping stack that a descriptor touches (R318). -/
def State.wakeFor (s : State) (d : Desc) : State :=
  (upto 4).foldl (fun s k => if nbit (s.touched d) k then s.wakeStack k else s) s

/-- The burst that starts covers these lines in all (R314). -/
def Desc.nextMoved (d : Desc) (moved : Nat) : Nat := if d.burst = 0 then d.lines else min d.lines (moved + d.burst)

/-- The descriptor's request line is asserted, or it takes none (R314). -/
def State.reqOn (s : State) (d : Desc) : Bool := d.req == 0 || nbit s.dmaReq (d.req - 1)

/-- DESCRIPTOR_START (R308, R310, R312, R314, R318): the entry at the head is read; a clear owner bit stalls the channel; without a mover
it waits for one; a failed check rejects the descriptor, a held or sleeping stack makes it wait, and otherwise its first beat
moves. -/
def State.descStartOp (s : State) (n : Nat) (b data : List Byte) : State :=
  let x := s.chan n
  let d := parseDesc b
  let host := s.hostChan n
  let ready := if host then x.enable && decide (x.head ≠ x.tail) && x.state != 4 else devChan n
  if !s.live || !ready || x.desc.isSome || b.length != 64 then s
  else if host && !nbit (leAt b 0x3C 4) 31 then s.setChan n { x with state := 4, order := none }
  else if !s.hasMover n then s.setChan n { x with state := 2, order := some (s.orderOf n) }
  else if !s.descOk (!host) b then ((s.descEnd n b 2 0).bump 0xA000C).raiseDev 28
  else if s.powerWait d then (s.wakeFor d).setChan n { x with state := 5, order := none }
  else if d.srcSpace = 0 ∧ data.length ≠ d.len * d.lines then s
  else
    let on := s.reqOn d
    s.setChan n { x with
      desc := some d, raw := b, data := if d.srcSpace = 0 then data else []
      moved := if d.req = 0 then d.lines else if on then d.nextMoved 0 else 0
      order := some (s.orderOf n)
      state := if on then 1 else 3 }

/-- BURST_START (R314): at a burst boundary the next burst starts if the request line is asserted, else the channel waits; it keeps its
mover (R313). -/
def State.burstOp (s : State) (n : Nat) : State :=
  let x := s.chan n
  match x.desc with
  | some d =>
    if s.live && decide (x.moved < d.lines) && s.hasMover n then
      if s.reqOn d then s.setChan n { x with moved := d.nextMoved x.moved, state := 1 } else s.setChan n { x with state := 3 }
    else s
  | none => s

/-- DESCRIPTOR_WRITEBACK (R311, R316, Table 16.4): once its last burst has run on a mover, the descriptor's lines have moved as far as
their data was good, and it is written back. -/
def State.writebackOp (s : State) (n : Nat) (e : DmaEnd) : State :=
  let x := s.chan n
  match x.desc with
  | some d =>
    if s.live && decide (d.lines ≤ x.moved) && s.hasMover n then
      let m := s.moveAll n d (match e with
        | .good => {}
        | .labelFail k => { beats := some (k, 4) }
        | .hostError k => { bytes := some k })
      let st := if m.st = 0 then 1 else m.st
      let s := (m.s.count 6 0 m.beats).descEnd n x.raw st m.done
      if st = 4 then s.raiseDev 17 else s
    else s
  | none => s

/-- Stop a moving channel at its next beat (R317, R319): status 3 with the bytes written, counted in DMA_ABORTED. How far it
had come is a free value. -/
def State.stopChan (s : State) (n : Nat) : State :=
  let x := s.chan n
  match x.desc with
  | some d =>
    let r := s.fresh
    let per := ceilDiv d.len 64
    let lim := min (Config.beatsMoved r.2) (x.moved * per)
    let m := r.1.moveAll n { d with lines := min d.lines x.moved } { beats := some (lim, 3) }
    ((m.s.count 6 0 m.beats).descEnd n x.raw 3 m.done).bump 0xA0010
  | none => s

/-- A forced power-down of stack `k` stops every channel moving on it, class 29 each (R319). -/
def State.forceStops (s : State) (k : Nat) : State := (s.movingOn k).foldl (fun s n => (s.stopChan n).raiseDev 29) s

/-- A write of DMA_CHn_CTL (R317). -/
def State.dmaCtl (s : State) (n : Nat) (v : Word) : State :=
  let x := s.chan n
  let x := { x with
    live := bit v 2 && decide (56 ≤ n) && decide (n ≤ 61), ringSpace := if x.enable then x.ringSpace else bit v 3 }
  let off := 0xA1000 + 0x40 * n
  if bit v 1 then
    let s := (s.setChan n x).stopChan n
    let x := s.chan n
    s.setChan n { x with enable := false, stopping := false, order := none, state := 6 }
  else if bit v 0 then
    if x.entries = 0 then s.ignored off v
    else s.setChan n { x with enable := true, stopping := false, state := if x.enable then x.state else 0 }
  else if x.enable then
    if x.desc.isSome then s.setChan n { x with stopping := true }
    else s.setChan n { x with enable := false, order := none, state := 6 }
  else s.setChan n x

/-- A write of DMA_CHn_TAIL (R67, R308). -/
def State.dmaTail (s : State) (n : Nat) (v : Word) : State :=
  let x := s.chan n
  let e := x.entries
  let t := fld v 15 0
  if t < e ∧ (x.tail + e - x.head % max 1 e) % max 1 e ≤ (t + e - x.head % max 1 e) % max 1 e then
    s.setChan n { x with tail := t, state := if x.state = 4 then 0 else x.state }
  else s.ignored (0xA1000 + 0x40 * n + 0x10) v

/-- A write of a channel register. -/
def State.chanWrite (s : State) (n o : Nat) (v : Word) : State :=
  let x := s.chan n
  let off := 0xA1000 + 0x40 * n + o
  if !s.hostChan n then s.ignored off v
  else if o = 0 then s.dmaCtl n v
  else if o = 4 ∧ ¬ x.enable then s.setChan n { x with baseLo := maskW 0xFFFFFFC0 v }
  else if o = 8 ∧ ¬ x.enable then s.setChan n { x with baseHi := v }
  else if o = 0xC ∧ ¬ x.enable then s.setChan n { x with size := fld v 4 0 }
  else if o = 0x10 then s.dmaTail n v
  else if o = 0x18 then s.setChan n { x with count := fld v 15 0 }
  else s.ignored off v

/-- DMA_REQ sets request lines, DMA_REQ_CLR clears them (R314). -/
def State.reqSet (s : State) (v : Word) : State := { s with dmaReq := s.dmaReq ||| fld v 15 0 }
def State.reqClear (s : State) (v : Word) : State := { s with dmaReq := s.dmaReq &&& (0xFFFF - fld v 15 0) }

/-- A write of the DMA block at block offset `o` (R328). -/
def State.dmaWrite (s : State) (o : Nat) (v : Word) : State :=
  if o = 0 then if 1 ≤ fld v 2 0 ∧ fld v 2 0 ≤ 4 then s.setReg 0xA0000 (maskW 7 v) else s.ignored 0xA0000 v
  else if o = 4 then s.reqSet v
  else if o = 8 then s.reqClear v
  else if o = 0xC ∨ o = 0x10 then s.setReg (0xA0000 + o) 0
  else if 0x1000 ≤ o ∧ o < 0x2000 then s.chanWrite ((o - 0x1000) / 0x40) (o % 0x40) v
  else s.ignored (0xA0000 + o) v

/-- TIL_INBOX_CTL.flush (R321): a dispatch order removed returns its unit, which is dispatched again as a patch move (R248). -/
def State.inboxCtl (s : State) (t : Nat) (v : Word) : State :=
  if bit v 0 then
    let x := s.tile t
    let s := s.flushInbox t
    match x.work with
    | some u => if x.inbox.isEmpty then s else (s.modTile t fun y => y.rest s.now).patchMove u none
    | none => s
  else s

/-- The next of `l` after `last` in round robin, below 16. -/
def nextRr (l : List Nat) (last : Nat) : Option Nat :=
  match l.find? fun k => decide (last < k) with
  | some k => some k
  | none => l.head?

/-- The first requester whose running ticket sum exceeds `d` (R323). -/
def lottery (tickets : Nat → Nat) (d : Nat) : Nat → List Nat → Option Nat
  | _, [] => none
  | acc, k :: t => if d < acc + tickets k then some k else lottery tickets d (acc + tickets k) t

/-- Arbiter of stack `k`. -/
def State.arb (s : State) (k : Nat) : Arb := tget {} s.arbs k

/-- One shift of the arbiter's LFSR (R323): x^31 + x^28 + 1. -/
def lfsrNext (l : BitVec 31) : BitVec 31 := (l <<< 1) ||| (BitVec.ofNat 31 (b2n (xor (l.getLsbD 30) (l.getLsbD 27))))

/-- ARBITER_GRANT (R323). -/
def State.arbGrant (s : State) (k : Nat) (eligible : BitVec 16) : State :=
  let a := s.arb k
  let el := setBits eligible.toNat 16
  let req (i : Nat) : Word := s.reg (0xD0000 + 0x100 * k + 4 * i)
  if el.isEmpty ∨ ¬ s.stackUp k then s
  else
    let floors := el.filter fun i => bit (req i) 8
    let total := (el.map fun i => fld (req i) 7 0).foldl (· + ·) 0
    let isFloor := a.count == 15 && !floors.isEmpty
    let win := if isFloor then nextRr floors a.lastFloor
      else if total = 0 then nextRr el a.lastRr
      else lottery (fun i => fld (req i) 7 0) (a.lfsr.toNat % 0x10000 * total / 0x10000) 0 el
    match win with
    | none => s
    | some w =>
      let a := { a with
        lfsr := lfsrNext a.lfsr, count := (a.count + 1) % 16
        lastFloor := if isFloor then w else a.lastFloor
        lastRr := if !isFloor && total == 0 then w else a.lastRr }
      { s with arbs := tset {} k a s.arbs }.bump (0xD0080 + 0x100 * k + 4 * w)

/-- A write of ARB_s_SEED (R324). -/
def State.arbSeed (s : State) (k : Nat) (v : Word) : State :=
  if fld v 30 0 = 0 then s.ignored (0xD0040 + 0x100 * k) v
  else { s with arbs := tset {} k { s.arb k with lfsr := BitVec.ofNat 31 (fld v 30 0) } s.arbs }

/-- A write of the ARB block at block offset `o` (R328). -/
def State.arbWrite (s : State) (o : Nat) (v : Word) : State :=
  let k := o / 0x100
  let r := o % 0x100
  if s.nStacks ≤ k then s.ignored (0xD0000 + o) v
  else if r < 0x40 then s.setReg (0xD0000 + o) (maskW 0x1FF v)
  else if r = 0x40 then s.arbSeed k v
  else if 0x80 ≤ r ∧ r < 0xC0 then s.setReg (0xD0000 + o) 0
  else s.ignored (0xD0000 + o) v

/-- Check-value unit `u`. -/
def State.cvu (s : State) (u : Nat) : Cvu := tget {} s.cvus u

/-- Write check-value unit `u`. -/
def State.setCvu (s : State) (u : Nat) (x : Cvu) : State := { s with cvus := tset {} u x s.cvus }

/-- Width of a check-value unit, and a value cut to it (R325: bits at and above w read as zero). -/
def Cvu.width (x : Cvu) : Nat := fld x.ctl 6 0
def Cvu.cut (x : Cvu) (v : Dword) : Dword := BitVec.ofNat 64 (v.toNat % 2 ^ x.width)

/-- One bit into the register (R325). -/
def Cvu.bitStep (x : Cvu) (r : Dword) (b : Bool) : Dword :=
  let top := r.getLsbD (x.width - 1) != b
  x.cut ((r <<< 1) ^^^ (if top then x.cut x.poly else 0))

/-- One byte into the register: least significant bit first with refin. -/
def Cvu.byteStep (x : Cvu) (r : Dword) (b : Byte) : Dword :=
  (upto 8).foldl (fun r i => x.bitStep r (b.getLsbD (if bit x.ctl 8 then i else 7 - i))) r

/-- Reverse the low `w` bits. -/
def revBits (v : Dword) (w : Nat) : Dword := (upto w).foldl (fun a i => (a <<< 1) ||| (if v.getLsbD i then 1 else 0)) 0

/-- The finished value of a register: reflected with refout, then the final XOR (R325). -/
def Cvu.finish (x : Cvu) (r : Dword) : Dword :=
  x.cut ((if bit x.ctl 9 then revBits r x.width else r) ^^^ x.cut x.xor)

/-- Feed `n` bytes of `v`, least significant first (R326). -/
def State.cvuFeed (s : State) (u n : Nat) (v : Word) : State :=
  let x := s.cvu u
  s.setCvu u { x with
    reg := (leBytes n v.toNat).foldl x.byteStep x.reg, bytes := min 0xFFFFFF (x.bytes + n), holds := true }

/-- A read of RESULT_LO (R326): FOLD is fed into a copy, RESULT_HI is latched, FOLD may increment. -/
def State.cvuResult (s : State) (u : Nat) : State :=
  let x := s.cvu u
  let r := (leBytes (fld x.ctl 13 10) x.fold.toNat).foldl x.byteStep x.reg
  s.setCvu u { x with result := x.finish r, fold := if bit x.ctl 14 then x.fold + 1 else x.fold }

/-- A write of CVU_u_CTL (R325, R326). -/
def State.cvuCtl (s : State) (u : Nat) (v : Word) : State :=
  let x := s.cvu u
  let w := maskW 0x7F7F v
  if fld v 6 0 = 0 ∨ 64 < fld v 6 0 ∨ 8 < fld v 13 10 ∨ (x.holds ∧ w ≠ x.ctl) then s.ignored (0xC0000 + 0x40 * u) v
  else
    let x := { x with ctl := w }
    s.setCvu u (if bit v 15 then { x with reg := x.cut x.init, bytes := 0, holds := false } else x)

/-- Write one word of a 64-bit register. -/
def putHalf (d : Dword) (hi : Bool) (v : Word) : Dword :=
  if hi then BitVec.ofNat 64 (d.toNat % 2 ^ 32 + v.toNat * 2 ^ 32) else BitVec.ofNat 64 (d.toNat / 2 ^ 32 * 2 ^ 32 + v.toNat)

/-- A write of the CVU block at block offset `o` (R328). -/
def State.cvuWrite (s : State) (o : Nat) (v : Word) : State :=
  let u := o / 0x40
  let r := o % 0x40
  let x := s.cvu u
  if 8 ≤ u then s.ignored (0xC0000 + o) v
  else if r = 0 then s.cvuCtl u v
  else if r = 4 ∨ r = 8 then s.setCvu u { x with poly := putHalf x.poly (r == 8) v }
  else if r = 0xC ∨ r = 0x10 then s.setCvu u { x with init := putHalf x.init (r == 0x10) v }
  else if r = 0x14 ∨ r = 0x18 then s.setCvu u { x with xor := putHalf x.xor (r == 0x18) v }
  else if r = 0x1C then s.cvuFeed u 1 v
  else if r = 0x20 then s.cvuFeed u 2 v
  else if r = 0x24 then s.cvuFeed u 4 v
  else if r = 0x28 ∨ r = 0x2C then s.setCvu u { x with fold := putHalf x.fold (r == 0x2C) v }
  else s.ignored (0xC0000 + o) v

/-- A command on check-value unit `u` of a running device. -/
def State.onCvu (s : State) (u : Nat) (f : State → State) : State := if s.live && decide (u < 8) then f s else s

/-- A write of a register of host channel `n` of a running device. -/
def State.onChan (s : State) (n o : Nat) (v : Word) : State := if s.live && decide (n < 64) then s.chanWrite n o v else s

/-- DMA_TAIL_WRITE. -/
def execDmaTailWrite (n : Nat) (v : Word) (s : State) : Host.Outcome State Fault Refusal := .next (s.onChan n 0x10 v)

/-- DESCRIPTOR_START. -/
def execDescriptorStart (n : Nat) (b data : List Byte) (s : State) : Host.Outcome State Fault Refusal := .next (s.descStartOp n b data)

/-- BURST_START. -/
def execBurstStart (n : Nat) (s : State) : Host.Outcome State Fault Refusal := .next (s.burstOp n)

/-- DESCRIPTOR_WRITEBACK. -/
def execDescriptorWriteback (n : Nat) (e : DmaEnd) (s : State) : Host.Outcome State Fault Refusal := .next (s.writebackOp n e)

/-- DMA_ABORT: a write of DMA_CHn_CTL with abort set. -/
def execDmaAbort (n : Nat) (v : Word) (s : State) : Host.Outcome State Fault Refusal := .next (s.onChan n 0 (v ||| 2))

/-- DMA_ENABLE: a write of DMA_CHn_CTL without abort. -/
def execDmaEnable (n : Nat) (v : Word) (s : State) : Host.Outcome State Fault Refusal := .next (s.onChan n 0 (maskW 0xFFFFFFFD v))

/-- DMA_REQ_SET: a write of DMA_REQ. -/
def execDmaReqSet (v : Word) (s : State) : Host.Outcome State Fault Refusal := .next (s.whenLive (·.reqSet v))

/-- DMA_REQ_CLEAR: a write of DMA_REQ_CLR. -/
def execDmaReqClear (v : Word) (s : State) : Host.Outcome State Fault Refusal := .next (s.whenLive (·.reqClear v))

/-- INBOX_FLUSH: a write of TIL_INBOX_CTL with flush set, to a tile whose clock runs (R338). -/
def execInboxFlush (t : Nat) (v : Word) (s : State) : Host.Outcome State Fault Refusal :=
  .next (s.whenLive fun s =>
    if s.present (tileBase t + 0x100) && !s.stopped (tileBase t + 0x100) then s.inboxCtl t (v ||| 1) else s.ignored (tileBase t + 0x100) v)

/-- ARBITER_GRANT. -/
def execArbiterGrant (k : Nat) (el : BitVec 16) (s : State) : Host.Outcome State Fault Refusal := .next (s.arbGrant k el)

/-- ARB_SEED_WRITE: a write of ARB_s_SEED. -/
def execArbSeedWrite (k : Nat) (v : Word) (s : State) : Host.Outcome State Fault Refusal :=
  .next (s.whenLive fun s =>
    let off := 0xD0040 + 0x100 * k
    if 4 ≤ k then s else if s.nStacks ≤ k ∨ s.stopped off then s.ignored off v else s.arbSeed k v)

/-- CVU_DATA8. -/
def execCvuData8 (u : Nat) (v : Word) (s : State) : Host.Outcome State Fault Refusal := .next (s.onCvu u (·.cvuFeed u 1 v))

/-- CVU_DATA16. -/
def execCvuData16 (u : Nat) (v : Word) (s : State) : Host.Outcome State Fault Refusal := .next (s.onCvu u (·.cvuFeed u 2 v))

/-- CVU_DATA32. -/
def execCvuData32 (u : Nat) (v : Word) (s : State) : Host.Outcome State Fault Refusal := .next (s.onCvu u (·.cvuFeed u 4 v))

/-- CVU_RESULT_READ: a read of RESULT_LO. -/
def execCvuResultRead (u : Nat) (s : State) : Host.Outcome State Fault Refusal := .next (s.onCvu u (·.cvuResult u))

/-- CVU_START: a write of CVU_u_CTL with start set. -/
def execCvuStart (u : Nat) (v : Word) (s : State) : Host.Outcome State Fault Refusal := .next (s.onCvu u (·.cvuCtl u (v ||| 0x8000)))

/-- CVU_CTL_WRITE: a write of CVU_u_CTL. -/
def execCvuCtlWrite (u : Nat) (v : Word) (s : State) : Host.Outcome State Fault Refusal := .next (s.onCvu u (·.cvuCtl u v))

end Sys2Proof.Machine
end

