-- ==== Sys2Proof/Machine/Package.lean ====
section
/-!
DEFINITION. The package and the supplies (R415 to R420, R424, R425): rails, their order, typical powers, the ball map, limits.
-/
namespace Sys2Proof.Machine

/-- The supply rails, in the order of Table 23.1. -/
inductive Rail where
  | vddAon | vddIo | vddSoc | vddCore | vddSrd | vddaSrd | vppHbm | vddHbm | vddqlHbm
deriving DecidableEq, Repr

/-- A rail (Table 23.1): millivolts, tolerance in per cent, most amperes, its watts of the TDP of the MV-W9T-A144. -/
structure RailSpec where
  mv : Nat
  tol : Nat
  amps : Nat
  watts : Nat
deriving DecidableEq, Repr

/-- Table 23.1. -/
def Rail.spec : Rail → RailSpec
  | .vddAon => ⟨750, 3, 1, 1⟩
  | .vddIo => ⟨1800, 5, 2, 2⟩
  | .vddSoc => ⟨800, 3, 75, 48⟩
  | .vddCore => ⟨750, 3, 380, 255⟩
  | .vddSrd => ⟨850, 3, 30, 18⟩
  | .vddaSrd => ⟨1200, 3, 6, 4⟩
  | .vppHbm => ⟨1800, 5, 4, 6⟩
  | .vddHbm => ⟨1100, 3, 30, 22⟩
  | .vddqlHbm => ⟨400, 3, 60, 24⟩

/-- The rails in the order of Table 23.1. -/
def rails : List Rail := [.vddAon, .vddIo, .vddSoc, .vddCore, .vddSrd, .vddaSrd, .vppHbm, .vddHbm, .vddqlHbm]

/-- A rail of `mv` millivolts is within its tolerance at the balls (R415). -/
def Rail.inTolerance (r : Rail) (mv : Nat) : Bool :=
  decide (r.spec.mv * (100 - r.spec.tol) ≤ mv * 100) && decide (mv * 100 ≤ r.spec.mv * (100 + r.spec.tol))

/-- The step of Table 23.2 in which a rail ramps, and its place in the step. -/
def Rail.step : Rail → Nat × Nat
  | .vddAon => (1, 0)
  | .vddIo => (1, 0)
  | .vppHbm => (2, 0)
  | .vddHbm => (2, 1)
  | .vddqlHbm => (2, 2)
  | .vddSoc => (3, 0)
  | .vddCore => (3, 1)
  | .vddSrd => (3, 2)
  | .vddaSrd => (3, 2)

/-- Rail `a` must ramp before rail `b` (R416, Table 23.2). -/
def Rail.before (a b : Rail) : Bool := decide (a.step.1 < b.step.1) || (a.step.1 == b.step.1 && decide (a.step.2 < b.step.2))

/-- The HBM rails stand in the order that R416 demands at all times. -/
def hbmRailsOk (mv : Rail → Nat) : Bool := decide (mv .vddqlHbm ≤ mv .vddHbm) && decide (mv .vddHbm ≤ mv .vppHbm)

/-- Typical power in watts by mode and part (Table 23.3): WOVEN while idle, RUNNING at the TDP; no figure for PRESS. -/
def typicalWatts (a144 : Bool) : Mode → Option Nat
  | .standby => some (if a144 then 18 else 11)
  | .primed => some (if a144 then 42 else 26)
  | .woven => some (if a144 then 45 else 28)
  | .running => some (if a144 then 380 else 215)
  | .safe => some (if a144 then 60 else 38)
  | .press => none

/-- Groups of high-speed lanes (Table 23.5). -/
inductive LaneGroup where
  | pcie | eth0 | eth1 | lineUp | lineDown | lineTrunk
deriving DecidableEq, Repr

/-- Low-speed signals (Table 23.6). -/
inductive LowPin where
  | xtalIn | xtalOut | ppsIn | ppsOut | porN | perst | wakeN | thermtripN | i2cScl | i2cSda | i2cAddr0 | i2cAddr1 | spiClk | spiCsN
  | spiIo (k : Nat) | tck | tms | tdi | tdo | trstN | gpio (k : Nat)
deriving DecidableEq, Repr

/-- What a ball carries. -/
inductive Ball where
  | vss
  | rail (r : Rail)
  | lane (g : LaneGroup) (k : Nat) (rx neg : Bool)
  | refclk100 (neg : Bool)
  | refclk156 (neg : Bool)
  | low (p : LowPin)
deriving DecidableEq, Repr

/-- A number from `lo` to `hi`. -/
def span (lo hi n : Nat) : Bool := decide (lo ≤ n) && decide (n ≤ hi)

/-- The rail of the power field that holds ball r-c (Table 23.4). -/
def fieldRail (r c : Nat) : Option Rail :=
  if span 15 54 r && (span 6 33 c || span 36 63 c) then some .vddCore
  else if span 56 65 r && span 24 43 c then some .vddSoc
  else if span 5 10 r && span 24 43 c then some .vddSrd
  else if span 11 12 r && span 24 43 c then some .vddaSrd
  else if (span 5 12 r || span 57 64 r) && (span 6 22 c || span 46 62 c) then
    let k := if r < 57 then r - 5 else r - 57
    some (if k < 3 then .vddHbm else if k < 7 then .vddqlHbm else .vppHbm)
  else none

/-- The lane of a group whose balls begin at column `c0` and take `lanes` lanes. -/
def laneBall (g : LaneGroup) (c0 lanes : Nat) (rx : Bool) (c : Nat) : Option Ball :=
  if span c0 (c0 + 2 * lanes - 1) c then some (.lane g ((c - c0) / 2) rx ((c - c0) % 2 == 1)) else none

/-- The high-speed ball r-c (Table 23.5). -/
def highBall (r c : Nat) : Option Ball :=
  if r = 1 ∨ r = 3 then laneBall .pcie 18 16 (r == 3) c
  else if r = 2 ∧ (c = 50 ∨ c = 51) then some (.refclk100 (c == 51))
  else if r = 67 ∧ (c = 24 ∨ c = 25) then some (.refclk156 (c == 25))
  else if r = 66 ∨ r = 68 then
    let rx := r == 68
    (laneBall .eth0 4 4 rx c).or ((laneBall .eth1 14 4 rx c).or ((laneBall .lineUp 48 2 rx c).or
      ((laneBall .lineDown 54 2 rx c).or (laneBall .lineTrunk 60 2 rx c))))
  else none

/-- The low-speed and supply balls of columns 67 and 68 (Table 23.6). -/
def lowBall (r c : Nat) : Option Ball :=
  let two (a b : LowPin) : Option Ball := some (.low (if c = 67 then a else b))
  if c ≠ 67 ∧ c ≠ 68 then none
  else if r = 30 then two .xtalIn .xtalOut
  else if r = 32 then two .ppsIn .ppsOut
  else if r = 34 then two .porN .perst
  else if r = 36 then two .wakeN .thermtripN
  else if r = 38 then two .i2cScl .i2cSda
  else if r = 40 then two .i2cAddr0 .i2cAddr1
  else if r = 42 then two .spiClk .spiCsN
  else if r = 44 then two (.spiIo 0) (.spiIo 1)
  else if r = 46 then two (.spiIo 2) (.spiIo 3)
  else if r = 48 then two .tck .tms
  else if r = 50 then two .tdi .tdo
  else if r = 52 ∧ c = 67 then some (.low .trstN)
  else if span 54 60 r && r % 2 == 0 then two (.gpio (r - 54)) (.gpio (r - 53))
  else if r = 62 ∨ r = 63 then some (.rail .vddIo)
  else if r = 64 then some (.rail .vddAon)
  else none

/-- What ball r-c carries (R419): its own signal or rail, else its field's rail where r + c is even, else VSS. -/
def ballAt (r c : Nat) : Ball :=
  match (highBall r c).or (lowBall r c) with
  | some b => b
  | none => match fieldRail r c with
    | some v => if (r + c) % 2 = 0 then .rail v else .vss
    | none => .vss

/-- Ball r-c has no internal connection on the MV-W9T-B072 (R420): the core F1 field, stacks S2 and S3, the LINE-TRUNK lanes. -/
def unconnected (r c : Nat) : Bool :=
  (span 15 54 r && span 36 63 c) || ((span 5 12 r || span 57 64 r) && span 46 62 c) ||
    match ballAt r c with
    | .lane g _ _ _ => g == .lineTrunk
    | _ => false

/-- Absolute limits of a rail in millivolts (Table 23.9). -/
def Rail.absMax : Rail → Int × Int
  | .vddAon => (-300, 950)
  | .vddCore => (-300, 950)
  | .vddSoc => (-300, 950)
  | .vddSrd => (-300, 1000)
  | .vddaSrd => (-300, 1400)
  | .vddHbm => (-300, 1400)
  | .vddqlHbm => (-300, 600)
  | .vddIo => (-300, 2200)
  | .vppHbm => (-300, 2200)

/-- Other absolute limits (Table 23.9): junction and storage in °C, ESD in volts, lid load in newtons. -/
def junctionMax : Int := 125
def storageRange : Int × Int := (-55, 125)
def esdHbm : Nat := 1000
def esdCdm : Nat := 250
def lidLoad : Nat := 400

/-- The junction temperature of a die in hundredths of °C, under a lid of `lid` hundredths and at `watts` (R425: θjc 0.04 °C/W). -/
def junctionTemp (lid watts : Nat) : Nat := lid + 4 * watts

/-- Operating limits in °C (R425): junction, start of throttling, shutdown, and stacks. -/
def junctionLimits : Nat × Nat × Nat := (105, 100, 115)
def stackLimit : Nat := 95

end Sys2Proof.Machine
end

