-- ==== Sys2Proof/Machine/FaultRegs.lean ====
section
/-!
DEFINITION. The fault collector's registers and events (R263 to R269) and the lint trap's controls (R271, R272, R274).
-/
namespace Sys2Proof.Machine

/-- FAULT_EVENT (R263): the events of one HUB cycle. -/
def execFaultEvent (evs : List FaultEv) (s : State) : Host.Outcome State Fault Refusal := .next (s.whenLive (·.collect evs))

/-- Clear a field of every unit's counting state of class `k`. -/
def State.mapUnits (s : State) (k : Nat) (f : FltUnit → FltUnit) : State :=
  { s with flt := { s.flt with units := (upto 64).foldl (fun t u =>
      let x := tget {} t (k * 64 + u)
      if x = {} then t else tset {} (k * 64 + u) (f x) t) s.flt.units } }

/-- FAULT_ACKNOWLEDGE (R265): the classes whose bits are written 1. -/
def State.ackFaults (s : State) (hi : Bool) (v : Word) : State :=
  let m : BitVec 64 := if hi then BitVec.ofNat 64 (v.toNat * 2 ^ 32) else BitVec.ofNat 64 v.toNat
  let s := { s with flt := { s.flt with status := s.flt.status &&& ~~~m } }
  (upto 64).foldl (fun s k => if m.getLsbD k then s.mapUnits k fun x => { x with unacked := false } else s) s

/-- FIRST_CLEAR (R264): writing 1 to valid clears it. -/
def State.clearFirst (s : State) (v : Word) : State :=
  if bit v 31 then { s with flt := { s.flt with firstWord := s.flt.firstWord &&& 0x7FFFFFFF } } else s

/-- Class selected by FLT_SEL. -/
def State.fltSel (s : State) : Nat := fld (s.reg 0x40018) 5 0

/-- A FLT_CFG word is legal for class `k` (R269). -/
def cfgLegal (k : Nat) (v : Word) : Bool :=
  let base := fld v 2 0
  let top := fld v 5 3
  scopeOf k != .reserved && decide (base ≤ 4) && decide (top ≤ 4) && decide (base ≤ top)
    && (top != 4 || scopeOf k == .device) && fld v 15 8 != 0

/-- FAULT_CFG_WRITE (R269): applied whole, with the class's counts cleared, or ignored. -/
def State.writeFltCfg (s : State) (v : Word) : State :=
  let k := s.fltSel
  if cfgLegal k v then
    ({ s with flt := { s.flt with cfg := tset (fltCfgReset k) k (maskW 0xFFFF v) s.flt.cfg } }).mapUnits k
      fun x => { x with cnt := 0 }
  else s.ignored 0x4001C v

/-- A write of FLT_WINDOW_LO: held until the HI write. -/
def State.writeFltWinLo (s : State) (v : Word) : State :=
  if scopeOf s.fltSel = .reserved then s.ignored 0x40020 v else { s with flt := { s.flt with winLo := some v } }

/-- FAULT_WINDOW_WRITE (R269): the 48-bit window applies, and the class's counts clear. -/
def State.writeFltWin (s : State) (v : Word) : State :=
  let k := s.fltSel
  if scopeOf k = .reserved then s.ignored 0x40024 v
  else
    let lo := match s.flt.winLo with
      | some w => w
      | none => loW (s.fltWin k)
    let w := lo.toNat + fld v 15 0 * 2 ^ 32
    ({ s with flt := { s.flt with window := tset (fltWinReset k) k w s.flt.window, winLo := none } }).mapUnits k
      fun x => { x with cnt := 0 }

/-- FAULT_INJECT (FLT_INJECT). -/
def State.injectFault (s : State) (v : Word) : State :=
  let k := fld v 5 0
  let u := fld v 22 16
  if bit v 31 && decide (5 ≤ k) && s.unitOk k u then s.collect [{ cls := k, unit := u }] else s.ignored 0x4002C v

/-- A write of the FLT block at block offset `o` (R269). -/
def State.fltWrite (s : State) (o : Nat) (v : Word) : State :=
  if o = 0x00 then s.ackFaults false v
  else if o = 0x04 then s.ackFaults true v
  else if o = 0x08 then s.clearFirst v
  else if o = 0x18 then { (s.setReg 0x40018 (maskW 0x7F003F v)) with flt := { s.flt with winLo := none } }
  else if o = 0x1C then s.writeFltCfg v
  else if o = 0x20 then s.writeFltWinLo v
  else if o = 0x24 then s.writeFltWin v
  else if o = 0x2C then s.injectFault v
  else s.ignored (0x40000 + o) v

/-- Triggers that wait when the trap freezes are discarded and counted, but for the first fatal event's (R272). -/
def State.lintFreeze (s : State) : State :=
  if s.lnt.frozen then s
  else
    let keep := s.lnt.queue.filter (·.fatal)
    let lost := s.lnt.queue.length - keep.length
    let s := { s with lnt := { s.lnt with frozen := true, queue := keep } }
    if lost = 0 then s else s.bump 0x50008 lost

/-- LNT_CTL unfreeze (R272): ignored in SAFE. -/
def State.lintUnfreeze (s : State) (v : Word) : State :=
  if s.pwr.safe then s.ignored 0x50000 v
  else if s.lnt.frozen then { s with lnt := { s.lnt with frozen := false, queue := [] } }
  else s

/-- LNT_CTL snap (R271): a host trigger with set 0, behind the triggers of its cycle. -/
def State.lintSnap (s : State) : State := s.lintPush { trig := mkWord [(7, 1), (24, 127)], time := s.now, set := 0 }

/-- LNT_CTL clear (R272, R273): every seq word and the index are zero; ignored unless frozen. The pocket keeps entry 0. -/
def State.lintWipe (s : State) (v : Word) : State :=
  if !s.lnt.frozen then s.ignored 0x50000 v
  else if s.lnt.pocket then
    { s with lnt := { s.lnt with
        pocketE := s.lnt.pocketE.map (fun e => if e.1 = 0 then e else (e.1, { e.2 with seq := 0 })), pnext := 1 } }
  else { s with lnt := { s.lnt with sram := s.lnt.sram.map fun e => (e.1, { e.2 with seq := 0 }), next := 0, wrapped := false } }

/-- A write of LNT_CTL: one bit at most. -/
def State.lintCtl (s : State) (v : Word) : State :=
  let b := fld v 3 0
  if b = 1 then s.lintFreeze
  else if b = 2 then s.lintUnfreeze v
  else if b = 4 then s.lintSnap
  else if b = 8 then s.lintWipe v
  else if b = 0 then s
  else s.ignored 0x50000 v

/-- A write of the LNT block at block offset `o` (R274). -/
def State.lntWrite (s : State) (o : Nat) (v : Word) : State :=
  if o = 0x00 then s.lintCtl v
  else if o = 0x08 then s.setReg 0x50008 0
  else if 0x40 ≤ o ∧ o < 0x80 then
    if fld v 3 2 = 3 ∨ 4 < fld v 10 8 then s.ignored (0x50000 + o) v else s.setReg (0x50000 + o) (maskW 0xFF70F v)
  else if 0x100 ≤ o ∧ o < 0x180 then s.setReg (0x50000 + o) (maskW 0x7FFFFC v)
  else s.ignored (0x50000 + o) v

/-- FAULT_ACKNOWLEDGE: a write of FLT_STATUS_LO or _HI. -/
def execFaultAcknowledge (hi : Bool) (v : Word) (s : State) : Host.Outcome State Fault Refusal :=
  .next (s.whenLive (·.ackFaults hi v))

/-- FIRST_CLEAR: a write of FLT_FIRST. -/
def execFirstClear (v : Word) (s : State) : Host.Outcome State Fault Refusal := .next (s.whenLive (·.clearFirst v))

/-- FAULT_CFG_WRITE: a write of FLT_CFG. -/
def execFaultCfgWrite (v : Word) (s : State) : Host.Outcome State Fault Refusal := .next (s.whenLive (·.writeFltCfg v))

/-- FAULT_WINDOW_WRITE: a write of FLT_WINDOW_HI. -/
def execFaultWindowWrite (v : Word) (s : State) : Host.Outcome State Fault Refusal := .next (s.whenLive (·.writeFltWin v))

/-- FAULT_INJECT: a write of FLT_INJECT. -/
def execFaultInject (v : Word) (s : State) : Host.Outcome State Fault Refusal := .next (s.whenLive (·.injectFault v))

/-- The other control bits of a LNT_CTL write that asks for `b`: more than one bit is ignored (LNT_CTL). -/
def lintAsk (b : Nat) (v : Word) : Word := v ||| w32 b

/-- FREEZE: a write of LNT_CTL with freeze set. -/
def execFreeze (v : Word) (s : State) : Host.Outcome State Fault Refusal := .next (s.whenLive (·.lintCtl (lintAsk 1 v)))

/-- UNFREEZE: a write of LNT_CTL with unfreeze set. -/
def execUnfreeze (v : Word) (s : State) : Host.Outcome State Fault Refusal := .next (s.whenLive (·.lintCtl (lintAsk 2 v)))

/-- SNAP: a write of LNT_CTL with snap set. -/
def execSnap (v : Word) (s : State) : Host.Outcome State Fault Refusal := .next (s.whenLive (·.lintCtl (lintAsk 4 v)))

/-- LINT_CLEAR: a write of LNT_CTL with clear set. -/
def execLintClear (v : Word) (s : State) : Host.Outcome State Fault Refusal := .next (s.whenLive (·.lintCtl (lintAsk 8 v)))

end Sys2Proof.Machine
end

