-- ==== Sys2Proof/Machine/Pmu.lean ====
section
/-!
DEFINITION. Performance counters and sampling (R399 to R408): event selection, threshold events, precise samples and the
bandwidth windows. The events that commands show are counted by `State.count` and `State.countTile`.
-/
namespace Sys2Proof.Machine

/-- Replace the counters' state. -/
def State.setPmu (s : State) (p : Pmu) : State := { s with pmu := p }

/-- An event of Table 21.1: units it names (1 for none), and whether it has an occupancy. `none`: undefined. -/
def pmuEvent (code : Nat) : Option (Nat × Bool) :=
  if 1 ≤ code ∧ code ≤ 6 then some (1, false)
  else if 7 ≤ code ∧ code ≤ 9 then some (1, true)
  else if code = 0x10 ∨ code = 0x11 then some (4, false)
  else if 0x20 ≤ code ∧ code ≤ 0x23 then some (4, false)
  else if code = 0x24 then some (4, true)
  else if code = 0x30 then some (4, false)
  else if code = 0x31 then some (4, true)
  else if 0x40 ≤ code ∧ code ≤ 0x46 then some (1, false)
  else if code = 0x47 then some (1, true)
  else none

/-- An EVT word is legal for a counter (R399 to R401): `tile` tells a tile counter, `last` that chain is illegal on it. -/
def evtLegal (tile last : Bool) (v : Word) : Bool :=
  match pmuEvent (fld v 7 0) with
  | none => false
  | some (units, occ) =>
    tile == decide (0x40 ≤ fld v 7 0) && decide (fld v 12 8 < units) && (!bit v 13 || occ) && !(bit v 14 && bit v 15)
      && !(bit v 14 && last)

/-- A write of the event register of counter `c` (R402): the counter keeps its value. -/
def State.evtWrite (s : State) (c : Nat) (v : Word) : State :=
  let last := if c < 64 then c == 63 else c % 8 == 7
  if evtLegal (decide (64 ≤ c)) last v then s.setReg (evtOff c) v else s.ignored (evtOff c) v

/-- A write of a counter's LO or HI word (R408): HI bit 31 clears ovf. -/
def State.cntWrite (s : State) (c : Nat) (hi : Bool) (v : Word) : State :=
  let x := tget 0 s.pmu.cnt c
  let y := if hi then x % 2 ^ 32 + fld v 15 0 * 2 ^ 32 else x / 2 ^ 32 * 2 ^ 32 + v.toNat
  s.setPmu { s.pmu with
    cnt := tset 0 c y s.pmu.cnt
    ovf := if hi && bit v 31 then tset false c false s.pmu.ovf else s.pmu.ovf }

/-- A write of PMU_CTL: clear zeroes the global counters and their ovf bits. -/
def State.pmuCtl (s : State) (v : Word) : State :=
  let s := s.setReg 0x60000 (maskW 1 v)
  if bit v 1 then s.setPmu { s.pmu with
    cnt := s.pmu.cnt.filter (fun e => decide (64 ≤ e.1)), ovf := s.pmu.ovf.filter fun e => decide (64 ≤ e.1) }
  else s

/-- The trigger of a counter's threshold event (Table 13.3). -/
def cntTrig (slot n : Nat) : Word := mkWord [(0, slot), (8, n), (24, 127)]

/-- Every enabled slot of kind 2 that names counter `n` fires (R404). -/
def State.lintCounter (s : State) (n : Nat) : State :=
  ((upto 16).filter fun k =>
      let w := s.reg (trigReg k)
      bit w 0 && fld w 3 2 == 2 && fld w 17 12 == n).foldl (fun s k =>
    (s.lintPush { trig := cntTrig k n, time := s.now, set := fld (s.reg (trigReg k)) 19 18 }).fireSlot k) s

/-- PMU_LIMITn. -/
def State.pmuLimit (s : State) (n : Nat) : Nat := joinW (s.reg (0x60400 + 8 * n)) (s.reg (0x60404 + 8 * n))

/-- THRESHOLD_EVENT (R404): running counter `n` has come to `value`, at or above its limit, by counting up or through a wrap. -/
def State.thresholdOp (s : State) (n value : Nat) : State :=
  let old := tget 0 s.pmu.cnt n
  let wrap := decide (value < old)
  if decide (n < 64) && decide (value < 2 ^ 48) && s.cntRuns n && s.pmuLimit n != 0 && !nbit s.pmu.thr n &&
      (decide (s.pmuLimit n ≤ value) || wrap) then
    (s.setPmu { s.pmu with
      cnt := tset 0 n value s.pmu.cnt, thr := s.pmu.thr ||| 2 ^ n
      ovf := if wrap then tset false n true s.pmu.ovf else s.pmu.ovf }).lintCounter n
  else s

/-- A write of PMU_THR_LO or _HI: writing 1 re-arms (R404). -/
def State.thrAck (s : State) (hi : Bool) (v : Word) : State :=
  let m := if hi then v.toNat * 2 ^ 32 else v.toNat
  s.setPmu { s.pmu with thr := s.pmu.thr - (s.pmu.thr &&& m) }

/-- The sampling period of tile `t` (R405). -/
def State.samplePeriod (s : State) (t : Nat) : Nat :=
  fld (s.reg 0x60604) 15 0 + (s.tile t).lfsr.toNat % 2 ^ fld (s.reg 0x60600) 11 8

/-- A sample of tile `t` (Table 21.2). -/
def State.sampleOf (s : State) (t latency : Nat) (ctu : Word) : Sample :=
  let y := s.tile t
  { d0 := mkWord [(0, fld y.ndl.shown 21 0), (22, t)]
    d1 := mkWord [(0, match y.work with
      | some u => u.ses
      | none => 0), (16, min 65535 latency)]
    d2 := if y.work.isSome then ctu else 0xFFFFFFFF
    d3 := loW s.now }

/-- PRECISE_SAMPLE (R405, R406): the sample enters the queue, or is lost. -/
def State.sampleOp (s : State) (t latency : Nat) (ctu : Word) : State :=
  let y := s.tile t
  let on := bit (s.reg 0x60600) 0 && nbit (joinW (s.reg 0x60608) (s.reg 0x6060C)) t
  if s.live && decide (t < s.nTiles) && on && decide (s.samplePeriod t ≤ y.sampCnt) then
    let x := s.sampleOf t latency ctu
    let s := s.setTile t { y with sampCnt := 0, lfsr := lfsrNext y.lfsr }
    if 64 ≤ s.pmu.queue.length then s.bump 0x60618 else s.setPmu { s.pmu with queue := s.pmu.queue ++ [x] }
  else s

/-- One sample moves from the queue into the buffer (R406). -/
def State.sampleMove (s : State) : State :=
  match s.pmu.queue with
  | [] => s
  | x :: q =>
    let p := { s.pmu with queue := q }
    let next := (p.tail + 1) % 4096
    let full := next == p.head
    if full && !bit (s.reg 0x60600) 1 then (s.setPmu p).bump 0x60618
    else s.setPmu { p with
      buf := tset {} p.tail x p.buf, tail := next, head := if full then (p.head + 1) % 4096 else p.head }

/-- The queue drains between two ticks of the timebase, one sample per HUB cycle (R406). -/
def State.sampleDrain (s : State) : State := (upto 64).foldl (fun s _ => s.sampleMove) s

/-- A write of PMU_SAMP_HEAD (R406): beyond TAIL it is ignored. -/
def State.sampleHead (s : State) (v : Word) : State :=
  let h := fld v 11 0
  let p := s.pmu
  if (h + 4096 - p.head) % 4096 ≤ (p.tail + 4096 - p.head) % 4096 then s.setPmu { p with head := h } else s.ignored 0x60610 v

/-- BW_WINDOW_BOUNDARY (R407): the totals of the window just ended latch, unless a WIN write discards it. -/
def State.bwOp (s : State) (totals : List Nat) : State :=
  let w := (s.reg 0x60700).toNat
  let b := s.now / w * w
  let p := s.pmu
  if !s.live || b == p.bwAt then s
  else if p.bwFresh then s.setPmu { p with bwFresh := false, bwAt := b }
  else s.setPmu { p with
    bwAt := b, bwStart := b - w, bwGen := p.bwGen + 1
    bw := ((upto 16).filterMap fun k => if totals.getD k 0 % 2 ^ 64 = 0 then none else some (k, BitVec.ofNat 64 (totals.getD k 0))) }

/-- A write of PMU_BW_WIN (R407). -/
def State.bwWinWrite (s : State) (v : Word) : State :=
  if 1442 ≤ v.toNat ∧ v.toNat ≤ 94464770 then
    (s.setReg 0x60700 v).setPmu { s.pmu with bwFresh := true, bwAt := s.now / v.toNat * v.toNat }
  else s.ignored 0x60700 v

/-- A write of the PMU block at offset `o` (R408). -/
def State.pmuWrite (s : State) (o : Nat) (v : Word) : State :=
  if o = 0 then s.pmuCtl v
  else if o = 0x08 then s.thrAck false v
  else if o = 0x0C then s.thrAck true v
  else if 0x100 ≤ o ∧ o < 0x200 then s.evtWrite ((o - 0x100) / 4) v
  else if 0x200 ≤ o ∧ o < 0x400 then s.cntWrite ((o - 0x200) / 8) (o % 8 == 4) v
  else if 0x400 ≤ o ∧ o < 0x600 then s.setReg (0x60000 + o) (if o % 8 = 4 then maskW 0xFFFF v else v)
  else if o = 0x600 then s.setReg 0x60600 (maskW 0xF03 v)
  else if o = 0x604 then if fld v 15 0 < 16 then s.ignored 0x60604 v else s.setReg 0x60604 (maskW 0xFFFF v)
  else if o = 0x608 ∨ o = 0x60C then s.setReg (0x60000 + o) v
  else if o = 0x610 then s.sampleHead v
  else if o = 0x618 then s.setReg 0x60618 0
  else if o = 0x61C then s.setReg 0x6061C (maskW 0xFFF v)
  else if o = 0x700 then s.bwWinWrite v
  else s.ignored (0x60000 + o) v

/-- A write of tile `t`'s MSR window at offset `o` of it (R408). -/
def State.msrWrite (s : State) (t o : Nat) (v : Word) : State :=
  if o = 0 then s.setReg (0x204000 + 0x8000 * t) (maskW 1 v)
  else if 0x40 ≤ o ∧ o < 0x60 then s.evtWrite (64 + t * 8 + (o - 0x40) / 4) v
  else if 0x80 ≤ o ∧ o < 0xC0 then s.cntWrite (64 + t * 8 + (o - 0x80) / 8) (o % 8 == 4) v
  else s.ignored (0x204000 + 0x8000 * t + o) v

/-- PMU_CLEAR: a write of PMU_CTL with clear set (R402). -/
def execPmuClear (v : Word) (s : State) : Host.Outcome State Fault Refusal := .next (s.whenLive (·.pmuCtl (v ||| 2)))

/-- A write of MSR_EVTk of tile `t` (R402): the window of an absent or stopped tile ignores it (R2, R338). -/
def State.tileEvtWrite (s : State) (t k : Nat) (v : Word) : State :=
  let off := 0x204040 + 0x8000 * t + 4 * k
  if s.present off && !s.stopped off then s.evtWrite (64 + t * 8 + k) v else s.ignored off v

/-- PMU_EVT_WRITE: a write of PMU_EVTn, or of MSR_EVTk of a tile (R402). -/
def execPmuEvtWrite (tile : Option Nat) (k : Nat) (v : Word) (s : State) : Host.Outcome State Fault Refusal :=
  .next (s.whenLive fun s => match tile with
    | none => if k < 64 then s.evtWrite k v else s
    | some t => if t < 64 ∧ k < 8 then s.tileEvtWrite t k v else s)

/-- THRESHOLD_EVENT (R404). -/
def execThresholdEvent (n value : Nat) (s : State) : Host.Outcome State Fault Refusal := .next (s.whenLive (·.thresholdOp n value))

/-- PMU_THR_ACK (R404). -/
def execPmuThrAck (hi : Bool) (v : Word) (s : State) : Host.Outcome State Fault Refusal := .next (s.whenLive (·.thrAck hi v))

/-- PRECISE_SAMPLE (R405). -/
def execPreciseSample (t latency : Nat) (ctu : Word) (s : State) : Host.Outcome State Fault Refusal :=
  .next (s.sampleOp t latency ctu)

/-- SAMPLE_HEAD_WRITE (R406). -/
def execSampleHeadWrite (v : Word) (s : State) : Host.Outcome State Fault Refusal := .next (s.whenLive (·.sampleHead v))

/-- BW_WINDOW_BOUNDARY (R407). -/
def execBwWindowBoundary (totals : List Nat) (s : State) : Host.Outcome State Fault Refusal := .next (s.bwOp totals)

end Sys2Proof.Machine
end

