-- ==== Sys2Proof/Machine/Security.lean ====
section
/-!
DEFINITION. The security engine (R384 to R398): SEC_CMD, key slots, provisioning, the version counter, the debug lock. The
operand of a command's end is what it read from host memory.
-/
namespace Sys2Proof.Machine

/-- Replace the security state. -/
def State.setSec (s : State) (x : Sec) : State := { s with sec := x }

/-- A security event (R398): pending source 4, code in detail bits 7:0, slot in bits 28:16. -/
def State.secEvent (s : State) (code slot : Nat) : State := s.assertSrc 4 (mkWord [(0, code), (16, slot)]) 0

/-- Key slot `k` is the key_slot of an enabled egress flow (R392, SEC_SLOT_INFO.in_use). -/
def State.slotUsed (s : State) (k : Nat) : Bool :=
  s.subs.any fun e => bit (tget 0 e.2.d 0) 31 && e.2.hasFlow && decide (s.subNow e.1 < 2) && flSrtp e.2.entry && flKeySlot e.2.entry == k

/-- Fields of SEC_CMD (R398). -/
def secCmd (v : Word) : Nat := fld v 3 0
def secVk (v : Word) : Nat := fld v 6 4
def secSlot (v : Word) : Nat := fld v 20 8

/-- An ignored SEC_CMD. -/
def State.secIgn (s : State) (v : Word) : State := s.ignored 0x80004 v

/-- A command that fetches from host memory runs until SEC_COMMAND_DONE; it takes the length of SEC_KEY_ARG with it. -/
def State.secRun (s : State) (v : Word) : State := s.setSec { s.sec with busy := some v, len := fld (s.reg 0x80010) 7 0 }

/-- A command ends at once with result done. -/
def State.secOk (s : State) (x : Sec) : State := s.setSec { x with result := 1 }

/-- SEC_CMD import (R391, R392). -/
def State.secImport (s : State) (v : Word) : State :=
  if s.pwr.safe ∨ s.slotUsed (secSlot v) then s.secIgn v else s.secRun v

/-- SEC_CMD clear slot (R392). -/
def State.secClear (s : State) (v : Word) : State :=
  if s.pwr.safe then s.secIgn v else s.secOk { s.sec with keys := tset [] (secSlot v) [] s.sec.keys }

/-- SEC_CMD provision (R386): accepted only in PRIMED, for what is not written. -/
def State.secProvision (s : State) (v : Word) : State :=
  let written := if bit v 7 then s.sec.otk else nbit (tget 0 s.sec.vk (secVk v)) 4
  if s.mode != .primed || written then s.secIgn v else s.secRun v

/-- SEC_CMD revoke (R385, R386): of VK0 it is ignored. -/
def State.secRevoke (s : State) (v : Word) : State :=
  if secVk v = 0 then s.secIgn v else s.secOk { s.sec with revoked := s.sec.revoked ||| 2 ^ secVk v }

/-- SEC_CMD svn_commit (R389): the count of blown bits rises to the svn of the running firmware. -/
def State.secSvn (s : State) : State := s.secOk { s.sec with counter := max s.sec.counter s.sec.svn }

/-- SEC_CMD lock (R397): OPEN to LOCKED, LOCKED to SEALED. -/
def State.secLock (s : State) (v : Word) : State :=
  if s.sec.debug = 0 then s.secOk { s.sec with debug := 1 }
  else if s.sec.debug = 1 then s.secOk { s.sec with debug := 3 }
  else s.secIgn v

/-- SEC_CMD unlock (R397): only from LOCKED. -/
def State.secUnlock (s : State) (v : Word) : State := if s.sec.debug = 1 then s.secRun v else s.secIgn v

/-- A SEC_CMD that the engine takes now, by its cmd field. -/
def State.secStart (s : State) (v : Word) : State :=
  if secCmd v = 1 then s.secImport v
  else if secCmd v = 2 then s.secClear v
  else if secCmd v = 3 then s.secProvision v
  else if secCmd v = 4 then s.secRevoke v
  else if secCmd v = 5 then s.secSvn
  else if secCmd v = 6 then s.secLock v
  else if secCmd v = 7 then s.secUnlock v
  else s.secIgn v

/-- A write of SEC_CMD: ignored while one runs or waits (R398); import and clear wait while the control cores reload (R392). -/
def State.secCommand (s : State) (v : Word) : State :=
  if s.sec.busy.isSome || s.sec.waiting.isSome then s.secIgn v
  else if s.sec.reloading && (secCmd v == 1 || secCmd v == 2) then s.setSec { s.sec with waiting := some v }
  else s.secStart v

/-- The command that waited for the control cores proceeds (R392). -/
def State.secResume (s : State) : State :=
  match s.sec.waiting with
  | some v => (s.setSec { s.sec with waiting := none }).secStart v
  | none => s

/-- The command that ran ends with a result. -/
def State.secEnd (s : State) (x : Sec) (result : Nat) : State := s.setSec { x with busy := none, result := result }

/-- An import fails: the slot keeps what it held, event 1 (R391). -/
def State.importFail (s : State) (v : Word) : State := (s.secEnd s.sec 2).secEvent 1 (secSlot v)

/-- The OTK unwraps: it is provisioned, and not shut by UNLOCKED (Table 20.2). -/
def Sec.otkUsable (x : Sec) : Bool := x.otk && !x.otkOff

/-- A content key blob unwraps under the OTK (R391): the key and the salt. -/
def Sec.importKey (x : Sec) (blob : List Byte) : Option (List Byte) :=
  if x.otkUsable && (x.len == 40 || x.len == 56) then
    match unwrap x.otkKey (blob.take x.len) with
    | some p => if zerosAt p (p.length - 4) 4 then some (p.take (p.length - 4)) else none
    | none => none
  else none

/-- A debug certificate is good (R397): its body, and its trailer under a slot with usage bit 3. -/
def State.certOk (s : State) (blob : List Byte) : Bool :=
  let b := blob.take 192
  leAt b 0 4 == 0x4D564442 && leAt b 4 8 == s.serial.toNat && leAt b 12 4 == s.sec.nonce.toNat && zerosAt b 16 48 &&
    trailerForm b && s.sec.verifies (trailerSlot b) 3 && s.sec.signed b

/-- SEC_COMMAND_DONE (R386, R391, R397): the command that runs ends with what it read from host memory. -/
def State.secDoneOp (s : State) (blob : List Byte) (nonce : Word) : State :=
  match s.sec.busy with
  | none => s
  | some v =>
    let x := s.sec
    if secCmd v = 1 then
      match x.importKey blob with
      | some k => s.secEnd { x with keys := tset [] (secSlot v) k x.keys } 1
      | none => s.importFail v
    else if secCmd v = 3 then
      if bit v 7 then
        match unwrap x.patchKey (blob.take 40) with
        | some k => s.secEnd { x with otk := true, otkKey := k } 1
        | none => (s.setSec { x with busy := none }).secIgn v
      else s.secEnd { x with
        vk := tset 0 (secVk v) (0x10 + (blob.getD 49 0).toNat % 16) x.vk, vkKey := tset [] (secVk v) (blob.take 49) x.vkKey } 1
    else if secCmd v = 7 then
      let y := { x with nonce := nonce }
      if s.certOk blob then (s.secEnd { y with debug := 2, keys := [], otkOff := true } 1).secEvent 2 (secSlot v)
      else (s.secEnd y 2).secEvent 3 (secSlot v)
    else s

/-- A write of the SEC block at offset `o` (R398). -/
def State.secWrite (s : State) (o : Nat) (v : Word) : State :=
  if o = 0x04 then s.secCommand v
  else if o = 0x08 then s.setReg 0x80008 (maskW 0xFFFFFFF8 v)
  else if o = 0x0C then s.setReg 0x8000C v
  else if o = 0x10 then s.setReg 0x80010 (maskW 0xFF v)
  else if o = 0x18 then s.setReg 0x80018 (maskW 0x1FFF v)
  else s.ignored (0x80000 + o) v

/-- A SEC_CMD write with a given cmd field: the other fields are the operand's. -/
def secAsk (cmd : Nat) (v : Word) : Word := maskW 0xFFFFFFF0 v ||| w32 cmd

/-- IMPORT (R391). -/
def execImportKey (v : Word) (s : State) : Host.Outcome State Fault Refusal := .next (s.whenLive (·.secCommand (secAsk 1 v)))

/-- CLEAR_SLOT (R392). -/
def execClearSlot (v : Word) (s : State) : Host.Outcome State Fault Refusal := .next (s.whenLive (·.secCommand (secAsk 2 v)))

/-- PROVISION (R386). -/
def execProvision (v : Word) (s : State) : Host.Outcome State Fault Refusal := .next (s.whenLive (·.secCommand (secAsk 3 v)))

/-- REVOKE (R386). -/
def execRevoke (v : Word) (s : State) : Host.Outcome State Fault Refusal := .next (s.whenLive (·.secCommand (secAsk 4 v)))

/-- SVN_COMMIT (R389). -/
def execSvnCommit (v : Word) (s : State) : Host.Outcome State Fault Refusal := .next (s.whenLive (·.secCommand (secAsk 5 v)))

/-- LOCK (R397). -/
def execLockDebug (v : Word) (s : State) : Host.Outcome State Fault Refusal := .next (s.whenLive (·.secCommand (secAsk 6 v)))

/-- UNLOCK (R397). -/
def execUnlockDebug (v : Word) (s : State) : Host.Outcome State Fault Refusal := .next (s.whenLive (·.secCommand (secAsk 7 v)))

/-- SEC_COMMAND_DONE (R391). -/
def execSecCommandDone (blob : List Byte) (nonce : Word) (s : State) : Host.Outcome State Fault Refusal :=
  .next (s.whenLive (·.secDoneOp blob nonce))

end Sys2Proof.Machine
end

