-- ==== Sys2Proof/Machine/Power.lean ====
section
/-!
DEFINITION. Power, clocks and start-up (R371 to R383, R387, R388, R415 to R417, R421): resets, boot, STANDBY and wake,
domain requests, quadrant clocks and throttling, the stitch timebase.
-/
namespace Sys2Proof.Machine

/-- Replace the power state. -/
def State.setPwr (s : State) (p : Power) : State := { s with pwr := p }

/-- What a power-on reset leaves of the security engine: its OTP (Table 19.2), and a new nonce (R397). UNLOCKED ends. -/
def Sec.afterReset (x : Sec) (n : Nat) : Sec :=
  { counter := x.counter, vk := x.vk, vkKey := x.vkKey, revoked := x.revoked, otk := x.otk, otkKey := x.otkKey, patchKey := x.patchKey
    debug := if x.debug = 2 then 1 else x.debug, nonce := Config.nonce n }

/-- A power-on reset (R374, Table 19.2): every state at its reset value, but for OTP and what the part is. The queue of
commands, the list of what was sent and the free-value counter are the model's own. -/
def State.porReset (s : State) : State :=
  { pending := s.pending, a144 := s.a144, serial := s.serial, outbox := s.outbox, freeCtr := s.freeCtr + 1
    sec := s.sec.afterReset (s.freeCtr + 1), pwr := { straps := s.pwr.straps } }

/-- A cold reset keeps the timebase and the AON fault latches besides (Table 19.2). -/
def State.coldReset (s : State) (l : Life) : State :=
  let t := s.porReset
  { t with now := s.now, flt := { t.flt with aon := s.flt.aon }
           pwr := { t.pwr with life := l, lastReset := 1, frac := s.pwr.frac } }

/-- A stack over a warm reset keeps its rate, band and delay sets, and its training is skipped (R374). -/
def Stack.warm (x : Stack) : Stack :=
  { rate := x.rate, band := x.band, dset := x.dset, dflags := x.dflags, fenced := x.fenced, rateCap := x.rateCap
    chans := x.chans.filterMap fun e =>
      let y : LineChan := { band := e.2.band, provisional := e.2.provisional }
      if y = {} then none else some (e.1, y) }

/-- A warm reset keeps HBM contents, delay sets, the copies of firmware and patches, and the PCIe link besides (Table 19.2). -/
def State.warmReset (s : State) : State :=
  let t := s.coldReset .warm
  { t with
    mem := s.mem, side := s.side
    hbm := s.hbm.filterMap fun e => if e.2.warm = {} then none else some (e.1, e.2.warm)
    hif := { t.hif with link := s.hif.link }
    sec := { t.sec with patch := s.sec.patch, svn := s.sec.svn }
    pwr := { t.pwr with lastReset := 2, subsys := s.pwr.subsys } }

/-- The AON latches of classes 2, 3 and 4 merge into FLT_STATUS as the HUB domain starts (R268). -/
def State.mergeAon (s : State) : State :=
  { s with flt := { s.flt with status := s.flt.status ||| BitVec.ofNat 64 s.flt.aon } }

/-- Tiles in self-test. -/
def State.testing (s : State) : List Nat := (upto s.nTiles).filter fun t => (s.tile t).role == .selfTest

/-- The conditions of a standby (R372). -/
def State.standbyOk (s : State) : Bool :=
  (s.mode == .primed || s.mode == .woven) && s.allClosed && !s.ldr.busy &&
    !(s.hbm.any fun e => e.2.sweep.isSome || e.2.chg.isSome)

/-- A forced standby abandons the self-test of tile `t`: it is retired with result untested (R253, R372). -/
def State.retireUntested (s : State) (t : Nat) : State :=
  let s :=
    if (s.tile t).retest then s.modTile t fun x => { x with
      role := .retired, back := .unused, retest := false, power := .off, since := s.now, ndl := { x.ndl with state := 5 } }
    else s.retireTile t
  s.modTile t fun x => { x with result := 3 }

/-- PWR_CMD standby (R372). -/
def State.standbyOp (s : State) (v : Word) : State :=
  if s.standbyOk then
    let s := s.setPwr { s.pwr with standbyPend := true }
    if bit v 2 then s.testing.foldl State.retireUntested s else s
  else s.ignored 0x70004 v

/-- A write of PWR_CMD (R372, R374). -/
def State.pwrCmd (s : State) (v : Word) : State :=
  if fld v 1 0 = 1 then s.standbyOp v
  else if fld v 1 0 = 2 then s.warmReset
  else if fld v 1 0 = 3 then s.coldReset .boot
  else s.ignored 0x70004 v

/-- A tile as STANDBY leaves it: powered off, stores and inbox cleared (R284). -/
def Tile.asleep (t : Tile) : Tile :=
  { t.cleared with power := .off, work := none, gang := [], abandon := 0, inbox := [], midItem := false
                   ndl := { t.ndl with state := 5, gpr := [], loops := [], issued := [] } }

/-- STANDBY_ENTRY (R372): only the AON domain runs. Ranks are in self-refresh, stores and key slots and counters are clear, the
links are down, and no class 1 is raised. -/
def State.standbyEntryOp (s : State) : State :=
  if s.live && s.pwr.standbyPend && s.testing.isEmpty && s.standbyOk then
    let s := (upto s.nTiles).foldl (fun s t => s.modTile t Tile.asleep) s
    let s := (upto s.nQuads).foldl (fun s q => s.setQuad q { s.quad q with pll := false, mhz := 0, stepAt := none, coolAt := none }) s
    let s := (upto s.nStacks).foldl (fun s k => s.setStack k { (s.stack k).closeRows (fun _ _ => true) with sr := 0xF, pd := 0 }) s
    let s := (upto 2).foldl (fun s p => s.setEth p { s.eth p with link := false, fec := false, anDone := false }) s
    { s with
      hif := { s.hif with link := 0, fns := s.hif.fns.filterMap fun e =>
        let f : Func := { e.2 with msixEn := false, fnMask := false }
        if f = {} then none else some (e.1, f) }
      lin := { s.lin with ports := [] }
      sec := { s.sec with keys := [], busy := none, waiting := none }
      pmu := { s.pmu with cnt := [], ovf := [] }
      pwr := { s.pwr with life := .standby, standbyPend := false, wakeLoad := s.pat.serial != 0, doms := [] } }
  else s

/-- A wake source (R373, R388): out of STANDBY the wake starts; after a rejected boot a new one starts as a cold reset does. -/
def State.wakeFrom (s : State) (src : Nat) : State :=
  match s.pwr.life with
  | .standby =>
    let s := s.setPwr { s.pwr with life := .waking, lastWake := src }
    (upto s.nStacks).foldl (fun s k => s.setStack k { s.stack k with sr := 0 }) s
  | .rejected => s.coldReset .boot
  | _ => s

/-- The timebase is at or beyond a non-zero PWR_WAKE (R373). -/
def State.wakeDue (s : State) : Bool :=
  let t := joinW (s.reg 0x70008) (s.reg 0x7000C)
  t != 0 && decide (t ≤ s.now)

/-- The key slot of a kept image verifies patterns still (R373). -/
def State.keptOk (s : State) (im : List Byte) : Bool :=
  s.sec.verifies (trailerSlot im) 1

/-- A rejected reload ends the wake in PRIMED with the reject code (R373). -/
def State.wakeReject (s : State) (code : Nat) : State :=
  let s := s.noPattern
  { s with ldr := { s.ldr with reject := code, kept := [] } }

/-- The reload of the pattern in force at entry (R373, Table 2.6 steps 4 to 7, Table 2.8 without a drain). -/
def State.wakeReload (s : State) : State :=
  let s := s.powerFabric s.pat
  let s := (((s.checkPatch s.pat).loadPanels 0xFFFF).promoteRetired s.pat.roles 0xFFFF).capRates
  (upto 16).foldl (fun s p => s.refloor p) s

/-- WAKE_DONE (R373, Table 19.4): the reload and the retraining of the link have ended. -/
def State.wakeDoneOp (s : State) (copyOk storeOk : Bool) : State :=
  if s.pwr.life == .waking && s.linkUp then
    let s := (s.setPwr { s.pwr with life := .up }).mergeAon
    if !s.pwr.wakeLoad then s
    else if !copyOk then s.wakeReject 0x12
    else if !s.ldr.kept.all s.keptOk then s.wakeReject 0x04
    else if !storeOk then s.wakeReject 0x10
    else s.wakeReload
  else s

/-- RESET_RELEASE (R416): the boot begins. -/
def State.releaseOp (s : State) : State := if s.pwr.life = .held then s.setPwr { s.pwr with life := .boot } else s

/-- A firmware image has the form of R387. -/
def fwForm (im : List Byte) : Bool :=
  decide (192 ≤ im.length) && leAt im 0 4 == 0x4D564657 && leAt im 4 2 == 1 && zerosAt im 6 2 && leAt im 8 4 == im.length &&
    im.length % 64 == 0 && decide (im.length ≤ 2097152) && decide (leAt im 12 4 ≤ 64) && zerosAt im 16 48 && trailerForm im

/-- How boot step 3 ends, as SEC_STATUS.boot (R388): 3 malformed, 1 slot or signature, 2 svn below the counter, 0 good. -/
def Sec.bootCode (x : Sec) (im : List Byte) : Nat :=
  if !fwForm im then 3
  else if !(x.verifies (trailerSlot im) 0 && x.signed im) then 1
  else if leAt im 12 4 < x.counter then 2
  else 0

/-- The subsystem IDs that a board record gives: an empty record gives the vendor and PF device IDs (R423, Table 17.1). -/
def State.subsysOf (s : State) (board : Word) : Word :=
  if board = 0xFFFFFFFF then (if s.a144 then 0x0A911F5C else 0x0A921F5C) else board

/-- FIRMWARE_VERIFY_DONE (R388): boot step 3 ends, which reads the board record too (R423). -/
def State.firmwareOp (s : State) (f : FirmwareIn) : State :=
  if s.pwr.life = .boot then
    let c := s.sec.bootCode f.image
    let s := s.setPwr { s.pwr with subsys := s.subsysOf f.board }
    if c = 0 then
      { s with sec := { s.sec with boot := 0, svn := leAt f.image 12 4 }, pwr := { s.pwr with life := .train } }
    else { s.setLink 0 with sec := { s.sec with boot := c }, pwr := { s.pwr with life := .rejected } }
  else s

/-- Sections of a decrypted patch image (Table 14.3); `none` where a field is out of range (R286). What follows the last is not read
(DESIGN CHOICE, log 127). -/
def patchSections : Nat → List Byte → Option (List PatchSection)
  | 0, _ => some []
  | k + 1, b =>
    let reds := leAt b 4 1
    let n := leAt b 6 2
    let rs := (upto reds).map fun i => leAt b (16 + 4 * i) 4
    let e : PatchSection := {
      key := w32 (leAt b 0 4), redirects := rs.map fun r => (nfld r 13 0, nfld r 27 16)
      words := (upto n).map fun i => w32 (leAt b (16 + 4 * reds + 4 * i) 4) }
    if decide (1 ≤ reds) && decide (reds ≤ 64) && decide (1 ≤ n) && decide (n ≤ 4096) && zerosAt b 5 1 && zerosAt b 8 8 &&
        decide (16 + 4 * (reds + n) ≤ b.length) && (rs.all fun r => nfld r 15 14 == 0 && nfld r 31 28 == 0) &&
        (e.redirects.map (·.1)).eraseDups.length == reds then
      (patchSections k (b.drop (16 + 4 * (reds + n)))).map (e :: ·)
    else none

/-- The patch image of boot step 5 (R285, R286): its serial and sections where every check passes that needs no program. -/
def Sec.readPatch (x : Sec) (im : List Byte) : Option (Nat × List PatchSection) :=
  if decide (192 ≤ im.length) && leAt im 0 4 == 0x4D564E50 && leAt im 4 2 == 1 && zerosAt im 6 2 && leAt im 8 4 == im.length &&
      im.length % 64 == 0 && decide (im.length ≤ 1048576) && leAt im 12 4 != 0 && decide (1 ≤ leAt im 16 2) &&
      decide (leAt im 16 2 ≤ 32) && zerosAt im 18 14 && zerosAt im 0x3C 4 && trailerForm im && x.verifies (trailerSlot im) 2 &&
      x.signed im then
    match gcmOpen x.patchKey ((im.drop 0x20).take 12) (im.take 0x20) ((im.take (im.length - 128)).drop 0x40) ((im.drop 0x2C).take 16) with
    | some b => (patchSections (leAt im 16 2) b).map fun l => (leAt im 12 4, l)
    | none => none
  else none

/-- Boot step 5 (R285, R286): the image is held, absent, or discarded whole with class 6. -/
def State.takePatch (s : State) (p : PatchIn) : State :=
  match p with
  | .noImage => { s with sec := { s.sec with patch := {} } }
  | .image im =>
    match s.sec.readPatch im with
    | some g => { s with sec := { s.sec with patch := { status := 1, serial := w32 g.1, sections := g.2 } } }
    | none => ({ s with sec := { s.sec with patch := { status := 2 } } }).raiseDev 6

/-- A line channel's last margin sweep failed at rate `r`. -/
def LineChan.marginFailed (y : LineChan) (r : Nat) : Bool := match y.lastMargin with
  | some (q, _, pass, _) => q == r && !pass
  | none => false

/-- Rates of stack `x` that passed boot training: every line channel holds a set of the band in force, and none failed the margin sweep
(R300, R301, R375). -/
def Stack.passed (x : Stack) : List Nat :=
  (upto 3).filter fun r => x.rateValid r && !(x.chans.any fun e => e.2.marginFailed r)

/-- Boot step 4 ends for stack `k` (R375): it stays at the fastest rate that passed, which is its cap, or is fenced. -/
def State.trainEnd (s : State) (k : Nat) : State :=
  let x := s.stack k
  match x.passed with
  | [] => (s.setStack k { x with fenced := true }).raiseDev 7
  | r :: _ =>
    let x := if x.rate = r then x else { x.mapChans fun _ y => y.take x.band with rate := r }
    s.setStack k { x with rateCap := r }

/-- BOOT_COMPLETE (R375): no sweep or rate change is left, BAR0 answers and the mode is PRIMED. -/
def State.bootOp (s : State) (p : PatchIn) : State :=
  if s.pwr.life == .train && !(s.hbm.any fun e => e.2.sweep.isSome || e.2.chg.isSome) then
    let s := (s.setPwr { s.pwr with life := .up }).mergeAon
    let s := (upto s.nStacks).foldl State.trainEnd s
    s.takePatch p
  else s

/-- WARM_RESET_DONE (R374). -/
def State.warmDoneOp (s : State) : State :=
  if s.pwr.life = .warm then (s.setPwr { s.pwr with life := .up }).mergeAon else s

/-- PERST# asserted: a cold reset, held until release (R373, R374); a device held in a power-on reset stays in it. -/
def State.perstOp (s : State) : State := if s.pwr.life = .held then s else s.coldReset .held

/-- A spare of quadrant `q` whose warm panel holds a LIVE session, or a tile of a panel with a RUNNING one (R377). -/
def State.quadBars (s : State) (q : Nat) : Bool :=
  (upto s.nTiles).any fun t =>
    quadOf t == q && (((s.tile t).role == .spare && s.holdsLive (s.tile t).panel) ||
      ((s.tile t).role == .active && s.liveOn (s.tile t).panel))

/-- A stack request is ignored (R378): LIVE runs on its partition, or it holds units of region 16 while a session is RUNNING. -/
def State.stackBars (s : State) (k : Nat) : Bool :=
  s.liveStack k || (s.anyRunning && nbit (tget {} s.pat.regions 16).mask k && (tget {} s.pat.regions 16).count != 0)

/-- What holds a stack request: 2 and the lowest channel moving on it (R318), 3 for maintenance (R378), or nothing. -/
def State.stackHeld (s : State) (k : Nat) : Nat × Nat :=
  match s.movingOn k with
  | n :: _ => (2, n)
  | [] => if (s.stack k).sweep.isSome ∨ (s.stack k).chg.isSome then (3, 0) else (0, 0)

/-- The status of a request that has not taken effect. -/
def State.showHeld (s : State) (k : Nat) : State :=
  let h := s.stackHeld k
  s.setDom k { s.dom k with st := h.1, holder := h.2 }

/-- Power off the idle tiles of quadrant `q` (R377): a self-test holds its tile (R253), the quiet window of a press those it needs
(R51), and a warm spare of a LIVE panel stays. -/
def State.quadOff (s : State) (q : Nat) : State :=
  (upto s.nTiles).foldl (fun s t =>
    let x := s.tile t
    if quadOf t == q && x.work.isNone && x.power == .nap && x.role != .selfTest && !s.pressNeeds t && !(x.role == .spare && s.holdsLive x.panel)
    then (s.flushInbox t).modTile t fun y => { y with power := .off, window := [], since := s.now, ndl := { y.ndl with state := 5 } }
    else s) s

/-- A write of PWR_DOMd_CTL of a stack (R378, R319). -/
def State.stackCtl (s : State) (k : Nat) (v : Word) : State :=
  let d := s.dom k
  if !bit v 0 then
    s.setDom k { d with sleep := false, force := bit v 1, st := if d.st = 2 ∨ d.st = 3 then 0 else d.st, holder := 0 }
  else if s.stackBars k then s.ignored (0x70010 + 4 * k) v
  else
    let s := s.setDom k { d with sleep := true, force := bit v 1 }
    if d.st = 1 ∨ d.st = 4 then s
    else (if bit v 1 then s.forceStops k else s).showHeld k

/-- A write of PWR_DOMd_CTL of a quadrant (R377). -/
def State.quadCtl (s : State) (q : Nat) (v : Word) : State :=
  let d := s.dom (4 + q)
  if !bit v 0 then s.setDom (4 + q) { d with sleep := false }
  else if s.quadBars q then s.ignored (0x70010 + 4 * (4 + q)) v
  else (s.setDom (4 + q) { d with sleep := true }).quadOff q

/-- DOMAIN_SLEEP_WRITE: domain `d` is 0 to 3 for the stacks, 4 to 7 for the quadrants; one that the part lacks is ignored. -/
def State.domWrite (s : State) (d : Nat) (v : Word) : State :=
  if d < s.nStacks then s.stackCtl d v
  else if 4 ≤ d ∧ d - 4 < s.nQuads then s.quadCtl (d - 4) v
  else s.ignored (0x70010 + 4 * d) v

/-- STACK_SLEEP (R378): nothing holds the request any longer, and every rank enters self-refresh. -/
def State.stackSleepOp (s : State) (k : Nat) : State :=
  let d := s.dom k
  if s.live && decide (k < s.nStacks) && d.sleep && d.st != 1 && d.st != 4 && !s.stackBars k then
    if (s.stackHeld k).1 = 0 then
      (s.setDom k { d with st := 1, holder := 0 }).setStack k
        { (s.stack k).closeRows (fun _ _ => true) with sr := 0xF, pd := 0 }
    else s.showHeld k
  else s

/-- STACK_WAKE_DONE (R378): the stack is awake; a request that came meanwhile stands. -/
def State.stackWakeOp (s : State) (k : Nat) : State :=
  if s.live && (s.dom k).st == 4 then
    (s.setDom k { s.dom k with st := 0, holder := 0 }).setStack k { s.stack k with sr := 0 }
  else s

/-- QUADRANT_SLEEP (R377): idle tiles power off, and with all of them off the PLL stops. -/
def State.quadSleepOp (s : State) (q : Nat) : State :=
  if s.live && decide (q < s.nQuads) && (s.dom (4 + q)).sleep then
    let s := s.quadOff q
    if !s.pressNeedsQuad q && (upto s.nTiles).all fun t => quadOf t != q || ((s.tile t).power == .off && (s.tile t).role != .selfTest) then
      s.setQuad q { s.quad q with pll := false, mhz := 0, stepAt := none }
    else s
  else s

/-- Temperature of die `d`: 0 H, 1 F0, 2 F1. -/
def State.dieTemp (s : State) (d : Nat) : Nat := tget 0 s.pwr.temp d

/-- The hottest die and its temperature; the lowest number of equals. -/
def State.hottest (s : State) : Nat × Nat :=
  let a := if s.dieTemp 0 < s.dieTemp 1 then (1, s.dieTemp 1) else (0, s.dieTemp 0)
  if a.2 < s.dieTemp 2 then (2, s.dieTemp 2) else a

/-- Class 25 of die `d` (R380): once at or above 100 °C until a sample below 97 °C. -/
def State.dieHot (s : State) (d : Nat) : State :=
  let t := s.dieTemp d
  if 100 ≤ t ∧ ¬ tget false s.pwr.hot d then
    (s.setPwr { s.pwr with hot := tset false d true s.pwr.hot }).raiseDev 25 (mkWord [(0, min 255 t), (8, d)])
  else if t < 97 then s.setPwr { s.pwr with hot := tset false d false s.pwr.hot }
  else s

/-- The clock of quadrant `q` follows the dies that govern it: H and its own (R380). -/
def State.throttle (s : State) (q : Nat) : State :=
  let x := s.quad q
  let t := max (s.dieTemp 0) (s.dieTemp (1 + dieOf q))
  let x := { x with coolAt := if 97 ≤ t then none else some (x.coolAt.getD s.now) }
  let due : Bool := match x.stepAt with
    | some a => decide (a + 1441440 ≤ s.now)
    | none => true
  if !x.pll then s.setQuad q x
  else if 105 ≤ t then s.setQuad q { x with mhz := min x.mhz 400, stepAt := some s.now }
  else if 100 ≤ t ∧ due then s.setQuad q { x with mhz := min x.mhz (max 400 (x.mhz - 100)), stepAt := some s.now }
  else s.setQuad q x

/-- The shutdown at 115 °C (R380): every domain but AON gated, THERMTRIP_N asserted. -/
def State.trip (s : State) : State :=
  let s := (upto s.nTiles).foldl (fun s t => s.modTile t Tile.asleep) s
  let s := (upto s.nQuads).foldl (fun s q => s.setQuad q { s.quad q with pll := false, mhz := 0 }) s
  ((s.setLink 0).setPwr { s.pwr with tripped := true }).emit .thermtrip

/-- What a sample does in service (R380): class 25 of each hot die, pending source 1, and the clocks. -/
def State.thermal (s : State) : State :=
  let s := (upto 3).foldl State.dieHot s
  let s := if 100 ≤ s.hottest.2 then s.raiseLevel 1 (mkWord [(0, s.hottest.2), (8, s.hottest.1)])
    else if s.hottest.2 < 97 then s.deassertSrc 1
    else s
  (upto s.nQuads).foldl State.throttle s

/-- TEMP_SAMPLE (R380). From 115 °C class 4 comes first, as R264 orders the events of one cycle. -/
def State.tempOp (s : State) (h f0 f1 : Nat) : State :=
  if s.pwr.life = .held ∨ s.pwr.tripped then s
  else
    let t := [h, f0, f1].map (min 255)
    let s := s.setPwr { s.pwr with temp := tset 0 0 (t.getD 0 0) (tset 0 1 (t.getD 1 0) (tset 0 2 (t.getD 2 0) s.pwr.temp)) }
    if 115 ≤ s.hottest.2 then
      (if s.live then (s.raiseDev 4).thermal else { s with flt := { s.flt with aon := s.flt.aon ||| 16 } }).trip
    else if s.live then s.thermal
    else s

/-- QUADRANT_STEP_UP (R380): 100 MHz towards the cap, once per 14,414,400 st while no governing die is at or above 97 °C. -/
def State.stepUpOp (s : State) (q : Nat) : State :=
  let x := s.quad q
  let cap := tget 0 s.pat.caps q * 100
  match x.coolAt with
  | some a =>
    if s.live && x.pll && decide (x.mhz < cap) && decide (a + 14414400 ≤ s.now) then
      s.setQuad q { x with mhz := min cap (x.mhz + 100), coolAt := some s.now }
    else s
  | none => s

/-- QUADRANT_PLL_LOSS (Table 12.5, R284): class 13; with the supply the stores of its tiles are lost. The tiles' own faults come
as theirs. -/
def State.pllLossOp (s : State) (q : Nat) (supply : Bool) : State :=
  if s.live && decide (q < s.nQuads) && (s.quad q).pll then
    let s := s.setQuad q { s.quad q with pll := false, mhz := 0, stepAt := none }
    let s := if supply then (upto s.nTiles).foldl (fun s t => if quadOf t = q then s.modTile t Tile.cleared else s) s else s
    s.raiseDev 13 (w32 q)
  else s

/-- A fault that AON monitors see (R417, R421): raised in service, else latched until the HUB starts (R268). -/
def State.aonFault (s : State) (k : Nat) : State :=
  if s.live then s.raiseDev k
  else if s.pwr.life = .held then s
  else { s with flt := { s.flt with aon := s.flt.aon ||| 2 ^ k } }

/-- Nominal millivolts of the rails, in the order of Table 23.1. -/
def railNominal : List Nat := rails.map fun r => r.spec.mv

/-- SUPPLY_EXCURSION (R417): rail `r` at `mv` for `us` µs. VDD_IO, rail 1, is not monitored. -/
def State.supplyOp (s : State) (r mv us : Nat) : State :=
  match railNominal[r]? with
  | none => s
  | some n =>
    if r = 1 then s
    else if mv * 100 < 85 * n then s.porReset
    else if (106 * n < mv * 100 ∨ mv * 100 < 94 * n) ∧ 2 < us then s.aonFault 3
    else s

/-- Whole seconds past the PPS_OUT offset (R382). -/
def ppsIndex (t : Int) (off : Nat) : Int := (t - off) / 1441440000

/-- Going from the count `a` to `u`, before the wrap to 64 bits, crosses a point n × 1,441,440,000 + `off` of the count
(R382). The wrap itself is no crossing (R5): the points of the count's last stretch and of its new one are looked at. -/
def ppsCross (a : Nat) (u : Int) (off : Nat) : Bool :=
  let i := fun t : Int => ppsIndex t off
  if u < 0 then i a != i (-1) || i (u % 2 ^ 64) != i (2 ^ 64 - 1)
  else if 2 ^ 64 ≤ u then i a != i (2 ^ 64 - 1) || i (u % 2 ^ 64) != i (-1)
  else i a != i u

/-- TIMEBASE_TICK (R381): 50 st and ADJ × 2^−32 st with the carried fraction, a STEP, then one stitch of SLEW every 64 ticks. -/
def State.tickTime (s : State) : State :=
  let p := s.pwr
  let sum : Int := 50 * 2 ^ 32 + sW p.adj + p.frac
  let k := if p.slew = 0 then 0 else p.slewTicks + 1
  let unit : Int := if 0 < p.slew then 1 else if p.slew < 0 then -1 else 0
  let absorb := decide (64 ≤ k)
  let u : Int := s.now + sum / 2 ^ 32 + p.step.getD 0 + (if absorb then unit else 0)
  let o := s.reg 0x700A0
  let cross := bit o 31 && ppsCross s.now u (fld o 30 0)
  { s with
    now := mod64 u
    pwr := { p with
      frac := (sum % 2 ^ 32).toNat, step := none, slew := if absorb then p.slew - unit else p.slew
      slewTicks := if absorb then 0 else k, ppsDue := p.ppsDue || cross } }

/-- TIMEBASE_TICK: the timebase counts but while POR_N holds it; held rate requests and deferred pegs are looked at again, and
the sample queue drains. -/
def State.tickOp (s : State) : State :=
  if s.pwr.life = .held ∧ s.pwr.lastReset = 0 then s
  else
    let s := s.tickTime
    if s.live then s.freqAll.pegDeferred.sampleDrain else s

/-- A write of PWR_TB_ADJ (R381). -/
def State.adjWrite (s : State) (v : Word) : State :=
  if -107374182 ≤ sW v ∧ sW v ≤ 107374182 then s.setPwr { s.pwr with adj := v } else s.ignored 0x70088 v

/-- A write of PWR_TB_SLEW (R381). -/
def State.slewWrite (s : State) (v : Word) : State := s.setPwr { s.pwr with slew := sW v, slewTicks := 0 }

/-- A write of PWR_TB_STEP_HI (R381). -/
def State.stepWrite (s : State) (v : Word) : State :=
  if s.anyRunning then s.ignored 0x70094 v
  else s.setPwr { s.pwr with step := some (sFld (joinW s.pwr.stepLo v) 64) }

/-- PPS_IN_EDGE (R382). -/
def State.ppsInOp (s : State) : State := if s.pwr.life = .held then s else s.setPwr { s.pwr with ppsIn := s.now }

/-- PPS_OUT_PULSE (R382). -/
def State.ppsOutOp (s : State) : State := if s.pwr.ppsDue then (s.setPwr { s.pwr with ppsDue := false, ppsRise := some s.now }).emit (.pps s.now) else s

/-- PPS_OUT is high: for 1,441,440 st from its rise (R382). -/
def State.ppsHigh (s : State) : Bool := match s.pwr.ppsRise with
  | some t => decide (mod64 ((s.now : Int) - t) < 1441440)
  | none => false

/-- CORE_RELOAD_DONE (R260): the control cores run again; training and key commands that waited proceed. -/
def State.coreOp (s : State) : State :=
  if s.sec.reloading then ({ s with sec := { s.sec with reloading := false } }).trainResume.secResume else s

/-- A write of the PWR block at offset `o` (R383). -/
def State.pwrWrite (s : State) (o : Nat) (v : Word) : State :=
  if o = 0x04 then s.pwrCmd v
  else if o = 0x08 ∨ o = 0x0C then s.setReg (0x70000 + o) v
  else if 0x10 ≤ o ∧ o < 0x30 then s.domWrite ((o - 0x10) / 4) v
  else if o = 0x88 then s.adjWrite v
  else if o = 0x8C then s.slewWrite v
  else if o = 0x90 then s.setPwr { s.pwr with stepLo := v }
  else if o = 0x94 then s.stepWrite v
  else if o = 0xA0 then if 1441440000 ≤ fld v 30 0 then s.ignored 0x700A0 v else s.setReg 0x700A0 v
  else s.ignored (0x70000 + o) v

/-- A PWR_CMD write with a given cmd field. -/
def pwrAsk (cmd : Nat) (v : Word) : Word := maskW 0xFFFFFFFC v ||| w32 cmd

/-- TIMEBASE_TICK (R381). -/
def execTimebaseTick (s : State) : Host.Outcome State Fault Refusal := .next s.tickOp

/-- STANDBY (R372). -/
def execStandby (v : Word) (s : State) : Host.Outcome State Fault Refusal := .next (s.whenLive (·.pwrCmd (pwrAsk 1 v)))

/-- STANDBY_ENTRY (R372). -/
def execStandbyEntry (s : State) : Host.Outcome State Fault Refusal := .next s.standbyEntryOp

/-- WARM (R374). -/
def execWarm (v : Word) (s : State) : Host.Outcome State Fault Refusal := .next (s.whenLive (·.pwrCmd (pwrAsk 2 v)))

/-- COLD (R374). -/
def execCold (v : Word) (s : State) : Host.Outcome State Fault Refusal := .next (s.whenLive (·.pwrCmd (pwrAsk 3 v)))

/-- WARM_RESET_DONE (R374). -/
def execWarmResetDone (s : State) : Host.Outcome State Fault Refusal := .next s.warmDoneOp

/-- POWER_ON_RESET (R374). -/
def execPowerOnReset (s : State) : Host.Outcome State Fault Refusal := .next s.porReset

/-- PERST (R374). -/
def execPerst (s : State) : Host.Outcome State Fault Refusal := .next s.perstOp

/-- PF_FLR (R335): the warm reset. -/
def execPfFlr (s : State) : Host.Outcome State Fault Refusal := .next (s.whenLive (·.warmReset))

/-- RESET_RELEASE (R416). -/
def execResetRelease (s : State) : Host.Outcome State Fault Refusal := .next s.releaseOp

/-- FIRMWARE_VERIFY_DONE (R388). -/
def execFirmwareVerifyDone (f : FirmwareIn) (s : State) : Host.Outcome State Fault Refusal := .next (s.firmwareOp f)

/-- BOOT_COMPLETE (R375). -/
def execBootComplete (p : PatchIn) (s : State) : Host.Outcome State Fault Refusal := .next (s.bootOp p)

/-- WAKE (R373, R422): the I2C command. -/
def execWake (s : State) : Host.Outcome State Fault Refusal := .next (s.wakeFrom 0)

/-- WAKE_N_EDGE (R373). -/
def execWakeNEdge (s : State) : Host.Outcome State Fault Refusal := .next (s.wakeFrom 1)

/-- WAKE_TIMER (R373). -/
def execWakeTimer (s : State) : Host.Outcome State Fault Refusal := .next (if s.wakeDue then s.wakeFrom 2 else s)

/-- WAKE_DONE (R373). -/
def execWakeDone (copyOk storeOk : Bool) (s : State) : Host.Outcome State Fault Refusal := .next (s.wakeDoneOp copyOk storeOk)

/-- DOMAIN_SLEEP_WRITE (R377, R378). -/
def execDomainSleepWrite (d : Nat) (v : Word) (s : State) : Host.Outcome State Fault Refusal := .next (s.whenLive (·.domWrite d v))

/-- STACK_SLEEP (R378). -/
def execStackSleep (k : Nat) (s : State) : Host.Outcome State Fault Refusal := .next (s.stackSleepOp k)

/-- STACK_WAKE_DONE (R378). -/
def execStackWakeDone (k : Nat) (s : State) : Host.Outcome State Fault Refusal := .next (s.stackWakeOp k)

/-- QUADRANT_SLEEP (R377). -/
def execQuadrantSleep (q : Nat) (s : State) : Host.Outcome State Fault Refusal := .next (s.quadSleepOp q)

/-- TEMP_SAMPLE (R380). -/
def execTempSample (h f0 f1 : Nat) (s : State) : Host.Outcome State Fault Refusal := .next (s.tempOp h f0 f1)

/-- QUADRANT_STEP_UP (R380). -/
def execQuadrantStepUp (q : Nat) (s : State) : Host.Outcome State Fault Refusal := .next (s.stepUpOp q)

/-- QUADRANT_PLL_LOSS. -/
def execQuadrantPllLoss (q : Nat) (supply : Bool) (s : State) : Host.Outcome State Fault Refusal := .next (s.pllLossOp q supply)

/-- TB_ADJ_WRITE (R381). -/
def execTbAdjWrite (v : Word) (s : State) : Host.Outcome State Fault Refusal := .next (s.whenLive (·.adjWrite v))

/-- TB_SLEW_WRITE (R381). -/
def execTbSlewWrite (v : Word) (s : State) : Host.Outcome State Fault Refusal := .next (s.whenLive (·.slewWrite v))

/-- TB_STEP_WRITE (R381): the write of PWR_TB_STEP_HI. -/
def execTbStepWrite (v : Word) (s : State) : Host.Outcome State Fault Refusal := .next (s.whenLive (·.stepWrite v))

/-- PPS_IN_EDGE (R382). -/
def execPpsInEdge (s : State) : Host.Outcome State Fault Refusal := .next s.ppsInOp

/-- PPS_OUT_PULSE (R382). -/
def execPpsOutPulse (s : State) : Host.Outcome State Fault Refusal := .next s.ppsOutOp

/-- SUPPLY_EXCURSION (R417). -/
def execSupplyExcursion (r mv us : Nat) (s : State) : Host.Outcome State Fault Refusal := .next (s.supplyOp r mv us)

/-- REF_CLOCK_LOST (R421). -/
def execRefClockLost (s : State) : Host.Outcome State Fault Refusal := .next (s.aonFault 2)

/-- CORE_RELOAD_DONE (R260). -/
def execCoreReloadDone (s : State) : Host.Outcome State Fault Refusal := .next s.coreOp

end Sys2Proof.Machine
end

