-- ==== Sys2Proof/Machine/I2c.lean ====
section
/-!
DEFINITION. The I2C target (R422, Table 23.8). It answers in every mode, after THERMTRIP_N too.
-/
namespace Sys2Proof.Machine

/-- STATUS: mode, boot code, reset; AON latches and THERMTRIP_N; the hottest die; zero. -/
def State.i2cStatusBytes (s : State) : List Nat :=
  [s.mode.code + 8 * s.sec.boot + 32 * s.pwr.lastReset,
   nfld s.flt.aon 4 2 + 8 * b2n s.pwr.tripped, s.hottest.2, 0]

/-- TEMP: H, F0, F1, then S0 to S3, 0 for a stack that is asleep or absent. -/
def State.i2cTempBytes (s : State) : List Nat :=
  (upto 3).map s.dieTemp ++ (upto 4).map fun k =>
    if k < s.nStacks ∧ ¬ (s.stack k).fenced ∧ s.pwr.life ≠ .standby ∧ (s.dom k).st ≠ 1 then (s.stack k).temp % 256 else 0

/-- The address byte of a write to the target (R422): 0x58 with the straps, and the direction bit clear. -/
def State.i2cAddr (s : State) : Nat := 2 * (0x58 + s.pwr.straps % 4)

/-- The PEC byte (R422): over the whole transaction, the command byte written and the data read under it. -/
def State.i2cPec (s : State) (cmd : Nat) (bs : List Byte) : Byte :=
  crc8 ([s.i2cAddr, cmd, s.i2cAddr + 1].map (BitVec.ofNat 8) ++ bs)

/-- Answer command `cmd` with bytes and their PEC. -/
def State.i2cAnswer (s : State) (cmd : Nat) (bs : List Byte) : State := s.emit (.i2c (bs ++ [s.i2cPec cmd bs]))

/-- VOLTS: the rails of Table 23.1 in mV; each measurement is a free value, and VDD_IO reads 0. -/
def State.i2cVoltsOp (s : State) : State :=
  let n := s.freeCtr
  let mv (r : Nat) : Nat := if r = 1 then 0 else Config.railMv n r
  ({ s with freeCtr := n + 1 }).i2cAnswer 3 ((upto 9).map fun r => leBytes 2 (mv r)).flatten

/-- STATUS (R422). -/
def execI2cStatus (s : State) : Host.Outcome State Fault Refusal := .next (s.i2cAnswer 1 (s.i2cStatusBytes.map (BitVec.ofNat 8)))

/-- TEMP (R422). -/
def execI2cTemp (s : State) : Host.Outcome State Fault Refusal := .next (s.i2cAnswer 2 (s.i2cTempBytes.map (BitVec.ofNat 8)))

/-- VOLTS (R422). -/
def execI2cVolts (s : State) : Host.Outcome State Fault Refusal := .next s.i2cVoltsOp

/-- SERIAL (R422). -/
def execI2cSerial (s : State) : Host.Outcome State Fault Refusal := .next (s.i2cAnswer 5 (leBytes 8 s.serial.toNat))

/-- TIMEBASE (R422). -/
def execI2cTimebase (s : State) : Host.Outcome State Fault Refusal := .next (s.i2cAnswer 6 (leBytes 8 s.now))

end Sys2Proof.Machine
end

