-- ==== Sys2Proof/Machine/Flags.lean ====
section
/-!
DEFINITION. What every register reads (R11, R410): the status words and flags computed from the state, and the registers held
as words. A view has no side effect; a host read with its side effects (R326, R337, R352) is `hostRead`.
-/
namespace Sys2Proof.Machine

/-- One half of a 64-bit quantity: the low word at the first of its two offsets. -/
def half (n : Nat) (hi : Bool) : Word := if hi then hiW n else loW n

/-- CTL (R413). -/
def State.ctlView (s : State) (o : Nat) : Word :=
  if o = 0x00 then if s.a144 then 0x1F5C0A91 else 0x1F5C0A92
  else if o = 0x04 then 0x00000311
  else if o = 0x08 then if s.a144 then 0x0093FF34 else 0x0093331A
  else if o = 0x0C then loW s.serial.toNat
  else if o = 0x10 then hiW s.serial.toNat
  else s.reg o

/-- PAT (R51). -/
def State.patView (s : State) (o : Nat) : Word :=
  if o = 0x10 then mkWord [(0, b2n s.ldr.busy), (1, s.ldr.phase), (8, s.ldr.reject), (16, s.ldr.pressing)]
  else if o = 0x14 then s.pat.serial
  else if 0x100 ≤ o ∧ o < 0x1D0 then tget 0 s.pat.roles ((o - 0x100) / 4)
  else s.reg (0x10000 + o)

/-- The terms that SCH_SES_BAND and SCH_SES_CODE show (R90, Table 4.1): zero for a session with no configuration in force. -/
def State.schTerm (s : State) (code : Bool) : Word :=
  let n := fld (s.reg 0x2000C) 11 0
  let x := s.ses n
  match x.force with
  | none => 0
  | some c =>
    if x.st = .closed then 0
    else if !code then w32 (tBand x.cls c)
    else
      let mhz := s.clock (quadOf (s.candidate x.panel))
      w32 (min 0xFFFFFFFF (tUnit x.cls c mhz (s.gangFor x.cls c x.panel)))

/-- Tiles of panel `p` that run work (SCH_FLOORp.busy); a spare is no tile of the panel (R40). -/
def State.busyTiles (s : State) (p : Nat) : Nat :=
  ((upto s.nTiles).filter fun t => (s.tile t).panel == p && (s.tile t).role == .active && (s.tile t).work.isSome).length

/-- SCH (R90). -/
def State.schView (s : State) (o : Nat) : Word :=
  if o = 0x10 then s.schTerm false
  else if o = 0x14 then s.schTerm true
  else if 0x40 ≤ o ∧ o < 0x80 then
    let p := (o - 0x40) / 4
    mkWord [(0, s.liveFloor p), (8, s.busyTiles p)]
  else s.reg (0x20000 + o)

/-- The basket registers of function `fn` by offset from BKT_CTL (R353). -/
def Func.bktView (f : Func) (o : Nat) : Word :=
  if o = 0x00 then w32 (b2n f.enable)
  else if o = 0x04 then f.baseLo
  else if o = 0x08 then f.baseHi
  else if o = 0x0C then w32 f.size
  else if o = 0x10 then w32 f.head
  else if o = 0x14 then mkWord [(0, f.tail), (16, b2n f.phase)]
  else if o = 0x18 then f.mod
  else if o = 0x1C then mkWord [(0, f.lost), (16, f.masked)]
  else if o = 0x20 then w32 f.mask
  else if o = 0x24 then w32 f.hold.length
  else 0

/-- The host packet ring registers by offset from HIF_HPR_LO (R353). -/
def Func.hprView (f : Func) (o : Nat) : Word :=
  if o = 0x00 then f.hprLo
  else if o = 0x04 then f.hprHi
  else if o = 0x08 then w32 f.hprSize
  else if o = 0x0C then w32 f.hprHead
  else if o = 0x10 then w32 f.hprTail
  else 0

/-- HIF (R353). -/
def State.hifView (s : State) (o : Nat) : Word :=
  if o = 0 then s.hif.link
  else if 0x100 ≤ o ∧ o < 0x128 then (s.fn 0).bktView (o - 0x100)
  else if 0x140 ≤ o ∧ o < 0x154 then (s.fn 0).hprView (o - 0x140)
  else if o = 0x200 then w32 s.hif.pend
  else if o = 0x204 then w32 s.hif.pendEn
  else if o = 0x208 then s.claimValue
  else s.reg (0x30000 + o)

/-- FLT_CSTAT of the selected class and unit (R269): zero for a unit beyond the class's scope. -/
def State.cstat (s : State) : Word :=
  let k := s.fltSel
  let u := fld (s.reg 0x40018) 22 16
  if s.unitOk k u then
    let x := s.fltUnit k u
    mkWord [(0, min 255 x.cnt), (8, x.last), (11, b2n x.unacked)]
  else 0

/-- FLT (R269). -/
def State.fltView (s : State) (o : Nat) : Word :=
  let f := s.flt
  if o = 0x00 ∨ o = 0x04 then half f.status.toNat (o == 0x04)
  else if o = 0x08 then f.firstWord
  else if o = 0x0C ∨ o = 0x10 then half f.firstTime (o == 0x10)
  else if o = 0x14 then f.firstDetail
  else if o = 0x1C then if scopeOf s.fltSel = .reserved then 0 else s.fltCfg s.fltSel
  else if o = 0x20 ∨ o = 0x24 then if scopeOf s.fltSel = .reserved then 0 else half (s.fltWin s.fltSel) (o == 0x24)
  else if o = 0x28 then s.cstat
  else s.reg (0x40000 + o)

/-- Word `k` (0 to 11) of a lint entry (Table 13.3). -/
def LintEntry.word (e : LintEntry) (k : Nat) : Word :=
  if k < 8 then e.vals.getD k 0
  else if k < 10 then half e.time (k == 9)
  else if k = 10 then e.trig
  else e.seq

/-- LNT (R274): in pocket mode the SRAM entries read zero (R273). -/
def State.lntView (s : State) (o : Nat) : Word :=
  let l := s.lnt
  if o = 0x04 then mkWord [(0, l.next), (10, b2n l.wrapped), (11, b2n l.frozen), (12, b2n l.pocket), (16, l.pnext)]
  else if 0x3000 ≤ o ∧ o < 0x3300 then (tget {} l.pocketE ((o - 0x3000) / 48)).word ((o - 0x3000) % 48 / 4)
  else if 0x4000 ≤ o then if l.pocket then 0 else (tget {} l.sram ((o - 0x4000) / 48)).word ((o - 0x4000) % 48 / 4)
  else s.reg (0x50000 + o)

/-- A counter's LO or HI word (R401, R408): HI 15:0 reads zero in W7-compatible wrap. -/
def State.cntView (s : State) (c : Nat) (hi : Bool) : Word :=
  let n := tget 0 s.pmu.cnt c
  if hi then mkWord [(0, if bit (s.reg (evtOff c)) 15 then 0 else n / 2 ^ 32 % 65536), (31, b2n (tget false s.pmu.ovf c))]
  else loW n

/-- Word `k` of a sample (Table 21.2). -/
def Sample.word (x : Sample) (k : Nat) : Word := if k = 0 then x.d0 else if k = 1 then x.d1 else if k = 2 then x.d2 else x.d3

/-- PMU (R408). -/
def State.pmuView (s : State) (o : Nat) : Word :=
  let p := s.pmu
  if o = 0x08 ∨ o = 0x0C then half p.thr (o == 0x0C)
  else if 0x200 ≤ o ∧ o < 0x400 then s.cntView ((o - 0x200) / 8) (o % 8 == 4)
  else if o = 0x610 then w32 p.head
  else if o = 0x614 then w32 p.tail
  else if 0x620 ≤ o ∧ o < 0x630 then (tget {} p.buf (fld (s.reg 0x6061C) 11 0)).word ((o - 0x620) / 4)
  else if o = 0x704 ∨ o = 0x790 then p.bwGen
  else if o = 0x708 ∨ o = 0x70C then half p.bwStart (o == 0x70C)
  else if 0x710 ≤ o ∧ o < 0x790 then half (tget 0 p.bw ((o - 0x710) / 8)).toNat (o % 8 == 4)
  else s.reg (0x60000 + o)

/-- A running quadrant's clock is below its CLOCKS cap (PWR_STATUS.throttled). -/
def State.throttled (s : State) : Bool :=
  (upto s.nQuads).any fun q => (s.quad q).pll && decide ((s.quad q).mhz < tget 0 s.pat.caps q * 100)

/-- The tile that holds a sleep request of quadrant `q`: the lowest that runs a unit or a self-test (R377). -/
def State.quadHolder (s : State) (q : Nat) : Option Nat :=
  (upto s.nTiles).find? fun t => quadOf t == q && ((s.tile t).work.isSome || (s.tile t).role == .selfTest)

/-- PWR_DOMd_ST (R377, R378). -/
def State.domSt (s : State) (d : Nat) : Word :=
  if d < 4 then mkWord [(0, (s.dom d).st), (8, (s.dom d).holder)]
  else if !(s.dom d).sleep then 0
  else if !(s.quad (d - 4)).pll then 1
  else match s.quadHolder (d - 4) with
    | some t => mkWord [(0, 3), (8, t)]
    | none => 0

/-- PWR_STATUS (R383). -/
def State.pwrStatus (s : State) : Word :=
  let p := s.pwr
  mkWord [(0, s.mode.code), (4, p.lastReset), (6, p.lastWake), (8, b2n s.throttled), (9, b2n p.standbyPend)]

/-- PWR (R383): registers of quadrants and stacks that the part lacks read zero (R2). -/
def State.pwrView (s : State) (o : Nat) : Word :=
  let p := s.pwr
  let has (d : Nat) : Bool := if d < 4 then decide (d < s.nStacks) else decide (d - 4 < s.nQuads)
  if o = 0x00 then s.pwrStatus
  else if 0x10 ≤ o ∧ o < 0x30 then
    let d := (o - 0x10) / 4
    if has d then mkWord [(0, b2n (s.dom d).sleep), (1, b2n ((s.dom d).force && decide (d < 4)))] else 0
  else if 0x40 ≤ o ∧ o < 0x60 then if has ((o - 0x40) / 4) then s.domSt ((o - 0x40) / 4) else 0
  else if 0x60 ≤ o ∧ o < 0x70 then
    let q := (o - 0x60) / 4
    if has (4 + q) then mkWord [(0, (s.quad q).mhz), (16, tget 0 s.pat.caps q * 100)] else 0
  else if o = 0x70 then
    mkWord [(0, s.dieTemp 0 % 256), (8, s.dieTemp 1 % 256), (16, s.dieTemp 2 % 256), (24, s.hottest.2 % 256)]
  else if o = 0x80 ∨ o = 0x84 then half s.now (o == 0x84)
  else if o = 0x88 then p.adj
  else if o = 0x8C then BitVec.ofInt 32 p.slew
  else if o = 0x98 ∨ o = 0x9C then half p.ppsIn (o == 0x9C)
  else s.reg (0x70000 + o)

/-- SEC (R398): a command that waits for the control cores reads as busy. -/
def State.secView (s : State) (o : Nat) : Word :=
  let x := s.sec
  if o = 0x00 then
    mkWord [(0, b2n (x.busy.isSome || x.waiting.isSome)), (1, x.result), (4, x.debug), (6, x.boot), (8, x.svn % 128),
      (16, x.counter % 128)]
  else if o = 0x1C then
    let k := fld (s.reg 0x80018) 12 0
    let key := tget [] x.keys k
    mkWord [(0, b2n !key.isEmpty), (1, b2n (key.length == 44)), (2, b2n (s.slotUsed k))]
  else if o = 0x24 then x.nonce
  else s.reg (0x80000 + o)

/-- LIN (R368, R370): a table window reads zero on a device without its role. -/
def State.linView (s : State) (o : Nat) : Word :=
  let l := s.lin
  let up (p : Nat) : Nat := b2n (tget ({} : LinePortSt) l.ports p).up
  if o = 0x00 then w32 l.ctl
  else if o = 0x04 then
    mkWord [(0, up 0), (1, up 1), (2, if s.a144 then up 2 else 0), (3, b2n l.locked), (4, b2n l.holdover)]
  else if o = 0x08 then mkWord [(0, l.addr), (31, b2n l.valid)]
  else if o = 0x10 then l.offset
  else if o = 0x14 then l.delay
  else if o = 0x44 ∨ o = 0x48 then half (tget (0 : Dword) l.table (fld (s.reg 0x90040) 11 0)).toNat (o == 0x48)
  else if o = 0x70 then w32 l.rxTail
  else if 0x8000 ≤ o ∧ o < 0x9000 then if l.valid && l.manager then tget 0 l.tables (o - 0x8000) else 0
  else if 0x9000 ≤ o ∧ o < 0xA000 then if l.trunkHead then tget 0 l.tables (o - 0x8000) else 0
  else if 0xA000 ≤ o ∧ o < 0xB000 then if l.head then tget 0 l.tables (o - 0x8000) else 0
  else s.reg (0x90000 + o)

/-- The STATUS word of a DMA channel (R328): an enabled channel with a descriptor that no mover has taken waits for one, and so does a
moving one that has lost its mover (R312). -/
def State.chanStatus (s : State) (n : Nat) : Word :=
  let x := s.chan n
  let st := if x.enable && x.state == 0 && x.head != x.tail then 2
    else if x.state == 1 && !s.hasMover n then 2 else x.state
  mkWord [(0, st), (4, x.last)]

/-- DMA (R328). -/
def State.dmaView (s : State) (o : Nat) : Word :=
  if o = 4 ∨ o = 8 then w32 s.dmaReq
  else if 0x1000 ≤ o ∧ o < 0x2000 then
    let x := s.chan ((o - 0x1000) / 0x40)
    let r := o % 0x40
    if r = 0x00 then mkWord [(0, b2n x.enable), (2, b2n x.live), (3, b2n x.ringSpace)]
    else if r = 0x04 then x.baseLo
    else if r = 0x08 then x.baseHi
    else if r = 0x0C then w32 x.size
    else if r = 0x10 then w32 x.tail
    else if r = 0x14 then w32 x.head
    else if r = 0x18 then w32 x.count
    else if r = 0x1C then s.chanStatus ((o - 0x1000) / 0x40)
    else 0
  else s.reg (0xA0000 + o)

/-- HMP (R172). -/
def State.hmpView (s : State) (o : Nat) : Word :=
  if o = 0x00 then w32 s.pat.pages
  else if o = 0x04 then w32 s.freePages
  else if o = 0x08 then w32 s.heldPages
  else if o = 0x1C then s.lastDfree
  else if o = 0x24 then
    let p := s.page (fld (s.reg 0xB0020) 17 0)
    mkWord [(0, b2n p.held), (8, p.refs), (16, p.gen)]
  else s.reg (0xB0000 + o)

/-- CVU (R328): RESULT_LO shows the finished value with FOLD, RESULT_HI the word that the last read of RESULT_LO latched. -/
def State.cvuView (s : State) (o : Nat) : Word :=
  let x := s.cvu (o / 0x40)
  let r := o % 0x40
  if 0x200 ≤ o then s.reg (0xC0000 + o)
  else if r = 0x00 then x.ctl
  else if r = 0x04 ∨ r = 0x08 then half x.poly.toNat (r == 0x08)
  else if r = 0x0C ∨ r = 0x10 then half x.init.toNat (r == 0x10)
  else if r = 0x14 ∨ r = 0x18 then half x.xor.toNat (r == 0x18)
  else if r = 0x28 ∨ r = 0x2C then half x.fold.toNat (r == 0x2C)
  else if r = 0x30 then loW (x.finish ((leBytes (fld x.ctl 13 10) x.fold.toNat).foldl x.byteStep x.reg)).toNat
  else if r = 0x34 then hiW x.result.toNat
  else if r = 0x38 then mkWord [(8, x.bytes)]
  else 0

/-- ARB (R328): ARB_s_SEED reads the LFSR; the arbiters of absent stacks read zero (R2). -/
def State.arbView (s : State) (o : Nat) : Word :=
  let k := o / 0x100
  if k < 4 then
    if s.nStacks ≤ k then 0
    else if o % 0x100 = 0x40 then w32 (s.arb k).lfsr.toNat
    else s.reg (0xD0000 + o)
  else s.reg (0xD0000 + o)

/-- The signed credit of a bucket in 13 bits (R241). -/
def State.creditView (s : State) (b : BucketId) : Nat := ((s.bucket b).c % 8192).toNat

/-- An Ethernet port's registers (R219, R241). -/
def State.ethView (s : State) (p r : Nat) : Word :=
  let e := s.eth p
  let g := e.gate
  if r = 0x04 then
    mkWord [(0, b2n e.link), (1, s.laneMode p), (3, b2n e.fec), (4, b2n e.anDone),
      (5, b2n (s.subs.any fun x => x.2.moved && s.subPort x.1 == p))]
  else if r = 0x28 then s.ethLat p
  else if r = 0x40 then w32 e.puntTail
  else if r = 0x58 then w32 e.htxHead
  else if r = 0x154 then mkWord [(0, b2n g.on), (1, b2n g.pending), (2, g.entry)]
  else if r = 0x158 ∨ r = 0x15C then half g.chg (r == 0x15C)
  else if 0x800 ≤ r ∧ r < 0xC00 then tget 0 g.oper ((r - 0x800) / 4)
  else s.reg (ethBase p + r)

/-- MGL (R219, R241). -/
def State.mglView (s : State) (o : Nat) : Word :=
  if o = 0x1020 then
    let n := fld (s.reg 0xE1000) 11 0
    let q := (s.sub n).queue
    mkWord [(0, s.creditView (.sub n)), (16, min 255 q.length), (31, b2n (match q with
      | u :: _ => !u.fresh
      | [] => false))]
  else if o = 0x2020 then mkWord [(0, s.creditView (.svc (fld (s.reg 0xE2000) 7 0)))]
  else if 0x3000 ≤ o ∧ o < 0x3040 ∧ o % 16 = 8 then mkWord [(0, s.creditView (.port ((o - 0x3000) / 16)))]
  else if 0x8000 ≤ o ∧ o < 0xA000 then s.ethView ((o - 0x8000) / 0x1000) (o % 0x1000)
  else s.reg (0xE0000 + o)

/-- The code of DEP_TILE.state (R261). -/
def Role.code : Role → Nat
  | .unused => 0 | .active => 1 | .spare => 2 | .selfTest => 3 | .retired => 4

/-- DEP_TILEn (R261). -/
def Tile.depWord (t : Tile) : Word :=
  mkWord [(0, t.role.code), (4, t.panel), (8, b2n t.promoted), (9, b2n t.work.isSome), (10, t.result),
    (16, min 255 t.strikes)]

/-- DEP (R261). -/
def State.depView (s : State) (o : Nat) : Word :=
  if o = 0x50 ∨ o = 0x54 then half s.lastUnc (o == 0x54)
  else if 0x60 ≤ o ∧ o < 0x70 then if (o - 0x60) / 4 < s.nStacks then w32 (s.stack ((o - 0x60) / 4)).scrubPos else 0
  else if 0x100 ≤ o ∧ o < 0x1D0 then if (o - 0x100) / 4 < s.nTiles then (s.tile ((o - 0x100) / 4)).depWord else 0
  else s.reg (0xF0000 + o)

/-- A register of block `b` at block offset `o` (Table 22.2). -/
def State.blockView (s : State) (b o : Nat) : Word :=
  match b with
  | 0x0 => s.ctlView o
  | 0x1 => s.patView o
  | 0x2 => s.schView o
  | 0x3 => s.hifView o
  | 0x4 => s.fltView o
  | 0x5 => s.lntView o
  | 0x6 => s.pmuView o
  | 0x7 => s.pwrView o
  | 0x8 => s.secView o
  | 0x9 => s.linView o
  | 0xA => s.dmaView o
  | 0xB => s.hmpView o
  | 0xC => s.cvuView o
  | 0xD => s.arbView o
  | 0xE => s.mglView o
  | _ => s.depView o

/-- MEM_STATUS of stack `k` (R306). -/
def State.memStatus (s : State) (k : Nat) : Word :=
  let x := s.stack k
  mkWord [(0, x.rate), (2, x.band), (4, b2n x.sweep.isSome), (5, b2n x.chg.isSome), (6, b2n x.fpend.isSome),
    (7, b2n x.unval), (8, b2n x.lowMargin), (9, b2n x.bandStale), (12, min 255 x.temp), (20, x.sr), (24, x.pd)]

/-- A line channel's registers (R306). -/
def State.memcView (s : State) (k c o : Nat) : Word :=
  let y := (s.stack k).chan c
  if o = 0x0C then w32 (tget 0 y.lanes (fld (s.reg (chanBase k c + 8)) 6 0))
  else if o = 0x10 then mkWord [(0, fld y.margin 22 0), (31, b2n y.monitor)]
  else s.reg (chanBase k c + o)

/-- The MEM window of stack `k` (R306). -/
def State.memView (s : State) (k o : Nat) : Word :=
  let x := s.stack k
  let sel := selSet (s.reg (memBase k + 0x40))
  let n := setNo sel.1 sel.2.1 sel.2.2
  if 0x10000 ≤ o then if o < 0x20000 then s.memcView k ((o - 0x10000) / 0x1000) (o % 0x1000) else 0
  else if o = 0x00 then s.memStatus k
  else if o = 0x04 then mkWord [(0, x.target), (4, b2n x.guard)]
  else if o = 0x18 then w32 x.load
  else if o = 0x24 then x.trainSt
  else if o = 0x44 then tget 0 x.dset (n * 128 + fld (s.reg (memBase k + 0x40)) 14 8)
  else if o = 0x48 then w32 (tget 0 x.dflags n)
  else s.reg (memBase k + o)

/-- The window of tile `t` (R289, R328, R408, R412, R414). -/
def State.tileView (s : State) (t o : Nat) : Word :=
  let y := s.tile t
  if o = 0x0000 then mkWord [(0, t), (6, quadOf t), (8, t % 13)]
  else if o = 0x0104 then mkWord [(0, y.inbox.length), (8, b2n y.midItem)]
  else if o = 0x2000 then mkWord [(0, y.ndl.state), (3, y.ndl.prog), (8, y.ndl.entry), (12, b2n y.ndl.committed)]
  else if o = 0x2004 then y.ndl.shown
  else if o = 0x2008 then y.ndl.lastAbandon
  else if o = 0x2020 then y.patchId
  else if o = 0x2024 then y.patchSt
  else if o = 0x2028 then y.storeChk
  else if 0x2100 ≤ o ∧ o < 0x2200 then tget 0 y.redir ((o - 0x2100) / 4)
  else if 0x4080 ≤ o ∧ o < 0x40C0 then s.cntView (64 + t * 8 + (o - 0x4080) / 8) (o % 8 == 4)
  else if 0x6000 ≤ o ∧ o < 0x6014 then tget 0 y.rct o
  else s.reg (tileBase t + o)

/-- Held output slots (DEC_WIN_HELD) as a 64-bit mask. -/
def Dec.heldMask (d : Dec) : Nat := ((upto 64).map fun k => if tget 0 d.slots k = 3 then 2 ^ k else 0).foldl (· + ·) 0

/-- SES_STATE (R56). -/
def Session.stateWord (x : Session) : Word :=
  mkWord [(0, x.st.code), (4, if x.st = .migrating then x.prior.code else 0), (8, b2n x.pend.isSome)]

/-- A register of session record `n` (Table 3.1, R56, R65, R74, R97, R132, R172, R197, R240, R398). -/
def State.sesView (s : State) (n o : Nat) : Word :=
  let x := s.ses n
  if o = 0x004 then x.stateWord
  else if o = 0x008 then w32 x.cls
  else if o = 0x00C then w32 x.panel
  else if o = 0x010 then x.group
  else if o = 0x014 then w32 (b2n x.level)
  else if o = 0x018 then w32 x.ignored
  else if o = 0x01C then x.ignOff
  else if o = 0x020 then x.ignVal
  else if o = 0x024 then x.ignWhy
  else if o = 0x028 then x.cfgSeq
  else if o = 0x02C then x.migrate
  else if 0x1F0 ≤ o ∧ o < 0x200 then tget 0 x.fold o
  else if o = 0x220 then w32 x.bufHead
  else if o = 0x224 then w32 x.bufFill
  else if 0x244 ≤ o ∧ o < 0x254 then tget 0 x.pace ((o - 0x244) / 4)
  else if o = 0x280 ∨ o = 0x284 then 0
  else if o = 0x288 then mkWord [(0, fld (x.stagedAt 0x288) 3 0), (16, ntEcho x.cfg)]
  else if o = 0x2CC then w32 x.inTail
  else if o = 0x2DC then w32 x.hintTail
  else if o = 0x2EC then w32 x.outHead
  else if o = 0x2F0 then x.rowsReg
  else if o = 0x32C ∨ o = 0x330 then half x.dec.heldMask (o == 0x330)
  else if 0x380 ≤ o then tget 0 x.fold o
  else match cfgMask o with
    | some _ => x.readAt o
    | none => 0

/-- The PF register at BAR0 word offset `off` below the MSI-X pages, without side effect (R410, R411): zero outside every
window and in the windows of absent units. -/
def State.readWord (s : State) (off : Nat) : Word :=
  if !s.present off then 0
  else if off < 0x100000 then s.blockView (off / 0x10000) (off % 0x10000)
  else if off < 0x200000 then s.memView ((off - 0x100000) / 0x40000) (off % 0x40000)
  else if off < 0x400000 then s.tileView ((off - 0x200000) / 0x8000) (off % 0x8000)
  else s.sesView ((off - 0x400000) / 0x400) (off % 0x400)

/-- A function's MSI-X table entry or pending bit array by offset in its pages (R332). -/
def Func.msixView (f : Func) (o : Nat) : Word :=
  if o < 0x0C then tget 0 f.table o
  else if o = 0x0C then w32 (b2n f.vecMask)
  else if o = 0x1000 then w32 (b2n f.pba)
  else 0

/-- A VF's register at its BAR0 word offset (R333, R353). -/
def State.vfView (s : State) (vf off : Nat) : Word :=
  let r := s.vfRange vf
  let f := s.fn vf
  if off = 0 then mkWord [(0, vf), (16, r.2)]
  else if off = 4 then w32 r.1
  else if 0x30 ≤ off ∧ off < 0x40 then s.reg (vf * 2 ^ 24 + off)
  else if 0x100 ≤ off ∧ off < 0x128 then f.bktView (off - 0x100)
  else if 0x140 ≤ off ∧ off < 0x154 then f.hprView (off - 0x140)
  else if 0x2000 ≤ off ∧ off < 0x4000 then f.msixView (off - 0x2000)
  else if 0x10000 ≤ off then
    match s.sesOf vf ((off - 0x10000) / 0x400) with
    | some n => s.sesView n (off % 0x400)
    | none => 0
  else 0

/-- What a 4-byte read of word `off` through function `fn` returns (R371): in a warm reset PWR_STATUS and the CTL identity
registers, else zero; nothing while BAR0 cannot be reached. -/
def State.busWord (s : State) (fn off : Nat) : Word :=
  if s.pwr.life = .warm then
    if fn = 0 ∧ off = 0x70000 then s.pwrStatus else if fn = 0 ∧ off < 0x14 then s.ctlView off else 0
  else if !s.live then 0
  else if fn = 0 then
    if 0x800000 ≤ off ∧ off < 0x802000 then (s.fn 0).msixView (off - 0x800000) else s.readWord off
  else if fn < 64 ∧ off < 0x100000 then s.vfView fn off
  else 0

/-- The LO word of a 64-bit register pair of the PF whose value moves without a write of the pair, so that the HI word that
a 4-byte read of it latches can differ from the HI word of the next read (R337). A pair that only its own writes change reads
as written (R336; DEDUCED, log 12). -/
def isLo (off : Nat) : Bool :=
  [0x40000, 0x4000C, 0x40020, 0x60008, 0x60708, 0x70080, 0x70098, 0x90044, 0xF0050].contains off
  || (decide (0x60200 ≤ off) && decide (off < 0x60600) && off % 8 == 0)
  || (decide (0x60710 ≤ off) && decide (off < 0x60790) && off % 8 == 0)
  || (decide (0x200000 ≤ off) && decide (off < 0x400000) && decide (0x4080 ≤ off % 0x8000) && decide (off % 0x8000 < 0x40C0)
    && off % 8 == 0)

/-- A 4-byte read by the host of the PF's word `off` (R326, R337, R352): HIF_CLAIM claims, RESULT_LO of a check-value unit
increments its FOLD, a LO word latches HI for the next read of it. -/
def State.hostRead (s : State) (off : Nat) : Word × State :=
  let v := ((s.hif.latch.find? fun e => e.1 == off).map (·.2)).getD (s.busWord 0 off)
  let keep := s.hif.latch.filter fun e => e.1 != off && (e.1 != off + 4 || !isLo off)
  let keep := if isLo off then (off + 4, s.busWord 0 (off + 4)) :: keep else keep
  let s := { s with hif := { s.hif with latch := keep } }
  let s := if off = 0x30208 then s.whenLive (·.claim)
    else if 0xC0000 ≤ off ∧ off < 0xC0200 ∧ off % 0x40 = 0x30 then s.whenLive (·.cvuResult ((off - 0xC0000) / 0x40))
    else s
  (v, s)

end Sys2Proof.Machine
end

