-- ==== Sys2Proof/Machine/Lint.lean ====
section
/-!
DEFINITION. The lint trap writes its entries (R270 to R272), and enters pocket mode (R273).
-/
namespace Sys2Proof.Machine

/-- The eight registers of set `k`, sampled without side effect (R270, R274). -/
def State.lintSample (s : State) (k : Nat) : List Word :=
  (upto 8).map fun j => s.readWord (fld (s.reg (0x50100 + 32 * k + 4 * j)) 22 0)

/-- The sequence number after `q`: from 1, skipping 0 (Table 13.3). -/
def nextSeq (q : Word) : Word := if q + 1 = 0 then 1 else q + 1

/-- Put an entry at the trap's next index: in the SRAM, or in the pocket, whose entries 1 to 15 wrap (R270, R273). -/
def Lint.put (l : Lint) (e : LintEntry) : Lint :=
  if l.pocket then
    let old := tget ({} : LintEntry) l.pocketE l.pnext
    { l with
      pocketE := tset {} l.pnext e l.pocketE, pnext := if l.pnext = 15 then 1 else l.pnext + 1
      seq := e.seq, wrapped := l.wrapped || old.seq != 0 }
  else
    let old := tget ({} : LintEntry) l.sram l.next
    { l with
      sram := tset {} l.next e l.sram, next := (l.next + 1) % 1024
      seq := e.seq, wrapped := l.wrapped || old.seq != 0 }

/-- LINT_ENTRY_WRITE (R271): the oldest waiting trigger is recorded; the first fatal event's entry freezes the trap, which
asserts pending source 3 (R272, Table 17.5). -/
def State.lintWriteOp (s : State) : State :=
  match s.lnt.queue with
  | [] => s
  | t :: rest =>
    if s.live then
      let e : LintEntry := { vals := s.lintSample t.set, time := t.time, trig := t.trig, seq := nextSeq s.lnt.seq }
      let was := s.lnt.frozen
      let s := { s with lnt := { s.lnt with queue := rest }.put e }
      if t.fatal && !was then s.lintFreeze.assertSrc 3 1 0 else s
    else s

/-- The entry 0 of the pocket: the class 30 event at level `lvl` (R273), with set 0. -/
def State.pocketEntry (s : State) (lvl : Nat) : LintEntry :=
  { vals := s.lintSample 0, time := s.now, seq := nextSeq s.lnt.seq
    trig := mkWord [(8, 30), (16, lvl), (24, 127)] }

/-- The trap switches to its pocket for the class 30 event `e` (R273): entry 0 records it, no trigger slot does. -/
def State.pocketSwitch (s : State) (e : Settled) : State :=
  let n := s.pocketEntry e.lvl
  let s := { s with lnt := { s.lnt with pocket := true, pocketE := tset {} 0 n [], pnext := 1, seq := n.seq } }
  if e.lvl = 4 ∧ ¬ s.lnt.fatalSeen then
    ({ s with lnt := { s.lnt with fatalSeen := true } }).lintFreeze.assertSrc 3 1 0
  else s

/-- LINT_SRAM_ERROR (R273): the trap switches to its pocket, once, and class 30 is raised. -/
def State.lintErrorOp (s : State) : State :=
  if !s.live then s
  else if s.lnt.pocket then s.raiseDev 30
  else
    let r := s.settle { cls := 30, unit := 0, n := 1 }
    ((((r.1.recordFirst r.2).pocketSwitch r.2).signal r.2).reactDev r.2).assertSrc 3 2 0

/-- LINT_ENTRY_WRITE. -/
def execLintEntryWrite (s : State) : Host.Outcome State Fault Refusal := .next s.lintWriteOp

/-- LINT_SRAM_ERROR. -/
def execLintSramError (s : State) : Host.Outcome State Fault Refusal := .next s.lintErrorOp

end Sys2Proof.Machine
end

