-- ==== Sys2Proof/Machine/Bus.lean ====
section
/-!
DEFINITION. Writes through BAR0 (R9 to R12, R331 to R338, R409 to R412, R426): which register a word reaches, what refuses it,
and where a refused write is counted.
-/
namespace Sys2Proof.Machine

/-- A write of the CTL block (R413). -/
def State.ctlWrite (s : State) (o : Nat) (v : Word) : State := if o = 0x14 then s.setReg 0x14 v else s.ignored o v

/-- A write of the SCH block (R90). -/
def State.schWrite (s : State) (o : Nat) (v : Word) : State :=
  let off := 0x20000 + o
  if o = 0x00 then s.setReg off (maskW 1 v)
  else if o = 0x04 ∨ o = 0x08 then if v = 0 then s.ignored off v else s.setReg off v
  else if o = 0x0C then s.setReg off (maskW 0xFFF v)
  else if 0x18 ≤ o ∧ o ≤ 0x24 then s.setReg off 0
  else s.ignored off v

/-- A write of the HMP block (R172). -/
def State.hmpWrite (s : State) (o : Nat) (v : Word) : State :=
  let off := 0xB0000 + o
  if o = 0x0C then s.setReg off (maskW 0x7FFFF v)
  else if 0x10 ≤ o ∧ o ≤ 0x18 then s.setReg off 0
  else if o = 0x20 then if s.pat.pages ≤ fld v 17 0 then s.ignored off v else s.setReg off (maskW 0x3FFFF v)
  else s.ignored off v

/-- A write of the DEP block (R261). -/
def State.depWrite (s : State) (o : Nat) (v : Word) : State :=
  let off := 0xF0000 + o
  if o = 0x00 then if fld v 2 0 < 2 then s.ignored off v else s.setReg off (maskW 7 v)
  else if o = 0x04 then if fld v 23 0 < 16384 then s.ignored off v else s.setReg off (maskW 0xFFFFFF v)
  else if o = 0x08 then s.tileCmd v
  else if 0x10 ≤ o ∧ o ≤ 0x2C then s.setReg off 0
  else if o = 0x40 then if v ≠ 0 ∧ v.toNat < 4096 then s.ignored off v else s.setReg off v
  else if 0x44 ≤ o ∧ o ≤ 0x4C then s.setReg off 0
  else s.ignored off v

/-- A write of block `b` at block offset `o` (Table 22.2). -/
def State.blockWrite (s : State) (b o : Nat) (v : Word) : State :=
  match b with
  | 0x0 => s.ctlWrite o v
  | 0x1 => s.patWrite o v
  | 0x2 => s.schWrite o v
  | 0x3 => s.hifWrite o v
  | 0x4 => s.fltWrite o v
  | 0x5 => s.lntWrite o v
  | 0x6 => s.pmuWrite o v
  | 0x7 => s.pwrWrite o v
  | 0x8 => s.secWrite o v
  | 0x9 => s.linWrite o v
  | 0xA => s.dmaWrite o v
  | 0xB => s.hmpWrite o v
  | 0xC => s.cvuWrite o v
  | 0xD => s.arbWrite o v
  | 0xE => s.mglWrite o v
  | _ => s.depWrite o v

/-- A write of tile `t`'s window (R289, R321, R328, R408, R412). -/
def State.tileWrite (s : State) (t o : Nat) (v : Word) : State :=
  let off := tileBase t + o
  if o = 0x100 then s.inboxCtl t v
  else if o = 0x108 ∨ o = 0x10C ∨ (0x2010 ≤ o ∧ o ≤ 0x2018) then s.setReg off 0
  else if 0x4000 ≤ o ∧ o < 0x6000 then s.msrWrite t (o - 0x4000) v
  else s.ignored off v

/-- A word write by the PF below the session records: an ignore count clears (R10), the words of a last-ignored record drop
uncounted (R426), an absent window or a stopped domain ignores (R2, R338), else the register's own rules apply. -/
def State.pfWrite (s : State) (off : Nat) (v : Word) : State :=
  let ign := (ignWindow off).1
  if !s.present off then s.ignored off v
  else if off = ign then s.setReg off 0
  else if ign < off ∧ off ≤ ign + 12 then s
  else if s.stopped off then s.ignored off v
  else if off < 0x100000 then s.blockWrite (off / 0x10000) (off % 0x10000) v
  else if off < 0x200000 then s.memWrite ((off - 0x100000) / 0x40000) (off % 0x40000) v
  else s.tileWrite ((off - 0x200000) / 0x8000) (off % 0x8000) v

/-- A word write by VF `vf` outside its session aliases (Table 17.2). -/
def State.vfWrite (s : State) (vf off : Nat) (v : Word) : State :=
  if off = 0x30 then s.setReg (vf * 2 ^ 24 + 0x30) 0
  else if 0x30 < off ∧ off < 0x40 then s
  else if 0x100 ≤ off ∧ off < 0x128 then s.bktWrite vf (off - 0x100) v
  else if 0x140 ≤ off ∧ off < 0x154 then s.hprWrite vf (off - 0x140) v
  else if 0x2000 ≤ off ∧ off < 0x2010 then s.msixWrite vf (off - 0x2000) v
  else s.ignoredVf vf off v

/-- The session record or alias and its record offset that word `off` of function `fn` lies in (R333, R409). -/
def sesSlot (fn off : Nat) : Option (Nat × Nat) :=
  if fn = 0 then if 0x400000 ≤ off ∧ off < 0x800000 then some ((off - 0x400000) / 0x400, off % 0x400) else none
  else if 0x10000 ≤ off ∧ off < 0x100000 then some ((off - 0x10000) / 0x400, off % 0x400) else none

/-- A function whose BAR0 takes writes: a device that answers, a VF that is not in an FLR. -/
def State.reached (s : State) (fn : Nat) : Bool := s.live && decide (fn < 64) && !(fn != 0 && s.hif.flr.contains fn)

/-- One aligned word write through function `fn` (R331, R336). -/
def State.busWrite (s : State) (fn off : Nat) (v : Word) : State :=
  if !s.reached fn then s
  else match sesSlot fn off with
    | some (n, o) => s.onSes fn n o v fun s k => if o = 0x328 then s.winFree k v else s.sesWrite k o v
    | none =>
      if fn ≠ 0 then s.vfWrite fn off v
      else if off < 0x400000 then s.pfWrite off v
      else if 0x800000 ≤ off ∧ off < 0x800010 then s.msixWrite 0 (off - 0x800000) v
      else s.ignored off v

/-- A write that R337 or R330 refuses: ignored and counted at the window it addresses, but for the words of a last-ignored
record (R426). -/
def State.busIgnore (s : State) (fn off : Nat) (v : Word) : State :=
  if !s.reached fn then s
  else match sesSlot fn off with
    | some (n, o) => s.onSes fn n o v fun s k => if 0x1C ≤ o ∧ o < 0x28 then s else s.ignoredSes k o v 8
    | none =>
      if fn ≠ 0 then if 0x34 ≤ off ∧ off < 0x40 then s else s.ignoredVf fn off v
      else if s.present off && decide ((ignWindow off).1 + 4 ≤ off) && decide (off < (ignWindow off).1 + 16) then s
      else s.ignored off v

/-- The words of a write in address order (R337). -/
def State.busWords (s : State) (fn off : Nat) : List Word → State
  | [] => s
  | v :: t => (s.busWrite fn off v).busWords fn (off + 4) t

/-- A BAR0 write (R330, R337): below 4 bytes, misaligned or poisoned it is ignored. -/
def State.busData (s : State) (fn off : Nat) (d : WData) : State :=
  match d with
  | .short v => s.busIgnore fn off v
  | .poisoned v => s.busIgnore fn off v
  | .words vs =>
    if off % 4 ≠ 0 ∨ (vs.length = 2 ∧ off % 8 ≠ 0) then s.busIgnore fn off (vs.headD 0) else s.busWords fn off vs

/-- Word `off` of function `fn` is an ignore count (R10, R411, R412). -/
def isIgnCount (fn off : Nat) : Bool :=
  match sesSlot fn off with
  | some (_, o) => o == 0x18
  | none => if fn = 0 then decide (off < 0x400000) && off == (ignWindow off).1 else off == 0x30

/-- Word `off` of function `fn` is an event counter that any write clears: SCH (R90), HIF (R353), LNT (R274), PMU (R408), LIN
(R370), DMA and ARB (R328), HMP (R172), MGL (R219, R241), DEP (R261), MEM (R306), NDL (R289), TIL (R328), BKT_LOST of a VF. -/
def isCounter (fn off : Nat) : Bool :=
  let within (lo hi : Nat) : Bool := decide (lo ≤ off) && decide (off ≤ hi) && off % 4 == 0
  if fn ≠ 0 then off == 0x11C
  else if off < 0x100000 then
    within 0x20018 0x20024 || off == 0x3011C || within 0x30280 0x302FC || off == 0x50008 || off == 0x60618
      || within 0x90080 0x90084 || within 0xA000C 0xA0010 || within 0xB0010 0xB0018
      || (within 0xD0000 0xD03FF && decide (0x80 ≤ off % 0x100) && decide (off % 0x100 < 0xC0))
      || within 0xE0100 0xE0110 || within 0xE8100 0xE8124 || within 0xE9100 0xE9124
      || within 0xF0010 0xF002C || within 0xF0044 0xF004C
  else if off < 0x200000 then
    let o := off % 0x40000
    o == 0x28 || o == 0x2C || (decide (0x10000 ≤ o) && decide (o < 0x20000) && [0, 4, 0x14].contains (o % 0x1000))
  else if off < 0x400000 then [0x108, 0x10C, 0x2010, 0x2014, 0x2018].contains (off % 0x8000)
  else false

/-- REGISTER_WRITE (R9). -/
def execRegisterWrite (fn off : Nat) (d : WData) (s : State) : Host.Outcome State Fault Refusal := .next (s.busData fn off d)

/-- IGNORED_COUNT_CLEAR (R10): a write of any value to an ignore count. -/
def execIgnoredCountClear (fn off : Nat) (v : Word) (s : State) : Host.Outcome State Fault Refusal :=
  .next (if isIgnCount fn off then s.busWrite fn off v else s)

/-- COUNTER_CLEAR (R241): a write of any value to a saturating event counter. -/
def execCounterClear (fn off : Nat) (v : Word) (s : State) : Host.Outcome State Fault Refusal :=
  .next (if isCounter fn off then s.busWrite fn off v else s)

end Sys2Proof.Machine
end

