-- ==== Sys2Proof/Machine/Migration.lean ====
section
/-!
DEFINITION. Migration of sessions (R70, R71, R73, R364, R365): the state copy at the rinse, completion, the frames over the
line, the timeout and the deadlines that pass meanwhile.
-/
namespace Sys2Proof.Machine

/-- The ring registers, which a destination keeps as its own (R70). -/
def ringOffsets : List Nat := [0x2C0, 0x2C4, 0x2C8, 0x2D0, 0x2D4, 0x2D8, 0x2E0, 0x2E4, 0x2E8]

/-- A configuration with the rings that a destination's host staged. -/
def withRings (c staged : Tbl Word) : Tbl Word := ringOffsets.foldl (fun c o => cset c o (cget staged o)) c

/-- The destination's panel takes the class and sizes (R71). -/
def State.panelTakes (s : State) (d cls w h : Nat) : Bool :=
  let p := s.panel (s.ses d).panel
  !s.panelBars d (s.ses d).panel cls && decide (w ≤ p.maxW) && decide (h ≤ p.maxH)

/-- The sessions that move with session `n`: its group's migrating sources, or itself (R65). -/
def State.migSet (s : State) (n : Nat) : List Nat :=
  if (s.ses n).member then
    (s.members n).filter fun m => (s.ses m).st == .migrating && match (s.ses m).mig with
      | some g => g.out
      | none => false
  else [n]

/-- A migrating source. -/
def Session.source (x : Session) : Bool := x.st == .migrating && match x.mig with
  | some g => g.out
  | none => false

/-- Migrations that this device is sending (R364). -/
def State.sending (s : State) : Nat := (s.sessions.filter fun e => e.2.source && match e.2.mig with
  | some g => g.peer != s.lin.addr && g.phase != 0
  | none => false).length

/-- Set the phase of a migration. -/
def State.setPhase (s : State) (n k : Nat) : State :=
  s.modSes n fun x => { x with mig := x.mig.map fun g => { g with phase := k } }

/-- MIGRATION_STATE_COPY (R70 step 5, R71, R364): at the rinse of every session that moves, the destination is checked, or a
MIG_CTL open goes over the line; a device sends at most 4 at a time. -/
def State.stateCopyOp (s : State) (n : Nat) : State :=
  let x := s.ses n
  match x.mig with
  | some g =>
    let set := s.migSet n
    if s.live && x.source && g.phase == 0 && !x.lower && set.all fun m => (s.ses m).pics.isEmpty then
      if g.peer = s.lin.addr then
        let ok := set.all fun m =>
          match s.migPeer m with
          | some d => (s.ses d).st == .migrating && !(s.ses d).source &&
              s.panelTakes d (s.ses m).cls (cW (s.ses m).cls (s.ses m).cfg) (cH (s.ses m).cls (s.ses m).cfg)
          | none => false
        if ok then set.foldl (fun s m => s.setPhase m 1) s else s.migFail n
      else if 4 ≤ s.sending then s
      else set.foldl (fun s m =>
        let y := s.ses m
        match y.mig with
        | some g => (s.setPhase m 1).sendTo ftMigCtl g.peer 0
            [0, g.peerSes, m, y.cls, y.group.toNat, cW y.cls y.cfg, cH y.cls y.cfg]
        | none => s) s
    else s
  | none => s

/-- A source returns to CLOSED at completion (R58): its committed pages keep draining through its bindings (R168). -/
def State.closeSource (s : State) (n : Nat) : State :=
  let x := s.ses n
  let s := s.setSes n { x.renew with
    fold := x.fold, foldGen := x.foldGen, cwords := x.cwords, force := x.force, outq := x.outq, outTail := x.outTail
    outHead := x.outHead, bufHead := x.bufHead, bufFill := x.bufFill, dec := { x.dec with dpb := [] }
    commitSeq := x.commitSeq, pictures := x.pictures, lastPic := x.lastPic, band := x.band, bands := x.bands
    commitTime := x.commitTime, dropped := x.dropped, abandoned := x.abandoned, replays := x.replays
    migrations := x.migrations, patchMoves := x.patchMoves, lastBytes := x.lastBytes, threadbare := x.threadbare
    concealed := x.concealed, me := x.me, tbPictures := x.tbPictures, cuts := x.cuts, recoveries := x.recoveries
    bufLimited := x.bufLimited }
  let s := s.modSes n (·.restage)
  let s := s.setSt n .closed
  let s := s.postState n .closed .migrating false
  if x.cls = clsLive then s.refloor x.panel else s

/-- The destination's record once it has the source's bulk state (R70, R73): its own rings and panel, the source's class,
group, configuration, counters, references and rate control; the next picture follows the source's last one. -/
def Session.received (y x : Session) : Session :=
  { x with
    st := y.st, prior := y.prior, panel := y.panel, migrate := y.migrate, ignored := y.ignored, ignOff := y.ignOff
    ignVal := y.ignVal, ignWhy := y.ignWhy, staged := y.staged, mig := none, migFailed := false
    force := x.force.map fun c => withRings c y.staged, pend := x.pend.map fun c => withRings c y.staged
    owed := [], inTail := y.inTail, inHead := 0, hintTail := y.hintTail, hintHead := 0, outHead := y.outHead, outTail := 0
    hintOwed := 0, rowsReg := y.rowsReg, rows0 := 0, rows1 := 0, seen := none, seenWait := false
    nextPic := if x.pictures = 0 then 0 else (x.lastPic + 1) % 2 ^ 24
    kept := [], outq := [], bufHead := y.bufHead, bufFill := 0, inStall := false, drainTo := none
    migrations := min 0xFFFF (x.migrations + 1) }

/-- The destination takes the source's prior state (R58, R73): its publication carries the source's last FOLD_GEN plus one. -/
def State.openDest (s : State) (d : Nat) (gen : Word) (prior : Ses) : State :=
  let s := s.modSes d fun y => { y with foldGen := gen }
  let s := s.resetSeqs d
  let s := s.setSt d prior
  let s := s.postState d prior .migrating false
  if (s.ses d).cls = clsLive then (s.refloor (s.ses d).panel).warmSpares (s.ses d).panel else s

/-- Complete a migration between records of this device: the source publishes CLOSED before the destination (R73). -/
def State.completeLocal (s : State) (n : Nat) : State :=
  match s.migPeer n with
  | some d =>
    let x := s.ses n
    let s := s.closeSource n
    let s := s.setSes d ((s.ses d).received x)
    (s.openDest d (s.ses n).foldGen x.prior).safeMigEnd n true
  | none => s

/-- What goes over the line of the bulk state of session `n` (R70, R364, log 60). Its last FOLD_GEN is that of its change to
CLOSED, one above the present one (R73). -/
def Session.bulk (x : Session) : MigBulk :=
  { running := x.prior == .running, foldGen := x.foldGen + 1, cfgSeq := x.cfgSeq, forceSeq := x.forceSeq, pendSeq := x.pendSeq
    cfg := x.cfg, pend := x.pend, level := x.level, revert := x.revert, nextPic := x.nextPic, lastPic := x.lastPic
    pictures := x.pictures, dropped := x.dropped, abandoned := x.abandoned, replays := x.replays, migrations := x.migrations
    patchMoves := x.patchMoves, tbPictures := x.tbPictures, cuts := x.cuts, recoveries := x.recoveries
    bufLimited := x.bufLimited, cwords := x.cwords, refs := x.refs, ltr := x.ltr, refresh := x.refresh, cycle := x.cycle
    areas := x.areas, refNext := x.refNext, recPend := x.recPend, recNext := x.recNext, invalN := x.invalN, rc := x.rc
    me := x.me, cdfs := x.cdfs, lastSource := x.lastSource, lastCoded := x.lastCoded, dpb := x.dec.dpb, buffers := x.dec.buffers, sets := x.dec.sets, cvs := x.dec.cvs
    shown := x.dec.shown }

/-- The source as bulk state `b` describes it, of the class and group that MIG_CTL open named. -/
def Session.ofBulk (cls : Nat) (group : Word) (b : MigBulk) : Session :=
  let norm (c : List (Nat × Word)) : Tbl Word := c.foldl (fun c e => cset c e.1 e.2) []
  { cls := cls, group := group, cfgSeq := b.cfgSeq, forceSeq := b.forceSeq, pendSeq := b.pendSeq, commitSeq := b.forceSeq
    force := some (norm b.cfg), pend := b.pend.map norm, level := b.level, revert := b.revert, nextPic := b.nextPic
    lastPic := b.lastPic, pictures := b.pictures, dropped := b.dropped, abandoned := b.abandoned, replays := b.replays
    migrations := b.migrations, patchMoves := b.patchMoves, tbPictures := b.tbPictures, cuts := b.cuts
    recoveries := b.recoveries, bufLimited := b.bufLimited, cwords := b.cwords, refs := b.refs, ltr := b.ltr
    refresh := b.refresh, areas := b.areas, cycle := b.cycle, refNext := b.refNext, recPend := b.recPend, recNext := b.recNext
    invalN := b.invalN, rc := b.rc, me := b.me, lastSource := b.lastSource, lastCoded := b.lastCoded, cdfs := b.cdfs.foldl (fun t e => tset [] e.1 e.2 t) [], lastAdm := if b.pictures = 0 then none else some b.lastPic
    dec := { dpb := b.dpb, buffers := b.buffers, sets := b.sets, cvs := b.cvs, shown := b.shown } }

/-- A destination over the line completes with the bulk state that it received; its source has closed (R73, R364). -/
def State.completeRemote (s : State) (d : Nat) (b : MigBulk) : State :=
  let y := s.ses d
  match y.mig with
  | some g =>
    let s := s.setSes d (y.received (Session.ofBulk g.cls g.group b))
    s.openDest d b.foldGen (if b.running then .running else .paused)
  | none => s

/-- MIGRATION_COMPLETE (R58, R70): every session that moves with `n` completes, in ascending order. -/
def State.migDoneOp (s : State) (n : Nat) : State :=
  let x := s.ses n
  match x.mig with
  | some g =>
    if s.live && x.source && g.phase == 1 && g.peer == s.lin.addr then
      (s.migSet n).foldl (fun s m => s.completeLocal m) s
    else if s.live && x.st == .migrating && !g.out && g.phase == 3 then
      match x.migBulk with
      | some b => s.completeRemote n b
      | none => s
    else s
  | none => s

/-- MIGRATION_TIMEOUT (R71): no completion within 144,144,000 st. -/
def State.migTimeoutOp (s : State) (n : Nat) : State :=
  let x := s.ses n
  match x.mig with
  | some g =>
    if s.live && x.st == .migrating && decide (g.started + 144144000 ≤ s.now) then
      if g.out then s.migFail n else if g.phase = 0 then s else s.migDstFail n
    else s
  | none => s

/-- The deadline of a picture has passed. -/
def Pic.due (p : Pic) (now : Nat) : Bool := match p.deadline with
  | some d => decide (d ≤ now)
  | none => false

/-- DEADLINE_PASS (R70): the picture at the head of a MIGRATING LIVE session's ring, of descriptor `a`, is dropped if the
drop policy drops it at its deadline; of a lower rank, the oldest that came from rank 0 and waits. -/
def State.deadlineOp (s : State) (n : Nat) (a0 : AdmitIn) : State :=
  let x := s.ses n
  let a := x.seen.getD a0
  if s.live && x.source && x.cls == clsLive && !x.lower && !x.inputDone && !x.inStall && a.entry.length == 64 && ownerBit a.entry then
    let ing := if (srcDesc a.entry).space = 2 then s.ingestNext n else none
    let p := s.encPic n a ing
    if p.due s.now then
      match s.judge n p x.seen.isSome with
      | .drop r => ((s.consumeHint n).consumeInput n true).dropNew n p r
      | _ => s
    else s
  else if s.live && x.source && x.cls == clsLive && x.lower then
    match x.owed with
    | p :: _ =>
      if p.due s.now then
        match s.judge n p true with
        | .drop r => s.dropOwed n p r
        | _ => s
      else s
    | [] => s
  else s

/-- Answer a MIG_CTL frame: code 1 accepted, 2 refused. -/
def State.migAnswer (s : State) (h : LineHdr) (code peerSes ses : Nat) : State := s.sendTo ftMigCtl h.src (code / 2) [code, peerSes, ses]

/-- MIG_CTL open at the destination (R364 step 2). -/
def State.migOpen (s : State) (h : LineHdr) (d srcSes cls : Nat) (group : Word) (w ht : Nat) : State :=
  let y := s.ses d
  match y.mig with
  | some g =>
    if y.st == .migrating && !g.out && g.phase == 0 && g.peer == h.src && g.peerSes == srcSes then
      if s.panelTakes d cls w ht then
        (s.setSes d { y with mig := some { g with
          phase := 2, cls := cls % 4, group := maskW 0x1FFF group, started := s.now, data := [] } }).migAnswer h 1 srcSes d
      else (s.migDstFail d).migAnswer h 2 srcSes d
    else s.migAnswer h 2 srcSes d
  | none => s.migAnswer h 2 srcSes d

/-- MIG_CTL done at the destination (R364 step 4): the CRC of the MIG_DATA payloads is checked. -/
def State.migCheck (s : State) (h : LineHdr) (d : Nat) (crc : Word) (b : MigBulk) : State :=
  let y := s.ses d
  match y.mig with
  | some g =>
    if y.st == .migrating && !g.out && g.phase == 2 && g.peer == h.src then
      if crc32c g.data = crc then
        (s.setSes d { y with mig := some { g with phase := 3 }, migBulk := some b }).migAnswer h 1 g.peerSes d
      else (s.migDstFail d).migAnswer h 2 g.peerSes d
    else s
  | none => s

/-- MIG_CTL accepted (R364): at phase 1 the bulk state and done go out; after done the destination is complete, and once all
that move are, the sources close, and say so. At a destination it says that the source has closed. -/
def State.migAccepted (s : State) (h : LineHdr) (n : Nat) : State :=
  let x := s.ses n
  match x.mig with
  | some g =>
    if !(x.st == .migrating && g.peer == h.src) then s
    else if !g.out then
      match x.migBulk with
      | some b => if g.phase = 3 then s.completeRemote n b else s
      | none => s
    else if g.phase = 1 then
      let r := s.fresh
      let s := r.1.setPhase n 3
      let s := s.sendTo ftMigData g.peer 1 [g.peerSes] (some x.bulk)
      s.sendTo ftMigCtl g.peer 1 [3, g.peerSes, n, (Config.migrationCrc r.2).toNat] (some x.bulk)
    else if g.phase = 3 then
      let s := s.setPhase n 4
      let set := s.migSet n
      if set.all fun m => match (s.ses m).mig with
          | some g => g.phase == 4
          | none => false then
        set.foldl (fun s m => match (s.ses m).mig with
          | some g => ((s.closeSource m).sendTo ftMigCtl g.peer 1 [1, g.peerSes, m]).safeMigEnd m true
          | none => s) s
      else s
    else s
  | none => s

/-- MIG_CTL refused (R71): the source's migration fails; a destination returns to CLOSED. -/
def State.migRefused (s : State) (h : LineHdr) (n : Nat) : State :=
  let x := s.ses n
  match x.mig with
  | some g =>
    if x.st == .migrating && g.peer == h.src then (if g.out then s.migFail n else s.migDstFail n) else s
  | none => s

/-- MIG_CTL (R364). -/
def State.migCtlOp (s : State) (p : Nat) (h : LineHdr) (n : Nat) (m : MigMsg) : State :=
  let info := match m with
    | .openReq a cls grp w ht => [0, n, a, cls, grp, w, ht]
    | .accepted => [1, n]
    | .refused => [2, n]
    | .done crc _ => [3, n, crc.toNat]
  let bulk := match m with
    | .done _ b => some b
    | _ => none
  s.rxLine p h ftMigCtl info (fun s =>
    match m with
    | .openReq a cls grp w ht => s.migOpen h n a cls (w32 grp) w ht
    | .accepted => s.migAccepted h n
    | .refused => s.migRefused h n
    | .done crc b => s.migCheck h n crc b) bulk

/-- MIG_DATA (R364 step 3). -/
def State.migDataOp (s : State) (p : Nat) (h : LineHdr) (n : Nat) (b : List Byte) : State :=
  s.rxLine p h ftMigData ([n, b.length] ++ b.map (·.toNat)) fun s =>
    s.modSes n fun y => match y.mig with
      | some g => if y.st == .migrating && !g.out && g.phase == 2 && g.peer == h.src then
          { y with mig := some { g with data := g.data ++ b } } else y
      | none => y

/-- MIGRATION_STATE_COPY. -/
def execMigrationStateCopy (n : Nat) (s : State) : Host.Outcome State Fault Refusal := .next (s.stateCopyOp n)

/-- MIGRATION_COMPLETE. -/
def execMigrationComplete (n : Nat) (s : State) : Host.Outcome State Fault Refusal := .next (s.migDoneOp n)

/-- MIGRATION_TIMEOUT. -/
def execMigrationTimeout (n : Nat) (s : State) : Host.Outcome State Fault Refusal := .next (s.migTimeoutOp n)

/-- DEADLINE_PASS. -/
def execDeadlinePass (n : Nat) (a : AdmitIn) (s : State) : Host.Outcome State Fault Refusal := .next (s.deadlineOp n a)

/-- MIG_CTL. -/
def execMigCtl (p : LinePort) (h : LineHdr) (n : Nat) (m : MigMsg) (s : State) : Host.Outcome State Fault Refusal :=
  .next (s.migCtlOp (LinePort.code p) h n m)

/-- MIG_DATA. -/
def execMigData (p : LinePort) (h : LineHdr) (n : Nat) (b : List Byte) (s : State) : Host.Outcome State Fault Refusal :=
  .next (s.migDataOp (LinePort.code p) h n b)

end Sys2Proof.Machine
end

