-- ==== Sys2Proof/Machine/Dispatch.lean ====
section
/-!
DEFINITION. The dispatch: one arm per command, each one direct call of the command's meaning.
-/
namespace Sys2Proof.Machine

def exec (i : Instr) (s : State) : Host.Outcome State Fault Refusal :=
  match i with
  | .registerWrite fn off d => Sys2Proof.Machine.execRegisterWrite fn off d s
  | .ignoredCountClear fn off v => Sys2Proof.Machine.execIgnoredCountClear fn off v s
  | .counterClear fn off v => Sys2Proof.Machine.execCounterClear fn off v s
  | .timebaseTick => Sys2Proof.Machine.execTimebaseTick s
  | .loadFull => Sys2Proof.Machine.execLoadFull s
  | .loadPiece => Sys2Proof.Machine.execLoadPiece s
  | .abortLoad => Sys2Proof.Machine.execAbortLoad s
  | .clearPattern => Sys2Proof.Machine.execClearPattern s
  | .clearDone => Sys2Proof.Machine.execClearDone s
  | .fetchDone r => Sys2Proof.Machine.execFetchDone r s
  | .validationDone => Sys2Proof.Machine.execValidationDone s
  | .storeLoadDone fails => Sys2Proof.Machine.execStoreLoadDone fails s
  | .quietWindowOpen => Sys2Proof.Machine.execQuietWindowOpen s
  | .quietWindowClose fails => Sys2Proof.Machine.execQuietWindowClose fails s
  | .pressTimeout => Sys2Proof.Machine.execPressTimeout s
  | .openSession fn n arg => Sys2Proof.Machine.execOpenSession fn n arg s
  | .configure fn n arg => Sys2Proof.Machine.execConfigure fn n arg s
  | .start fn n arg => Sys2Proof.Machine.execStart fn n arg s
  | .pause fn n arg => Sys2Proof.Machine.execPause fn n arg s
  | .resume fn n arg => Sys2Proof.Machine.execResume fn n arg s
  | .drain fn n arg => Sys2Proof.Machine.execDrain fn n arg s
  | .close fn n arg => Sys2Proof.Machine.execClose fn n arg s
  | .migrateOut fn n arg => Sys2Proof.Machine.execMigrateOut fn n arg s
  | .migrateIn fn n arg => Sys2Proof.Machine.execMigrateIn fn n arg s
  | .invalidateRef fn n arg => Sys2Proof.Machine.execInvalidateRef fn n arg s
  | .forceRecovery fn n arg => Sys2Proof.Machine.execForceRecovery fn n arg s
  | .sesLevelWrite fn n v => Sys2Proof.Machine.execSesLevelWrite fn n v s
  | .inTailWrite fn n v => Sys2Proof.Machine.execInTailWrite fn n v s
  | .hintTailWrite fn n v => Sys2Proof.Machine.execHintTailWrite fn n v s
  | .outHeadWrite fn n v => Sys2Proof.Machine.execOutHeadWrite fn n v s
  | .ringInRowsWrite fn n v => Sys2Proof.Machine.execRingInRowsWrite fn n v s
  | .migrationStateCopy ses => Sys2Proof.Machine.execMigrationStateCopy ses s
  | .migrationComplete ses => Sys2Proof.Machine.execMigrationComplete ses s
  | .migrationTimeout ses => Sys2Proof.Machine.execMigrationTimeout ses s
  | .pictureAdmission ses a => Sys2Proof.Machine.execPictureAdmission ses a s
  | .unitDispatch panel inputs => Sys2Proof.Machine.execUnitDispatch panel inputs s
  | .tileIdleOff tile => Sys2Proof.Machine.execTileIdleOff tile s
  | .quadrantPllStop q => Sys2Proof.Machine.execQuadrantPllStop q s
  | .move tile => Sys2Proof.Machine.execMove tile s
  | .issue tile => Sys2Proof.Machine.execIssue tile s
  | .wait tile holds => Sys2Proof.Machine.execWait tile holds s
  | .branch tile flag => Sys2Proof.Machine.execBranch tile flag s
  | .loop tile => Sys2Proof.Machine.execLoop tile s
  | .commit tile r => Sys2Proof.Machine.execCommit tile r s
  | .yield tile => Sys2Proof.Machine.execYield tile s
  | .trap tile r => Sys2Proof.Machine.execTrap tile r s
  | .routineAbandon tile => Sys2Proof.Machine.execRoutineAbandon tile s
  | .tileWatchdog tile => Sys2Proof.Machine.execTileWatchdog tile s
  | .tileFault tile k => Sys2Proof.Machine.execTileFault tile k s
  | .selfTestDone tile e => Sys2Proof.Machine.execSelfTestDone tile e s
  | .retire tile => Sys2Proof.Machine.execRetire tile s
  | .retest tile => Sys2Proof.Machine.execRetest tile s
  | .scrubRead stack errs => Sys2Proof.Machine.execScrubRead stack errs s
  | .hostUnitDelivery ses labelOk => Sys2Proof.Machine.execHostUnitDelivery ses labelOk s
  | .outBufHeadWrite fn n v => Sys2Proof.Machine.execOutBufHeadWrite fn n v s
  | .decWinRelease fn n v => Sys2Proof.Machine.execDecWinRelease fn n v s
  | .budgetStop b => Sys2Proof.Machine.execBudgetStop b s
  | .ethLinkUp port => Sys2Proof.Machine.execEthLinkUp port s
  | .ethLinkDown port => Sys2Proof.Machine.execEthLinkDown port s
  | .failback sub => Sys2Proof.Machine.execFailback sub s
  | .ethFrameReceive port frame => Sys2Proof.Machine.execEthFrameReceive port frame s
  | .ingestCloseTimeout flow => Sys2Proof.Machine.execIngestCloseTimeout flow s
  | .htxTailWrite port v => Sys2Proof.Machine.execHtxTailWrite port v s
  | .flowLoad v => Sys2Proof.Machine.execFlowLoad v s
  | .flowCommit v => Sys2Proof.Machine.execFlowCommit v s
  | .creditRise b => Sys2Proof.Machine.execCreditRise b s
  | .packetSelect port htx chk => Sys2Proof.Machine.execPacketSelect port htx chk s
  | .unitStale sub => Sys2Proof.Machine.execUnitStale sub s
  | .subLoad v => Sys2Proof.Machine.execSubLoad v s
  | .subCommit v => Sys2Proof.Machine.execSubCommit v s
  | .subFlush v => Sys2Proof.Machine.execSubFlush v s
  | .svcLoad v => Sys2Proof.Machine.execSvcLoad v s
  | .svcCommit v => Sys2Proof.Machine.execSvcCommit v s
  | .portShapeWrite port v => Sys2Proof.Machine.execPortShapeWrite port v s
  | .gateChange port v => Sys2Proof.Machine.execGateChange port v s
  | .gateCancel port v => Sys2Proof.Machine.execGateCancel port v s
  | .gateListStart port => Sys2Proof.Machine.execGateListStart port s
  | .gateEntryAdvance port => Sys2Proof.Machine.execGateEntryAdvance port s
  | .faultEvent evs => Sys2Proof.Machine.execFaultEvent evs s
  | .panelResetDone panel fails => Sys2Proof.Machine.execPanelResetDone panel fails s
  | .faultAcknowledge hi v => Sys2Proof.Machine.execFaultAcknowledge hi v s
  | .firstClear v => Sys2Proof.Machine.execFirstClear v s
  | .faultCfgWrite v => Sys2Proof.Machine.execFaultCfgWrite v s
  | .faultWindowWrite v => Sys2Proof.Machine.execFaultWindowWrite v s
  | .faultInject v => Sys2Proof.Machine.execFaultInject v s
  | .lintEntryWrite => Sys2Proof.Machine.execLintEntryWrite s
  | .freeze v => Sys2Proof.Machine.execFreeze v s
  | .unfreeze v => Sys2Proof.Machine.execUnfreeze v s
  | .snap v => Sys2Proof.Machine.execSnap v s
  | .lintClear v => Sys2Proof.Machine.execLintClear v s
  | .lintSramError => Sys2Proof.Machine.execLintSramError s
  | .memRequest addr op caErrs => Sys2Proof.Machine.execMemRequest addr op caErrs s
  | .rowCloseTimeout stack chan rank bank => Sys2Proof.Machine.execRowCloseTimeout stack chan rank bank s
  | .stackTempReport stack temp => Sys2Proof.Machine.execStackTempReport stack temp s
  | .bankRefresh stack rank => Sys2Proof.Machine.execBankRefresh stack rank s
  | .rankPowerDown stack rank => Sys2Proof.Machine.execRankPowerDown stack rank s
  | .rankSelfRefresh stack rank => Sys2Proof.Machine.execRankSelfRefresh stack rank s
  | .loadWindow stack loads margins => Sys2Proof.Machine.execLoadWindow stack loads margins s
  | .freqChangeRequest stack v => Sys2Proof.Machine.execFreqChangeRequest stack v s
  | .freqChangeDone stack => Sys2Proof.Machine.execFreqChangeDone stack s
  | .fullSweep stack v => Sys2Proof.Machine.execFullSweep stack v s
  | .marginSweep stack v => Sys2Proof.Machine.execMarginSweep stack v s
  | .sweepAbort stack v => Sys2Proof.Machine.execSweepAbort stack v s
  | .sweepDone stack r => Sys2Proof.Machine.execSweepDone stack r s
  | .caParityError stack chan again => Sys2Proof.Machine.execCaParityError stack chan again s
  | .dsetFlagsWrite stack v => Sys2Proof.Machine.execDsetFlagsWrite stack v s
  | .dmaTailWrite chan v => Sys2Proof.Machine.execDmaTailWrite chan v s
  | .descriptorStart chan desc data => Sys2Proof.Machine.execDescriptorStart chan desc data s
  | .burstStart chan => Sys2Proof.Machine.execBurstStart chan s
  | .descriptorWriteback chan e => Sys2Proof.Machine.execDescriptorWriteback chan e s
  | .dmaAbort chan v => Sys2Proof.Machine.execDmaAbort chan v s
  | .dmaEnable chan v => Sys2Proof.Machine.execDmaEnable chan v s
  | .dmaReqSet v => Sys2Proof.Machine.execDmaReqSet v s
  | .dmaReqClear v => Sys2Proof.Machine.execDmaReqClear v s
  | .inboxFlush tile v => Sys2Proof.Machine.execInboxFlush tile v s
  | .arbiterGrant stack eligible => Sys2Proof.Machine.execArbiterGrant stack eligible s
  | .arbSeedWrite stack v => Sys2Proof.Machine.execArbSeedWrite stack v s
  | .cvuData8 u v => Sys2Proof.Machine.execCvuData8 u v s
  | .cvuData16 u v => Sys2Proof.Machine.execCvuData16 u v s
  | .cvuData32 u v => Sys2Proof.Machine.execCvuData32 u v s
  | .cvuResultRead u => Sys2Proof.Machine.execCvuResultRead u s
  | .cvuStart u v => Sys2Proof.Machine.execCvuStart u v s
  | .cvuCtlWrite u v => Sys2Proof.Machine.execCvuCtlWrite u v s
  | .pcieLinkDown => Sys2Proof.Machine.execPcieLinkDown s
  | .vfFlr vf => Sys2Proof.Machine.execVfFlr vf s
  | .pfFlr => Sys2Proof.Machine.execPfFlr s
  | .vfEnableClear => Sys2Proof.Machine.execVfEnableClear s
  | .flrComplete vf => Sys2Proof.Machine.execFlrComplete vf s
  | .vfSessWrite vf v => Sys2Proof.Machine.execVfSessWrite vf v s
  | .bktEnable fn v => Sys2Proof.Machine.execBktEnable fn v s
  | .bktHeadWrite fn v => Sys2Proof.Machine.execBktHeadWrite fn v s
  | .msixModerationExpiry fn => Sys2Proof.Machine.execMsixModerationExpiry fn s
  | .msixUnmask fn enable fnMask vecMask => Sys2Proof.Machine.execMsixUnmask fn enable fnMask vecMask s
  | .bktMaskWrite fn v => Sys2Proof.Machine.execBktMaskWrite fn v s
  | .hifClaim => Sys2Proof.Machine.execHifClaim s
  | .hifEoi v => Sys2Proof.Machine.execHifEoi v s
  | .pendEnWrite v => Sys2Proof.Machine.execPendEnWrite v s
  | .pendingSourceAssert src detail ses => Sys2Proof.Machine.execPendingSourceAssert src detail ses s
  | .pendingSourceDeassert src => Sys2Proof.Machine.execPendingSourceDeassert src s
  | .hprHeadWrite fn v => Sys2Proof.Machine.execHprHeadWrite fn v s
  | .peg h addr => Sys2Proof.Machine.execPeg h addr s
  | .pegReq p h serial manager => Sys2Proof.Machine.execPegReq p h serial manager s
  | .pegAck p h serial => Sys2Proof.Machine.execPegAck p h serial s
  | .pegNak p h full => Sys2Proof.Machine.execPegNak p h full s
  | .timeSync p h => Sys2Proof.Machine.execTimeSync p h s
  | .timeResp h t2 t3 => Sys2Proof.Machine.execTimeResp h t2 t3 s
  | .timeSyncTimer => Sys2Proof.Machine.execTimeSyncTimer s
  | .migCtl p h ses m => Sys2Proof.Machine.execMigCtl p h ses m s
  | .migData p h ses payload => Sys2Proof.Machine.execMigData p h ses payload s
  | .note p h detail => Sys2Proof.Machine.execNote p h detail s
  | .agg p h round level sum => Sys2Proof.Machine.execAgg p h round level sum s
  | .pkt p h sub payload => Sys2Proof.Machine.execPkt p h sub payload s
  | .linkAck p seq => Sys2Proof.Machine.execLinkAck p seq s
  | .linkNak p seq => Sys2Proof.Machine.execLinkNak p seq s
  | .linkAckTimer p => Sys2Proof.Machine.execLinkAckTimer p s
  | .lineLinkDown p => Sys2Proof.Machine.execLineLinkDown p s
  | .lineLinkUp p => Sys2Proof.Machine.execLineLinkUp p s
  | .aggRound => Sys2Proof.Machine.execAggRound s
  | .lineTablePublish => Sys2Proof.Machine.execLineTablePublish s
  | .linPeg v => Sys2Proof.Machine.execLinPeg v s
  | .linRequest v => Sys2Proof.Machine.execLinRequest v s
  | .linRelease v => Sys2Proof.Machine.execLinRelease v s
  | .standby v => Sys2Proof.Machine.execStandby v s
  | .standbyEntry => Sys2Proof.Machine.execStandbyEntry s
  | .warm v => Sys2Proof.Machine.execWarm v s
  | .cold v => Sys2Proof.Machine.execCold v s
  | .warmResetDone => Sys2Proof.Machine.execWarmResetDone s
  | .powerOnReset => Sys2Proof.Machine.execPowerOnReset s
  | .perst => Sys2Proof.Machine.execPerst s
  | .firmwareVerifyDone f => Sys2Proof.Machine.execFirmwareVerifyDone f s
  | .bootComplete patch => Sys2Proof.Machine.execBootComplete patch s
  | .wake => Sys2Proof.Machine.execWake s
  | .wakeNEdge => Sys2Proof.Machine.execWakeNEdge s
  | .wakeTimer => Sys2Proof.Machine.execWakeTimer s
  | .wakeDone copyOk storeOk => Sys2Proof.Machine.execWakeDone copyOk storeOk s
  | .domainSleepWrite d v => Sys2Proof.Machine.execDomainSleepWrite d v s
  | .stackSleep stack => Sys2Proof.Machine.execStackSleep stack s
  | .quadrantSleep q => Sys2Proof.Machine.execQuadrantSleep q s
  | .tempSample h f0 f1 => Sys2Proof.Machine.execTempSample h f0 f1 s
  | .quadrantStepUp q => Sys2Proof.Machine.execQuadrantStepUp q s
  | .quadrantPllLoss q supply => Sys2Proof.Machine.execQuadrantPllLoss q supply s
  | .tbAdjWrite v => Sys2Proof.Machine.execTbAdjWrite v s
  | .tbSlewWrite v => Sys2Proof.Machine.execTbSlewWrite v s
  | .tbStepWrite v => Sys2Proof.Machine.execTbStepWrite v s
  | .ppsInEdge => Sys2Proof.Machine.execPpsInEdge s
  | .ppsOutPulse => Sys2Proof.Machine.execPpsOutPulse s
  | .supplyExcursion rail mv us => Sys2Proof.Machine.execSupplyExcursion rail mv us s
  | .refClockLost => Sys2Proof.Machine.execRefClockLost s
  | .importKey v => Sys2Proof.Machine.execImportKey v s
  | .clearSlot v => Sys2Proof.Machine.execClearSlot v s
  | .provision v => Sys2Proof.Machine.execProvision v s
  | .revoke v => Sys2Proof.Machine.execRevoke v s
  | .svnCommit v => Sys2Proof.Machine.execSvnCommit v s
  | .lockDebug v => Sys2Proof.Machine.execLockDebug v s
  | .unlockDebug v => Sys2Proof.Machine.execUnlockDebug v s
  | .pmuClear v => Sys2Proof.Machine.execPmuClear v s
  | .pmuEvtWrite tile k v => Sys2Proof.Machine.execPmuEvtWrite tile k v s
  | .thresholdEvent n value => Sys2Proof.Machine.execThresholdEvent n value s
  | .pmuThrAck hi v => Sys2Proof.Machine.execPmuThrAck hi v s
  | .preciseSample tile latency ctu => Sys2Proof.Machine.execPreciseSample tile latency ctu s
  | .sampleHeadWrite v => Sys2Proof.Machine.execSampleHeadWrite v s
  | .bwWindowBoundary totals => Sys2Proof.Machine.execBwWindowBoundary totals s
  | .i2cStatus => Sys2Proof.Machine.execI2cStatus s
  | .i2cTemp => Sys2Proof.Machine.execI2cTemp s
  | .i2cVolts => Sys2Proof.Machine.execI2cVolts s
  | .i2cSerial => Sys2Proof.Machine.execI2cSerial s
  | .i2cTimebase => Sys2Proof.Machine.execI2cTimebase s
  | .resetRelease => Sys2Proof.Machine.execResetRelease s
  | .deadlinePass ses a => Sys2Proof.Machine.execDeadlinePass ses a s
  | .coreReloadDone => Sys2Proof.Machine.execCoreReloadDone s
  | .secCommandDone blob nonce => Sys2Proof.Machine.execSecCommandDone blob nonce s
  | .stackWakeDone stack => Sys2Proof.Machine.execStackWakeDone stack s
  | .lineFrameError p e => Sys2Proof.Machine.execLineFrameError p e s
  | .pcieLinkUp speed width flit => Sys2Proof.Machine.execPcieLinkUp speed width flit s

end Sys2Proof.Machine
end

