-- ==== Sys2Proof/Safety.lean ====
section
/-!
DEFINITION. What the statements call a sound state: HBM contents in canonical form. And the shape of a statement that a
command completes: it answers a next state of which something holds.
-/
namespace Sys2Proof.Machine

/-- HBM data and side symbols are in canonical form: addresses strictly rising, no byte equal to what an unlisted one
reads as. -/
def State.hbmForm (s : State) : Bool := Memory.wf s.mem && Memory.wf s.side

/-- Command `c` in state `s` answers a next state, of which `P` holds. -/
def Answers (c : Instr) (s : State) (P : State → Prop) : Prop := ∃ t, exec c s = .next t ∧ P t

/-- Every plain register and counter but those at `offs` reads as before. -/
def RegsKept (s t : State) (offs : List Nat) : Prop := ∀ o, o ∉ offs → t.reg o = s.reg o

/-- Every session but those that `p` holds of is as before. -/
def OtherSessions (s t : State) (p : Nat → Prop) : Prop := ∀ m, ¬ p m → t.ses m = s.ses m

/-- Every tile but those that `p` holds of is as before. -/
def OtherTiles (s t : State) (p : Nat → Prop) : Prop := ∀ m, ¬ p m → t.tile m = s.tile m

/-- Function `fn` reaches session `k` as its record or alias `n` (R333): BAR0 answers, and a VF is in no FLR (R335). -/
def Reaches (s : State) (fn n k : Nat) : Prop :=
  s.live = true ∧ (fn = 0 ∨ s.hif.flr.contains fn = false) ∧ s.sesOf fn n = some k

/-- The device is in a mode in which sessions take every command that their state admits (Table 3.4). -/
def Serving (s : State) : Prop := s.mode = .woven ∨ s.mode = .running ∨ s.mode = .press

/-- The commands whose effect can reach HBM contents: line requests, scrub reads, DMA, the pages of coded units and the windows of
decoded pictures (COMMIT, the host delivery and the packet read that verify pages), BAR0 writes that stand for these, what resumes
deferred work, and every reset but the warm one. -/
def mayWriteHbm : Instr → Bool
  | .registerWrite .. | .counterClear .. | .ignoredCountClear .. | .memRequest .. | .scrubRead ..
  | .dmaTailWrite .. | .descriptorStart .. | .descriptorWriteback .. | .dmaAbort .. | .dmaEnable ..
  | .domainSleepWrite .. | .powerOnReset | .perst | .cold ..
  | .commit .. | .hostUnitDelivery .. | .packetSelect ..
  | .wake | .wakeNEdge | .wakeTimer | .supplyExcursion .. => true
  | _ => false

/-- The loader ends with reject code `code` (R44, R428): PAT_STATUS alone changes, and the done event is posted. -/
def LoadEnds (s t : State) (code : Nat) : Prop :=
  t = { s with
    ldr := { s.ldr with busy := false, phase := 0, pressing := 0, reject := code, image := [] }
    hif := t.hif, outbox := t.outbox }

/-- The session commands with their codes in SES_CMD (Table 3.3). -/
def sessionCommands : List (Nat × (Nat → Nat → BitVec 24 → Instr)) :=
  [(1, .openSession), (2, .configure), (3, .start), (4, .pause), (5, .resume), (6, .drain), (7, .close), (8, .migrateOut),
   (9, .migrateIn), (10, .invalidateRef), (11, .forceRecovery)]

/-- The states in which Table 3.3 shows an entry for a command. -/
def tableStates (cmd : Nat) : List Ses :=
  if cmd = 1 ∨ cmd = 9 then [.closed]
  else if cmd = 2 then [.opened, .ready, .running, .paused]
  else if cmd = 3 then [.ready]
  else if cmd = 4 then [.running]
  else if cmd = 5 then [.paused]
  else if cmd = 7 then [.opened, .ready, .paused]
  else [.running, .paused]

/-- What an ignored write leaves in session `k`'s record (R10): the count one higher, saturating, and the offset, the value, the
state and the reason. -/
def refusal (x : Session) (off : Nat) (v : Word) (reason : Nat) : Session :=
  { x with ignored := min 0xFFFF (x.ignored + 1), ignOff := BitVec.ofNat 32 off, ignVal := v
           ignWhy := mkWord [(0, x.st.code), (4, reason)] }

/-- Class `k` is not configured to become fatal (R266, R269): its base and its top level lie below 4. -/
def NotFatal (s : State) (k : Nat) : Prop := fld (s.fltCfg k) 2 0 < 4 ∧ fld (s.fltCfg k) 5 3 < 4

/-- No session has a picture that waits to be admitted: nothing is looked at again when pages, slots or entries come free (R78). -/
def NoneWaits (s : State) : Prop := ∀ e ∈ s.sessions, e.2.waits = false

/-- A frame arrives in order at clothesline port `p` of a device that answers, with hops left (R357). -/
def InOrder (s : State) (p : Nat) (h : LineHdr) : Prop :=
  s.live = true ∧ (s.lport p).up = true ∧ h.seq = (s.lport p).rxSeq ∧ h.hops < 255

/-- Only the clothesline, the host port, plain counters and what is sent may differ. -/
def LineOnly (s t : State) : Prop := t = { s with lin := t.lin, hif := t.hif, regs := t.regs, outbox := t.outbox }

end Sys2Proof.Machine
end

