-- ==== Sys2Proof/Certificates/Slice0/Obligations.lean ====
section
/-!
DEFINITION. The statements for the provers, by family of commands: what a command changes, what it leaves alone, where it
completes. Each names the rules of spec/ that it rests on; a clause that rests on a choice of the model names the log entry.
-/
open Sys2Proof Sys2Proof.Machine

/-- A step takes the command at the front of the queue and runs it on the state with the queue's rest (R9, R340). With no command
waiting a step changes nothing: the model's choice (log 8). -/
def Obligations.StepTakesTheFrontCommand : Prop :=
  (∀ (s : State) (c : Instr) (rest : List Instr), s.pending = c :: rest → step s = exec c { s with pending := rest }) ∧
  (∀ s : State, s.pending = [] → step s = .next s)

/-- Every step keeps HBM data and side symbols in canonical form. -/
def Obligations.StepKeepsHbmForm : Prop :=
  ∀ s t : State, s.hbmForm = true → step s = .next t → t.hbmForm = true

/-- The reset state's HBM contents are in canonical form. -/
def Obligations.ResetHbmForm : Prop :=
  State.reset.hbmForm = true

/-- Every command completes in every state (R9: an illegal one raises no fault); it leaves the queue, the part and its serial
number as they are, and so does it with the canonical form of HBM contents. -/
def Obligations.CommandsKeepQueueAndPart : Prop :=
  ∀ (c : Instr) (s : State), Answers c s fun t =>
    t.pending = s.pending ∧ t.a144 = s.a144 ∧ t.serial = s.serial ∧ (s.hbmForm = true → t.hbmForm = true)

/-- HBM contents change only by line requests, scrub reads, DMA, coded pages and decoded windows (COMMIT, HOST_UNIT_DELIVERY and
PACKET_SELECT write or verify them), BAR0 writes and the resets that lose them: every other command, the warm reset among them
(Table 19.2), leaves every byte and every side symbol as it was. The timebase moves at its tick
alone and restarts at a power-on reset, which a supply below its threshold is (R374, R381, R417): every other command leaves
it. -/
def Obligations.ContentsAndTimeKept : Prop :=
  (∀ (c : Instr) (s t : State), mayWriteHbm c = false → exec c s = .next t →
     (∀ a, t.byte a = s.byte a) ∧ ∀ line i, t.sideAt line i = s.sideAt line i) ∧
  (∀ (c : Instr) (s t : State), c ≠ .timebaseTick → c ≠ .powerOnReset → (∀ r mv us, c ≠ .supplyExcursion r mv us) →
     exec c s = .next t → t.now = s.now)

/-- The registers that read their reset values after a power-on reset, and what it keeps: OTP and the part (R374, Table 19.2); the
device holds itself in reset, in STANDBY mode, every session CLOSED, nothing waiting to be sent but what was. Resets (R335,
R374, Table 19.2): a cold one, PERST# and the warm one, which a PF's FLR is, lose sessions, pattern and registers and keep the
timebase, OTP and the latches of the always-on domain; the warm one keeps HBM contents, the copies of firmware and patches and
the link besides, and its end returns to service. -/
def Obligations.Resets : Prop :=
  (∀ s : State, Answers .powerOnReset s fun t =>
     t.now = 0 ∧ t.mode = .standby ∧ t.pwr.life = .held ∧ (∀ off, t.reg off = resetOf off) ∧ (∀ n, (t.ses n).st = .closed) ∧
     t.pat = {} ∧ t.ldr = {} ∧ t.tiles = [] ∧ t.chans = [] ∧ t.cvus = [] ∧ t.arbs = [] ∧ t.hbm = [] ∧ t.subs = [] ∧ t.eths = [] ∧
     t.lin = {} ∧ t.lnt = {} ∧ t.pmu = {} ∧ t.hif = {} ∧ t.flt = {} ∧ t.sec.keys = [] ∧
     t.sec.counter = s.sec.counter ∧ t.sec.vk = s.sec.vk ∧ t.sec.vkKey = s.sec.vkKey ∧ t.sec.revoked = s.sec.revoked ∧
     t.sec.otk = s.sec.otk ∧ t.sec.otkKey = s.sec.otkKey ∧ t.sec.patchKey = s.sec.patchKey ∧ t.outbox = s.outbox) ∧
  (∀ (s : State) (v : Word),
     let kept (t : State) : Prop :=
       t.now = s.now ∧ t.pat = {} ∧ t.mode = .standby ∧ (∀ n, (t.ses n).st = .closed) ∧ (∀ off, t.reg off = resetOf off) ∧
         t.tiles = [] ∧ t.chans = [] ∧ t.subs = [] ∧ t.lin = {} ∧ t.pmu = {} ∧ t.flt.aon = s.flt.aon ∧ t.flt.status = 0 ∧
         t.sec.keys = [] ∧ t.sec.counter = s.sec.counter ∧ t.sec.vk = s.sec.vk ∧ t.sec.revoked = s.sec.revoked ∧
         t.sec.otk = s.sec.otk ∧ t.sec.otkKey = s.sec.otkKey ∧ t.sec.patchKey = s.sec.patchKey ∧ t.outbox = s.outbox ∧
         t.pwr.frac = s.pwr.frac
     let warm (t : State) : Prop := kept t ∧ t.pwr.life = .warm ∧ t.pwr.lastReset = 2 ∧ t.mem = s.mem ∧ t.side = s.side ∧
       t.hif.link = s.hif.link ∧ t.sec.patch = s.sec.patch ∧ t.sec.svn = s.sec.svn
     (s.live = true →
       (Answers (.cold v) s fun t => kept t ∧ t.pwr.life = .boot ∧ t.pwr.lastReset = 1 ∧ t.mem = [] ∧ t.hbm = []) ∧
       (Answers (.warm v) s warm) ∧ (Answers .pfFlr s warm)) ∧
     (s.pwr.life ≠ .held → Answers .perst s fun t => kept t ∧ t.pwr.life = .held ∧ t.pwr.lastReset = 1 ∧ t.mem = []) ∧
     (s.pwr.life = .held → exec .perst s = .next s) ∧
     (s.pwr.life = .warm → exec .warmResetDone s = .next { s with
       pwr := { s.pwr with life := .up }, flt := { s.flt with status := s.flt.status ||| BitVec.ofNat 64 s.flt.aon } }) ∧
     (s.pwr.life ≠ .warm → exec .warmResetDone s = .next s))

/-- A word written to a plain register takes its defined bits, reserved bits stay zero (R12), and nothing else changes:
CTL_SCRATCH, SCH_CTL, SCH_SEL, HMP_LOW; an 8-byte write reaches PWR_WAKE_LO and then PWR_WAKE_HI (R337). A write that reaches
no writable register is ignored, counted and recorded (R9, R10, R426): of the CTL block, of a tile window that the part lacks
(R2, R410: at CTL, with the full offset), of a VF's own window; one below 4 bytes or poisoned likewise (R330, R337). The words
of a last-ignored record take no write and count none (R426). -/
def Obligations.RegisterWrites : Prop :=
  (∀ (s : State) (v w : Word), s.live = true →
     (Answers (.registerWrite 0 0x14 (.words [v])) s fun t =>
       t = { s with regs := t.regs } ∧ t.reg 0x14 = v ∧ RegsKept s t [0x14]) ∧
     (Answers (.registerWrite 0 0x20000 (.words [v])) s fun t =>
       t = { s with regs := t.regs } ∧ t.reg 0x20000 = v &&& 1 ∧ RegsKept s t [0x20000]) ∧
     (Answers (.registerWrite 0 0x2000C (.words [v])) s fun t =>
       t = { s with regs := t.regs } ∧ t.reg 0x2000C = v &&& 0xFFF ∧ RegsKept s t [0x2000C]) ∧
     (Answers (.registerWrite 0 0xB000C (.words [v])) s fun t =>
       t = { s with regs := t.regs } ∧ t.reg 0xB000C = v &&& 0x7FFFF ∧ RegsKept s t [0xB000C]) ∧
     (Answers (.registerWrite 0 0x70008 (.words [v, w])) s fun t =>
       t = { s with regs := t.regs } ∧ t.reg 0x70008 = v ∧ t.reg 0x7000C = w ∧ RegsKept s t [0x70008, 0x7000C])) ∧
  (∀ (s : State) (off fn : Nat) (v : Word), s.live = true → off % 4 = 0 →
     (∀ d, (off < 0x10000 ∧ off ≠ 0x14 ∧ ¬ (0x30 ≤ off ∧ off < 0x40) ∧ d = WData.words [v]) ∨
         (0x200000 + 0x8000 * s.nTiles ≤ off ∧ off < 0x400000 ∧ d = .words [v]) ∨
         (off < 0x10000 ∧ ¬ (0x34 ≤ off ∧ off < 0x40) ∧ (d = .short v ∨ d = .poisoned v)) →
       Answers (.registerWrite 0 off d) s fun t =>
         t = { s with regs := t.regs } ∧ (t.reg 0x30).toNat = min 0xFFFF ((s.reg 0x30).toNat + 1) ∧
         t.reg 0x34 = BitVec.ofNat 32 off ∧ t.reg 0x38 = v ∧ t.reg 0x3C = s.ignMode ∧
         RegsKept s t [0x30, 0x34, 0x38, 0x3C]) ∧
     (1 ≤ fn → fn < 64 → s.hif.flr.contains fn = false → 0x3000 ≤ off → off < 0x10000 →
       Answers (.registerWrite fn off (.words [v])) s fun t =>
         t = { s with regs := t.regs } ∧
         (t.reg (fn * 2 ^ 24 + 0x30)).toNat = min 0xFFFF ((s.reg (fn * 2 ^ 24 + 0x30)).toNat + 1) ∧
         t.reg (fn * 2 ^ 24 + 0x34) = BitVec.ofNat 32 off ∧ t.reg (fn * 2 ^ 24 + 0x38) = v ∧
         t.reg (fn * 2 ^ 24 + 0x3C) = s.ignMode) ∧
     (0x34 ≤ off → off < 0x40 → exec (.registerWrite 0 off (.words [v])) s = .next s))

/-- A write of any value to an ignore count clears it and is never itself ignored (R10): of a PF window that the part has, of a
session record, of a VF. A write of any value to a saturating event counter clears it and nothing else: those of SCH (R90),
HMP (R172), DEP (R261) and of the windows of a tile that the part has and whose quadrant runs (R289, R328). -/
def Obligations.CounterClears : Prop :=
  (∀ (s : State) (v : Word), s.live = true →
     (∀ off, off < 0x400000 → (ignWindow off).1 = off → s.present off = true →
       Answers (.ignoredCountClear 0 off v) s fun t =>
         t = { s with regs := t.regs } ∧ t.reg off = 0 ∧ RegsKept s t [off]) ∧
     (∀ n, n < 4096 →
       exec (.ignoredCountClear 0 (0x400000 + 0x400 * n + 0x18) v) s =
         .next (s.setSes n { s.ses n with ignored := 0 })) ∧
     (∀ fn, 1 ≤ fn → fn < 64 → s.hif.flr.contains fn = false →
       Answers (.ignoredCountClear fn 0x30 v) s fun t =>
         t = { s with regs := t.regs } ∧ t.reg (fn * 2 ^ 24 + 0x30) = 0 ∧ RegsKept s t [fn * 2 ^ 24 + 0x30])) ∧
  (∀ (s : State) (v : Word), s.live = true →
     (∀ off ∈ [0x20018, 0x2001C, 0x20020, 0x20024, 0xB0010, 0xB0014, 0xB0018, 0xF0010, 0xF0014, 0xF0018, 0xF001C, 0xF0020,
         0xF0024, 0xF0028, 0xF002C],
       Answers (.counterClear 0 off v) s fun t => t = { s with regs := t.regs } ∧ t.reg off = 0 ∧ RegsKept s t [off]) ∧
     (∀ tile, tile < s.nTiles → (s.quad (quadOf tile)).pll = true → ∀ o ∈ [0x108, 0x10C, 0x2010, 0x2014, 0x2018],
       Answers (.counterClear 0 (0x200000 + 0x8000 * tile + o) v) s fun t =>
         t = { s with regs := t.regs } ∧ t.reg (0x200000 + 0x8000 * tile + o) = 0 ∧
         RegsKept s t [0x200000 + 0x8000 * tile + o]))

/-- Each tick adds 50 st and PWR_TB_ADJ × 2^-32 st with the carried fraction, then a STEP that waits, then one stitch of SLEW at
every 64th tick (R381). The writes of the timebase servo and the pulse pins (R381, R382): ADJ within ±107,374,182 sets it and
beyond it is ignored; SLEW sets the remainder; STEP_HI arms a step with the LO word unless a session is RUNNING, which ignores
it; PPS_IN latches the time; a pulse that is due goes out, and the output is high from then on. -/
def Obligations.Timebase : Prop :=
  (∀ (s : State), s.pwr.life ≠ .held →
     let sum : Int := 50 * 2 ^ 32 + s.pwr.adj.toInt + s.pwr.frac
     let at_ : Int := s.now + sum / 2 ^ 32
     let stepped : Int := match s.pwr.step with
       | some d => at_ + d
       | none => at_
     Answers .timebaseTick s fun t =>
       (t.pwr.frac : Int) = sum % 2 ^ 32 ∧ t.pwr.step = none ∧
       (s.pwr.slew = 0 → (t.now : Int) = stepped % 2 ^ 64 ∧ t.pwr.slew = 0) ∧
       (s.pwr.slew ≠ 0 → s.pwr.slewTicks < 63 →
         (t.now : Int) = stepped % 2 ^ 64 ∧ t.pwr.slew = s.pwr.slew ∧ t.pwr.slewTicks = s.pwr.slewTicks + 1) ∧
       (s.pwr.slew ≠ 0 → s.pwr.slewTicks = 63 →
         (t.now : Int) = (stepped + s.pwr.slew.sign) % 2 ^ 64 ∧ t.pwr.slew = s.pwr.slew - s.pwr.slew.sign ∧ t.pwr.slewTicks = 0) ∧
       t.sessions = s.sessions ∧ t.tiles = s.tiles ∧ t.mem = s.mem ∧ t.side = s.side) ∧
  (∀ (s : State) (v : Word), s.live = true →
     (-107374182 ≤ v.toInt → v.toInt ≤ 107374182 →
       exec (.tbAdjWrite v) s = .next { s with pwr := { s.pwr with adj := v } }) ∧
     (v.toInt < -107374182 ∨ 107374182 < v.toInt → exec (.tbAdjWrite v) s = .next (s.ignored 0x70088 v)) ∧
     (exec (.tbSlewWrite v) s = .next { s with pwr := { s.pwr with slew := v.toInt, slewTicks := 0 } }) ∧
     (s.readWord 0x7008C = BitVec.ofInt 32 s.pwr.slew) ∧
     (s.anyRunning = true → exec (.tbStepWrite v) s = .next (s.ignored 0x70094 v)) ∧
     (s.anyRunning = false →
       exec (.tbStepWrite v) s = .next { s with pwr := { s.pwr with step := some (v ++ s.pwr.stepLo).toInt } }) ∧
     (exec .ppsInEdge s = .next { s with pwr := { s.pwr with ppsIn := s.now } }) ∧
     (s.pwr.ppsDue = true →
       exec .ppsOutPulse s = .next { s with
         pwr := { s.pwr with ppsDue := false, ppsRise := some s.now }, outbox := s.outbox ++ [.pps s.now] }))

/-- Rebasing a line's label to a new address and generation without reading the data gives the label that the line has there (R22,
R23, R24). -/
def Obligations.RebaseGivesTheNewLabel : Prop :=
  ∀ (data : List Byte) (oldAddr oldGen newAddr newGen : Nat), data.length = 64 →
    rebase (careLabel data (foldWord oldAddr oldGen)) (foldWord oldAddr oldGen) (foldWord newAddr newGen) =
      careLabel data (foldWord newAddr newGen)

/-- PAT_CMD starts a load, a press or a clear where Table 2.9 allows it, with PAT_STATUS busy at phase 1, or 6 for CLEAR (R41,
R48, R52, R428); an illegal PAT_LEN ends a load with code 0x02 before any fetch (R427); elsewhere the write is ignored and
counted. How a load or press ends without taking effect, the pattern and every tile as they were: ABORT in phases 1 to 4 with
code 0x11 (R52), a failed fetch with 0x12, a trailer without its form with 0x01 (log 110), a key slot that may not sign patterns
with 0x04 and a signature that does not verify under that slot's key with 0x03 (R33, R385, R427), a failed validation with the
first failing code (R427), a press that finds no quiet instant within PAT_PRESS_LIMIT with 0x0F (R50). An image that passes
these starts the validation. -/
def Obligations.LoaderStartsAndRejects : Prop :=
  (∀ s : State, s.live = true →
     let idle := s.ldr.busy = false ∧ s.pwr.standbyPend = false
     let full := (s.mode = .primed ∨ s.mode = .woven) ∧ s.allClosed = true ∧ idle ∧ s.anyProvisional = false
     let piece := (s.mode = .woven ∨ s.mode = .running) ∧ idle
     let clear := s.mode = .woven ∧ s.allClosed = true ∧ idle
     let len := (s.reg 0x1000C).toNat
     let legal := 256 ≤ len ∧ len ≤ 67108864
     (full → legal → exec .loadFull s =
       .next { s with ldr := { s.ldr with busy := true, phase := 1, piece := false, clearing := false, image := [] } }) ∧
     (piece → legal → exec .loadPiece s =
       .next { s with ldr := { s.ldr with busy := true, phase := 1, piece := true, clearing := false, image := [] } }) ∧
     (clear → exec .clearPattern s =
       .next { s with ldr := { s.ldr with busy := true, phase := 6, clearing := true, piece := false } }) ∧
     (full → ¬ legal → Answers .loadFull s fun t => LoadEnds s t 2) ∧
     (piece → ¬ legal → Answers .loadPiece s fun t => LoadEnds s t 2) ∧
     (¬ full → exec .loadFull s = .next (s.ignored 0x10000 1)) ∧
     (¬ piece → exec .loadPiece s = .next (s.ignored 0x10000 2)) ∧
     (¬ clear → exec .clearPattern s = .next (s.ignored 0x10000 4))) ∧
  (∀ s : State, s.ldr.busy = true →
     (s.live = true → s.ldr.phase ≠ 5 → s.ldr.phase ≠ 6 → Answers .abortLoad s fun t => LoadEnds s t 0x11) ∧
     (s.ldr.phase = 1 → s.sec.reloading = false →
       (Answers (.fetchDone .failed) s fun t => LoadEnds s t 0x12) ∧
       ∀ im, im.length = (s.reg 0x1000C).toNat →
         let slotOk := s.sec.verifies (trailerSlot im) 1
         (trailerForm im = false → Answers (.fetchDone (.fetched im)) s fun t => LoadEnds s t 1) ∧
         (trailerForm im = true → slotOk = false → Answers (.fetchDone (.fetched im)) s fun t => LoadEnds s t 4) ∧
         (trailerForm im = true → slotOk = true → s.sec.signed im = false →
           Answers (.fetchDone (.fetched im)) s fun t => LoadEnds s t 3) ∧
         (trailerForm im = true → slotOk = true → s.sec.signed im = true →
           exec (.fetchDone (.fetched im)) s = .next { s with ldr := { s.ldr with phase := 3, image := im } })) ∧
     (s.ldr.phase = 3 → s.sec.reloading = false →
       ∀ code, s.checkImage s.ldr.piece (s.reg 0x1000C).toNat s.ldr.image = some code →
         Answers .validationDone s fun t => LoadEnds s t code) ∧
     (s.ldr.phase = 4 → s.ldr.drainAt + (s.reg 0x10018).toNat ≤ s.now → Answers .pressTimeout s fun t => LoadEnds s t 0x0F))

/-- VALIDATION_DONE of an image that passes every check: a full load replaces the structure but for PAT_SERIAL, the roles shown
and the modes of the ports, which step 6 sets, and starts or stops each quadrant's PLL at its cap (Table 2.6 step 4); a piece
starts the drain of its panels and changes neither pattern nor clocks (Table 2.8 step 3). STORE_LOAD_DONE: a full load takes
effect with reject 0 (Table 2.6 steps 5 to 7), or with a failed store check of a tile in use no pattern is in force, every tile is
off and the code is 0x10 (R43). CLEAR_DONE: the fabric is powered down, no pattern is in force and PAT_STATUS is idle (R52);
retired tiles stay retired. -/
def Obligations.LoadsTakeEffect : Prop :=
  (∀ s : State, s.ldr.busy = true → s.ldr.phase = 3 → s.sec.reloading = false →
     s.checkImage s.ldr.piece (s.reg 0x1000C).toNat s.ldr.image = none →
     Answers .validationDone s fun t =>
       let pt := s.imagePattern s.ldr.image
       t.ldr.next = pt ∧ t.ldr.busy = true ∧ t.sessions = s.sessions ∧ t.mem = s.mem ∧ t.regs = s.regs ∧ t.sec = s.sec ∧
       (s.ldr.piece = false →
         t.ldr.phase = 6 ∧
           t.pat = { pt with serial := s.pat.serial, roles := s.pat.roles, lane := s.pat.lane, lines := s.pat.lines } ∧
         ∀ q, q < s.nQuads →
           (tget 0 pt.caps q = 0 → (t.quad q).pll = false ∧ (t.quad q).mhz = 0) ∧
           (tget 0 pt.caps q ≠ 0 → (t.quad q).pll = true ∧ (t.quad q).mhz = tget 0 pt.caps q * 100)) ∧
       (s.ldr.piece = true →
         t.ldr.phase = 4 ∧ t.ldr.pressing = imgMask s.ldr.image ∧ t.ldr.drainAt = s.now ∧ t.pat = s.pat ∧ t.pwr = s.pwr)) ∧
  (∀ (s : State) (fails : List Nat), s.ldr.busy = true → s.ldr.phase = 6 → s.ldr.clearing = false → s.ldr.piece = false →
     let bad := fails.any fun t => fld (tget 0 s.ldr.next.roles t) 6 4 != 0 && (s.tile t).role != .retired
     Answers (.storeLoadDone fails) s fun t =>
       t.ldr.busy = false ∧ t.ldr.phase = 0 ∧ t.mem = s.mem ∧ t.now = s.now ∧
       (bad = false → t.pat = s.ldr.next ∧ t.ldr.reject = 0 ∧ t.ldr.kept = [s.ldr.image]) ∧
       (bad = true → t.pat = {} ∧ t.ldr.reject = 0x10 ∧ t.sessions = s.sessions ∧
         (∀ k, k < s.nTiles → (t.tile k).power = .off ∧ (t.tile k).store = [] ∧ (t.tile k).work = none) ∧
         ∀ q, q < s.nQuads → (t.quad q).pll = false)) ∧
  (∀ s : State, s.ldr.busy = true → s.ldr.clearing = true →
     Answers .clearDone s fun t =>
       t.pat = {} ∧ t.ldr = { s.ldr with busy := false, phase := 0, clearing := false, kept := [] } ∧
       t.sessions = s.sessions ∧ t.regs = s.regs ∧ t.hbm = s.hbm ∧ t.mem = s.mem ∧ t.hif = s.hif ∧ t.flt = s.flt ∧
       (∀ k, k < s.nTiles → (t.tile k).power = .off ∧ (t.tile k).store = [] ∧ (t.tile k).patch = [] ∧
         ((s.tile k).role ≠ .retired → (t.tile k).role = .unused) ∧ ((s.tile k).role = .retired → (t.tile k).role = .retired)) ∧
       (∀ q, q < s.nQuads → (t.quad q).pll = false) ∧
       (s.live = true → s.pwr.safe = false → s.ldr.pressing = 0 → t.mode = .primed))

/-- The quiet window of a press (R48): it opens at an instant with no picture in flight, the governed tiles take the roles of the
new tile set and no other tile changes; closed without a failed store check, the piece takes effect with reject 0; with one,
the pattern stays and the code is 0x10 (R50). -/
def Obligations.QuietWindow : Prop :=
  ∀ s : State, s.ldr.busy = true →
    (s.ldr.phase = 4 → s.panelsBusy s.ldr.pressing = false →
      Answers .quietWindowOpen s fun t =>
        t.ldr.phase = 5 ∧ t.ldr.busy = true ∧ t.ldr.next = s.ldr.next ∧ t.pat = s.pat ∧ t.sessions = s.sessions ∧ t.regs = s.regs ∧
        (∀ k, k < s.nTiles → governed (tget 0 s.pat.roles k) s.ldr.pressing = true →
          (s.tile k).role ≠ .retired → (s.tile k).role ≠ .selfTest →
          (t.tile k).role = (roleOf (tget 0 s.ldr.next.roles k)).1) ∧
        OtherTiles s t fun k => k < s.nTiles ∧ governed (tget 0 s.pat.roles k) s.ldr.pressing = true) ∧
    (s.ldr.phase = 5 → ∀ fails : List Nat,
      let bad := fails.any fun t => inMask (tget 0 s.ldr.next.roles t) s.ldr.pressing
      Answers (.quietWindowClose fails) s fun t =>
        t.ldr.busy = false ∧ t.ldr.phase = 0 ∧ t.ldr.pressing = 0 ∧ t.mem = s.mem ∧ t.now = s.now ∧
        (bad = false → t.pat = s.ldr.next ∧ t.ldr.reject = 0) ∧
        (bad = true → t.pat = s.pat ∧ t.ldr.reject = 0x10 ∧ t.sessions = s.sessions ∧ t.regs = s.regs))

/-- A session command that R57 and R429 refuse changes the ignore record of its session alone: count, offset, value, state and
reason (R9, R10, R56). Table 3.3 and the mode rule of Table 3.4: a command in a state without an entry is refused with reason
0, and every command of a session in STANDBY or PRIMED, and in SAFE every one but CLOSE, with reason 6; no other session
changes. -/
def Obligations.SessionCommandsBarred : Prop :=
  (∀ (s : State) (fn n k : Nat) (arg : BitVec 24) (reason : Nat),
     ∀ p ∈ sessionCommands, Reaches s fn n k → s.cmdReason k p.1 arg.toNat = some reason →
       exec (p.2 fn n arg) s = .next (s.setSes k (refusal (s.ses k) 0 (cmdWord p.1 arg) reason))) ∧
  (∀ (s : State) (fn n k : Nat) (arg : BitVec 24),
     ∀ p ∈ sessionCommands, Reaches s fn n k →
       (Serving s → s.pwr.standbyPend = false → (s.ses k).st ∉ tableStates p.1 →
         exec (p.2 fn n arg) s = .next (s.setSes k (refusal (s.ses k) 0 (cmdWord p.1 arg) 0))) ∧
       (s.mode = .standby ∨ s.mode = .primed ∨ (s.mode = .safe ∧ p.1 ≠ 7) →
         exec (p.2 fn n arg) s = .next (s.setSes k (refusal (s.ses k) 0 (cmdWord p.1 arg) 6))))

/-- OPEN completes in CLOSED, in WOVEN, RUNNING and PRESS with no STANDBY pending, with arg 0, where the panel has tiles, the
class and the VF's permission, fewer sessions than max_ses, and the group rules hold (R57, R64, R334, R429, Tables 3.3, 3.4): it
binds the record to its panel and class with nothing staged lost, nothing in force and FOLD_GEN's first publication (R59, R73); a
LIVE session's spares are warm from then on (R377). MIGRATE_IN completes likewise, with the class of the source where this device
holds it: it arms the record as the destination that SES_MIGRATE names (R70). CONFIGURE completes in OPEN, READY, RUNNING and
PAUSED with arg 0 where every test of R429 passes: it makes the staging area the pending set and raises SES_CFG_SEQ; with nothing
in flight the set takes force at once, a reversion that waits after it with one more SES_CFG_SEQ (R63), and an OPEN session
becomes READY, with the reference buffers of a DECODE session allocated (R59, R60, R61, R187). -/
def Obligations.OpenAndConfigure : Prop :=
  (∀ (s : State) (fn n k : Nat), Reaches s fn n k → Serving s → s.pwr.standbyPend = false → (s.ses k).st = .closed →
     s.openOn (s.ses k).panel < (s.panel (s.ses k).panel).maxSes →
     (s.panelBars k (s.ses k).panel (s.ses k).cls = false → s.openGroupOk k = true → Answers (.openSession fn n 0) s fun t =>
       (t.ses k).st = .opened ∧ (t.ses k).force = none ∧ (t.ses k).pend = none ∧ (t.ses k).pics = [] ∧ (t.ses k).cfgSeq = 0 ∧
       (t.ses k).foldGen = 1 ∧ (t.ses k).staged = (s.ses k).staged ∧ (t.ses k).cls = (s.ses k).cls ∧
       (t.ses k).panel = (s.ses k).panel ∧ (t.ses k).group = (s.ses k).group ∧ (t.ses k).level = (s.ses k).level ∧
       ((s.ses k).outq = [] → (s.ses k).pics = [] → OtherSessions s t (· = k) ∧ t.pat = s.pat ∧ t.sec = s.sec ∧ t.hif = s.hif ∧
         t.regs = s.regs ∧ OtherTiles s t (fun m => (s.ses k).cls = clsLive ∧ m ∈ s.spares (s.ses k).panel) ∧
         ((s.ses k).cls = clsLive → ∀ m ∈ s.spares (s.ses k).panel, (t.tile m).power ≠ .off))) ∧
     (s.panelBars k (s.ses k).panel (s.migClass k) = false → s.migGroupOk k = true → Answers (.migrateIn fn n 0) s fun t =>
       (t.ses k).st = .migrating ∧ (t.ses k).foldGen = 1 ∧ (t.ses k).staged = (s.ses k).staged ∧
       (t.ses k).panel = (s.ses k).panel ∧
       (t.ses k).mig = some { out := false, peer := fld (s.ses k).migrate 17 0, peerSes := fld (s.ses k).migrate 29 18
                              started := s.now } ∧
       ((s.ses k).outq = [] → (s.ses k).pics = [] → t = { s with sessions := t.sessions } ∧ OtherSessions s t (· = k)))) ∧
  (∀ (s : State) (fn n k : Nat), Reaches s fn n k → Serving s →
     let x := s.ses k
     let idle := x.st = .opened ∨ x.st = .ready
     let c := x.effective
     let pan := s.panelFor x.panel
     idle ∨ x.st = .running ∨ x.st = .paused →
     (idle ∨ (sameRings c x.cfg = true ∧ (x.cls = clsDecode → sameDecode c x.cfg = true))) →
     (x.cls = clsDecode → ∀ test ∈ s.decTests (s.owner k) c pan, test.1 = true) →
     (x.cls ≠ clsDecode → ∀ test ∈ encTests x.cls c pan ++ rcTests c ++ meTests c ++ s.outTests c pan ++
       s.ringTests (s.owner k) c x.lower ++ s.joinTests k x c pan, test.1 = true) →
     s.groupOk k c = true →
     Answers (.configure fn n 0) s fun t =>
       (t.ses k).staged = x.staged ∧ (t.ses k).pics = x.pics ∧ (t.ses k).level = x.level ∧
       (x.st = .opened → (t.ses k).st = .ready) ∧ (x.st ≠ .opened → (t.ses k).st = x.st) ∧
       (x.st = .running ∨ (x.st = .paused ∧ x.pics ≠ []) →
         (t.ses k).pend = some c ∧ (t.ses k).force = x.force ∧ (t.ses k).cfgSeq = x.cfgSeq + 1 ∧ (t.ses k).revert = x.revert) ∧
       (idle ∨ (x.st = .paused ∧ x.pics = []) → (t.ses k).pend = none ∧ (t.ses k).revert = false ∧
         (x.revert = false → (t.ses k).force = some c ∧ (t.ses k).cfgSeq = x.cfgSeq + 1) ∧
         (x.revert = true → (t.ses k).force = some (revertCfg c x.cls x.lower) ∧ (t.ses k).cfgSeq = x.cfgSeq + 1 + 1)) ∧
       (x.st = .opened → x.cls = clsDecode → x.revert = false → (t.ses k).dec.buffers = fld (cget c 0x320) 12 8 + 1) ∧
       OtherSessions s t (· = k) ∧ t.tiles = s.tiles ∧ t.pat = s.pat ∧ t.regs = s.regs ∧ t.hif = s.hif ∧ t.outbox = s.outbox)

/-- START, PAUSE and RESUME (R59): the state, the stream's fresh numbers and references at START, one publication of the fold each
(R72), the configuration kept; no other session, tile or pattern changes. Every accepted command that changes a session's
state publishes the fold: the generation rises by one and stands at both ends of the fold area and in ME_STAT's copy (R72,
R132). -/
def Obligations.RunPauseResume : Prop :=
  (∀ (s : State) (fn n k : Nat), Reaches s fn n k → Serving s →
     ((s.ses k).st = .ready → Answers (.start fn n 0) s fun t =>
       (t.ses k).st = .running ∧ (t.ses k).nextPic = 0 ∧ (t.ses k).pictures = 0 ∧ (t.ses k).refs = [] ∧
       (t.ses k).lastAdm = none ∧ (t.ses k).force = (s.ses k).force ∧ (t.ses k).inTail = (s.ses k).inTail ∧
       (t.ses k).foldGen = (s.ses k).foldGen + 1 ∧ OtherSessions s t (· = k) ∧ t.tiles = s.tiles ∧ t.pat = s.pat ∧ t.hif = s.hif) ∧
     ((s.ses k).st = .running → Answers (.pause fn n 0) s fun t =>
       (t.ses k).st = .paused ∧ (t.ses k).pics = (s.ses k).pics ∧ (t.ses k).foldGen = (s.ses k).foldGen + 1 ∧
       ((s.ses k).pics ≠ [] → (t.ses k).pend = (s.ses k).pend ∧ (t.ses k).force = (s.ses k).force) ∧
       ((s.ses k).pics = [] → (s.ses k).revert = false → ∀ c, (s.ses k).pend = some c →
         (t.ses k).pend = none ∧ (t.ses k).force = some c) ∧
       OtherSessions s t (· = k) ∧ t.tiles = s.tiles ∧ t.pat = s.pat ∧ t.hif = s.hif) ∧
     ((s.ses k).st = .paused → Answers (.resume fn n 0) s fun t =>
       (t.ses k).st = .running ∧ (t.ses k).pics = (s.ses k).pics ∧ (t.ses k).pend = (s.ses k).pend ∧
       (t.ses k).force = (s.ses k).force ∧ (t.ses k).foldGen = (s.ses k).foldGen + 1 ∧
       OtherSessions s t (· = k) ∧ t.tiles = s.tiles ∧ t.pat = s.pat ∧ t.hif = s.hif)) ∧
  (∀ (s : State) (fn n k : Nat), Reaches s fn n k → Serving s →
     ∀ c t, ((s.ses k).st = .ready ∧ c = Instr.start fn n 0) ∨ ((s.ses k).st = .running ∧ c = .pause fn n 0) ∨
         ((s.ses k).st = .paused ∧ c = .resume fn n 0) → exec c s = .next t →
       tget 0 (t.ses k).fold 0x380 = (s.ses k).foldGen + 1 ∧ tget 0 (t.ses k).fold 0x3FC = (s.ses k).foldGen + 1 ∧
       tget 0 (t.ses k).fold 0x1F0 = (s.ses k).foldGen + 1 ∧ tget 0 (t.ses k).fold 0x388 = (s.ses k).commitSeq)

/-- DRAIN (R59): the session drains what is posted now; where nothing of the stream is left it is READY at once, its references
freed and eos set (R58, R170); of rank 0, every RUNNING or PAUSED member drains too (R65). CLOSE (R59, R168): the record is
CLOSED with nothing in force, nothing pending, staging at its reset values while the level is Basic, ring indices and
references at zero and no picture left. No other session changes unless class 21 has been made fatal. -/
def Obligations.DrainAndClose : Prop :=
  (∀ (s : State) (fn n k : Nat), Reaches s fn n k → Serving s → (s.ses k).st = .running ∨ (s.ses k).st = .paused →
     Answers (.drain fn n 0) s fun t =>
       ((s.ses k).pics ≠ [] → (t.ses k).st = .draining ∧ (t.ses k).drainTo = some (s.ses k).inTail ∧
         (t.ses k).pics = (s.ses k).pics) ∧
       ((s.ses k).lower = false → (s.ses k).inputDone = true → (s.ses k).pics = [] → (s.ses k).owed = [] →
         (s.ses k).member = false → (t.ses k).st = .ready ∧ (t.ses k).eos = true ∧ (t.ses k).refs = []) ∧
       ((s.ses k).member = true → (s.ses k).rank = 0 → ∀ m ∈ s.members k, (s.ses m).st = .running ∨ (s.ses m).st = .paused →
         (t.ses m).st = .draining ∨ (t.ses m).st = .ready) ∧
       ((s.ses k).member = false → OtherSessions s t (· = k)) ∧ t.tiles = s.tiles ∧ t.pat = s.pat ∧ t.sec = s.sec) ∧
  (∀ (s : State) (fn n k : Nat) (arg : BitVec 24), Reaches s fn n k → s.cmdReason k 7 arg.toNat = none →
     Answers (.close fn n arg) s fun t =>
       (t.ses k).st = .closed ∧ (t.ses k).force = none ∧ (t.ses k).pend = none ∧ (t.ses k).cfgSeq = 0 ∧ (t.ses k).pics = [] ∧
       (t.ses k).kept = [] ∧ (t.ses k).inTail = 0 ∧ (t.ses k).inHead = 0 ∧ (t.ses k).outHead = 0 ∧ (t.ses k).outTail = 0 ∧
       (t.ses k).refs = [] ∧ (t.ses k).outq = [] ∧ (t.ses k).dec.slots = [] ∧ (t.ses k).mig = none ∧
       ((s.ses k).level = false → (t.ses k).staged = []) ∧ t.pat = s.pat ∧ t.sec = s.sec ∧
       (NotFatal s 21 → (s.ses k).st ≠ .migrating → OtherSessions s t (· = k) ∧ (t.ses k).foldGen = (s.ses k).foldGen + 1))

/-- MIGRATE_OUT (R59, R65, R70): the session is a migrating source with its prior state and the peer that SES_MIGRATE names; of
rank 0, every member goes with it. INVALIDATE_REF and FORCE_RECOVERY (R68, R69): references numbered N or
later become unusable, the next admission is told the oldest N, and recovery is asked for; nothing but the session's own
record changes. -/
def Obligations.MigrateOutAndReferences : Prop :=
  (∀ (s : State) (fn n k : Nat) (arg : BitVec 24), Reaches s fn n k → s.cmdReason k 8 arg.toNat = none →
     Answers (.migrateOut fn n arg) s fun t =>
       ((s.ses k).member = false → t = { s with sessions := t.sessions } ∧ OtherSessions s t (· = k) ∧
         (t.ses k).st = .migrating ∧ (t.ses k).prior = (s.ses k).st ∧ (t.ses k).foldGen = (s.ses k).foldGen + 1 ∧
         (t.ses k).mig = some { out := true, peer := fld (s.ses k).migrate 17 0, peerSes := fld (s.ses k).migrate 29 18
                                started := s.now } ∧
         (t.ses k).pics = (s.ses k).pics ∧ (t.ses k).force = (s.ses k).force) ∧
       ((s.ses k).member = true → t = { s with sessions := t.sessions } ∧ OtherSessions s t (· ∈ s.members k) ∧
         ∀ m ∈ s.members k, (t.ses m).st = .migrating)) ∧
  (∀ (s : State) (fn n k : Nat) (arg : BitVec 24), Reaches s fn n k →
     (s.cmdReason k 10 arg.toNat = none → Answers (.invalidateRef fn n arg) s fun t =>
       t = { s with sessions := t.sessions } ∧ OtherSessions s t (· = k) ∧ (t.ses k).st = (s.ses k).st ∧
       (∀ r, r ∈ (t.ses k).refs ↔ r ∈ (s.ses k).refs ∧ laterEq r arg.toNat = false) ∧
       (∀ r, (t.ses k).ltr = some r ↔ (s.ses k).ltr = some r ∧ laterEq r arg.toNat = false) ∧
       ((s.ses k).invalN = none → (t.ses k).invalN = some arg.toNat) ∧
       (∀ m, (s.ses k).invalN = some m → (t.ses k).invalN = some (if laterEq arg.toNat m then m else arg.toNat))) ∧
     (s.cmdReason k 11 arg.toNat = none →
       exec (.forceRecovery fn n arg) s = .next (s.setSes k { s.ses k with recNext := true, recPend := true })))

/-- SES_LEVEL (R7, R8, R63): setting the bit starts every staged Expert field from its derived value and leaves the Basic ones;
clearing it in CLOSED clears it alone; clearing it elsewhere reverts the Expert fields in force at once, one SES_CFG_SEQ
later, where nothing is in flight, and waits otherwise; in MIGRATING the write is ignored with reason 0. -/
def Obligations.SessionLevel : Prop :=
  ∀ (s : State) (fn n k : Nat) (v : Word), Reaches s fn n k →
    ((s.ses k).st = .migrating →
      exec (.sesLevelWrite fn n v) s = .next (s.setSes k (refusal (s.ses k) 0x14 v 0))) ∧
    ((s.ses k).st ≠ .migrating → v.getLsbD 0 = true → (s.ses k).level = false → Answers (.sesLevelWrite fn n v) s fun t =>
      t = { s with sessions := t.sessions } ∧ OtherSessions s t (· = k) ∧ (t.ses k).level = true ∧
      (∀ off ∈ expertOffsets, cget (t.ses k).staged off = derived (s.ses k).staged (s.ses k).cls (s.ses k).lower off) ∧
      (∀ off, off ∉ expertOffsets → cget (t.ses k).staged off = cget (s.ses k).staged off)) ∧
    ((s.ses k).st ≠ .migrating → v.getLsbD 0 = false → (s.ses k).level = true → Answers (.sesLevelWrite fn n v) s fun t =>
      (t.ses k).level = false ∧ OtherSessions s t (· = k) ∧ t.tiles = s.tiles ∧ t.regs = s.regs ∧
      ((s.ses k).st = .closed → t = s.setSes k { s.ses k with level := false }) ∧
      ((s.ses k).st = .running → t = s.setSes k { s.ses k with level := false, revert := true }) ∧
      ((s.ses k).st = .ready → (s.ses k).pend = none → ∀ c, (s.ses k).force = some c →
        (t.ses k).cfgSeq = (s.ses k).cfgSeq + 1 ∧ (t.ses k).revert = false ∧
        (t.ses k).force = some (revertCfg c (s.ses k).cls (s.ses k).lower))) ∧
    ((s.ses k).st ≠ .migrating → v.getLsbD 0 = (s.ses k).level → exec (.sesLevelWrite fn n v) s = .next s)

/-- The ring indices (R67): IN_TAIL and HINT_TAIL move forward from the head within the ring in READY, RUNNING and PAUSED,
OUT_HEAD forward to the output tail but in CLOSED and OPEN; outside those states a write is ignored with reason 0 (R56).
IN_TAIL's write clears in_stall. A ring that is present has its base in force. RING_IN_ROWS, OUT_BUF_HEAD and DEC_WIN_RELEASE
(R97, R169, R184): zero rows of the head picture or the next change nothing but the register; rows of a picture that no source
fetches yet raise its progress; the buffer head moves within the buffer; a held slot is freed, with nothing else changed where no
picture waits, and any other is refused with reason 7. -/
def Obligations.HostIndexWrites : Prop :=
  (∀ (s : State) (fn n k : Nat) (v : Word), Reaches s fn n k →
     let x := s.ses k
     let i := v.toNat % 65536
     let sizeIn := ringSize x.cfg 0x2C0
     let sizeHint := ringSize x.cfg 0x2D0
     let sizeOut := ringSize x.cfg 0x2E0
     let open_ := x.st = .ready ∨ x.st = .running ∨ x.st = .paused
     (open_ → ringBase x.cfg 0x2C0 ≠ 0 → i < sizeIn →
       (x.inTail + sizeIn - x.inHead % sizeIn) % sizeIn ≤ (i + sizeIn - x.inHead % sizeIn) % sizeIn →
       exec (.inTailWrite fn n v) s = .next (s.setSes k { x with inTail := i, inStall := false })) ∧
     (open_ → ringBase x.cfg 0x2D0 ≠ 0 → x.hintOwed = 0 → i < sizeHint →
       (x.hintTail + sizeHint - x.hintHead % sizeHint) % sizeHint ≤ (i + sizeHint - x.hintHead % sizeHint) % sizeHint →
       exec (.hintTailWrite fn n v) s = .next (s.setSes k { x with hintTail := i })) ∧
     (x.st ≠ .closed → x.st ≠ .opened → ringBase x.cfg 0x2E0 ≠ 0 → i < sizeOut →
       (i + sizeOut - x.outHead % sizeOut) % sizeOut ≤ (x.outTail + sizeOut - x.outHead % sizeOut) % sizeOut →
       exec (.outHeadWrite fn n v) s = .next (s.setSes k { x with outHead := i })) ∧
     (¬ open_ → exec (.inTailWrite fn n v) s = .next (s.setSes k (refusal x 0x2CC v 0)) ∧
       exec (.hintTailWrite fn n v) s = .next (s.setSes k (refusal x 0x2DC v 0))) ∧
     (x.st = .closed ∨ x.st = .opened → exec (.outHeadWrite fn n v) s = .next (s.setSes k (refusal x 0x2EC v 0)))) ∧
  (∀ (s : State) (fn n k : Nat) (v : Word), Reaches s fn n k →
     let x := s.ses k
     let rows := v.toNat % 16384
     let pic := v.toNat / 65536
     (x.st = .running ∨ x.st = .draining → pic = x.headPic % 65536 ∨ pic = (x.headPic + 1) % 65536 → rows = 0 →
       exec (.ringInRowsWrite fn n v) s = .next (s.setSes k { x with rowsReg := v &&& 0xFFFF3FFF })) ∧
     (x.st = .running ∨ x.st = .draining → x.pics = [] → pic = x.nextPic % 65536 → rows ≠ 0 → x.rows0 ≤ rows →
       rows ≤ cH clsLive x.cfg →
       exec (.ringInRowsWrite fn n v) s = .next (s.setSes k { x with rowsReg := v &&& 0xFFFF3FFF, rows0 := rows })) ∧
     (x.st ≠ .running → x.st ≠ .draining →
       exec (.ringInRowsWrite fn n v) s = .next (s.setSes k (refusal x 0x2F0 v 0))) ∧
     (x.st ≠ .closed → x.st ≠ .opened → v.toNat % 2 ^ 30 < 2 ^ fld (cget x.cfg 0x20C) 4 0 →
       exec (.outBufHeadWrite fn n v) s = .next (s.setSes k { x with bufHead := v.toNat % 2 ^ 30 })) ∧
     (x.st ≠ .closed → x.st ≠ .opened → tget 0 x.dec.slots (v.toNat % 64) = 3 → NoneWaits s →
       Answers (.decWinRelease fn n v) s fun t =>
         t = s.setSes k { x with dec := { x.dec with slots := (t.ses k).dec.slots } } ∧
         ∀ i, tget 0 (t.ses k).dec.slots i = if i = v.toNat % 64 then 0 else tget 0 x.dec.slots i) ∧
     (x.st ≠ .closed → x.st ≠ .opened → tget 0 x.dec.slots (v.toNat % 64) ≠ 3 →
       exec (.decWinRelease fn n v) s = .next (s.setSes k (refusal x 0x328 v 7))))

/-- A migration between records of one device (R58, R70, R71, R73): at the source's rinse a destination that fits is taken and one
that does not fails the migration; at completion the source is CLOSED, the destination has the source's prior state,
references and counters on its own panel with its own rings, and its publication follows the source's last FOLD_GEN. Sessions
outside a group. -/
def Obligations.LocalMigration : Prop :=
  ∀ (s : State) (n d : Nat) (g : Mig),
    s.live = true → (s.ses n).source = true → (s.ses n).mig = some g → g.peer = s.lin.addr → g.peerSes = d → d ≠ n →
    (s.ses n).member = false →
    (g.phase = 0 → (s.ses n).pics = [] → (s.ses d).st = .migrating → (s.ses d).source = false →
      s.panelTakes d (s.ses n).cls (cW (s.ses n).cls (s.ses n).cfg) (cH (s.ses n).cls (s.ses n).cfg) = true →
      exec (.migrationStateCopy n) s = .next (s.setSes n { s.ses n with mig := some { g with phase := 1 } })) ∧
    (g.phase = 0 → (s.ses n).pics = [] →
      s.panelTakes d (s.ses n).cls (cW (s.ses n).cls (s.ses n).cfg) (cH (s.ses n).cls (s.ses n).cfg) = false →
      Answers (.migrationStateCopy n) s fun t =>
        (t.ses n).st = (s.ses n).prior ∧ (t.ses n).migFailed = true ∧ (t.ses n).mig = none ∧ OtherSessions s t (fun m => m = n ∨ m = d) ∧
        t.tiles = s.tiles ∧ t.pat = s.pat) ∧
    (g.phase = 1 → Answers (.migrationComplete n) s fun t =>
      (t.ses n).st = .closed ∧ (t.ses n).foldGen = (s.ses n).foldGen + 1 ∧
      (t.ses d).st = (s.ses n).prior ∧ (t.ses d).foldGen = (s.ses n).foldGen + 2 ∧ (t.ses d).mig = none ∧
      (t.ses d).panel = (s.ses d).panel ∧ (t.ses d).staged = (s.ses d).staged ∧ (t.ses d).refs = (s.ses n).refs ∧
      (t.ses d).pictures = (s.ses n).pictures ∧ (t.ses d).cls = (s.ses n).cls ∧ (t.ses d).cfgSeq = (s.ses n).cfgSeq ∧
      (t.ses d).migrations = min 0xFFFF ((s.ses n).migrations + 1) ∧
      (t.ses d).force = (s.ses n).force.map (fun c => withRings c (s.ses d).staged) ∧
      OtherSessions s t (fun m => m = n ∨ m = d) ∧ ((s.ses n).cls ≠ clsLive → t.tiles = s.tiles) ∧ t.pat = s.pat ∧ t.now = s.now)

/-- A migration that has not completed within 144,144,000 st fails (R71): the source resumes in its prior state with mig_failed, a
destination whose transfer began returns to CLOSED. A LIVE picture at the head of a migrating source's ring whose deadline has
passed leaves the ring (R70). MIG_CTL and MIG_DATA at their receiver (R71, R364): an open that fits the armed destination's
panel is taken, a payload joins the data whose check value the done frame carries, a done frame whose check value matches ends
the transfer and one that does not closes the destination, and a refusal returns the source to its prior state. -/
def Obligations.MigrationOverTheLine : Prop :=
  (∀ (s : State) (n : Nat) (g : Mig), s.live = true → (s.ses n).st = .migrating → (s.ses n).mig = some g → (s.ses n).member = false →
     (g.started + 144144000 ≤ s.now → g.out = true → g.peer ≠ s.lin.addr → Answers (.migrationTimeout n) s fun t =>
       (t.ses n).st = (s.ses n).prior ∧ (t.ses n).migFailed = true ∧ (t.ses n).mig = none ∧
       (t.ses n).foldGen = (s.ses n).foldGen + 1 ∧ OtherSessions s t (· = n) ∧ t.tiles = s.tiles ∧ t.pat = s.pat) ∧
     (g.started + 144144000 ≤ s.now → g.out = false → g.phase ≠ 0 → Answers (.migrationTimeout n) s fun t =>
       (t.ses n).st = .closed ∧ (t.ses n).mig = none ∧ OtherSessions s t (· = n) ∧ t.tiles = s.tiles ∧ t.pat = s.pat) ∧
     (s.now < g.started + 144144000 → exec (.migrationTimeout n) s = .next s) ∧
     (∀ a e, g.out = true → (s.ses n).cls = clsLive → (s.ses n).lower = false → (s.ses n).inputDone = false →
       (s.ses n).inStall = false → (s.ses n).seen = some e → e.entry.length = 64 → ownerBit e.entry = true → (srcDesc e.entry).space ≠ 2 →
       (∃ due, (s.encPic n e none).deadline = some due ∧ due ≤ s.now) →
       (∃ r, s.judge n (s.encPic n e none) true = .drop r) → hasHintRing (s.ses n).cfg = false →
       Answers (.deadlinePass n a) s fun t =>
         (t.ses n).inHead = ((s.ses n).inHead % ringSize (s.ses n).cfg 0x2C0 + 1) % ringSize (s.ses n).cfg 0x2C0 ∧
         (t.ses n).dropped = (s.ses n).dropped + 1 ∧ (t.ses n).st = .migrating ∧ t.tiles = s.tiles ∧ t.pat = s.pat)) ∧
  (∀ (s : State) (p : LinePort) (h : LineHdr) (n : Nat) (g : Mig),
     InOrder s (LinePort.code p) h → s.lin.me h.dst = true → (s.ses n).st = .migrating → (s.ses n).mig = some g →
     g.peer = h.src → (s.ses n).member = false → g.peer ≠ s.lin.addr →
     (g.out = false → g.phase = 0 → ∀ cls grp w ht, s.panelTakes n cls w ht = true →
       Answers (.migCtl p h n (.openReq g.peerSes cls grp w ht)) s fun t =>
         (t.ses n).mig = some { g with phase := 2, cls := cls % 4, group := maskW 0x1FFF (w32 grp), started := s.now, data := [] } ∧
         (t.ses n).st = .migrating ∧ OtherSessions s t (· = n) ∧ t.tiles = s.tiles) ∧
     (g.out = false → g.phase = 2 → ∀ bytes, Answers (.migData p h n bytes) s fun t =>
       (t.ses n).mig = some { g with data := g.data ++ bytes } ∧ OtherSessions s t (· = n) ∧ t.tiles = s.tiles) ∧
     (g.out = false → g.phase = 2 → ∀ bulk, Answers (.migCtl p h n (.done (crc32c g.data) bulk)) s fun t =>
       (t.ses n).mig = some { g with phase := 3 } ∧ (t.ses n).migBulk = some bulk ∧ (t.ses n).st = .migrating ∧
       OtherSessions s t (· = n) ∧ t.tiles = s.tiles) ∧
     (g.out = false → g.phase = 2 → ∀ bulk crc, crc ≠ crc32c g.data → Answers (.migCtl p h n (.done crc bulk)) s fun t =>
       (t.ses n).st = .closed ∧ (t.ses n).mig = none ∧ OtherSessions s t (· = n) ∧ t.tiles = s.tiles) ∧
     (g.out = true → Answers (.migCtl p h n .refused) s fun t =>
       (t.ses n).st = (s.ses n).prior ∧ (t.ses n).migFailed = true ∧ OtherSessions s t (· = n) ∧ t.tiles = s.tiles))

/-- The link layer of the clothesline (R357): an acknowledge frees the replay buffer up to its frame; a NAK acknowledges the
frames before it and sends it and those behind it again, and one after 8 replays takes the link down; the timer acknowledges
what was received; a frame with a bad CRC is answered with a NAK, one of an unknown type is dropped and counted; a frame out
of sequence changes nothing (the model's choice, log 57). A link that goes down raises class 27, and on LINE-UP ends the
exchange in progress and the lock (R357, R363); one that comes up starts with an empty link layer, and LINE-UP of a device
without an address asks its holder for one (R361). -/
def Obligations.LineLinks : Prop :=
  (∀ (s : State) (p : LinePort) (seq : Nat),
     let c := LinePort.code p
     let x := s.lport c
     s.live = true → x.up = true →
     ((x.replay.any fun e => e.1 == seq) = true → x.wait = [] →
       exec (.linkAck p seq) s =
         .next (s.setLport c { x with replay := (x.replay.dropWhile fun e => e.1 != seq).drop 1, replays := 0 })) ∧
     ((x.replay.any fun e => e.1 == seq) = true →
       let rest := x.replay.dropWhile fun e => e.1 != seq
       let k := if rest.length = x.replay.length then x.replays else 0
       (k < 8 → Answers (.linkNak p seq) s fun t =>
         t = { s.setLport c { x with replay := rest, replays := k + 1 } with regs := t.regs, outbox := t.outbox } ∧
         t.outbox = s.outbox ++ rest.map (fun e => Emit.line c e.1 e.2) ∧
         (t.reg 0x90084).toNat = min 0xFFFFFFFF ((s.reg 0x90084).toNat + rest.length) ∧ RegsKept s t [0x90084]) ∧
       (8 ≤ k → Answers (.linkNak p seq) s fun t => (t.lport c).up = false ∧ (t.lport c).lost = true)) ∧
     (x.unacked ≠ 0 → exec (.linkAckTimer p) s =
       .next { s.setLport c { x with unacked := 0 } with
         outbox := s.outbox ++ [.linkCtl c false ((x.rxSeq + 65535) % 65536)] }) ∧
     (x.unacked = 0 → exec (.linkAckTimer p) s = .next s) ∧
     (exec (.lineFrameError p (.badCrc seq)) s = .next { s with outbox := s.outbox ++ [.linkCtl c true (seq % 65536)] }) ∧
     (Answers (.lineFrameError p .unknownType) s fun t =>
       LineOnly s t ∧ (t.lport c).rxSeq = (x.rxSeq + 1) % 65536 ∧ RegsKept s t [0x90080]) ∧
     (∀ h : LineHdr, h.seq ≠ x.rxSeq → ∀ serial m d sub b round level sum,
       exec (.pegReq p h serial m) s = .next s ∧ exec (.pegAck p h serial) s = .next s ∧ exec (.pegNak p h m) s = .next s ∧
       exec (.timeSync p h) s = .next s ∧ exec (.note p h d) s = .next s ∧ exec (.pkt p h sub b) s = .next s ∧
       exec (.agg p h round level sum) s = .next s)) ∧
  (∀ (s : State) (p : LinePort), s.live = true →
     ((s.lport (LinePort.code p)).up = true → Answers (.lineLinkDown p) s fun t =>
       (t.lport (LinePort.code p)).up = false ∧ (t.lport (LinePort.code p)).lost = true ∧ t.flt.status.getLsbD 27 = true ∧
       (p = .up → t.lin.locked = false ∧ t.lin.good = 0 ∧ t.lin.t1 = none ∧
         t.lin.holdover = (s.lin.holdover || s.lin.follows)) ∧ t.pat = s.pat ∧ t.now = s.now) ∧
     ((s.lport (LinePort.code p)).up = false → nbit s.pat.lines (LinePort.code p) = true → s.pat.serial ≠ 0 →
       Answers (.lineLinkUp p) s fun t =>
         LineOnly s t ∧ (t.lport (LinePort.code p)).up = true ∧
         (p = .up → s.lin.valid = false → s.lin.head = false → t.outbox = s.outbox ++ [.line 0 0
           { type := 0x02, dst := 0, src := 0, info := [s.serial.toNat, if s.lin.manager then 1 else 0] }])))

/-- Pegging (R359 to R361): an unaddressed device whose role fits takes the address of a PEG and one whose role does not stays
unaddressed; while a session migrates the PEG waits; an addressed device keeps its address. A holder records the serial of a
PEG_REQ and of a PEG_ACK; a request that reaches an unaddressed device waits; a PEG_NAK for its own frame makes the address
unreachable. -/
def Obligations.Pegging : Prop :=
  ∀ (s : State) (p : LinePort) (h : LineHdr) (a : Nat) (serial : Dword) (m : Bool), InOrder s (LinePort.code p) h →
    (p = .up → s.lin.valid = false → s.migrating = true → Answers (.peg h a) s fun t =>
      LineOnly s t ∧ t.lin.pegDue = some a ∧ t.lin.valid = false) ∧
    (p = .up → s.lin.valid = false → s.migrating = false → s.lin.manager = (a % 64 == 0) → Answers (.peg h a) s fun t =>
      LineOnly s t ∧ t.lin.valid = true ∧ t.lin.addr = a % 2 ^ 18) ∧
    (p = .up → s.lin.valid = false → s.migrating = false → s.lin.manager ≠ (a % 64 == 0) → Answers (.peg h a) s fun t =>
      LineOnly s t ∧ t.lin.valid = false ∧ t.lin.addr = s.lin.addr) ∧
    (p = .up → s.lin.valid = true → s.migrating = false → Answers (.peg h a) s fun t =>
      LineOnly s t ∧ t.lin.valid = true ∧ t.lin.addr = s.lin.addr) ∧
    (p ≠ .up → s.lin.valid = true → s.lin.manager = true → m = false → ∀ b, s.lin.assign false serial = some b →
      Answers (.pegReq p h serial m) s fun t => LineOnly s t ∧ tget 0 t.lin.table (s.lin.key false b) = serial) ∧
    (p ≠ .up → s.lin.valid = false → Answers (.pegReq p h serial m) s fun t =>
      LineOnly s t ∧ t.lin.reqDue = s.lin.reqDue ++ [(LinePort.code p, serial, m)] ∧ t.lin.table = s.lin.table) ∧
    (s.lin.me h.dst = true → s.lin.manager = true → h.src % 64 ≠ 0 → Answers (.pegAck p h serial) s fun t =>
      LineOnly s t ∧ tget 0 t.lin.table (s.lin.key false h.src) = serial ∧ h.src ∈ t.lin.reach) ∧
    (s.lin.valid = true → h.src = s.lin.addr → s.migrating = false → Answers (.pegNak p h m) s fun t =>
      LineOnly s t ∧ h.dst ∉ t.lin.reach ∧ t.lin.addr = s.lin.addr)

/-- The timebase over the line (R362, R363): TIME_SYNC of a child is answered with its two stamps; the timer stamps t1 and sends
TIME_SYNC; TIME_RESP gives delay and offset, halves truncated (the model's choice, log 56), counts the exchanges within 4 st,
and disciplines the timebase by a slew, or by a step beyond 144,144 st while no session is RUNNING. -/
def Obligations.TimeOverTheLine : Prop :=
  ∀ (s : State) (p : LinePort) (h : LineHdr) (t2 t3 : Nat),
    (InOrder s (LinePort.code p) h → p ≠ .up → (s.lport (LinePort.code p)).unacked < 15 →
      (s.lport (LinePort.code p)).replay.length < 64 → (s.lport (LinePort.code p)).wait = [] →
      Answers (.timeSync p h) s fun t =>
        LineOnly s t ∧ t.outbox = s.outbox ++ [.line (LinePort.code p) (s.lport (LinePort.code p)).txSeq
          { type := 0x11, dst := h.src, src := s.lin.addr, info := [s.now, s.now] }]) ∧
    (s.live = true → s.lin.follows = true → (s.lport 0).up = true → Answers .timeSyncTimer s fun t =>
      LineOnly s t ∧ t.lin.t1 = some s.now) ∧
    (∀ t1, InOrder s 0 h → s.lin.follows = true → s.lin.t1 = some t1 →
      let off : Int := (((t2 : Int) - t1) + ((t3 : Int) - s.now)).tdiv 2
      let delay : Int := (((s.now : Int) - t1) - ((t3 : Int) - t2)).tdiv 2
      Answers (.timeResp h t2 t3) s fun t =>
        t = { s with lin := t.lin, pwr := t.pwr, outbox := t.outbox } ∧ t.lin.t1 = none ∧ t.lin.offset = BitVec.ofInt 32 off ∧
        t.lin.delay = BitVec.ofInt 32 delay ∧ t.lin.good = (if off.natAbs ≤ 4 then min 8 (s.lin.good + 1) else 0) ∧
        t.lin.locked = decide (t.lin.good = 8) ∧ t.lin.holdover = false ∧
        (144144 < off.natAbs → s.anyRunning = false → t.pwr = { s.pwr with step := some off }) ∧
        (off.natAbs ≤ 144144 ∨ s.anyRunning = true → t.pwr = { s.pwr with slew := off, slewTicks := 0 }))

/-- NOTE and PKT at their receiver (R366, R369): a notice asserts pending source 2 and is counted; a packet goes into the LIN_RX
ring under its 16-byte header, and is dropped and counted when the ring is full or disabled. Status rounds (R367, R368): a
report of the round in progress is kept by the manager of its line; at a round boundary every addressed device starts a new
round; a manager publishes its line table at the last report or half a period after the boundary, its generation the same at
both ends. LIN_CMD (R359, R361, R370): peg makes the system head take address 0 and is ignored on any other device and while a
session migrates; request sends a PEG_REQ up a link that is up; release frees the table entry named, or is ignored for
position 0 and for a device that is reachable. -/
def Obligations.LineTraffic : Prop :=
  (∀ (s : State) (p : LinePort) (h : LineHdr) (d : Word) (sub : Nat) (b : List Byte),
     InOrder s (LinePort.code p) h → s.lin.me h.dst = true →
     (Answers (.note p h d) s fun t =>
       LineOnly s t ∧ (t.reg 0x30288).toNat = min 0xFFFFFFFF ((s.reg 0x30288).toNat + 1) ∧ RegsKept s t [0x30288] ∧
       (nbit s.hif.inService 2 = false → nbit t.hif.pend 2 = true)) ∧
     (∀ size, s.rxEntries = size → size ≠ 0 → (s.lin.rxTail + 1) % size ≠ fld (s.reg 0x9006C) 11 0 % size →
       Answers (.pkt p h sub b) s fun t =>
         LineOnly s t ∧ t.regs = s.regs ∧ t.lin.rxTail = (s.lin.rxTail + 1) % size ∧
         .lineRx s.lin.rxTail (leBytes 2 b.length ++ leBytes 2 (h.flags % 2) ++ leBytes 4 h.src ++ leBytes 4 sub ++ leBytes 4 0) b ∈ t.outbox) ∧
     (s.rxEntries = 0 → Answers (.pkt p h sub b) s fun t =>
       LineOnly s t ∧ t.lin.rxTail = s.lin.rxTail ∧ (t.reg 0x90080).toNat = min 0xFFFFFFFF ((s.reg 0x90080).toNat + 1) ∧
       RegsKept s t [0x90080])) ∧
  (∀ (s : State) (p : LinePort) (h : LineHdr) (m : Summary),
     (InOrder s (LinePort.code p) h → s.lin.me h.dst = true → s.lin.manager = true → lineIdx h.src = lineIdx s.lin.addr →
       Answers (.agg p h s.lin.round 0 m) s fun t =>
         LineOnly s t ∧ tget {} t.lin.reports (h.src % 64) = m ∧ h.src ∈ t.lin.reach ∧ t.lin.tables = s.lin.tables) ∧
     (s.live = true → s.lin.valid = true → s.reg 0x90018 ≠ 0 →
       s.now / (s.reg 0x90018).toNat * (s.reg 0x90018).toNat ≠ s.lin.round → Answers .aggRound s fun t =>
         LineOnly s t ∧ t.lin.round = s.now / (s.reg 0x90018).toNat * (s.reg 0x90018).toNat ∧ t.lin.drops = 0 ∧
         t.lin.addr = s.lin.addr) ∧
     (s.live = true → s.lin.valid = true → s.lin.manager = true → s.lin.pubLine = false →
       (s.lin.allIn = true ∨ s.lin.round + (s.reg 0x90018).toNat / 2 ≤ s.now) → Answers .lineTablePublish s fun t =>
         LineOnly s t ∧ t.lin.pubLine = true ∧ tget 0 t.lin.tables 0 = tget 0 s.lin.tables 0 + 1 ∧
         tget 0 t.lin.tables 0xFFC = tget 0 s.lin.tables 0 + 1) ∧
     (s.live = true → s.lin.pubLine = true → exec .lineTablePublish s = .next s)) ∧
  (∀ (s : State) (v : Word), s.live = true →
     let w := (v &&& 0xFFFFFFFC)
     let n := v.toNat / 4 % 65536
     let a := if s.lin.head then n * 64 else lineIdx s.lin.addr * 64 + n
     (s.lin.head = true → s.migrating = false → Answers (.linPeg v) s fun t =>
       LineOnly s t ∧ t.lin.addr = 0 ∧ t.lin.valid = true) ∧
     (s.lin.head = false ∨ s.migrating = true → exec (.linPeg v) s = .next (s.ignored 0x9001C (w ||| 1))) ∧
     ((s.lport 0).up = false → exec (.linRequest v) s = .next s) ∧
     ((s.lport 0).up = true → (s.lport 0).replay.length < 64 → (s.lport 0).wait = [] → Answers (.linRequest v) s fun t =>
       LineOnly s t ∧ t.outbox = s.outbox ++ [.line 0 (s.lport 0).txSeq
         { type := 0x02, dst := 0, src := s.lin.addr, info := [s.serial.toNat, if s.lin.manager then 1 else 0] }]) ∧
     (s.lin.manager = true → n ≠ 0 → n ≤ (if s.lin.head then 4095 else 63) → a ∉ s.lin.reach → Answers (.linRelease v) s fun t =>
       t = { s with lin := { s.lin with table := t.lin.table } } ∧ tget 0 t.lin.table n = 0 ∧
       ∀ k, k ≠ n → tget 0 t.lin.table k = tget 0 s.lin.table k) ∧
     (s.lin.manager = false ∨ n = 0 ∨ a ∈ s.lin.reach →
       exec (.linRelease v) s = .next (s.ignored 0x9001C (w ||| 3))))

/-- PICTURE_ADMISSION of an encode session outside a group (R66, R78 to R81, R94, R95): a clear owner bit stalls the input; a
malformed descriptor is dropped with reason 4, its entry consumed; a picture that passes joins the session in order with the next
picture number, its entry consumed; one that finds no pages waits with what was read and counts HMP_REFUSED; one of space 2 of
which no ingest picture has begun waits with its descriptor copied; a session whose lookahead is not posted (R102) or that may
take no picture is left alone. PICTURE_ADMISSION of a DECODE session (R177, R182): an access unit that passes takes the lowest
free slot and the chunks up to its end; with no slot free it waits and the wait is counted once. -/
def Obligations.PictureAdmission : Prop :=
  (∀ (s : State) (n : Nat) (a : AdmitIn),
     let x := s.ses n
     let d := srcDesc a.entry
     let p := s.encPic n a none
     let posted := if x.hintPosted a.hint then a.hint else []
     let fmtOk := s.srcOk (s.owner n) x.cls (fld (cget p.cfg 0x048) 3 0) (cW x.cls p.cfg) (cH x.cls p.cfg) d
     (s.mayAdmit n = false → exec (.pictureAdmission n a) s = .next s) ∧
     (s.mayAdmit n = true → x.cls ≠ clsDecode → x.member = false → x.seen = none → x.inputDone = false → x.inStall = false →
       a.entry.length = 64 →
       (ownerBit a.entry = false →
         exec (.pictureAdmission n a) s = .next (s.setSes n { x with inStall := true })) ∧
       (ownerBit a.entry = true → x.lookaheadOk a = false → exec (.pictureAdmission n a) s = .next s) ∧
       (ownerBit a.entry = true → x.lookaheadOk a = true → d.space = 2 → s.ingestNext n = none → fmtOk = true →
         exec (.pictureAdmission n a) s = .next (s.setSes n { x with
           seen := some { a with hint := posted }, seenWait := false })) ∧
       (ownerBit a.entry = true → x.lookaheadOk a = true → fmtOk = false → Answers (.pictureAdmission n a) s fun t =>
         (t.ses n).dropped = x.dropped + 1 ∧ (t.ses n).nextPic = (x.nextPic + 1) % 2 ^ 24 ∧
         (t.ses n).inHead = (x.inHead % ringSize x.cfg 0x2C0 + 1) % ringSize x.cfg 0x2C0 ∧
         (t.ses n).pics.map (·.num) = x.pics.map (·.num) ∧
         (t.reg 0x2001C).toNat = min 0xFFFFFFFF ((s.reg 0x2001C).toNat + 1) ∧ OtherSessions s t (· = n) ∧ t.tiles = s.tiles ∧
         t.pages = s.pages) ∧
       (ownerBit a.entry = true → x.lookaheadOk a = true → d.space ≠ 2 → fmtOk = true → ∀ late, s.judge n p false = .accept late →
         Answers (.pictureAdmission n a) s fun t =>
           (t.ses n).pics.map (·.num) = x.pics.map (·.num) ++ [x.nextPic] ∧ (t.ses n).nextPic = (x.nextPic + 1) % 2 ^ 24 ∧
           (t.ses n).lastAdm = some x.nextPic ∧ t.admitted = s.admitted + 1 ∧ (t.ses n).dropped = x.dropped ∧
           (t.ses n).inHead = (x.inHead % ringSize x.cfg 0x2C0 + 1) % ringSize x.cfg 0x2C0 ∧
           (t.reg 0x20018).toNat = min 0xFFFFFFFF ((s.reg 0x20018).toNat + 1) ∧ OtherSessions s t (· = n) ∧ t.tiles = s.tiles) ∧
       (ownerBit a.entry = true → x.lookaheadOk a = true → d.space ≠ 2 → fmtOk = true → s.judge n p false = .waitPages →
         Answers (.pictureAdmission n a) s fun t =>
           (t.ses n).seen.isSome = true ∧ (t.ses n).pics = x.pics ∧ (t.ses n).inHead = x.inHead ∧
           (t.reg 0xB0010).toNat = min 0xFFFFFFFF ((s.reg 0xB0010).toNat + 1) ∧ RegsKept s t [0xB0010] ∧
           OtherSessions s t (· = n) ∧ t.tiles = s.tiles ∧ t.pages = s.pages))) ∧
  (∀ (s : State) (n : Nat) (a : AdmitIn) (au : List (List Byte)),
     let x := s.ses n
     let p := s.decPic n au a.chunkBytes
     s.mayAdmit n = true → x.cls = clsDecode → x.seen = none → x.inputDone = false → x.inStall = false →
     x.accessUnit a.chunks = some au →
     (∀ late slot, s.judge n p false = .accept late → x.freeSlot p.cfg = some slot → Answers (.pictureAdmission n a) s fun t =>
       (t.ses n).pics.map (·.num) = x.pics.map (·.num) ++ [x.nextPic] ∧ tget 0 (t.ses n).dec.slots slot = 1 ∧
       (∀ k, k ≠ slot → tget 0 (t.ses n).dec.slots k = tget 0 x.dec.slots k) ∧
       (t.ses n).inHead = (x.inHead + au.length) % ringSize x.cfg 0x2C0 ∧ t.admitted = s.admitted + 1 ∧
       OtherSessions s t (· = n) ∧ t.tiles = s.tiles ∧ t.pages = s.pages) ∧
     (s.judge n p false = .waitSlot → Answers (.pictureAdmission n a) s fun t =>
       t = { s with sessions := t.sessions } ∧ OtherSessions s t (· = n) ∧ (t.ses n).pics = x.pics ∧ (t.ses n).inHead = x.inHead ∧
       (t.ses n).dec.slotWaits = x.dec.slotWaits + (if x.dec.slotWait then 0 else 1) ∧ (t.ses n).dec.slotWait = true))

/-- UNIT_DISPATCH (R83, R84, R87): the first ready unit that finds one tile starts on it: the tile runs, its quadrant's PLL runs,
its routine is not committed, the unit's attempts rise by one and its time counts from the end of the wake. No other tile changes.
With nothing ready, in SAFE and while the panel resets nothing starts. TILE_IDLE_OFF and QUADRANT_PLL_STOP (R87, R321, R376): an
idle tile powers off SCH_IDLE_OFF after its last work, its inbox flushed, but for a spare kept warm for LIVE; a quadrant whose
tiles have all been off for SCH_IDLE_PLL stops its PLL; the quiet window of a press holds both for the tiles that it needs (R51).
-/
def Obligations.DispatchAndIdle : Prop :=
  (∀ (s : State) (panel : Nat),
     let ready := (s.readyUnits panel).foldr insReady []
     (s.work = false ∨ nbit s.resetting panel = true ∨ ready = [] → exec (.unitDispatch panel []) s = .next s) ∧
     (s.work = true → nbit s.resetting panel = false → ¬ (nbit s.ldr.pressing panel = true ∧ s.ldr.phase = 5) →
       ∀ r rest k pw, ready = r :: rest → s.choose r = some [k] → s.unitOf r.ref = some pw →
         Answers (.unitDispatch panel []) s fun t =>
           (t.tile k).power = .run ∧ (t.tile k).work = some r.ref ∧ (t.tile k).ndl.state = 1 ∧ (t.tile k).ndl.committed = false ∧
           (t.tile k).abandon = 0 ∧ (t.tile k).role = (s.tile k).role ∧ (t.quad (quadOf k)).pll = true ∧
           (∃ q, t.unitOf r.ref = some (q, { pw.2 with
             st := .running, tile := k, attempts := pw.2.attempts + 1, bitLost := [], refLost := false
             woke := s.now + s.wakeCost k })) ∧
           OtherTiles s t (· = k) ∧ OtherSessions s t (· = r.ref.ses) ∧ t.regs = s.regs ∧ t.pat = s.pat)) ∧
  (∀ (s : State) (k q : Nat),
     ((s.tile k).work = none → (s.tile k).power = .nap → (s.tile k).role ≠ .selfTest →
       (s.tile k).since + (s.reg 0x20004).toNat ≤ s.now → ((s.tile k).role = .spare → s.holdsLive (s.tile k).panel = false) →
       s.pressNeeds k = false → Answers (.tileIdleOff k) s fun t =>
         t = { s with tiles := t.tiles, regs := t.regs } ∧ (t.tile k).power = .off ∧ (t.tile k).inbox = [] ∧
         (t.tile k).since = s.now ∧ (t.tile k).role = (s.tile k).role ∧ OtherTiles s t (· = k) ∧
         RegsKept s t [0x200000 + 0x8000 * k + 0x108, 0x200000 + 0x8000 * k + 0x10C]) ∧
     ((s.tile k).work ≠ none ∨ (s.tile k).power ≠ .nap ∨ s.now < (s.tile k).since + (s.reg 0x20004).toNat ∨ s.pressNeeds k = true →
       exec (.tileIdleOff k) s = .next s) ∧
     ((s.quad q).pll = true → (∀ t, t < s.nTiles → quadOf t = q →
         (s.tile t).power = .off ∧ (s.tile t).work = none ∧ (s.tile t).role ≠ .selfTest ∧
         (s.tile t).since + (s.reg 0x20008).toNat ≤ s.now) → s.pressNeedsQuad q = false →
       exec (.quadrantPllStop q) s = .next (s.setQuad q { s.quad q with pll := false, mhz := 0, stepAt := none })) ∧
     ((∃ t, t < s.nTiles ∧ quadOf t = q ∧ (s.tile t).power ≠ .off) ∨ s.pressNeedsQuad q = true → exec (.quadrantPllStop q) s = .next s))

/-- MOVE, ISSUE, WAIT, BRANCH and LOOP (R275, R276, R283, R288): the word that the needle fetched, through a redirect slot where
one matches, acts on the needle of its tile alone, and NDL_PC reports it. Which variant of MOVE reads a register, what its
immediate is and which flag value a BRANCH takes are free values (log 20), a LOOP count comes from a register (log 20), and a
command whose class is not that of the word fetched issues nothing (log 41). -/
def Obligations.NeedleWords : Prop :=
  ∀ (s : State) (k : Nat) (w : Word), s.fetches k = true → (s.tile k).wordAt (s.tile k).ndl.pc = some w →
    let n := (s.tile k).ndl
    let shown := (s.tile k).reportAt n.pc
    let next := shown.toNat % 2 ^ 15 + 1
    let own (t : State) : Prop := t = { s with tiles := t.tiles, pmu := t.pmu } ∧ OtherTiles s t (· = k) ∧
      (t.tile k).work = (s.tile k).work ∧ (t.tile k).store = (s.tile k).store ∧ (t.tile k).ndl.shown = shown
    (opClass w = 0 → Answers (.move k) s fun t => own t ∧ (n.loops = [] → (t.tile k).ndl.pc = next) ∧ (t.tile k).ndl.state = 1 ∧
      ∀ r, (t.tile k).ndl.reg r = if r = opA w then
          (if Config.moveTakesRegister (opVariant w) then n.reg (opB w)
            else Config.moveImmediate (BitVec.ofNat 6 (opB w)) (BitVec.ofNat 15 (opImm w)))
        else n.reg r) ∧
    (opClass w = 1 → Answers (.issue k) s fun t => own t ∧ (n.loops = [] → (t.tile k).ndl.pc = next) ∧
      (t.tile k).ndl.gpr = n.gpr ∧
      ∀ u, tget (0, 0) (t.tile k).ndl.issued u = if u = opA w then (opImm w, n.reg (opB w)) else tget (0, 0) n.issued u) ∧
    (opClass w = 2 → (Answers (.wait k true) s fun t => own t ∧ (n.loops = [] → (t.tile k).ndl.pc = next) ∧
        (t.tile k).ndl.state = 1 ∧ (t.tile k).ndl.gpr = n.gpr) ∧
      (Answers (.wait k false) s fun t => own t ∧ (t.tile k).ndl.pc = n.pc ∧ (t.tile k).ndl.state = 2 ∧ (t.tile k).ndl.gpr = n.gpr)) ∧
    (opClass w = 3 → ∀ flag, Answers (.branch k flag) s fun t => own t ∧ (t.tile k).ndl.gpr = n.gpr ∧
      (opVariant w = 0 ∨ flag = Config.branchOnSet (opVariant w) → (t.tile k).ndl.pc = opImm w) ∧
      (opVariant w ≠ 0 → flag ≠ Config.branchOnSet (opVariant w) → n.loops = [] → (t.tile k).ndl.pc = next)) ∧
    (opClass w = 4 → Answers (.loop k) s fun t => own t ∧ (t.tile k).ndl.gpr = n.gpr ∧
      (n.reg (opA w) = 0 → (t.tile k).ndl.pc = opImm w + 1) ∧
      (n.reg (opA w) ≠ 0 → n.loops = [] →
        (t.tile k).ndl.pc = next ∧ (t.tile k).ndl.loops = [(next, opImm w, (n.reg (opA w)).toNat)])) ∧
    (opClass w ≠ 0 → exec (.move k) s = .next s) ∧ (opClass w ≠ 5 → ∀ r, exec (.commit k r) s = .next s)

/-- COMMIT that passes the commit check (R62, R242, R277): the tile has committed and counts it, the unit is committed with its
bytes, and the session shows the commit; the last unit of an encode picture ends the picture, and the unit of an access unit ends
it. The COMMIT of a gang part before the last member's waits with its result (R86). The COMMIT of a LIVE band before which a band
has still to commit holds its result and takes no effect on the picture yet (DEDUCED, log 39: the model's reading of R62 and
R144). No picture waits to be admitted. -/
def Obligations.CommitPasses : Prop :=
  ∀ (s : State) (k : Nat) (u : UnitRef) (p : Pic) (w : WUnit) (word : Word) (r : UnitResult),
    s.fetches k = true → (s.tile k).wordAt (s.tile k).ndl.pc = some word → opClass word = 5 → (s.tile k).work = some u →
    s.unitOf u = some (p, w) → (s.tile k).ndl.committed = false → w.recode = false →
    let x := s.ses u.ses
    s.checkUnit u p w r = 0 → (s.tile k).retireReq = false → (s.tile k).role = .active → NoneWaits s →
    (mayCommit x.cls p w = false → Answers (.commit k r) s fun t =>
      (t.tile k).ndl.committed = true ∧ (t.tile k).work = some u ∧ OtherTiles s t (· = k) ∧ OtherSessions s t (· = u.ses) ∧
      (t.reg (0x200000 + 0x8000 * k + 0x2010)).toNat = min 0xFFFFFFFF ((s.reg (0x200000 + 0x8000 * k + 0x2010)).toNat + 1) ∧
      (t.ses u.ses).pictures = x.pictures ∧ (t.ses u.ses).commitTime = x.commitTime ∧
      ∃ q, t.unitOf u = some (q, { w with st := .parked, result := some r })) ∧
    (x.cls ≠ clsLive → 1 < p.units.length → (∃ v ∈ p.units, v.idx ≠ w.idx ∧ v.st ≠ .parked) →
      (x.cls = clsDecode → u.idx = 0 → p.units.length ≤ r.dec.parts.length) → Answers (.commit k r) s fun t =>
        (t.tile k).ndl.committed = true ∧ (t.tile k).work = some u ∧ OtherTiles s t (· = k) ∧ OtherSessions s t (· = u.ses) ∧
        (t.ses u.ses).pictures = x.pictures ∧ t.mem = s.mem ∧
        ∃ q, t.unitOf u = some (q, { w with st := .parked, result := some r, replay := false })) ∧
    (x.cls = clsDecode → p.units.length ≤ 1 → x.pics.find? (fun q => q.num == u.pic) = some p →
      Answers (.commit k r) s fun t =>
        (t.tile k).ndl.committed = true ∧ (t.ses u.ses).commitTime = s.now ∧ (t.ses u.ses).commitSeq = p.cfgSeq ∧
        (t.ses u.ses).pictures = (x.pictures + 1) % 2 ^ 32 ∧ (t.ses u.ses).lastPic = p.num ∧
        (∀ q ∈ (t.ses u.ses).pics, q.num ≠ p.num)) ∧
    (mayCommit x.cls p w = true → (∀ v ∈ p.units, v.st ≠ .parked) → x.cls ≠ clsDecode → x.cls = clsLive ∨ p.units.length ≤ 1 →
      x.pics.find? (fun q => q.num == u.pic) = some p → Answers (.commit k r) s fun t =>
        (t.tile k).ndl.committed = true ∧ (t.tile k).work = some u ∧
        (t.reg (0x200000 + 0x8000 * k + 0x2010)).toNat =
          min 0xFFFFFFFF ((s.reg (0x200000 + 0x8000 * k + 0x2010)).toNat + 1) ∧
        (t.ses u.ses).commitTime = s.now ∧ (t.ses u.ses).commitSeq = p.cfgSeq ∧
        ((p.units.any fun v => v.idx != w.idx && !v.done) = true →
          (∃ q v, t.unitOf u = some (q, v) ∧ v.st = .committed ∧ v.bytes = unitBytes p w.idx r) ∧
          (t.ses u.ses).pictures = x.pictures ∧ (t.ses u.ses).pics.length = x.pics.length) ∧
        ((p.units.all fun v => v.idx == w.idx || v.done) = true →
          (t.ses u.ses).pictures = (x.pictures + 1) % 2 ^ 32 ∧ (t.ses u.ses).lastPic = p.num ∧
          (∀ q ∈ (t.ses u.ses).pics, q.num ≠ p.num)))

/-- A failed commit check, a TRAP word, a YIELD before the COMMIT and a fetch outside the stores end the routine (R242, R247,
R276, R277): the tile leaves its unit for a self-test, the trap is counted, class 8 latches, and a unit with attempts left is
ready again as a replay. YIELD after the COMMIT rests the tile. -/
def Obligations.TrapAndYield : Prop :=
  ∀ (s : State) (k : Nat) (u : UnitRef) (p : Pic) (w : WUnit) (c : Instr),
    s.fetches k = true → (s.tile k).work = some u → s.unitOf u = some (p, w) → w.recode = false →
    let word := (s.tile k).wordAt (s.tile k).ndl.pc
    ((s.tile k).ndl.committed = false → w.attempts < fld (s.reg 0xF0000) 2 0 →
      ((∃ r v, c = .trap k r ∧ word = some v ∧ opClass v = 7) ∨ (∃ v, c = .yield k ∧ word = some v ∧ opClass v = 6) ∨
        (∃ r v, c = .commit k r ∧ word = some v ∧ opClass v = 5 ∧ s.checkUnit u p w r ≠ 0) ∨
        (∃ r, c = .trap k r ∧ word = none)) →
      Answers c s fun t =>
        (t.tile k).work = none ∧ ((t.tile k).role = .selfTest ∨ (t.tile k).role = .retired) ∧ t.flt.status.getLsbD 8 = true ∧
        (t.reg (0x200000 + 0x8000 * k + 0x2018)).toNat =
          min 0xFFFFFFFF ((s.reg (0x200000 + 0x8000 * k + 0x2018)).toNat + 1) ∧
        (t.ses u.ses).replays = min 0xFFFFFFFF ((s.ses u.ses).replays + 1) ∧
        ∃ q v, t.unitOf u = some (q, v) ∧ v.st = .ready ∧ v.replay = true ∧ k ∈ v.failedOn) ∧
    ((s.tile k).ndl.committed = true → ∀ v, c = .yield k → word = some v → opClass v = 6 → Answers c s fun t =>
      t = { s with tiles := t.tiles, pmu := t.pmu } ∧ OtherTiles s t (· = k) ∧ (t.tile k).work = none ∧
      (t.tile k).power = .nap ∧ (t.tile k).since = s.now ∧ (t.tile k).ndl.state = 0 ∧ (t.tile k).ndl.gpr = [])

/-- ROUTINE_ABANDON (R281, R282): the needle stops at the boundary for the cause it holds, which NDL_LAST_ABANDON records with the
address; its tile naps without work, and a unit not yet committed is ready again: as a patch move for cause 3, without an
attempt counted for the ARCHIVE causes 4 and 5. A tile fault and the watchdog (R248): the tile leaves its unit at once for a
self-test, the class latches (9 store parity, 10 window store, 11 watchdog), and a unit with attempts left is ready again as a
patch move that avoids the tile. On a tile that a press loads, a fault counts as a failed store check and the press rolls back
(R51); it raises no class then (DEDUCED, log 103). -/
def Obligations.RoutineEnds : Prop :=
  (∀ (s : State) (k cause : Nat) (u : UnitRef) (p : Pic) (w : WUnit),
     s.live = true → k < s.nTiles → (s.tile k).role ≠ .selfTest → cause ∈ [1, 3, 4, 5] → (s.tile k).abandon = 2 ^ cause →
     (s.tile k).work = some u → s.unitOf u = some (p, w) → (s.tile k).ndl.committed = false →
     Answers (.routineAbandon k) s fun t =>
       (t.tile k).work = none ∧ (t.tile k).power = .nap ∧ (t.tile k).abandon = 0 ∧ (t.tile k).ndl.state = 0 ∧
       (t.tile k).ndl.gpr = [] ∧
       (t.tile k).ndl.lastAbandon = mkWord [(0, (s.tile k).ndl.shown.toNat % 2 ^ 15), (16, cause)] ∧
       (t.reg (0x200000 + 0x8000 * k + 0x2014)).toNat =
         min 0xFFFFFFFF ((s.reg (0x200000 + 0x8000 * k + 0x2014)).toNat + 1) ∧
       OtherTiles s t (· = k) ∧ OtherSessions s t (· = u.ses) ∧ t.pat = s.pat ∧
       (cause = 3 → (t.ses u.ses).patchMoves = min 0xFFFF ((s.ses u.ses).patchMoves + 1)) ∧
       ∃ q v, t.unitOf u = some (q, v) ∧ v.st = .ready ∧
         (cause = 1 → v = { w with st := .ready }) ∧ (cause = 3 → v = { w with st := .ready, replay := true }) ∧
         (cause = 4 ∨ cause = 5 → v = { w with st := .ready, replay := false, result := none, attempts := w.attempts - 1 })) ∧
  (∀ (s : State) (k cls : Nat) (c : Instr) (u : UnitRef) (p : Pic) (w : WUnit),
     s.live = true → k < s.nTiles → (s.tile k).role = .active ∨ (s.tile k).role = .spare → (s.tile k).power ≠ .off →
     (s.tile k).work = some u → s.unitOf u = some (p, w) → (s.tile k).ndl.committed = false →
     w.attempts < fld (s.reg 0xF0000) 2 0 →
     (c = .tileFault k .storeParity ∧ cls = 9) ∨ (c = .tileFault k .windowWord ∧ cls = 10) ∨ (c = .tileWatchdog k ∧ cls = 11) →
     (cls ≠ 11 → s.ldr.busy = true → s.ldr.phase = 5 → inMask (tget 0 s.ldr.next.roles k) s.ldr.pressing = true →
       exec c s = .next (s.rollBack 0x10)) ∧
     (s.ldr.busy = false ∨ cls = 11 → Answers c s fun t =>
       (t.tile k).work = none ∧ ((t.tile k).role = .selfTest ∨ (t.tile k).role = .retired) ∧ t.flt.status.getLsbD cls = true ∧
       (t.tile k).ndl.lastAbandon = mkWord [(0, (s.tile k).ndl.shown.toNat % 2 ^ 15), (16, 2)] ∧
       (t.ses u.ses).patchMoves = min 0xFFFF ((s.ses u.ses).patchMoves + 1) ∧ t.pat = s.pat ∧
       ∃ q v, t.unitOf u = some (q, v) ∧ v.st = .ready ∧ v.replay = true ∧ k ∈ v.failedOn))

/-- SELF_TEST_DONE (R252, R255, Table 12.3): a tile that passes takes back its role, a retested one is a spare, napping with the
program set in force in its store; one that fails is retired, counted, and class 12 latches. RETIRE and RETEST (R254, R255):
an idle tile in service retires at once and is powered off, one that runs a unit at the unit's commit; the last active tile of
a panel in use and a tile out of service are refused; a retired tile runs a self-test again with its strikes at 0 and its
quadrant's PLL running, and no other tile may. PANEL_RESET_DONE and BUDGET_STOP (R185, R267): with no unit of the panel in
flight the reset ends, its tiles and spares hold the panel's program set again and those whose reload failed are retired; a
decode unit that has run for its budget of tile cycles (mult x P x 3 / 20 + 3 x A + 65,536, of a gang its part of the CTUs) is
marked so, and one that has not stays as it is. -/
def Obligations.TileRepair : Prop :=
  (∀ (s : State) (k : Nat), s.live = true → k < s.nTiles → (s.tile k).role = .selfTest →
     ((s.tile k).retireReq = false → (s.tile k).retest = true ∨ (s.tile k).back = .active ∨ (s.tile k).back = .spare →
       Answers (.selfTestDone k .pass) s fun t =>
         t = { s with tiles := t.tiles, regs := t.regs } ∧ OtherTiles s t (· = k) ∧
         (t.tile k).role = (if (s.tile k).retest then .spare else (s.tile k).back) ∧ (t.tile k).power = .nap ∧
         (t.tile k).result = 1 ∧ (t.tile k).work = none ∧ (t.tile k).store = tblOf (s.panel (s.tile k).panel).words) ∧
     (∀ e, e ≠ .pass → Answers (.selfTestDone k e) s fun t =>
       (t.tile k).role = .retired ∧ (t.tile k).result = 2 ∧ (t.tile k).power = .off ∧ t.flt.status.getLsbD 12 = true ∧
       (t.reg 0xF0024).toNat = min 0xFFFFFFFF ((s.reg 0xF0024).toNat + 1) ∧ t.pat = s.pat)) ∧
  (∀ (s : State) (k : Nat), s.live = true → k < 64 →
     let ask (cmd : Nat) : Word := BitVec.ofNat 32 (k + 256 * cmd)
     (s.retireOk k = true → (s.tile k).work = none → Answers (.retire k) s fun t =>
       (t.tile k).role = .retired ∧ (t.tile k).power = .off ∧ (t.tile k).work = none ∧
       (t.reg 0xF0028).toNat = min 0xFFFFFFFF ((s.reg 0xF0028).toNat + 1) ∧ t.pat = s.pat) ∧
     (s.retireOk k = true → (s.tile k).work ≠ none →
       exec (.retire k) s = .next (s.setTile k { s.tile k with retireReq := true })) ∧
     (s.retireOk k = false → exec (.retire k) s = .next (s.ignored 0xF0008 (ask 1))) ∧
     (k < s.nTiles → (s.tile k).role = .retired → Answers (.retest k) s fun t =>
       t = { s with tiles := t.tiles, pwr := t.pwr } ∧ OtherTiles s t (· = k) ∧ (t.tile k).role = .selfTest ∧
       (t.tile k).strikes = 0 ∧ (t.tile k).power = .run ∧ (t.tile k).retest = true ∧ (t.quad (quadOf k)).pll = true) ∧
     (s.nTiles ≤ k ∨ (s.tile k).role ≠ .retired → exec (.retest k) s = .next (s.ignored 0xF0008 (ask 2)))) ∧
  (∀ (s : State) (panel k : Nat) (u : UnitRef) (p : Pic) (w : WUnit), s.live = true →
     (nbit s.resetting panel = true → panel < 16 → s.inFlight panel = false → Answers (.panelResetDone panel []) s fun t =>
       t = { s with tiles := t.tiles, regs := t.regs, resetting := t.resetting } ∧ nbit t.resetting panel = false ∧
       (∀ i ∈ s.serving panel, (t.tile i).store = tblOf (s.panel panel).words ∧ (t.tile i).role = (s.tile i).role) ∧
       OtherTiles s t (· ∈ s.serving panel)) ∧
     (nbit s.resetting panel = true → panel < 16 → s.inFlight panel = false → ∀ i ∈ s.serving panel,
       Answers (.panelResetDone panel [i]) s fun t => (t.tile i).role = .retired ∧ nbit t.resetting panel = false ∧ t.pat = s.pat) ∧
     (∀ samples part whole, (s.tile k).work = some u → s.unitOf u = some (p, w) → (s.ses u.ses).cls = clsDecode →
       (s.tile k).ndl.committed = false →
       let all := (fld (cget p.cfg 0x324) 5 0 * samples * 3 + 19) / 20 + 3 * p.auBytes + 65536
       let budget := if 1 < p.units.length then all * part / max 1 whole else all
       (budget ≤ s.cyclesSince k w.woke → Answers (.budgetStop ⟨k, samples, part, whole⟩) s fun t =>
         t = { s with sessions := t.sessions } ∧ OtherSessions s t (· = u.ses) ∧
         ∃ q, t.unitOf u = some (q, { w with budget := true })) ∧
       (s.cyclesSince k w.woke < budget → exec (.budgetStop ⟨k, samples, part, whole⟩) s = .next s)))

/-- HOST_UNIT_DELIVERY (R66, R67, R169, R170, R183): the oldest delivery of a session, whose pages read clean, goes into the byte
buffer where it fits without being split, wrapping to offset 0, and its record follows in the output ring; a full ring or a full
buffer holds it. A page whose label fails sends its unit back to be coded again and latches class 17 (R171). A decoded picture's
copy goes before its record, and its slot is held from then on (R182). No picture waits to be admitted. -/
def Obligations.HostUnitDelivery : Prop :=
  ∀ (s : State) (n : Nat) (o : OutItem) (rest : List OutItem), s.live = true → s.hif.flr = [] → (s.ses n).outq = o :: rest →
    NoneWaits s →
    let x := s.ses n
    let read := s.readParts o.parts
    let size := bufSize x.cfg
    let off := if size - x.bufFill < o.bytes then 0 else x.bufFill
    let wrap := if size - x.bufFill < o.bytes then 64 else 0
    (o.record = true → x.outFull = true → exec (.hostUnitDelivery n none) s = .next s) ∧
    (x.outFull = false → s.beingRecoded n o = false → o.dec = none → o.copy = true → o.record = true → o.parts ≠ [] →
      o.bytes ≤ (x.bufHead + 2 * size - off - 1) % size → ∀ bs, read.2 = .ok bs →
      read.1 = { s with hbm := read.1.hbm, pmu := read.1.pmu } → Answers (.hostUnitDelivery n none) s fun t =>
        (t.ses n).outq = rest ∧ (t.ses n).bufFill = off + o.bytes ∧
        (t.ses n).outTail = (x.outTail + 1) % ringSize x.cfg 0x2E0 ∧
        .unitData n off (hostForm x.cfg bs) ∈ t.outbox ∧
        .record n (x.outTail % ringSize x.cfg 0x2E0) (encRecord o off (o.flags + wrap)) ∈ t.outbox ∧ t.pat = s.pat ∧ t.mem = s.mem) ∧
    (x.outFull = false → s.beingRecoded n o = false → o.dec = none → o.copy = true → o.parts ≠ [] →
      (x.bufHead + 2 * size - off - 1) % size < o.bytes → exec (.hostUnitDelivery n none) s = .next s) ∧
    (x.outFull = false → s.beingRecoded n o = false → o.dec = none → o.copy = true → o.parts ≠ [] → NotFatal s 17 →
      o.bytes ≤ (x.bufHead + 2 * size - off - 1) % size → read.1 = { s with hbm := read.1.hbm, pmu := read.1.pmu } →
      ∀ byte p w, let u : UnitRef := { ses := n, pic := o.pic, idx := partAt o.parts byte }
      s.unitOf u = some (p, w) → w.recoded = false → w.recode = false → Answers (.hostUnitDelivery n (some byte)) s fun t =>
        t.flt.status.getLsbD 17 = true ∧ (t.ses n).outq = o :: rest ∧ t.mem = s.mem ∧
        ∃ q v, t.unitOf u = some (q, v) ∧ v.st = .ready ∧ v.recode = true) ∧
    (x.outFull = false → s.beingRecoded n o = false → o.copy = true → o.record = true →
      ∀ d, o.dec = some d → d.slot ≠ 0xFFFF → Answers (.hostUnitDelivery n none) s fun t =>
        (t.ses n).outq = rest ∧ (t.ses n).outTail = (x.outTail + 1) % ringSize x.cfg 0x2E0 ∧
        tget 0 (t.ses n).dec.slots d.slot = 3 ∧ .windowCopy n d.slot d.stage ∈ t.outbox ∧
        .record n (x.outTail % ringSize x.cfg 0x2E0) (decRecord x.cfg o d) ∈ t.outbox ∧ OtherSessions s t (· = n) ∧
        t.tiles = s.tiles ∧ t.mem = s.mem)

/-- Ethernet links (R200, R217, R218): a port whose lanes are on comes up with its lock and the time; a port that goes down raises
class 26 and moves every flow with a backup to it; FAILBACK returns a flow whose queue is empty once its primary has been up
for HOLD. HTX_TAIL takes a tail within the ring (R216, R219). -/
def Obligations.EthernetLinks : Prop :=
  ∀ (s : State) (p n : Nat) (v : Word), s.live = true → p < 2 →
    ((s.eth p).link = false → s.laneMode p ≠ 0 → Answers (.ethLinkUp p) s fun t =>
      t = { s with eths := t.eths, hif := t.hif, outbox := t.outbox } ∧ t.eth (1 - p) = s.eth (1 - p) ∧
      t.eth p = { s.eth p with link := true, fec := true, anDone := (s.reg (ethBase p)).getLsbD 0, upAt := s.now }) ∧
    ((s.eth p).link = true → Answers (.ethLinkDown p) s fun t =>
      t.eth p = { s.eth p with link := false, fec := false, anDone := false } ∧ t.eth (1 - p) = s.eth (1 - p) ∧
      t.flt.status.getLsbD 26 = true ∧ t.pat = s.pat ∧ t.now = s.now ∧
      ∀ m ∈ s.flowsOf p, flBackup (s.sub m).entry ≠ 0xFF → (t.sub m).moved = true) ∧
    ((s.eth p).link = false → exec (.ethLinkDown p) s = .next s) ∧
    (s.subPort n = p → (s.sub n).moved = true → (s.reg (ethBase p)).getLsbD 2 = true → (s.eth p).link = true →
      (s.eth p).upAt + (s.reg (ethBase p + 0x2C)).toNat ≤ s.now → (s.sub n).queue = [] → Answers (.failback n) s fun t =>
        t = { s with subs := t.subs } ∧ t.sub n = { s.sub n with moved := false } ∧ ∀ m, m ≠ n → t.sub m = s.sub m) ∧
    (s.subPort n = p → (s.sub n).moved = false ∨ (s.eth p).link = false ∨ (s.reg (ethBase p)).getLsbD 2 = false →
      exec (.failback n) s = .next s) ∧
    (v.toNat % 4096 < s.ethRing p 0x48 → exec (.htxTailWrite p v) s = .next (s.setReg (ethBase p + 0x54) (v &&& 0xFFF))) ∧
    (s.ethRing p 0x48 ≤ v.toNat % 4096 → exec (.htxTailWrite p v) s = .next (s.ignored (ethBase p + 0x54) v))

/-- A frame at a port whose link is up (R201 to R206): one with a bad check sequence, a PAUSE frame, one that the length, the tag,
IP, UDP or the address filter rejects are counted; one of no flow is punted with its stamp while the ring has room; the first
packet of an ingest flow opens a picture, which its marker closes. The time limit closes each picture that is due. -/
def Obligations.EthernetReceive : Prop :=
  ∀ (s : State) (p k : Nat) (frame : List Byte), s.live = true → p < 2 → (s.eth p).link = true →
    let f := readFrame frame
    let cnt (i : Nat) : Nat := ethCnt p i
    let mtu := (s.reg (ethBase p + 0x24)).toNat % 16384
    let badLength := f.length < 64 ∨ mtu + 22 < f.length
    let badHeader := f.secondTag = true ∨ f.ipBad = true ∨ f.udpBad = true ∨ s.macOk p f.dstMac.toNat = false
    let counted (t : State) (l : List Nat) : Prop :=
      (∀ i ∈ l, (t.reg (cnt i)).toNat = min 0xFFFFFFFF ((s.reg (cnt i)).toNat + 1)) ∧ RegsKept s t (l.map cnt)
    let passes := f.fcsOk = true ∧ ¬ badLength ∧ f.isPause = false ∧ ¬ badHeader
    (f.fcsOk = false → Answers (.ethFrameReceive p frame) s fun t => t = { s with regs := t.regs } ∧ counted t [0, 1]) ∧
    (f.fcsOk = true → badLength ∨ f.isPause = false ∧ badHeader →
      Answers (.ethFrameReceive p frame) s fun t => t = { s with regs := t.regs } ∧ counted t [0, 2]) ∧
    (f.fcsOk = true → ¬ badLength → f.isPause = true →
      Answers (.ethFrameReceive p frame) s fun t => t = { s with regs := t.regs } ∧ counted t [0, 3]) ∧
    (passes → (∀ e ∈ s.ingest, flowMatch e.2.entry p f = false) → (s.reg (ethBase p)).getLsbD 1 = true → s.ethRing p 0x30 ≠ 0 →
      ((s.eth p).puntTail + 1) % s.ethRing p 0x30 ≠ (s.reg (ethBase p + 0x3C)).toNat % 4096 % s.ethRing p 0x30 →
      Answers (.ethFrameReceive p frame) s fun t =>
        t = { s with regs := t.regs, eths := t.eths, outbox := t.outbox } ∧ counted t [0, 4] ∧
        t.eth p = { s.eth p with puntTail := ((s.eth p).puntTail + 1) % s.ethRing p 0x30 } ∧ t.eth (1 - p) = s.eth (1 - p) ∧
        t.outbox = s.outbox ++ [.punt p (s.eth p).puntTail (min (f.length - 4) 2032) (if 2032 < f.length - 4 then p + 2 else p)
          (s.rxStamp p) (f.payload.take (min (f.length - 4) 2032))]) ∧
    (let fl := s.flow k
      let x := s.ses (inSes fl.entry)
      let g := pgroup (inSampling fl.entry)
      passes → (∃ e, s.ingest.find? (fun e => flowMatch e.2.entry p f) = some (k, e)) → fl.pics = [] → fl.high = 0 → x.pics = [] →
      inDepth fl.entry ≠ 0 → f.srdOverrun = false → (inCheckSsrc fl.entry = true → f.ssrc.toNat = inSsrc fl.entry) →
      (∀ r ∈ f.srd, r.2.2 = [] ∨
        (r.1 < cH x.cls x.cfg ∧ r.2.1 + r.2.2.length / g.1 * g.2 ≤ cW x.cls x.cfg ∧ r.2.2.length % g.1 = 0)) →
      fl.skip ≠ some f.rtpTs → Answers (.ethFrameReceive p frame) s fun t =>
        t = { s with regs := t.regs, ingest := t.ingest } ∧ counted t [0] ∧ (∀ j, j ≠ k → t.flow j = s.flow j) ∧
        t.flow k = { fl with
          high := f.seq, skip := none
          pics := [{ ({ rtpTs := f.rtpTs, frame0 := s.rxStamp p, firstSeq := f.seq } : IngPic).add (inSampling fl.entry)
            (ingestLine (inSampling fl.entry) (cW x.cls x.cfg)) f with closed := f.marker }] }) ∧
    (let fl := s.flow k
      let x := s.ses (inSes fl.entry)
      Answers (.ingestCloseTimeout k) s fun t =>
        t = { s with ingest := t.ingest, regs := t.regs, sessions := t.sessions, outbox := t.outbox } ∧
        (∀ j, j ≠ k → t.flow j = s.flow j) ∧ OtherSessions s t (fun m => m = inSes fl.entry ∨ m ∈ s.members (inSes fl.entry)) ∧
        (t.flow k).pics.map (·.rtpTs) = fl.pics.map (·.rtpTs) ∧ (t.flow k).entry = fl.entry ∧
        (∀ q ∈ (t.flow k).pics, q.closed = true ∨ s.now < s.ingReady k q + tBand x.cls x.cfg))

/-- MGL_FLOW_SEL, MGL_SUB_SEL and MGL_SVC_SEL (R219, R226, R233, R241): load copies an entry to the data registers, commit applies
them, with the credit reset where a setting of the bucket changed, flush empties a subscriber's queue and counts its units; an
illegal setting, a busy ingest session or an absent entry make the write ignored. MGL_PORTn_SHAPE likewise. -/
def Obligations.MangleTables : Prop :=
  ∀ (s : State) (v : Word) (p : Nat), s.live = true →
    let n := v.toNat % 4096
    let k := v.toNat % 256
    let w (i : Nat) : Word := s.reg (0xE1010 + 4 * i)
    let y (i : Nat) : Word := s.reg (0xE2010 + 4 * i)
    let others (t : State) : Prop := ∀ m, m ≠ n → t.sub m = s.sub m
    let restart (old new : Shape) (full : Bool) (b : Bucket) : Bucket :=
      if new = old then b else { c := if full then (new.depth : Int) else 0, a := 0, at_ := s.now }
    ((v &&& 0xE000) = 0 → v.getLsbD 12 = false ∨ n < 32 → Answers (.flowLoad v) s fun t =>
      t = { s with regs := t.regs } ∧ t.reg 0xEA000 = v &&& 0x1FFF ∧
      (∀ i, i < 16 → t.reg (0xEA040 + 4 * i) =
        w32 (leAt (if v.getLsbD 12 then (s.flow n).entry else (s.sub n).flowNext) (4 * i) 4)) ∧
      RegsKept s t (0xEA000 :: (upto 16).map fun i => 0xEA040 + 4 * i)) ∧
    ((v &&& 0xE000) = 0 → v.getLsbD 12 = false → Answers (.flowCommit v) s fun t =>
      t = { s with regs := t.regs, subs := t.subs } ∧ RegsKept s t [0xEA000] ∧ others t ∧
      t.sub n = { s.sub n with flowNext := s.flowData, hasFlow := true }) ∧
    ((v &&& 0xE000) = 0 → v.getLsbD 12 = true → n < 32 → s.ingestBusy n s.flowData = false → Answers (.flowCommit v) s fun t =>
      t = { s with regs := t.regs, ingest := t.ingest } ∧ RegsKept s t [0xEA000] ∧ t.flow n = { entry := s.flowData } ∧
      ∀ m, m ≠ n → t.flow m = s.flow m) ∧
    ((v &&& 0xE000) = 0 → v.getLsbD 12 = true → n < 32 → s.ingestBusy n s.flowData = true →
      exec (.flowCommit v) s = .next (s.ignored 0xEA000 (v ||| 0x4000))) ∧
    ((v &&& 0xE000) = 0 → v.getLsbD 12 = true → 32 ≤ n →
      exec (.flowCommit v) s = .next (s.ignored 0xEA000 (v ||| 0x4000)) ∧
      exec (.flowLoad v) s = .next (s.ignored 0xEA000 (v ||| 0x2000))) ∧
    ((v &&& 0xE000) = 0 → Answers (.subLoad v) s fun t =>
      t = { s with regs := t.regs } ∧ t.reg 0xE1000 = v &&& 0xFFF ∧
      (∀ i, i < 4 → t.reg (0xE1010 + 4 * i) = tget 0 (s.sub n).d i) ∧
      RegsKept s t [0xE1000, 0xE1010, 0xE1014, 0xE1018, 0xE101C]) ∧
    ((v &&& 0xE000) = 0 → shapeLegal (w 0) (w 1) = true → (w 0).getLsbD 31 = true → (w 2).toNat / 256 % 256 ≠ 0 →
      (w 2).toNat / 64 % 4 = s.subPort n → s.autoPaced n = false → Answers (.subCommit v) s fun t =>
        t = { s with regs := t.regs, subs := t.subs } ∧ RegsKept s t [0xE1000] ∧ others t ∧ (t.sub n).queue = (s.sub n).queue ∧
        tget 0 (t.sub n).d 0 = w 0 &&& 0x9FFFFFFF ∧ tget 0 (t.sub n).d 1 = w 1 ∧ tget 0 (t.sub n).d 2 = w 2 &&& 0xFFFF ∧
        tget 0 (t.sub n).d 3 = w 3 ∧
        (t.sub n).bucket = restart (s.shape (.sub n)) (shapeOf (w 0) (w 1)) ((w 0).getLsbD 29) (s.sub n).bucket) ∧
    ((v &&& 0xE000) = 0 → shapeLegal (w 0) (w 1) = false ∨ ((w 0).getLsbD 31 = true ∧ (w 2).toNat / 256 % 256 = 0) →
      exec (.subCommit v) s = .next (s.ignored 0xE1000 (v ||| 0x4000))) ∧
    ((v &&& 0xE000) = 0 → Answers (.subFlush v) s fun t =>
      (t.sub n).queue = [] ∧ others t ∧ t.pat = s.pat ∧
      (t.reg 0xE010C).toNat = min 0xFFFFFFFF ((s.reg 0xE010C).toNat + (s.sub n).queue.length)) ∧
    ((v &&& 0x6000) = 0 → Answers (.svcLoad v) s fun t =>
      t = { s with regs := t.regs } ∧ t.reg 0xE2000 = v &&& 0xFF ∧ t.reg 0xE2010 = (s.svc k).d0 ∧ t.reg 0xE2014 = (s.svc k).d1 ∧
      t.reg 0xE2018 = (s.svc k).d2 ∧ RegsKept s t [0xE2000, 0xE2010, 0xE2014, 0xE2018]) ∧
    ((v &&& 0x6000) = 0 → shapeLegal (y 0) (y 1) = true → (y 0).getLsbD 30 = false ∨ (y 0).toNat % 65536 = 0 →
      (y 2).toNat / 256 % 256 ≠ 0 → Answers (.svcCommit v) s fun t =>
        t = { s with regs := t.regs, svcs := t.svcs } ∧ RegsKept s t [0xE2000] ∧ (∀ m, m ≠ k → t.svc m = s.svc m) ∧
        t.svc k = { s.svc k with
          d0 := y 0 &&& 0xDFFFFFFF, d1 := y 1, d2 := y 2 &&& 0xFF77
          bucket := restart (s.shape (.svc k)) (shapeOf (y 0) (y 1)) ((y 0).getLsbD 29) (s.svc k).bucket }) ∧
    ((v &&& 0x6000) = 0 → shapeLegal (y 0) (y 1) = false ∨ ((y 0).getLsbD 30 = true ∧ (y 0).toNat % 65536 ≠ 0) ∨
        (y 2).toNat / 256 % 256 = 0 →
      exec (.svcCommit v) s = .next (s.ignored 0xE2000 (v ||| 0x4000))) ∧
    (p < 4 →
      let off := 0xE3000 + 0x10 * p
      (v.toNat % 65536 = 0 ∨ v.toNat / 65536 % 4096 ≠ 0 → Answers (.portShapeWrite p v) s fun t =>
        t = { s with regs := t.regs, portBkt := t.portBkt } ∧ t.reg off = v &&& 0x8FFFFFFF ∧ RegsKept s t [off] ∧
        t.bucket (.port p) = restart (s.shape (.port p)) (t.shape (.port p)) (v.getLsbD 31) (s.bucket (.port p)) ∧
        ∀ q, q ≠ p → t.bucket (.port q) = s.bucket (.port q)) ∧
      (v.toNat % 65536 ≠ 0 → v.toNat / 65536 % 4096 = 0 → exec (.portShapeWrite p v) s = .next (s.ignored off v)))

/-- Gate lists (R236 to R238): a legal change computes its time T and is pending until then, a cancel withdraws it, at T the admin
list becomes the operating list or every gate opens, and each entry holds for its interval, the last to the end of the cycle.
-/
def Obligations.GateLists : Prop :=
  ∀ (s : State) (p : Nat) (v : Word), s.live = true → p < 2 →
    let g := s.gate p
    let cycle := (s.reg (ethBase p + 0x14C)).toNat
    let len := (s.reg (ethBase p + 0x150)).toNat % 512
    let base := (s.reg (ethBase p + 0x144)).toNat + (s.reg (ethBase p + 0x148)).toNat * 2 ^ 32
    let at_ := if s.now < base then base else base + ((s.now - base) / cycle + 1) * cycle
    (s.gateLegal p = true → exec (.gateChange p v) s =
      .next (s.setGate p { g with pending := true, pendOn := v.getLsbD 0, chg := at_ })) ∧
    (s.gateLegal p = false → exec (.gateChange p v) s = .next (s.ignored (ethBase p + 0x140) (v ||| 2))) ∧
    (exec (.gateCancel p v) s = .next (s.setGate p { g with pending := false })) ∧
    (g.pending = true → ∀ r, r ∈ [0x144, 0x148, 0x14C, 0x150] ∨ (0x400 ≤ r ∧ r < 0x800 ∧ r % 4 = 0) →
      exec (.registerWrite 0 (ethBase p + r) (.words [v])) s = .next (s.ignored (ethBase p + r) v)) ∧
    (∀ (b : BucketId) (h : Gate), Answers (.creditRise b) s fun u => Answers (.creditRise b) (s.setGate p h) fun t =>
      t.bucket b = u.bucket b ∧ t.gate p = h) ∧
    (g.pending = true → g.chg ≤ s.now → g.pendOn = true → Answers (.gateListStart p) s fun t =>
      t = s.setGate p { g with
        oper := (t.gate p).oper, operLen := len, operCycle := cycle, on := true, entry := 0, entryAt := g.chg, cycleAt := g.chg,
        pending := false } ∧
      (∀ i, tget 0 (t.gate p).oper i = if i < len then s.reg (ethBase p + 0x400 + 4 * i) else 0)) ∧
    (g.pending = true → g.chg ≤ s.now → g.pendOn = false → exec (.gateListStart p) s =
      .next (s.setGate p { g with oper := [], operLen := 0, on := false, entry := 0, pending := false })) ∧
    (g.pending = false ∨ s.now < g.chg → exec (.gateListStart p) s = .next s) ∧
    (g.on = true →
      let stop := g.cycleAt + g.operCycle
      let fin := g.entryAt + (tget 0 g.oper g.entry).toNat / 256
      (g.entry + 1 < g.operLen → fin < stop → fin ≤ s.now → exec (.gateEntryAdvance p) s =
        .next (s.setGate p { g with entry := g.entry + 1, entryAt := fin })) ∧
      (g.operLen ≤ g.entry + 1 ∨ stop ≤ fin → stop ≤ s.now → exec (.gateEntryAdvance p) s =
        .next (s.setGate p { g with entry := 0, entryAt := stop, cycleAt := stop })) ∧
      (g.entry + 1 < g.operLen → s.now < min stop fin → exec (.gateEntryAdvance p) s = .next s))

/-- The mangle's traffic: CREDIT_RISE of a bucket below its depth (R223); PACKET_SELECT hands off the live packet of the earliest
commit first (R227), as an RTP packet with its sequence number, timestamp and marker (R209) or to the host packet ring (R343),
and charges every level that has a bucket one credit (R224); with nothing queued a host frame goes (R216); UNIT_STALE drops
the units past the subscriber's limit (R232). -/
def Obligations.MangleTraffic : Prop :=
  ∀ (s : State) (p n : Nat) (b : BucketId) (c : Cand) (htx : List Byte), s.live = true →
    (let h := s.shape b
      let x := s.bucket b
      let a := x.a + h.rate * (s.now - x.at_)
      (h.rate ≠ 0 → h.period ≠ 0 → x.c < h.depth → h.period ≤ a → exec (.creditRise b) s =
        .next (s.setBucket b { c := x.c + 1, a := if x.c + 1 = h.depth then 0 else a - h.period, at_ := s.now })) ∧
      (h.rate = 0 ∨ h.period = 0 ∨ h.depth ≤ x.c ∨ a < h.period → exec (.creditRise b) s = .next s)) ∧
    (let goes := c ∈ s.cands p ∧ c.isLive = true ∧ (∀ d ∈ s.cands p, d.isLive = true → d ≠ c → c.q.commit < d.q.commit) ∧
        ((s.shape (.port p)).has = false ∨ -4095 < (s.bucket (.port p)).c)
      let x := s.sub c.sub
      let e := x.nextEntry c.q
      let charged (t : State) : Prop := ∀ l ∈ [.sub c.sub, .svc c.svc, .port p], (s.shape l).has = true →
        (t.bucket l).c = (s.bucket l).c - 1
      let moved (t : State) (more : List EPkt) (rest : List QUnit) : Prop :=
        (t.sub c.sub).queue.map (·.pkts) = (if more = [] then [] else [more]) ++ rest.map (·.pkts) ∧
          (∀ m, m ≠ c.sub → t.sub m = s.sub m) ∧ t.pat = s.pat
      let read := s.readPkt c.q
      goes → NoneWaits s → read.1 = { s with hbm := read.1.hbm, pmu := read.1.pmu } → ∀ d, read.2 = some d →
      ∀ pk more rest, x.queue = c.q :: rest → c.q.pkts = pk :: more →
        (p < 2 → s.laneMode p ≠ 0 → (s.eth p).link = true → x.switches c.q = false → flSrtp e = false →
          Answers (.packetSelect p htx .good) s fun t =>
            moved t more rest ∧ charged t ∧ (t.sub c.sub).seq = (x.seq + 1) % 65536 ∧ (t.sub c.sub).flow = e ∧
            (t.reg (ethCnt p 5)).toNat = min 0xFFFFFFFF ((s.reg (ethCnt p 5)).toNat + 1) ∧
            let ts := (c.q.pts / 16016 + flTsOffset e) % 2 ^ 32
            let marker := c.q.lastOfPic && decide (more = [])
            let packet := rtpHdr e x.seq ts marker ++ payload c.q.codec (c.q.fresh && c.q.newSeq) marker pk.form d
            .rtp p c.sub x.seq ts marker pk.bytes none (flKeySlot e)
              (ethFrame e (beBytes 6 (s.portMac p)) (ipPart e (s.portIp p (flIp6 e)) packet (Config.ipIdent c.sub x.seq)
                (Config.flowLabel c.sub))) ∈ t.outbox) ∧
        (p = 2 → ∀ fn, leAt x.entry 0 2 = fn → s.hif.flr = [] → Answers (.packetSelect p htx .good) s fun t =>
            moved t more rest ∧ charged t ∧ (t.fn fn).hprTail = ((s.fn fn).hprTail + 1) % (s.fn fn).hprEntries ∧
            let entry := hprHeader x c ++ startCodes c.q.slots pk.at_ d
            .hpr fn (s.fn fn).hprTail (entry ++ List.replicate (2048 - entry.length) 0) ∈ t.outbox)) ∧
    (p < 2 → s.laneMode p ≠ 0 → s.cands p = [] →
      let size := s.ethRing p 0x48
      let i := (s.eth p).htxHead
      let entry := htx.take 64
      let len := leAt entry 8 2
      let data := (htx.drop 64).take len
      (size ≠ 0 → i % size ≠ (s.reg (ethBase p + 0x54)).toNat % 4096 % size → 64 ≤ htx.length → ownerBit entry = true →
        60 ≤ len → len ≤ 9212 → (s.gate p).on = false → (s.eth p).link = true → leAt entry 10 2 % 2 = 0 →
        Answers (.packetSelect p htx .good) s fun t =>
          t = { s with
            eths := t.eths, regs := t.regs
            outbox := s.outbox ++ [.hostFrame p i none (withFcs (data ++ List.replicate (len - data.length) 0)), .htxDone p i 0] } ∧
          t.eth p = { s.eth p with htxHead := (i + 1) % size } ∧ t.eth (1 - p) = s.eth (1 - p) ∧ RegsKept s t [ethCnt p 5] ∧
          (t.reg (ethCnt p 5)).toNat = min 0xFFFFFFFF ((s.reg (ethCnt p 5)).toNat + 1)) ∧
      (size = 0 → exec (.packetSelect p htx .good) s = .next s)) ∧
    (let x := s.sub n
      let lim := (tget 0 x.d 3).toNat
      (lim ≠ 0 → Answers (.unitStale n) s fun t =>
        (t.sub n).queue = x.queue.filter (fun q => decide (s.now < q.commit + lim)) ∧ (∀ m, m ≠ n → t.sub m = s.sub m) ∧
        t.pat = s.pat ∧ (t.reg 0xE0108).toNat =
          min 0xFFFFFFFF ((s.reg 0xE0108).toNat + (x.queue.filter fun q => decide (q.commit + lim ≤ s.now)).length)) ∧
      (lim = 0 → exec (.unitStale n) s = .next s))

/-- The fault collector (R263 to R269): an event in its class's scope is counted in its window, takes its level from the base, the
count and an unacknowledged predecessor, latches, is the first when none is held, and signals; level 3 retires the tile or
resets the panel, level 4 enters SAFE; out of scope it does nothing. Acknowledging, FLT_FIRST's valid bit, the configuration,
the window and an injection do what their registers say. -/
def Obligations.FaultCollector : Prop :=
  ∀ (s : State) (e : FaultEv) (v : Word) (hi : Bool), s.live = true →
    (s.unitOk e.cls e.unit = false → exec (.faultEvent [e]) s = .next s) ∧
    (s.unitOk e.cls e.unit = true →
      let cfg := s.fltCfg e.cls
      let x := s.fltUnit e.cls e.unit
      let win := s.fltWin e.cls
      let new := x.cnt = 0 ∨ win ≤ s.now - x.opened
      let cnt := if win = 0 then x.cnt else if new then min e.n 255 else min (x.cnt + e.n) 255
      let lvl1 := if win ≠ 0 ∧ fld cfg 15 8 ≤ cnt then max (fld cfg 2 0) 3 else fld cfg 2 0
      let lvl := if x.unacked then max lvl1 (min (x.last + 1) (fld cfg 5 3)) else lvl1
      let w : Word := mkWord [(0, e.cls), (8, lvl), (16, e.unit)] ||| 0x80000000;
      (lvl < 3 → Answers (.faultEvent [e]) s fun t =>
        t = { s with flt := t.flt, lnt := t.lnt, regs := t.regs, hif := t.hif, outbox := t.outbox } ∧
        t.flt.status = s.flt.status ||| BitVec.ofNat 64 (2 ^ e.cls) ∧
        t.fltUnit e.cls e.unit =
          { cnt := cnt, opened := if win ≠ 0 ∧ new then s.now else x.opened, last := lvl, unacked := true } ∧
        (s.flt.firstWord.getLsbD 31 = false → t.flt.firstWord = w ∧ t.flt.firstTime = s.now ∧ t.flt.firstDetail = e.detail) ∧
        (s.flt.firstWord.getLsbD 31 = true → t.flt.firstWord = s.flt.firstWord ∧ t.flt.firstTime = s.flt.firstTime) ∧
        (nbit s.hif.inService 0 = false → (lvl = 2 → cfg.getLsbD 7 = true) → (lvl ≠ 2 → cfg.getLsbD 6 = true) →
          nbit t.hif.pend 0 = true)) ∧
      (lvl = 3 → scopeOf e.cls = .tile → (s.tile e.unit).role = .active ∨ (s.tile e.unit).role = .spare →
        Answers (.faultEvent [e]) s fun t =>
          (t.tile e.unit).role = .retired ∧ (t.tile e.unit).power = .off ∧ (t.tile e.unit).work = none ∧
          t.flt.status.getLsbD e.cls = true ∧ t.pat = s.pat) ∧
      (lvl = 3 → scopeOf e.cls = .panel → Answers (.faultEvent [e]) s fun t =>
        nbit t.resetting e.unit = true ∧ t.flt.status.getLsbD e.cls = true ∧ t.pat = s.pat) ∧
      (lvl = 4 → scopeOf e.cls = .device → Answers (.faultEvent [e]) s fun t =>
        t.pwr.safe = true ∧ t.flt.status.getLsbD e.cls = true ∧ t.pat = s.pat)) ∧
    (let m : BitVec 64 := (if hi then BitVec.ofNat 64 (v.toNat * 2 ^ 32) else BitVec.ofNat 64 v.toNat);
      Answers (.faultAcknowledge hi v) s fun t =>
        t = { s with flt := { s.flt with status := s.flt.status &&& ~~~m, units := t.flt.units } } ∧
        ∀ k u, k < 64 → u < 64 →
          t.fltUnit k u = if m.getLsbD k then { s.fltUnit k u with unacked := false } else s.fltUnit k u) ∧
    (v.getLsbD 31 = true → exec (.firstClear v) s =
      .next { s with flt := { s.flt with firstWord := s.flt.firstWord &&& 0x7FFFFFFF } }) ∧
    (v.getLsbD 31 = false → exec (.firstClear v) s = .next s) ∧
    (let k := s.fltSel;
      (cfgLegal k v = true → Answers (.faultCfgWrite v) s fun t =>
        t = { s with flt := { s.flt with cfg := t.flt.cfg, units := t.flt.units } } ∧ t.fltCfg k = v &&& 0xFFFF ∧
        (∀ j, j ≠ k → t.fltCfg j = s.fltCfg j) ∧ (∀ u, u < 64 → t.fltUnit k u = { s.fltUnit k u with cnt := 0 }) ∧
        (∀ j u, j ≠ k → u < 64 → t.fltUnit j u = s.fltUnit j u)) ∧
      (cfgLegal k v = false → exec (.faultCfgWrite v) s = .next (s.ignored 0x4001C v)) ∧
      (scopeOf k ≠ .reserved → ∀ lo, s.flt.winLo = some lo → Answers (.faultWindowWrite v) s fun t =>
        t = { s with flt := { s.flt with window := t.flt.window, winLo := none, units := t.flt.units } } ∧
        t.fltWin k = lo.toNat + v.toNat % 65536 * 2 ^ 32 ∧ (∀ j, j ≠ k → t.fltWin j = s.fltWin j) ∧
        (∀ u, u < 64 → t.fltUnit k u = { s.fltUnit k u with cnt := 0 }) ∧
        (∀ j u, j ≠ k → u < 64 → t.fltUnit j u = s.fltUnit j u)) ∧
      (scopeOf k = .reserved → exec (.faultWindowWrite v) s = .next (s.ignored 0x40024 v))) ∧
    (let k := v.toNat % 64
      let u := v.toNat / 65536 % 128;
      (v.getLsbD 31 = true → 5 ≤ k → s.unitOk k u = true →
        exec (.faultInject v) s = exec (.faultEvent [{ cls := k, unit := u }]) s) ∧
      (v.getLsbD 31 = false ∨ k < 5 ∨ s.unitOk k u = false → exec (.faultInject v) s = .next (s.ignored 0x4002C v)))

/-- The lint trap (R270 to R274): the oldest trigger's entry takes its sampled set, time, word and the next sequence number, and a
fatal trigger's entry freezes the trap; freeze discards and counts what waits; unfreeze is ignored in SAFE; snap queues a
trigger or counts it missed; clear zeroes the sequence numbers of a frozen trap; a write that asks for two of them is ignored;
an SRAM error switches the trap to its pocket and raises class 30. -/
def Obligations.LintTrap : Prop :=
  ∀ (s : State) (v : Word), s.live = true →
    let l := s.lnt
    (∀ g rest, l.queue = g :: rest → l.pocket = false → Answers .lintEntryWrite s fun t =>
      tget {} t.lnt.sram l.next =
        { vals := (upto 8).map (fun j => s.readWord (fld (s.reg (0x50100 + 32 * g.set + 4 * j)) 22 0)), time := g.time,
          trig := g.trig, seq := if l.seq + 1 = 0 then 1 else l.seq + 1 } ∧
      (∀ i, i ≠ l.next → tget {} t.lnt.sram i = tget {} l.sram i) ∧ t.lnt.next = (l.next + 1) % 1024 ∧
      (g.fatal = false → t = { s with lnt := t.lnt } ∧ t.lnt.queue = rest ∧ t.lnt.frozen = l.frozen) ∧
      (g.fatal = true → t = { s with lnt := t.lnt, hif := t.hif, regs := t.regs, outbox := t.outbox } ∧ t.lnt.frozen = true)) ∧
    (l.queue = [] → exec .lintEntryWrite s = .next s) ∧
    ((v &&& 0xE) = 0 →
      (l.frozen = false → (∀ q ∈ l.queue, q.fatal = false) → Answers (.freeze v) s fun t =>
        t = { s with lnt := { l with frozen := true, queue := [] }, regs := t.regs } ∧ RegsKept s t [0x50008] ∧
        (t.reg 0x50008).toNat = min 0xFFFFFFFF ((s.reg 0x50008).toNat + l.queue.length)) ∧
      (l.frozen = true → exec (.freeze v) s = .next s)) ∧
    ((v &&& 0xD) = 0 →
      (s.pwr.safe = false → l.frozen = true → exec (.unfreeze v) s =
        .next { s with lnt := { l with frozen := false, queue := [] } }) ∧
      (s.pwr.safe = true → exec (.unfreeze v) s = .next (s.ignored 0x50000 (v ||| 2)))) ∧
    ((v &&& 0xB) = 0 →
      (l.frozen = false → l.queue.length < 4 → (∀ q ∈ l.queue, q.fatal = false) → exec (.snap v) s =
        .next { s with lnt := { l with queue := l.queue ++ [{ trig := 0x7F000080, time := s.now, set := 0 }] } }) ∧
      (l.frozen = true ∨ 4 ≤ l.queue.length → Answers (.snap v) s fun t =>
        t = { s with regs := t.regs } ∧ RegsKept s t [0x50008] ∧
        (t.reg 0x50008).toNat = min 0xFFFFFFFF ((s.reg 0x50008).toNat + 1))) ∧
    ((v &&& 0x7) = 0 →
      (l.frozen = true → l.pocket = false → Answers (.lintClear v) s fun t =>
        t = { s with lnt := { l with sram := t.lnt.sram, next := 0, wrapped := false } } ∧
        ∀ i, tget {} t.lnt.sram i = { tget {} l.sram i with seq := 0 }) ∧
      (l.frozen = false → exec (.lintClear v) s = .next (s.ignored 0x50000 (v ||| 8)))) ∧
    ((v &&& 0xE) ≠ 0 → exec (.freeze v) s = .next (s.ignored 0x50000 (v ||| 1))) ∧
    (l.pocket = false → Answers .lintSramError s fun t =>
      t.lnt.pocket = true ∧ t.lnt.pnext = 1 ∧ t.flt.status.getLsbD 30 = true ∧ t.pat = s.pat ∧ t.lnt.sram = l.sram ∧
      (nbit s.hif.inService 3 = false → nbit t.hif.pend 3 = true) ∧
      (tget {} t.lnt.pocketE 0).time = s.now ∧ (tget {} t.lnt.pocketE 0).seq = (if l.seq + 1 = 0 then 1 else l.seq + 1))

/-- A line request (R257, R292 to R295, R305): a write stores the data, its label and the check symbols and leaves every other
line; a read of a clean line changes no line, a correctable one is counted and one with two errors written back, an
uncorrectable one is recorded and raises class 23; two parity errors raise class 23 and write nothing; an address outside
every region is counted; a request of a sleeping stack wakes it (R378). SCRUB_READ steps through the lines (R258). -/
def Obligations.MemoryLines : Prop :=
  ∀ (s : State) (addr a k : Nat) (data : List Byte) (label : Word) (errs : List (Nat × Byte)), s.live = true →
    let line := a / 64
    let p := decodeLine a
    let up (k : Nat) : Prop := s.stackUp k = true ∧ (s.stack k).chg = none ∧ (s.stack k).provisional = false ∧ (s.dom k).st ≠ 1
    let got := rsFlip (s.codeword a) errs
    let sameLines (t : State) : Prop := (∀ b, t.byte b = s.byte b) ∧ ∀ l i, t.sideAt l i = s.sideAt l i
    let otherLines (t : State) : Prop :=
      (∀ b, b / 64 ≠ line → t.byte b = s.byte b) ∧ ∀ l i, l ≠ line → i < 8 → t.sideAt l i = s.sideAt l i
    let holds (t : State) (cs : List Byte) : Prop :=
      (∀ i, i < 64 → t.byte (line * 64 + i) = cs.getD i 0) ∧ ∀ i, i < 8 → t.sideAt line i = cs.getD (64 + i) 0
    (s.lineOf addr = none → Answers (.memRequest addr (.read errs) 0) s fun t =>
      t = { s with regs := t.regs } ∧ RegsKept s t [memBase (s.decErrStack addr) + 0x2C] ∧
      (t.reg (memBase (s.decErrStack addr) + 0x2C)).toNat =
        min 0xFFFFFFFF ((s.reg (memBase (s.decErrStack addr) + 0x2C)).toNat + 1)) ∧
    (s.lineOf addr = some a → (s.dom p.stack).st = 1 → exec (.memRequest addr (.read errs) 0) s =
      .next (s.setDom p.stack { s.dom p.stack with st := 4, sleep := false, force := false })) ∧
    (s.lineOf addr = some a → up p.stack → data.length = 64 → Answers (.memRequest addr (.write data label) 0) s fun t =>
      t = { s with hbm := t.hbm, mem := t.mem, side := t.side, pmu := t.pmu } ∧ otherLines t ∧
      holds t (data ++ leBytes 4 label.toNat ++ rsChecks (data ++ leBytes 4 label.toNat)) ∧
      (∀ j, j ≠ p.stack → t.stack j = s.stack j)) ∧
    (s.lineOf addr = some a → up p.stack →
      (rsDecode got = .clean → Answers (.memRequest addr (.read errs) 0) s fun t =>
        t = { s with hbm := t.hbm, pmu := t.pmu } ∧ ∀ j, j ≠ p.stack → t.stack j = s.stack j) ∧
      (∀ es, rsDecode got = .fixed es → Answers (.memRequest addr (.read errs) 0) s fun t =>
        t.flt.status.getLsbD 22 = true ∧ (t.reg 0xF0044).toNat = min 0xFFFFFFFF ((s.reg 0xF0044).toNat + 1) ∧
        (es.length < 2 → sameLines t) ∧ (2 ≤ es.length → otherLines t ∧ holds t (rsFlip got es)) ∧ t.pat = s.pat) ∧
      (rsDecode got = .lost → Answers (.memRequest addr (.read errs) 0) s fun t =>
        t.flt.status.getLsbD 23 = true ∧ (t.reg 0xF0048).toNat = min 0xFFFFFFFF ((s.reg 0xF0048).toNat + 1) ∧
        sameLines t ∧ t.lastUnc = uncRecord a false ∧ t.pat = s.pat) ∧
      (∀ op, Answers (.memRequest addr op 2) s fun t => t.flt.status.getLsbD 23 = true ∧ sameLines t ∧ t.pat = s.pat)) ∧
    (let x := s.stack k;
      up k → s.reg 0xF0040 ≠ 0 → x.sweep = none → x.scrubPos < stackLines → a = k * stackSpan + x.scrubPos * 64 →
      let moved (t : State) : Prop :=
        (t.stack k).scrubPos = (if x.scrubPos + 1 < stackLines then x.scrubPos + 1 else 0) ∧ t.pat = s.pat
      (nbit x.pd p.rank = true ∨ nbit x.sr p.rank = true → Answers (.scrubRead k errs) s fun t =>
        t = { s with hbm := t.hbm, regs := t.regs } ∧ moved t ∧ RegsKept s t [0xF004C] ∧
        (t.reg 0xF004C).toNat = min 0xFFFFFFFF ((s.reg 0xF004C).toNat + 1)) ∧
      (nbit x.pd p.rank = false → nbit x.sr p.rank = false →
        (rsDecode got = .clean → Answers (.scrubRead k errs) s fun t =>
          t = { s with hbm := t.hbm, pmu := t.pmu } ∧ moved t) ∧
        (∀ es, rsDecode got = .fixed es → Answers (.scrubRead k errs) s fun t =>
          moved t ∧ otherLines t ∧ holds t (rsFlip got es) ∧ t.flt.status.getLsbD 22 = true) ∧
        (rsDecode got = .lost → Answers (.scrubRead k errs) s fun t =>
          moved t ∧ sameLines t ∧ t.lastUnc = uncRecord a true ∧ t.flt.status.getLsbD 23 = true)))

/-- Rows and ranks (R296 to R298, R305): the time-out of MEM_PAGE's dynamic mode closes one bank's row; a refresh closes the row
of the rank's next bank and loads the set of a band change that is due; power-down and self-refresh close the rank's rows, and
self-refresh spares a rank that holds a RUNNING LIVE session's pictures; a reported temperature gives the band; the first
parity error of a command is counted, a second raises class 23. -/
def Obligations.MemoryRanks : Prop :=
  ∀ (s : State) (k c rank bank temp : Nat), s.stackUp k = true → c < 16 → rank < 4 →
    let x := s.stack k
    let bankOf (t : State) (c key : Nat) : Bank := tget {} ((t.stack k).chan c).banks key
    let own (t : State) : Prop := t = { s with hbm := t.hbm } ∧ ∀ j, j ≠ k → t.stack j = s.stack j
    let closed (t : State) (p : Nat → Nat → Bool) : Prop := ∀ c key, c < 16 →
      bankOf t c key = if p c key then { bankOf s c key with open_ := none } else bankOf s c key
    let page := s.reg (memBase k + 0x0C)
    let thr := s.reg (memBase k + 0x14)
    let idle := s.reg (memBase k + 8)
    (page.toNat / 256 % 256 ≠ 0 → page.toNat % 4 = 0 → Answers (.rowCloseTimeout k c rank bank) s fun t =>
      own t ∧ closed t fun c' key => c' == c && key == rank * 16 + bank) ∧
    (page.toNat / 256 % 256 = 0 ∨ page.toNat % 4 ≠ 0 → exec (.rowCloseTimeout k c rank bank) s = .next s) ∧
    (nbit x.sr rank = false → x.chg = none → Answers (.bankRefresh k rank) s fun t =>
      own t ∧ closed t (fun _ key => key == rank * 16 + tget 0 x.nextBank rank) ∧
      tget 0 (t.stack k).nextBank rank = (tget 0 x.nextBank rank + 1) % 16 ∧
      ((x.chan c).bandDue = true → ((t.stack k).chan c).bandDue = false ∧
        (x.setValid c x.rate x.band = true → ((t.stack k).chan c).band = x.band) ∧
        (x.setValid c x.rate x.band = false →
          ((t.stack k).chan c).band = (x.chan c).band ∧ (t.stack k).bandStale = true))) ∧
    (idle.toNat % 65536 ≠ 0 → nbit x.sr rank = false → x.chg = none → Answers (.rankPowerDown k rank) s fun t =>
      own t ∧ closed t (fun _ key => key / 16 == rank) ∧ (t.stack k).pd = x.pd ||| 2 ^ rank ∧ (t.stack k).sr = x.sr) ∧
    (idle.toNat / 65536 ≠ 0 → s.rankBusy k rank = false → x.chg = none → Answers (.rankSelfRefresh k rank) s fun t =>
      own t ∧ closed t (fun _ key => key / 16 == rank) ∧ (t.stack k).sr = x.sr ||| 2 ^ rank) ∧
    (s.rankBusy k rank = true → exec (.rankSelfRefresh k rank) s = .next s) ∧
    (x.sweep = none → temp < 256 → Answers (.stackTempReport k temp) s fun t =>
      own t ∧ (t.stack k).temp = temp ∧ (x.band ≤ 2 →
        (thr.toNat / 256 % 256 ≤ temp → (t.stack k).band = 2) ∧
        (temp + thr.toNat / 65536 % 16 < thr.toNat % 256 → temp + thr.toNat / 65536 % 16 < thr.toNat / 256 % 256 →
          (t.stack k).band = 0)) ∧
      ((t.stack k).band ≠ x.band → ((t.stack k).chan c).bandDue = true)) ∧
    (Answers (.caParityError k c false) s fun t =>
      t = { s with regs := t.regs } ∧ RegsKept s t [0x110014 + 0x40000 * k + 0x1000 * c] ∧
      (t.reg (0x110014 + 0x40000 * k + 0x1000 * c)).toNat =
        min 0xFFFFFFFF ((s.reg (0x110014 + 0x40000 * k + 0x1000 * c)).toNat + 1)) ∧
    (Answers (.caParityError k c true) s fun t =>
      t.flt.status.getLsbD 23 = true ∧ t.mem = s.mem ∧ t.side = s.side ∧ t.hbm = s.hbm ∧ t.pat = s.pat)

/-- Training and frequency (R299 to R304): the load window records its load and class 24 marks an unvalidated set above half load;
a legal MEM_FREQ write starts the change, all ranks in self-refresh, a sweep defers it, an illegal one is ignored; the end of
the change sets the rate and gives each line channel its set. A sweep starts, ends with its result and its set, or is aborted;
the flags of a set that is not in use are written. -/
def Obligations.MemoryTraining : Prop :=
  ∀ (s : State) (k : Nat) (v : Word), s.live = true → s.stackUp k = true → s.stopped (memBase k) = false →
    let x := s.stack k
    let own (t : State) : Prop := t = { s with hbm := t.hbm } ∧ ∀ j, j ≠ k → t.stack j = s.stack j
    let rate := v.toNat % 4
    let train := v.getLsbD 5
    let legal := s.pwr.standbyPend = false ∧ rate ≠ 3 ∧ (s.pat.serial ≠ 0 → tget 0 s.pat.hbmCap (k / 2) ≤ rate) ∧
      (train = true → s.mode = .primed) ∧ (train = false → x.rateValid rate = true)
    (∀ loads margins, (∀ l ∈ loads, l ≤ 50) → (∀ c, (x.chan c).monitor = false) →
      exec (.loadWindow k loads margins) s = .next (s.setStack k { x with load := loads.foldl max 0 })) ∧
    (∀ loads margins c, c < 16 → (loads.foldl max 0) < 128 → 50 < loads.foldl max 0 → x.inUseOk c = false →
      (x.chan c).warned = false → Answers (.loadWindow k loads margins) s fun t =>
        ((t.stack k).chan c).monitor = true ∧ ((t.stack k).chan c).warned = true ∧ (t.stack k).unval = true ∧
        (t.stack k).load = loads.foldl max 0 ∧ t.flt.status.getLsbD 24 = true ∧ t.pat = s.pat ∧ t.mem = s.mem) ∧
    (legal → x.sweep = none → x.chg = none → x.rate ≥ rate ∨ v.getLsbD 4 = false ∨ s.liveStack k = false →
      Answers (.freqChangeRequest k v) s fun t =>
        own t ∧ (t.stack k).chg = some (rate, train) ∧ (t.stack k).fpend = none ∧ (t.stack k).sr = 15 ∧ (t.stack k).pd = 0 ∧
        (t.stack k).target = rate ∧ (t.stack k).guard = v.getLsbD 4 ∧
        ∀ c key, c < 16 → (tget {} ((t.stack k).chan c).banks key).open_ = none) ∧
    (legal → x.sweep ≠ none → exec (.freqChangeRequest k v) s =
      .next (s.setStack k { x with target := rate, guard := v.getLsbD 4, fpend := some (rate, train) })) ∧
    (¬ legal → exec (.freqChangeRequest k v) s = .next (s.ignored (memBase k + 4) v)) ∧
    (∀ r tr, x.chg = some (r, tr) → x.fpend = none → Answers (.freqChangeDone k) s fun t =>
      t = { s with hbm := t.hbm, regs := t.regs } ∧ RegsKept s t [memBase k + 0x28] ∧
      (t.reg (memBase k + 0x28)).toNat = min 0xFFFFFFFF ((s.reg (memBase k + 0x28)).toNat + 1) ∧
      (t.stack k).rate = r ∧ (t.stack k).chg = none ∧ (t.stack k).sr = 0 ∧
      ∀ c, c < 16 → ((t.stack k).chan c).band = x.band ∧
        ((t.stack k).chan c).provisional = (tr && !x.setValid c r x.band)) ∧
    (let chan := if v.getLsbD 8 then 0 else v.toNat / 16 % 16;
      s.sec.reloading = false → v.toNat / 65536 % 128 ≤ 100 →
      (x.sweep = none → x.chg = none → s.pwr.standbyPend = false →
        (s.mode = .primed ∨ s.mode = .woven → Answers (.fullSweep k v) s fun t => own t ∧
          (t.stack k).sweep = some { margin := false, chan := chan, all := v.getLsbD 8, inject := 0, band := x.band } ∧
          (t.stack k).trainSt = trainWord true chan 0 false 0 0) ∧
        (Answers (.marginSweep k v) s fun t => own t ∧
          (t.stack k).sweep =
            some { margin := true, chan := chan, all := v.getLsbD 8, inject := v.toNat / 65536 % 128, band := x.band } ∧
          (t.stack k).trainSt = trainWord true chan 0 true 0 0)) ∧
      (x.sweep ≠ none ∨ x.chg ≠ none → exec (.fullSweep k v) s = .next (s.ignored (memBase k + 0x20) ((v &&& 0xFFFFFFFC) ||| 1)) ∧
        exec (.marginSweep k v) s = .next (s.ignored (memBase k + 0x20) ((v &&& 0xFFFFFFFC) ||| 2))) ∧
      (∀ w, x.sweep = some w → Answers (.sweepAbort k v) s fun t =>
        own t ∧ (t.stack k).sweep = none ∧ (t.stack k).trainSt.toNat / 32 % 4 = 3 ∧ (t.stack k).trainSt.getLsbD 0 = false) ∧
      (x.sweep = none → exec (.sweepAbort k v) s = .next s)) ∧
    (∀ w r, x.sweep = some w → w.all = false → w.chan < 16 → s.sec.reloading = false → Answers (.sweepDone k r) s fun t =>
      own t ∧ (t.stack k).sweep = none ∧
      (t.stack k).trainSt = trainWord false w.chan (if r.pass then 1 else 2) w.margin r.worst r.achieved ∧
      (w.margin = false → r.pass = true → w.band < 3 → x.rate < 3 → (t.stack k).setValid w.chan x.rate w.band = true ∧
        (t.stack k).setValidated w.chan x.rate w.band = false ∧ ((t.stack k).chan w.chan).band = w.band ∧
        ∀ l, l < 72 → tget 0 (t.stack k).dset (setNo w.chan x.rate w.band * 128 + l) =
          mkWord [(0, (r.lanes.getD l (0, 0, 0)).1 % 256), (8, (r.lanes.getD l (0, 0, 0)).2.1 % 256),
            (16, (r.lanes.getD l (0, 0, 0)).2.2 % 256)]) ∧
      (w.margin = true → ((t.stack k).chan w.chan).lastMargin =
        some (x.rate, (x.chan w.chan).band, r.pass && !(x.chan w.chan).provisional, r.achieved))) ∧
    (let sel := selSet (s.reg (memBase k + 0x40))
      let n := setNo sel.1 sel.2.1 sel.2.2;
      x.inUse sel.1 sel.2.1 sel.2.2 = false →
      (v.getLsbD 1 = false ∨ x.mayValidate sel.1 sel.2.1 sel.2.2 = true → Answers (.dsetFlagsWrite k v) s fun t =>
        own t ∧ tget 0 (t.stack k).dflags n = v.toNat % 4 ∧ ∀ m, m ≠ n → tget 0 (t.stack k).dflags m = tget 0 x.dflags m) ∧
      (v.getLsbD 1 = true → x.mayValidate sel.1 sel.2.1 sel.2.2 = false →
        exec (.dsetFlagsWrite k v) s = .next (s.ignored (memBase k + 0x48) v)))

/-- The DMA rings and lines (R67, R308, R314, R317, R319, R321): TAIL moves forward within the ring, enable and disable take
effect at a descriptor boundary, an abort stops the channel with status 3 (how far it came is a free value), the request lines
set and clear, and a channel that the host does not drive ignores its writes; an inbox flush drops and counts its entries. -/
def Obligations.DmaRings : Prop :=
  ∀ (s : State) (n k : Nat) (v : Word), s.live = true → n < 64 →
    let x := s.chan n
    let e := x.entries
    let tail := v.toNat % 65536
    let forward := tail < e ∧ (x.tail + e - x.head % e) % e ≤ (tail + e - x.head % e) % e
    let y : Chan := { x with
      live := v.getLsbD 2 && decide (56 ≤ n) && decide (n ≤ 61), ringSpace := if x.enable then x.ringSpace else v.getLsbD 3 }
    let off := 0xA1000 + 0x40 * n
    (s.hostChan n = true →
      (forward → exec (.dmaTailWrite n v) s =
        .next (s.setChan n { x with tail := tail, state := if x.state = 4 then 0 else x.state })) ∧
      (¬ forward → exec (.dmaTailWrite n v) s = .next (s.ignored (off + 0x10) v)) ∧
      (v.getLsbD 0 = true → e ≠ 0 → exec (.dmaEnable n v) s =
        .next (s.setChan n { y with enable := true, stopping := false, state := if x.enable then x.state else 0 })) ∧
      (v.getLsbD 0 = true → e = 0 → exec (.dmaEnable n v) s = .next (s.ignored off (v &&& 0xFFFFFFFD))) ∧
      (v.getLsbD 0 = false → x.enable = true → x.desc = none → exec (.dmaEnable n v) s =
        .next (s.setChan n { y with enable := false, order := none, state := 6 })) ∧
      (v.getLsbD 0 = false → x.enable = true → x.desc ≠ none → exec (.dmaEnable n v) s =
        .next (s.setChan n { y with stopping := true })) ∧
      (x.desc = none → Answers (.dmaAbort n v) s fun t =>
        t = { s with chans := t.chans } ∧ (∀ m, m ≠ n → t.chan m = s.chan m) ∧
        t.chan n = { y with enable := false, stopping := false, order := none, state := 6 }) ∧
      (∀ d, x.desc = some d → x.enable = true → x.ringSpace = false → Answers (.dmaAbort n v) s fun t =>
        (t.chan n).enable = false ∧ (t.chan n).state = 6 ∧ (t.chan n).desc = none ∧ (t.chan n).last = 3 ∧
        (t.chan n).head = (x.head + 1) % max 1 e ∧ (∀ m, m ≠ n → t.chan m = s.chan m) ∧ t.pat = s.pat ∧
        (t.reg 0xA0010).toNat = min 0xFFFFFFFF ((s.reg 0xA0010).toNat + 1) ∧
        ∃ done, .writeback n x.head 3 done ∈ t.outbox)) ∧
    (s.hostChan n = false → exec (.dmaTailWrite n v) s = .next (s.ignored (off + 0x10) v) ∧
      exec (.dmaEnable n v) s = .next (s.ignored off (v &&& 0xFFFFFFFD)) ∧ exec (.dmaAbort n v) s = .next (s.ignored off (v ||| 2))) ∧
    (exec (.dmaReqSet v) s = .next { s with dmaReq := s.dmaReq ||| v.toNat % 65536 }) ∧
    (exec (.dmaReqClear v) s = .next { s with dmaReq := s.dmaReq &&& (65535 - v.toNat % 65536) }) ∧
    (let base := 0x200000 + 0x8000 * k;
      (k < s.nTiles → (s.quad (quadOf k)).pll = true → Answers (.inboxFlush k v) s fun t =>
        (t.tile k).inbox = [] ∧ (t.tile k).midItem = false ∧ OtherTiles s t (· = k) ∧ t.pat = s.pat ∧
        (t.reg (base + 0x108)).toNat = min 0xFFFFFFFF ((s.reg (base + 0x108)).toNat + 1) ∧
        (t.reg (base + 0x10C)).toNat = min 0xFFFFFFFF ((s.reg (base + 0x10C)).toNat + (s.tile k).inbox.length) ∧
        ((s.tile k).work = none → t = { s with tiles := t.tiles, regs := t.regs }) ∧
        ∀ u p w, (s.tile k).work = some u → s.unitOf u = some (p, w) → (s.tile k).inbox ≠ [] →
          (t.tile k).work = none ∧ ∃ q r, t.unitOf u = some (q, r) ∧ r.st = .ready ∧ r.replay = true) ∧
      (s.nTiles ≤ k → k < 64 → exec (.inboxFlush k v) s = .next (s.ignored (base + 0x100) v)))

/-- A descriptor (R308, R310 to R316, R318): one that the host has not posted stalls the channel, one that finds no mover free
waits for one in the order of asking (which channel loses its mover is the model's choice, log 122), one that fails a check is
rejected with status 2 and class 28, one that touches a sleeping stack wakes it and waits, and otherwise its first burst starts; a
line from the host is stored with its new label, a verified line goes to the host, a bad label stops the move with status 4 and
class 17; each end is written back and advances the ring. -/
def Obligations.DmaDescriptors : Prop :=
  ∀ (s : State) (n : Nat) (b data : List Byte), s.live = true → s.hostChan n = true →
    let x := s.chan n
    let d := parseDesc b
    let ready := x.enable = true ∧ x.head ≠ x.tail ∧ x.state ≠ 4 ∧ x.desc = none ∧ b.length = 64
    let owned := nbit (leAt b 0x3C 4) 31 = true
    let ended (t : State) (status done : Nat) : Prop :=
      (t.chan n).last = status ∧ (t.chan n).desc = none ∧ (t.chan n).head = (x.head + 1) % max 1 x.entries ∧
        (t.chan n).count = x.count - 1 ∧ .writeback n x.head status done ∈ t.outbox ∧ (∀ m, m ≠ n → t.chan m = s.chan m) ∧
        t.pat = s.pat
    (ready → ¬ owned → exec (.descriptorStart n b data) s = .next (s.setChan n { x with state := 4, order := none })) ∧
    (ready → owned → s.hasMover n = false →
      exec (.descriptorStart n b data) s = .next (s.setChan n { x with state := 2, order := some (s.orderOf n) })) ∧
    (ready → owned → s.hasMover n = true → s.descOk false b = false → x.ringSpace = false → Answers (.descriptorStart n b data) s fun t =>
      ended t 2 0 ∧ t.flt.status.getLsbD 28 = true ∧ t.mem = s.mem ∧
      (t.reg 0xA000C).toNat = min 0xFFFFFFFF ((s.reg 0xA000C).toNat + 1)) ∧
    (ready → owned → s.hasMover n = true → s.descOk false b = true → s.powerWait d = true →
      Answers (.descriptorStart n b data) s fun t =>
      t = { s with chans := t.chans, pwr := t.pwr } ∧ t.chan n = { x with state := 5, order := none } ∧ (∀ m, m ≠ n → t.chan m = s.chan m) ∧
      ∀ k, k < 4 → t.dom k = if nbit (s.touched d) k ∧ (s.dom k).st = 1
        then { s.dom k with st := 4, sleep := false, force := false } else s.dom k) ∧
    (ready → owned → s.hasMover n = true → s.descOk false b = true → s.powerWait d = false →
      (d.srcSpace = 0 → data.length = d.len * d.lines) →
      let on := d.req = 0 ∨ nbit s.dmaReq (d.req - 1) = true
      let taken : Chan := { x with
        desc := some d, raw := b, data := if d.srcSpace = 0 then data else [], order := some (s.orderOf n) }
      (d.req = 0 → exec (.descriptorStart n b data) s = .next (s.setChan n { taken with moved := d.lines, state := 1 })) ∧
      (d.req ≠ 0 → on → exec (.descriptorStart n b data) s =
        .next (s.setChan n { taken with moved := if d.burst = 0 then d.lines else min d.lines d.burst, state := 1 })) ∧
      (¬ on → exec (.descriptorStart n b data) s = .next (s.setChan n { taken with moved := 0, state := 3 }))) ∧
    (∀ c, x.desc = some c → x.moved < c.lines → s.hasMover n = true →
      (c.req = 0 ∨ nbit s.dmaReq (c.req - 1) = true → exec (.burstStart n) s = .next (s.setChan n { x with
        moved := if c.burst = 0 then c.lines else min c.lines (x.moved + c.burst), state := 1 })) ∧
      (c.req ≠ 0 → nbit s.dmaReq (c.req - 1) = false → exec (.burstStart n) s = .next (s.setChan n { x with state := 3 }))) ∧
    (s.hasMover n = false → exec (.burstStart n) s = .next s ∧ ∀ e, exec (.descriptorWriteback n e) s = .next s) ∧
    (∀ c, x.desc = some c → c.lines ≤ x.moved → s.hasMover n = true → c.lines = 1 → c.len = 64 → x.ringSpace = false →
      (c.srcSpace = 0 → c.dstSpace = 1 → x.data.length = 64 → ∀ p, s.physOf c.dst = some p →
        Answers (.descriptorWriteback n .good) s fun t =>
          ended t 1 64 ∧ (∀ i, i < 64 → t.byte (p / 64 * 64 + i) = x.data.getD i 0) ∧
          (∀ i, i < 4 → t.sideAt (p / 64) i = (leBytes 4 (careLabel x.data (foldWord p c.dstGen)).toNat).getD i 0) ∧
          ∀ a, a / 64 ≠ p / 64 → t.byte a = s.byte a) ∧
      (c.srcSpace = 1 → c.dstSpace = 0 → ∀ p, s.physOf c.src = some p → rsDecode (s.codeword p) = .clean →
        w32 (leAt (s.codeword p) 64 4) = careLabel ((s.codeword p).take 64) (foldWord p c.srcGen) →
        Answers (.descriptorWriteback n .good) s fun t =>
          ended t 1 64 ∧ .dmaData n c.dst ((s.codeword p).take 64) ∈ t.outbox ∧ ∀ a, t.byte a = s.byte a) ∧
      (Answers (.descriptorWriteback n (.labelFail 0)) s fun t =>
        ended t 4 0 ∧ t.flt.status.getLsbD 17 = true ∧ ∀ a, t.byte a = s.byte a))

/-- The lottery (R322 to R324): a ticket or floor write changes its register, which the next grant reads; a grant goes to an
eligible requester, the one whose running ticket sum first exceeds the scaled draw, except a sixteenth grant where a requester
has a floor, or no tickets at all; the draw register shifts and the winner is counted. A seed of zero is ignored. -/
def Obligations.LotteryGrant : Prop :=
  ∀ (s : State) (k : Nat) (el : BitVec 16) (v : Word),
    let a := s.arb k
    let req (i : Nat) : Word := s.reg (0xD0000 + 0x100 * k + 4 * i)
    let tickets (i : Nat) : Nat := if el.getLsbD i then (req i).toNat % 256 else 0
    let total := ((List.range 16).map tickets).sum
    let draw := a.lfsr.toNat % 65536 * total / 65536
    let floor := a.count = 15 ∧ ∃ i, i < 16 ∧ el.getLsbD i = true ∧ (req i).getLsbD 8 = true
    (s.stackUp k = true → el ≠ 0 → Answers (.arbiterGrant k el) s fun t => ∃ w, w < 16 ∧ el.getLsbD w = true ∧
      t = { s with arbs := t.arbs, regs := t.regs } ∧ RegsKept s t [0xD0080 + 0x100 * k + 4 * w] ∧
      (t.reg (0xD0080 + 0x100 * k + 4 * w)).toNat = min 0xFFFFFFFF ((s.reg (0xD0080 + 0x100 * k + 4 * w)).toNat + 1) ∧
      (t.arb k).lfsr = lfsrNext a.lfsr ∧ (t.arb k).count = (a.count + 1) % 16 ∧ (∀ j, j ≠ k → t.arb j = s.arb j) ∧
      (floor → (req w).getLsbD 8 = true ∧ (t.arb k).lastFloor = w ∧ (t.arb k).lastRr = a.lastRr) ∧
      (¬ floor → total ≠ 0 → ((List.range w).map tickets).sum ≤ draw ∧ draw < ((List.range (w + 1)).map tickets).sum ∧
        (t.arb k).lastFloor = a.lastFloor ∧ (t.arb k).lastRr = a.lastRr) ∧
      (¬ floor → total = 0 → (t.arb k).lastRr = w ∧ (t.arb k).lastFloor = a.lastFloor)) ∧
    (el = 0 → exec (.arbiterGrant k el) s = .next s) ∧
    (s.live = true → k < s.nStacks → s.stopped (0xD0040 + 0x100 * k) = false →
      (v.toNat % 2 ^ 31 ≠ 0 → Answers (.arbSeedWrite k v) s fun t =>
        t = { s with arbs := t.arbs } ∧ t.arb k = { a with lfsr := BitVec.ofNat 31 v.toNat } ∧ ∀ j, j ≠ k → t.arb j = s.arb j) ∧
      (v.toNat % 2 ^ 31 = 0 → exec (.arbSeedWrite k v) s = .next (s.ignored (0xD0040 + 0x100 * k) v)) ∧
      ∀ i, i < 16 → Answers (.registerWrite 0 (0xD0000 + 0x100 * k + 4 * i) (.words [v])) s fun t =>
        t = { s with regs := t.regs } ∧ t.reg (0xD0000 + 0x100 * k + 4 * i) = v &&& 0x1FF ∧
        RegsKept s t [0xD0000 + 0x100 * k + 4 * i])

/-- The writes and the read of a check-value unit (R325, R326): a data write feeds its bytes, least significant first, and counts
them; a RESULT_LO read finishes a copy of the register and may step FOLD; a legal CTL write applies, with start from the
initial value, and one that would change the settings of a unit that holds data, or an illegal one, is ignored. -/
def Obligations.CheckValueUnit : Prop :=
  ∀ (s : State) (u : Nat) (v : Word), s.live = true → u < 8 →
    let x := s.cvu u
    let byte (i : Nat) : Byte := BitVec.ofNat 8 (v.toNat / 256 ^ i)
    let fed (l : List Byte) : Cvu :=
      { x with reg := l.foldl x.byteStep x.reg, bytes := min 0xFFFFFF (x.bytes + l.length), holds := true }
    let legal := 1 ≤ v.toNat % 128 ∧ v.toNat % 128 ≤ 64 ∧ v.toNat / 1024 % 16 ≤ 8 ∧ (x.holds = true → v &&& 0x7F7F = x.ctl)
    let y : Cvu := { x with ctl := v &&& 0x7F7F }
    (exec (.cvuData8 u v) s = .next (s.setCvu u (fed [byte 0]))) ∧
    (exec (.cvuData16 u v) s = .next (s.setCvu u (fed [byte 0, byte 1]))) ∧
    (exec (.cvuData32 u v) s = .next (s.setCvu u (fed [byte 0, byte 1, byte 2, byte 3]))) ∧
    (Answers (.cvuResultRead u) s fun t =>
      t = s.setCvu u { x with result := (t.cvu u).result, fold := (t.cvu u).fold } ∧
      (t.cvu u).fold = (if x.ctl.getLsbD 14 then x.fold + 1 else x.fold) ∧
      (x.ctl.toNat / 1024 % 16 = 0 → (t.cvu u).result = x.finish x.reg)) ∧
    (legal → exec (.cvuStart u v) s = .next (s.setCvu u { y with reg := y.cut x.init, bytes := 0, holds := false })) ∧
    (legal → v.getLsbD 15 = false → exec (.cvuCtlWrite u v) s = .next (s.setCvu u y)) ∧
    (¬ legal → exec (.cvuCtlWrite u v) s = .next (s.ignored (0xC0000 + 0x40 * u) v) ∧
      exec (.cvuStart u v) s = .next (s.ignored (0xC0000 + 0x40 * u) (v ||| 0x8000)))

/-- The care label (R22) is what a check-value unit at its reset settings (R325: width 32, polynomial 0x1EDC_6F41 reflected in and
out, initial value and final XOR 0xFFFF_FFFF) computes over the 64 data bytes and the 8 bytes of the fold word, least
significant first: whatever bytes it is fed from its initial value, the finished register is their CRC-32C. -/
def Obligations.CvuComputesTheLabelCrc : Prop :=
  let x : Cvu := {}
  let crc (bytes : List Byte) : Dword := x.finish (bytes.foldl x.byteStep (x.cut x.init))
  x.ctl = 0x320 ∧ x.poly = 0x1EDC6F41 ∧ x.init = 0xFFFFFFFF ∧ x.xor = 0xFFFFFFFF ∧
  (∀ bytes : List Byte, crc bytes = (crc32c bytes).setWidth 64) ∧
  ∀ (data : List Byte) (fold : Nat), data.length = 64 →
    crc (data ++ (List.range 8).map fun i => BitVec.ofNat 8 (fold / 256 ^ i)) = (careLabel data fold).setWidth 64

/-- The PCIe link and function-level resets (R329, R330, R333, R335, R344): the link comes up at its speed and width, its loss
raises class 1; a VF's FLR disables its host packet ring and asks its ARCHIVE units to abandon, VF Enable cleared is one of
every VF, and its end closes the VF's sessions and resets its function; HIF_VFn_SESS takes a range that overlaps no other and
holds closed sessions. -/
def Obligations.HostLinkAndFlr : Prop :=
  ∀ (s : State) (vf speed width : Nat) (flit : Bool) (v : Word), s.live = true → 1 ≤ vf → vf < 64 →
    (1 ≤ speed → speed ≤ 6 → width ∈ [1, 2, 4, 8, 16] → exec (.pcieLinkUp speed width flit) s =
      .next { s with hif := { s.hif with
        link := mkWord [(0, speed), (4, width), (9, if flit then 1 else 0), (10, 1)] } }) ∧
    (s.hif.link.getLsbD 10 = true → Answers .pcieLinkDown s fun t =>
      t.hif.link = 0 ∧ t.flt.status.getLsbD 1 = true ∧ t.pat = s.pat ∧ t.mem = s.mem) ∧
    (s.hif.link.getLsbD 10 = false → exec .pcieLinkDown s = .next s) ∧
    (vf ∉ s.hif.flr → Answers (.vfFlr vf) s fun t =>
      t.hif.flr = s.hif.flr ++ [vf] ∧ (t.fn vf).hprLo = 0 ∧ (t.fn vf).hprHi = 0 ∧ t.pat = s.pat ∧
      (∀ k u, k < s.nTiles → (s.tile k).work = some u → s.owner u.ses = vf → (s.ses u.ses).cls = clsArchive →
        nbit (t.tile k).abandon 5 = true) ∧
      (NotFatal s 21 → ∀ n, t.ses n = s.ses n)) ∧
    (vf ∈ s.hif.flr → exec (.vfFlr vf) s = .next s) ∧
    (Answers .vfEnableClear s fun t => vf ∈ t.hif.flr ∧ t.pat = s.pat) ∧
    (vf ∈ s.hif.flr → s.vfSessions vf = [] → Answers (.flrComplete vf) s fun t =>
      t = { s with hif := t.hif, regs := t.regs } ∧ t.fn vf = {} ∧ t.hif.flr = s.hif.flr.erase vf ∧
      (∀ f, f ≠ vf → t.fn f = s.fn f) ∧ (∀ i, i < 4 → t.reg (vf * 2 ^ 24 + 0x30 + 4 * i) = 0) ∧
      RegsKept s t ((upto 4).map fun i => vf * 2 ^ 24 + 0x30 + 4 * i)) ∧
    (∀ n, vf ∈ s.hif.flr → s.vfSessions vf = [n] → (s.ses n).st ≠ .migrating → s.unitsLeft n = false →
      Answers (.flrComplete vf) s fun t =>
        (t.ses n).st = .closed ∧ t.fn vf = {} ∧ t.hif.flr = s.hif.flr.erase vf ∧ t.pat = s.pat) ∧
    (let b := v.toNat % 4096
      let c := v.toNat / 65536 % 1024
      let free := c ≤ 960 ∧ b + c ≤ 4096 ∧ s.rangeClosed (s.vfRange vf).1 (s.vfRange vf).2 = true ∧ s.rangeClosed b c = true ∧
        ∀ j, 1 ≤ j → j < 64 → j ≠ vf → c = 0 ∨ (s.vfRange j).2 = 0 ∨ b + c ≤ (s.vfRange j).1 ∨
          (s.vfRange j).1 + (s.vfRange j).2 ≤ b
      (free → exec (.vfSessWrite vf v) s = .next (s.setReg (0x31000 + 0x10 * vf) (v &&& 0x3FF0FFF))) ∧
      (¬ free → exec (.vfSessWrite vf v) s = .next (s.ignored (0x31000 + 0x10 * vf) v)))

/-- Baskets, their messages and the host packet ring (R344 to R349): enabling starts an empty armed basket, disabling loses what
it held; a legal HEAD arms it, sends the message at once where unread records stay, and writes a held record; a waiting
message goes when its moderation ends, or sets the pending bit while it is masked, and a pending one goes when the masks open.
-/
def Obligations.HostBaskets : Prop :=
  ∀ (s : State) (fn : Nat) (v : Word) (en fm vm : Bool), s.live = true → fn < 64 → fn = 0 ∨ s.hif.flr.contains fn = false →
    let f := s.fn fn
    let size := 2 ^ f.size
    let head := v.toNat % 65536
    let waits := ∃ t0, f.lastMsg = some t0 ∧ s.now < t0 + f.mod.toNat
    let ok := f.enable = true ∧ head < size ∧ (head + size - f.head) % size ≤ (f.tail + size - f.head) % size
    (v.getLsbD 0 = true → f.enable = false → 6 ≤ f.size → f.size ≤ 16 → exec (.bktEnable fn v) s =
      .next (s.setFn fn { f with enable := true, head := 0, tail := 0, phase := true, armed := true, hold := [] })) ∧
    (v.getLsbD 0 = true → f.enable = false → f.size < 6 ∨ 16 < f.size → exec (.bktEnable fn v) s = .next (s.ignFn fn 0x100 v)) ∧
    (v.getLsbD 0 = false → f.enable = true → exec (.bktEnable fn v) s = .next (s.setFn fn { f with
      enable := false, hold := [], armed := false, lost := min 0xFFFF (f.lost + (f.hold.map (·.count)).sum) })) ∧
    (v.getLsbD 0 = f.enable → exec (.bktEnable fn v) s = .next s) ∧
    (ok → f.hold = [] → head = f.tail → exec (.bktHeadWrite fn v) s =
      .next (s.setFn fn { f with head := head, armed := true })) ∧
    (ok → f.hold = [] → head ≠ f.tail → ¬ waits → f.unmasked = true → Answers (.bktHeadWrite fn v) s fun t =>
      t = { s with hif := t.hif, outbox := s.outbox ++ [.msix fn] } ∧ (∀ g, g ≠ fn → t.fn g = s.fn g) ∧
      t.fn fn = { f with head := head, armed := false, msgDue := false, lastMsg := some s.now }) ∧
    (ok → ∀ r, f.hold = [r] → (head + 2 * size - f.tail - 1) % size ≠ 0 → Answers (.bktHeadWrite fn v) s fun t =>
      t = { s with hif := t.hif, outbox := t.outbox } ∧ (t.fn fn).hold = [] ∧ (t.fn fn).head = head ∧
      (t.fn fn).tail = (if f.tail + 1 < size then f.tail + 1 else 0) ∧ .basket fn f.tail r f.phase ∈ t.outbox) ∧
    (¬ ok → exec (.bktHeadWrite fn v) s = .next (s.ignFn fn 0x110 v)) ∧
    (f.msgDue = true → ¬ waits → f.unmasked = true → Answers (.msixModerationExpiry fn) s fun t =>
      t = { s with hif := t.hif, outbox := s.outbox ++ [.msix fn] } ∧ (∀ g, g ≠ fn → t.fn g = s.fn g) ∧
      t.fn fn = { f with msgDue := false, lastMsg := some s.now }) ∧
    (f.msgDue = true → ¬ waits → f.unmasked = false → exec (.msixModerationExpiry fn) s =
      .next (s.setFn fn { f with msgDue := false, pba := true })) ∧
    (f.msgDue = false ∨ waits → exec (.msixModerationExpiry fn) s = .next s) ∧
    (f.pba = false ∨ en = false ∨ fm = true ∨ vm = true → exec (.msixUnmask fn en fm vm) s =
      .next (s.setFn fn { f with msixEn := en, fnMask := fm, vecMask := vm })) ∧
    (f.pba = true → ¬ waits → Answers (.msixUnmask fn true false false) s fun t =>
      t = { s with hif := t.hif, outbox := s.outbox ++ [.msix fn] } ∧ (∀ g, g ≠ fn → t.fn g = s.fn g) ∧
      t.fn fn = { f with
        msixEn := true, fnMask := false, vecMask := false, pba := false, msgDue := false, lastMsg := some s.now }) ∧
    (exec (.bktMaskWrite fn v) s = .next (s.setFn fn { f with mask := v.toNat % 128 })) ∧
    (v.toNat % 4096 < f.hprEntries → exec (.hprHeadWrite fn v) s = .next (s.setFn fn { f with hprHead := v.toNat % 4096 })) ∧
    (f.hprEntries ≤ v.toNat % 4096 → exec (.hprHeadWrite fn v) s = .next (s.ignFn fn 0x14C v))

/-- Pending-bit sources (R351, R352): an assertion is counted and sets its bit unless the source is in service; a level source
asserts as it rises and withdraws an unclaimed request as it falls; a claim takes the lowest pending enabled source, the level
one into service; its end of interrupt takes it out and makes it pending again while the level stands; HIF_PEND_EN sets the
enables. -/
def Obligations.PendingSources : Prop :=
  ∀ (s : State) (n ses : Nat) (detail v : Word), s.live = true →
    let h := s.hif
    let own (t : State) : Prop := t = { s with hif := t.hif, regs := t.regs, outbox := t.outbox } ∧
      RegsKept s t [0x30280 + 4 * n] ∧ t.hif.pendEn = h.pendEn ∧ t.hif.link = h.link
    (n < 5 → n ≠ 1 ∨ nbit h.asserted 1 = false → Answers (.pendingSourceAssert n detail ses) s fun t =>
      own t ∧ (t.reg (0x30280 + 4 * n)).toNat = min 0xFFFFFFFF ((s.reg (0x30280 + 4 * n)).toNat + 1) ∧
      (nbit h.inService n = false → t.hif.pend = h.pend ||| 2 ^ n) ∧ (nbit h.inService n = true → t.hif.pend = h.pend) ∧
      t.hif.asserted = (if n = 1 then h.asserted ||| 2 else h.asserted)) ∧
    (5 ≤ n ∨ n = 1 ∧ nbit h.asserted 1 = true → exec (.pendingSourceAssert n detail ses) s = .next s) ∧
    (n ≠ 1 ∨ nbit h.asserted 1 = false → exec (.pendingSourceDeassert n) s = .next s) ∧
    (nbit h.asserted 1 = true → nbit h.inService 1 = false → Answers (.pendingSourceDeassert 1) s fun t =>
      t = { s with hif := t.hif } ∧ nbit t.hif.pend 1 = false ∧ nbit t.hif.asserted 1 = false ∧ t.hif.inService = h.inService) ∧
    (nbit h.asserted 1 = true → nbit h.inService 1 = true → exec (.pendingSourceDeassert 1) s =
      .next { s with hif := { h with asserted := h.asserted - 2 } }) ∧
    (n < 32 → nbit h.pend n = true → nbit h.pendEn n = true → (∀ m, m < n → nbit h.pend m = false ∨ nbit h.pendEn m = false) →
      Answers .hifClaim s fun t =>
        t = { s with hif := t.hif } ∧ nbit t.hif.pend n = false ∧
        (∀ m, m ≠ n → m < 32 → nbit t.hif.pend m = nbit h.pend m) ∧
        t.hif.inService = (if n = 1 then h.inService ||| 2 else h.inService) ∧ t.hif.pendEn = h.pendEn) ∧
    ((∀ m, m < 32 → nbit h.pend m = false ∨ nbit h.pendEn m = false) → exec .hifClaim s = .next s) ∧
    (v.toNat % 32 = 1 → nbit h.inService 1 = true → Answers (.hifEoi v) s fun t =>
      t = { s with hif := t.hif, outbox := t.outbox } ∧ t.hif.inService = h.inService - 2 ∧ t.hif.asserted = h.asserted ∧
      (nbit h.asserted 1 = true → t.hif.pend = h.pend ||| 2) ∧ (nbit h.asserted 1 = false → t.hif.pend = h.pend)) ∧
    (v.toNat % 32 ≠ 1 ∨ nbit h.inService 1 = false → exec (.hifEoi v) s = .next (s.ignored 0x3020C v)) ∧
    (Answers (.pendEnWrite v) s fun t =>
      t = { s with hif := t.hif, outbox := t.outbox } ∧ t.hif.pendEn = v.toNat % 32 ∧ t.hif.pend = h.pend ∧
      t.hif.inService = h.inService)

/-- Boot (R371, R375, R388, R416, R423): release starts it, good firmware (of the form of R387, signed under a slot that may sign
firmware, of a version not below the counter) starts training and a bad one ends it with its code and the link down, and the
board record gives the subsystem IDs; its end puts each stack at the fastest rate that passed, fences one without any and raises
class 7, merges the latches of the always-on domain and holds the patch image that came; one that fails a check of R286 is
discarded whole with class 6. -/
def Obligations.BootAndRelease : Prop :=
  ∀ (s : State) (f : FirmwareIn) (k : Nat),
    (s.pwr.life = .held → exec .resetRelease s = .next { s with pwr := { s.pwr with life := .boot } }) ∧
    (s.pwr.life ≠ .held → exec .resetRelease s = .next s) ∧
    (s.pwr.life = .boot →
      let svn := leAt f.image 12 4
      let signed := s.sec.verifies (trailerSlot f.image) 0 = true ∧ s.sec.signed f.image = true
      let good := fwForm f.image = true ∧ signed ∧ s.sec.counter ≤ svn
      let code := if fwForm f.image = false then 3 else if ¬ signed then 1 else 2
      let ids : Word := if f.board = 0xFFFFFFFF then (if s.a144 then 0x0A911F5C else 0x0A921F5C) else f.board
      (good → exec (.firmwareVerifyDone f) s =
        .next { s with sec := { s.sec with boot := 0, svn := svn }, pwr := { s.pwr with life := .train, subsys := ids } }) ∧
      (¬ good → exec (.firmwareVerifyDone f) s = .next { s with
        hif := { s.hif with link := 0 }, sec := { s.sec with boot := code }, pwr := { s.pwr with life := .rejected, subsys := ids } })) ∧
    (s.pwr.life ≠ .boot → exec (.firmwareVerifyDone f) s = .next s) ∧
    (s.pwr.life = .train → (∀ e ∈ s.hbm, e.2.sweep = none ∧ e.2.chg = none) →
      ((∀ j, j < s.nStacks → (s.stack j).passed ≠ []) → Answers (.bootComplete .noImage) s fun t =>
        t = { s with pwr := { s.pwr with life := .up }, hbm := t.hbm, sec := { s.sec with patch := {} }
                     flt := { s.flt with status := s.flt.status ||| BitVec.ofNat 64 s.flt.aon } } ∧
        (k < s.nStacks → ∀ r rest, (s.stack k).passed = r :: rest →
          (t.stack k).rate = r ∧ (t.stack k).rateCap = r ∧ (t.stack k).fenced = (s.stack k).fenced)) ∧
      (k < s.nStacks → (s.stack k).passed = [] → Answers (.bootComplete .noImage) s fun t =>
        (t.stack k).fenced = true ∧ t.flt.status.getLsbD 7 = true ∧ t.pwr.life = .up) ∧
      (∀ im serial secs, s.sec.readPatch im = some (serial, secs) → Answers (.bootComplete (.image im)) s fun t =>
        t.pwr.life = .up ∧ t.sec.patch = { status := 1, serial := w32 serial, sections := secs }) ∧
      (∀ im, s.sec.readPatch im = none → Answers (.bootComplete (.image im)) s fun t =>
        t.pwr.life = .up ∧ t.sec.patch = { status := 2 } ∧ t.flt.status.getLsbD 6 = true)) ∧
    (s.pwr.life ≠ .train → exec (.bootComplete .noImage) s = .next s)

/-- STANDBY and the wake (R372, R373, R388, Table 19.4): the command is taken in PRIMED and WOVEN with nothing in progress; its
entry turns tiles, links, key slots and counters off and keeps pattern and HBM contents; a wake source starts the wake, or a
new boot after a rejected one; the end of the wake reloads the pattern that was in force, or rejects it with its code. -/
def Obligations.StandbyAndWake : Prop :=
  ∀ (s : State) (v : Word),
    let ask : Word := (v &&& 0xFFFFFFFC) ||| 1
    let may := (s.mode = .primed ∨ s.mode = .woven) ∧ s.allClosed = true ∧ s.ldr.busy = false ∧
      ∀ e ∈ s.hbm, e.2.sweep = none ∧ e.2.chg = none
    let waking (src : Nat) (t : State) : Prop := t = { s with
        pwr := { s.pwr with life := .waking, lastWake := src }, hbm := t.hbm } ∧ ∀ k, k < s.nStacks → (t.stack k).sr = 0
    let up (t : State) : Prop := t.pwr.life = .up ∧ t.flt.status = s.flt.status ||| BitVec.ofNat 64 s.flt.aon
    (s.live = true → may → v.getLsbD 2 = false → exec (.standby v) s =
      .next { s with pwr := { s.pwr with standbyPend := true } }) ∧
    (s.live = true → ¬ may → exec (.standby v) s = .next (s.ignored 0x70004 ask)) ∧
    (s.live = true → may → s.pwr.standbyPend = true → s.testing = [] → Answers .standbyEntry s fun t =>
      t.mode = .standby ∧ t.pwr.life = .standby ∧ t.pwr.standbyPend = false ∧ t.pat = s.pat ∧ t.mem = s.mem ∧ t.side = s.side ∧
      t.now = s.now ∧ t.hif.link = 0 ∧ t.sec.keys = [] ∧ t.pmu.cnt = [] ∧
      (∀ k, k < s.nTiles → (t.tile k).power = .off ∧ (t.tile k).store = [] ∧ (t.tile k).inbox = []) ∧
      (∀ k, k < s.nStacks → (t.stack k).sr = 15) ∧ (∀ q, q < s.nQuads → (t.quad q).pll = false) ∧
      (t.eth 0).link = false ∧ (t.eth 1).link = false) ∧
    (s.pwr.life = .standby → Answers .wake s (waking 0) ∧ Answers .wakeNEdge s (waking 1) ∧
      (s.wakeDue = true → Answers .wakeTimer s (waking 2))) ∧
    (s.pwr.life = .rejected → Answers .wake s (·.pwr.life = .boot) ∧ Answers .wakeNEdge s (·.pwr.life = .boot)) ∧
    (s.wakeDue = false ∨ s.live = true → exec .wakeTimer s = .next s) ∧
    (s.live = true → exec .wake s = .next s ∧ exec .wakeNEdge s = .next s) ∧
    (s.pwr.life = .waking → s.hif.link.getLsbD 10 = true → ∀ copyOk storeOk : Bool,
      (s.pwr.wakeLoad = false → exec (.wakeDone copyOk storeOk) s = .next { s with
        pwr := { s.pwr with life := .up }, flt := { s.flt with status := s.flt.status ||| BitVec.ofNat 64 s.flt.aon } }) ∧
      (s.pwr.wakeLoad = true → copyOk = false → Answers (.wakeDone copyOk storeOk) s fun t =>
        up t ∧ t.pat = {} ∧ t.ldr.reject = 0x12 ∧ t.ldr.kept = []) ∧
      (s.pwr.wakeLoad = true → copyOk = true → s.ldr.kept.all s.keptOk = false → Answers (.wakeDone copyOk storeOk) s fun t =>
        up t ∧ t.pat = {} ∧ t.ldr.reject = 0x04) ∧
      (s.pwr.wakeLoad = true → copyOk = true → s.ldr.kept.all s.keptOk = true → storeOk = false →
        Answers (.wakeDone copyOk storeOk) s fun t => up t ∧ t.pat = {} ∧ t.ldr.reject = 0x10) ∧
      (s.pwr.wakeLoad = true → copyOk = true → s.ldr.kept.all s.keptOk = true → storeOk = true →
        Answers (.wakeDone copyOk storeOk) s fun t => t.pwr.life = .up ∧ t.pat = s.pat ∧ t.now = s.now ∧ t.mem = s.mem))

/-- Sleep requests (R319, R377, R378): a stack's request is ignored where LIVE work bars it, shows what holds it, and puts the
stack to sleep once nothing does; forced, it stops the channels that move on it; a wake ends it; a quadrant's request powers
its idle tiles off and its PLL once all are off, but for what the quiet window of a press needs (R51). -/
def Obligations.DomainSleep : Prop :=
  ∀ (s : State) (k q d : Nat) (v : Word), s.live = true →
    let off := 0x70010 + 4 * d
    let x := s.dom k
    let onlyDom (t : State) (j : Nat) : Prop := ∀ m, m ≠ j → t.dom m = s.dom m
    (k < s.nStacks →
      (v.getLsbD 0 = false → exec (.domainSleepWrite k v) s = .next (s.setDom k { x with
        sleep := false, force := v.getLsbD 1, st := if x.st = 2 ∨ x.st = 3 then 0 else x.st, holder := 0 })) ∧
      (v.getLsbD 0 = true → s.stackBars k = true →
        exec (.domainSleepWrite k v) s = .next (s.ignored (0x70010 + 4 * k) v)) ∧
      (v.getLsbD 0 = true → s.stackBars k = false → x.st ≠ 1 → x.st ≠ 4 →
        (v.getLsbD 1 = false → Answers (.domainSleepWrite k v) s fun t =>
          t = { s with pwr := t.pwr } ∧ onlyDom t k ∧ t.dom k =
            { sleep := true, force := false, st := (s.stackHeld k).1, holder := (s.stackHeld k).2 }) ∧
        (v.getLsbD 1 = true → s.movingOn k ≠ [] → Answers (.domainSleepWrite k v) s fun t =>
          (t.dom k).sleep = true ∧ t.flt.status.getLsbD 29 = true ∧ (∀ n ∈ s.movingOn k, (t.chan n).desc = none) ∧
          t.pat = s.pat)) ∧
      (x.sleep = true → x.st ≠ 1 → x.st ≠ 4 → s.stackBars k = false → (s.stackHeld k).1 = 0 → Answers (.stackSleep k) s fun t =>
        t = { s with pwr := t.pwr, hbm := t.hbm } ∧ onlyDom t k ∧ t.dom k = { x with st := 1, holder := 0 } ∧
        (t.stack k).sr = 15 ∧ (t.stack k).pd = 0 ∧ ∀ j, j ≠ k → t.stack j = s.stack j) ∧
      (x.sleep = false → exec (.stackSleep k) s = .next s)) ∧
    (x.st = 4 → Answers (.stackWakeDone k) s fun t =>
      t = { s with pwr := t.pwr, hbm := t.hbm } ∧ onlyDom t k ∧ t.dom k = { x with st := 0, holder := 0 } ∧
      t.stack k = { s.stack k with sr := 0 } ∧ ∀ j, j ≠ k → t.stack j = s.stack j) ∧
    (x.st ≠ 4 → exec (.stackWakeDone k) s = .next s) ∧
    (q < s.nQuads →
      (v.getLsbD 0 = false → exec (.domainSleepWrite (4 + q) v) s = .next (s.setDom (4 + q) { s.dom (4 + q) with sleep := false })) ∧
      (v.getLsbD 0 = true → s.quadBars q = true →
        exec (.domainSleepWrite (4 + q) v) s = .next (s.ignored (0x70010 + 4 * (4 + q)) v)) ∧
      (v.getLsbD 0 = true → s.quadBars q = false → Answers (.domainSleepWrite (4 + q) v) s fun t =>
        t = { s with pwr := t.pwr, tiles := t.tiles, regs := t.regs } ∧ onlyDom t (4 + q) ∧
        t.dom (4 + q) = { s.dom (4 + q) with sleep := true } ∧ OtherTiles s t (fun i => i < s.nTiles ∧ quadOf i = q) ∧
        ∀ i, i < s.nTiles → quadOf i = q → (s.tile i).work = none → (s.tile i).power = .nap → (s.tile i).role ≠ .selfTest →
          ((s.tile i).role = .spare → s.holdsLive (s.tile i).panel = false) → s.pressNeeds i = false →
          (t.tile i).power = .off ∧ (t.tile i).inbox = [] ∧ (t.tile i).role = (s.tile i).role) ∧
      ((s.dom (4 + q)).sleep = true →
        (∀ i, i < s.nTiles → quadOf i = q → (s.tile i).power = .off ∧ (s.tile i).role ≠ .selfTest) → s.pressNeedsQuad q = false →
        exec (.quadrantSleep q) s = .next (s.setQuad q { s.quad q with pll := false, mhz := 0, stepAt := none })) ∧
      ((s.dom (4 + q)).sleep = false → exec (.quadrantSleep q) s = .next s)) ∧
    (d < 8 → s.nStacks ≤ d → d < 4 ∨ s.nQuads ≤ d - 4 → exec (.domainSleepWrite d v) s = .next (s.ignored off v))

/-- Temperature, clocks and supplies (R379, R380, R417, R421): a cool sample shows the temperatures and ends the thermal source;
from 105 °C the running quadrants fall to 400 MHz, the thermal source is pending and class 25 latches; from 115 °C the device
trips; a cool quadrant steps up by 100 MHz; a lost PLL raises class 13, with its supply the stores too; a supply below its
threshold is a power-on reset, an excursion raises class 3, a lost reference class 2. -/
def Obligations.ThermalAndSupply : Prop :=
  ∀ (s : State) (h f0 f1 q rail mv us : Nat), s.live = true →
    let x := s.quad q
    let cap := tget 0 s.pat.caps q * 100
    (h < 97 → f0 < 97 → f1 < 97 → Answers (.tempSample h f0 f1) s fun t =>
      t = { s with pwr := t.pwr, hif := t.hif } ∧ t.dieTemp 0 = h ∧ t.dieTemp 1 = f0 ∧ t.dieTemp 2 = f1 ∧
      nbit t.hif.pend 1 = false ∧ nbit t.hif.asserted 1 = false ∧ (∀ d, d < 3 → tget false t.pwr.hot d = false) ∧
      (q < s.nQuads → t.quad q = { x with coolAt := some (x.coolAt.getD s.now) })) ∧
    (105 ≤ h → h < 115 → f0 < 115 → f1 < 115 → Answers (.tempSample h f0 f1) s fun t =>
      t.dieTemp 0 = h ∧ t.pat = s.pat ∧ t.now = s.now ∧
      (nbit s.hif.asserted 1 = false → nbit s.hif.inService 1 = false → nbit t.hif.pend 1 = true) ∧
      (tget false s.pwr.hot 0 = false → t.flt.status.getLsbD 25 = true) ∧
      (q < s.nQuads → x.pll = true →
        (t.quad q).mhz = min x.mhz 400 ∧ (t.quad q).stepAt = some s.now ∧ (t.quad q).coolAt = none)) ∧
    (115 ≤ h → Answers (.tempSample h f0 f1) s fun t =>
      t.pwr.tripped = true ∧ t.flt.status.getLsbD 4 = true ∧ t.hif.link = 0 ∧
      (tget false s.pwr.hot 0 = false → t.flt.status.getLsbD 25 = true) ∧ .thermtrip ∈ t.outbox ∧
      (∀ k, k < s.nTiles → (t.tile k).power = .off) ∧ (q < s.nQuads → (t.quad q).pll = false)) ∧
    (∀ a, x.coolAt = some a → x.pll = true → x.mhz < cap → a + 14414400 ≤ s.now → exec (.quadrantStepUp q) s =
      .next (s.setQuad q { x with mhz := min cap (x.mhz + 100), coolAt := some s.now })) ∧
    (x.coolAt = none ∨ x.pll = false ∨ cap ≤ x.mhz → exec (.quadrantStepUp q) s = .next s) ∧
    (q < s.nQuads → x.pll = true → ∀ supply, Answers (.quadrantPllLoss q supply) s fun t =>
      (t.quad q).pll = false ∧ (t.quad q).mhz = 0 ∧ t.flt.status.getLsbD 13 = true ∧ t.pat = s.pat ∧
      (supply = true → ∀ k, k < s.nTiles → quadOf k = q → (t.tile k).store = [])) ∧
    (∀ n, railNominal[rail]? = some n → rail ≠ 1 →
      (mv * 100 < 85 * n → exec (.supplyExcursion rail mv us) s = exec .powerOnReset s) ∧
      (85 * n ≤ mv * 100 → 106 * n < mv * 100 ∨ mv * 100 < 94 * n → 2 < us → Answers (.supplyExcursion rail mv us) s fun t =>
        t.flt.status.getLsbD 3 = true ∧ t.pat = s.pat ∧ t.mem = s.mem) ∧
      (94 * n ≤ mv * 100 → mv * 100 ≤ 106 * n → exec (.supplyExcursion rail mv us) s = .next s)) ∧
    (exec (.supplyExcursion 1 mv us) s = .next s) ∧
    (Answers .refClockLost s fun t => t.flt.status.getLsbD 2 = true ∧ t.pat = s.pat ∧ t.mem = s.mem)

/-- The commands of the security engine (R385, R386, R389, R391, R392, R397, R398): an import, a provisioning and an unlock run
until their end; clear, revoke, svn_commit and lock end at once with result 1; what SAFE, a slot in use, a written key, VK0,
the debug state or a running command forbids is ignored; import and clear wait while the control cores reload. How a running
security command ends (R386, R391, R397) and how a reload of the control cores does (R260): a key that unwraps soundly under the
OTK goes into its slot, a failed unwrap leaves the slot and asserts source 4; a verification key is written with its usage, and an
OTK that unwraps under the patch key is held, any other is ignored; a certificate that names this part and its nonce and whose
signature verifies unlocks and clears the key slots, any other fails; the command that waited proceeds. -/
def Obligations.SecurityEngine : Prop :=
  (∀ (s : State) (v : Word), s.live = true →
     let x := s.sec
     let w (cmd : Nat) : Word := (v &&& 0xFFFFFFF0) ||| BitVec.ofNat 32 cmd
     let vk := v.toNat / 16 % 8
     let slot := v.toNat / 256 % 8192
     let running (cmd : Nat) : State := { s with sec := { x with busy := some (w cmd), len := (s.reg 0x80010).toNat % 256 } }
     let ignored (cmd : Nat) : State := s.ignored 0x80004 (w cmd)
     (x.busy = none → x.waiting = none →
       (x.reloading = false → s.pwr.safe = false → s.slotUsed slot = false → exec (.importKey v) s = .next (running 1)) ∧
       (x.reloading = false → s.pwr.safe = true ∨ s.slotUsed slot = true → exec (.importKey v) s = .next (ignored 1)) ∧
       (x.reloading = true → exec (.importKey v) s = .next { s with sec := { x with waiting := some (w 1) } } ∧
         exec (.clearSlot v) s = .next { s with sec := { x with waiting := some (w 2) } }) ∧
       (x.reloading = false → s.pwr.safe = false → Answers (.clearSlot v) s fun t =>
         t = { s with sec := { x with keys := t.sec.keys, result := 1 } } ∧
         ∀ k, tget [] t.sec.keys k = if k = slot then [] else tget [] x.keys k) ∧
       (x.reloading = false → s.pwr.safe = true → exec (.clearSlot v) s = .next (ignored 2)) ∧
       (let written := if v.getLsbD 7 then x.otk else nbit (tget 0 x.vk vk) 4;
         (s.mode = .primed → written = false → exec (.provision v) s = .next (running 3)) ∧
         (s.mode ≠ .primed ∨ written = true → exec (.provision v) s = .next (ignored 3))) ∧
       (vk ≠ 0 → exec (.revoke v) s = .next { s with sec := { x with revoked := x.revoked ||| 2 ^ vk, result := 1 } }) ∧
       (vk = 0 → exec (.revoke v) s = .next (ignored 4)) ∧
       (exec (.svnCommit v) s = .next { s with sec := { x with counter := max x.counter x.svn, result := 1 } }) ∧
       (x.debug = 0 → exec (.lockDebug v) s = .next { s with sec := { x with debug := 1, result := 1 } }) ∧
       (x.debug = 1 → exec (.lockDebug v) s = .next { s with sec := { x with debug := 3, result := 1 } }) ∧
       (x.debug ≠ 0 → x.debug ≠ 1 → exec (.lockDebug v) s = .next (ignored 6)) ∧
       (x.debug = 1 → exec (.unlockDebug v) s = .next (running 7)) ∧
       (x.debug ≠ 1 → exec (.unlockDebug v) s = .next (ignored 7))) ∧
     (x.busy ≠ none ∨ x.waiting ≠ none →
       exec (.importKey v) s = .next (ignored 1) ∧ exec (.clearSlot v) s = .next (ignored 2) ∧
       exec (.provision v) s = .next (ignored 3) ∧ exec (.revoke v) s = .next (ignored 4) ∧
       exec (.svnCommit v) s = .next (ignored 5) ∧ exec (.lockDebug v) s = .next (ignored 6) ∧
       exec (.unlockDebug v) s = .next (ignored 7))) ∧
  (∀ (s : State) (v nonce : Word), s.live = true →
     let x := s.sec
     let cmd := v.toNat % 16
     let vk := v.toNat / 16 % 8
     let slot := v.toNat / 256 % 8192
     let done (r : Nat) (y : Sec) : State := { s with sec := { y with busy := none, result := r } }
     let told (t : State) : Prop := t = { s with sec := t.sec, hif := t.hif, regs := t.regs, outbox := t.outbox } ∧
       t.sec.busy = none ∧ RegsKept s t [0x30290] ∧ (nbit s.hif.inService 4 = false → nbit t.hif.pend 4 = true)
     (x.busy = none → ∀ e, exec (.secCommandDone e nonce) s = .next s) ∧
     (x.busy = some v → cmd = 1 →
       (∀ blob plain, x.otk = true → x.otkOff = false → x.len = 40 ∨ x.len = 56 → unwrap x.otkKey (blob.take x.len) = some plain →
         zerosAt plain (plain.length - 4) 4 = true → Answers (.secCommandDone blob nonce) s fun t =>
           t = done 1 { x with keys := t.sec.keys } ∧
           ∀ k, tget [] t.sec.keys k = if k = slot then plain.take (plain.length - 4) else tget [] x.keys k) ∧
       (∀ blob, x.otk = false ∨ x.otkOff = true ∨ (x.len ≠ 40 ∧ x.len ≠ 56) ∨ unwrap x.otkKey (blob.take x.len) = none →
         Answers (.secCommandDone blob nonce) s fun t =>
         told t ∧ t.sec.result = 2 ∧ t.sec.keys = x.keys)) ∧
     (x.busy = some v → cmd = 3 →
       (v.getLsbD 7 = false → ∀ blob, Answers (.secCommandDone blob nonce) s fun t =>
         t = done 1 { x with vk := t.sec.vk, vkKey := t.sec.vkKey } ∧
         tget 0 t.sec.vk vk = 16 + (blob.getD 49 0).toNat % 16 ∧ tget [] t.sec.vkKey vk = blob.take 49 ∧ (∀ k, k ≠ vk → tget 0 t.sec.vk k = tget 0 x.vk k)) ∧
       (v.getLsbD 7 = true → ∀ blob key, unwrap x.patchKey (blob.take 40) = some key → exec (.secCommandDone blob nonce) s =
         .next (done 1 { x with otk := true, otkKey := key })) ∧
       (v.getLsbD 7 = true → ∀ blob, unwrap x.patchKey (blob.take 40) = none → exec (.secCommandDone blob nonce) s =
         .next (({ s with sec := { x with busy := none } } : State).ignored 0x80004 v))) ∧
     (x.busy = some v → cmd = 7 → ∀ blob,
       let cert := blob.take 192
       let good := leAt cert 0 4 = 0x4D564442 ∧ leAt cert 4 8 = s.serial.toNat ∧ leAt cert 12 4 = x.nonce.toNat ∧
         zerosAt cert 16 48 = true ∧ trailerForm cert = true ∧ x.verifies (trailerSlot cert) 3 = true ∧ x.signed cert = true
       Answers (.secCommandDone blob nonce) s fun t =>
         told t ∧ t.sec.nonce = nonce ∧
         (good → t.sec.debug = 2 ∧ t.sec.keys = [] ∧ t.sec.otkOff = true ∧ t.sec.result = 1) ∧
         (¬ good → t.sec.debug = x.debug ∧ t.sec.keys = x.keys ∧ t.sec.result = 2)) ∧
     (x.reloading = false → exec .coreReloadDone s = .next s) ∧
     (x.reloading = true → (∀ k, (s.stack k).trainWait = []) →
       (x.waiting = none → Answers .coreReloadDone s fun t =>
         t = { s with sec := { x with reloading := false }, hbm := t.hbm } ∧ ∀ k, t.stack k = s.stack k) ∧
       (x.waiting = some v → cmd = 1 → s.pwr.safe = false → s.slotUsed slot = false → Answers .coreReloadDone s fun t =>
         t = { s with hbm := t.hbm, sec := { x with
           reloading := false, waiting := none, busy := some v, len := (s.reg 0x80010).toNat % 256 } } ∧
         ∀ k, t.stack k = s.stack k)))

/-- One-time-programmable bits only grow (R384, R385, R389): whatever the command, the version count does not fall, and a written
key, a revocation and the OTK stay. -/
def Obligations.FusesOnlyGrow : Prop :=
  ∀ (c : Instr) (s t : State), exec c s = .next t →
    s.sec.counter ≤ t.sec.counter ∧ (s.sec.otk = true → t.sec.otk = true) ∧
      (∀ k, nbit s.sec.revoked k = true → nbit t.sec.revoked k = true) ∧
      (∀ k, nbit (tget 0 s.sec.vk k) 4 = true → nbit (tget 0 t.sec.vk k) 4 = true)

/-- The performance counters (R399 to R408): clear zeroes the global counters; a legal event selection applies, any other is
ignored; a counter at its limit sets its threshold bit, which an acknowledge clears; a tile's sample is queued or lost; the
sample head moves up to the tail; a window's end latches its totals, unless a write of the window discarded it. -/
def Obligations.PerformanceCounters : Prop :=
  ∀ (s : State) (n value latency : Nat) (hi : Bool) (v ctu : Word) (totals : List Nat), s.live = true →
    let p := s.pmu
    let own (t : State) : Prop := t = { s with pmu := t.pmu }
    (Answers (.pmuClear v) s fun t =>
      t = { s with pmu := { p with cnt := t.pmu.cnt, ovf := t.pmu.ovf }, regs := t.regs } ∧ t.reg 0x60000 = v &&& 1 ∧
      RegsKept s t [0x60000] ∧ (∀ k, tget 0 t.pmu.cnt k = if k < 64 then 0 else tget 0 p.cnt k) ∧
      ∀ k, tget false t.pmu.ovf k = if k < 64 then false else tget false p.ovf k) ∧
    (n < 64 → evtLegal false (n == 63) v = true → exec (.pmuEvtWrite none n v) s = .next (s.setReg (0x60100 + 4 * n) v)) ∧
    (n < 64 → evtLegal false (n == 63) v = false → exec (.pmuEvtWrite none n v) s = .next (s.ignored (0x60100 + 4 * n) v)) ∧
    (∀ k, k < 8 → n < s.nTiles → (s.quad (quadOf n)).pll = true → evtLegal true (k == 7) v = true →
      exec (.pmuEvtWrite (some n) k v) s = .next (s.setReg (0x204040 + 0x8000 * n + 4 * k) v)) ∧
    (n < 64 → value < 2 ^ 48 → (s.reg 0x60000).getLsbD 0 = true → s.pmuLimit n ≠ 0 → nbit p.thr n = false →
      s.pmuLimit n ≤ value → tget 0 p.cnt n ≤ value → Answers (.thresholdEvent n value) s fun t =>
        t = { s with pmu := t.pmu, lnt := t.lnt, regs := t.regs } ∧ tget 0 t.pmu.cnt n = value ∧ t.pmu.thr = p.thr ||| 2 ^ n ∧
        (∀ k, k ≠ n → tget 0 t.pmu.cnt k = tget 0 p.cnt k) ∧ t.pmu.ovf = p.ovf) ∧
    (s.pmuLimit n = 0 ∨ nbit p.thr n = true → exec (.thresholdEvent n value) s = .next s) ∧
    (let m := if hi then v.toNat * 2 ^ 32 else v.toNat;
      exec (.pmuThrAck hi v) s = .next { s with pmu := { p with thr := p.thr - (p.thr &&& m) } }) ∧
    (n < s.nTiles → (s.reg 0x60600).getLsbD 0 = true →
      nbit ((s.reg 0x60608).toNat + (s.reg 0x6060C).toNat * 2 ^ 32) n = true → s.samplePeriod n ≤ (s.tile n).sampCnt →
      (p.queue.length < 64 → Answers (.preciseSample n latency ctu) s fun t =>
        t = { s with tiles := t.tiles, pmu := { p with queue := p.queue ++ [s.sampleOf n latency ctu] } } ∧
        OtherTiles s t (· = n) ∧ t.tile n = { s.tile n with sampCnt := 0, lfsr := lfsrNext (s.tile n).lfsr } ∧
        (s.sampleOf n latency ctu).d3 = BitVec.ofNat 32 s.now) ∧
      (64 ≤ p.queue.length → Answers (.preciseSample n latency ctu) s fun t =>
        t = { s with tiles := t.tiles, regs := t.regs } ∧ RegsKept s t [0x60618] ∧
        (t.reg 0x60618).toNat = min 0xFFFFFFFF ((s.reg 0x60618).toNat + 1))) ∧
    ((s.reg 0x60600).getLsbD 0 = false → exec (.preciseSample n latency ctu) s = .next s) ∧
    (let h := v.toNat % 4096
      let within := (h + 4096 - p.head) % 4096 ≤ (p.tail + 4096 - p.head) % 4096
      (within → exec (.sampleHeadWrite v) s = .next { s with pmu := { p with head := h } }) ∧
      (¬ within → exec (.sampleHeadWrite v) s = .next (s.ignored 0x60610 v))) ∧
    (let w := (s.reg 0x60700).toNat
      let b := s.now / w * w
      (b ≠ p.bwAt → p.bwFresh = false → Answers (.bwWindowBoundary totals) s fun t =>
        own t ∧ t.pmu.bwAt = b ∧ t.pmu.bwStart = b - w ∧ t.pmu.bwGen = p.bwGen + 1 ∧
        ∀ k, k < 16 → tget 0 t.pmu.bw k = BitVec.ofNat 64 (totals.getD k 0)) ∧
      (b ≠ p.bwAt → p.bwFresh = true → exec (.bwWindowBoundary totals) s =
        .next { s with pmu := { p with bwFresh := false, bwAt := b } }) ∧
      (b = p.bwAt → exec (.bwWindowBoundary totals) s = .next s))

/-- The I2C target (R422, Table 23.8) answers in every mode and changes nothing: the status, the die and stack temperatures, the
serial number and the timebase, least significant byte first, and the nine rails, each a free value but for VDD_IO, which
reads 0. -/
def Obligations.I2cAnswers : Prop :=
  ∀ s : State,
    let adr : Nat := 2 * (0x58 + s.pwr.straps % 4)
    let pec (cmd : Nat) (bytes : List Byte) : Byte :=
      crc8 (BitVec.ofNat 8 adr :: BitVec.ofNat 8 cmd :: BitVec.ofNat 8 (adr + 1) :: bytes)
    let gives (c : Instr) (cmd : Nat) (bytes : List Byte) : Prop :=
      exec c s = .next { s with outbox := s.outbox ++ [.i2c (bytes ++ [pec cmd bytes])] }
    let asleep (k : Nat) : Prop := s.nStacks ≤ k ∨ (s.stack k).fenced = true ∨ s.pwr.life = .standby ∨ (s.dom k).st = 1
    (gives .i2cSerial 5 (leBytes 8 s.serial.toNat)) ∧ (gives .i2cTimebase 6 (leBytes 8 s.now)) ∧
    (gives .i2cStatus 1 [BitVec.ofNat 8 (s.mode.code + 8 * s.sec.boot + 32 * s.pwr.lastReset),
      BitVec.ofNat 8 (s.flt.aon / 4 % 8 + 8 * (if s.pwr.tripped then 1 else 0)), BitVec.ofNat 8 s.hottest.2, 0]) ∧
    (∃ heats : List Byte, heats.length = 4 ∧
      gives .i2cTemp 2 ([0, 1, 2].map (fun d => BitVec.ofNat 8 (s.dieTemp d)) ++ heats) ∧
      ∀ k, k < 4 → (asleep k → heats.getD k 0 = 0) ∧ (¬ asleep k → heats.getD k 0 = BitVec.ofNat 8 (s.stack k).temp)) ∧
    (∃ rails : List Byte, rails.length = 18 ∧ rails.getD 2 0 = 0 ∧ rails.getD 3 0 = 0 ∧
      exec .i2cVolts s = .next { s with outbox := s.outbox ++ [.i2c (rails ++ [pec 3 rails])], freeCtr := s.freeCtr + 1 })
end

