-- ==== Sys2Proof/Laws/Table.lean ====
section
/-!
SUPPORT. Laws of sparse tables: a read after a write, and the canonical form kept by every write.
-/
namespace Sys2Proof.Machine

variable {α : Type} {d : α}

/-- A table whose keys all lie above `k` reads the default at `k` and below. -/
theorem tget_above {k j : Nat} {t : Tbl α} (h : tabove k t = true) (hj : j ≤ k) : tget d t j = d := by
  induction t with
  | nil => rfl
  | cons e t ih =>
    simp only [tabove, List.all_cons, Bool.and_eq_true, decide_eq_true_eq] at h
    have hne : e.1 ≠ j := by omega
    simpa [tget, hne] using ih (by simpa [tabove] using h.2)

/-- Keys above `k` stay above a lower bound. -/
theorem tabove_mono {j k : Nat} {t : Tbl α} (h : tabove k t = true) (hj : j ≤ k) : tabove j t = true := by
  simp only [tabove, List.all_eq_true, decide_eq_true_eq] at h ⊢
  exact fun e he => Nat.lt_of_le_of_lt hj (h e he)

/-- Removing a key reads as the default there and changes nothing else. -/
theorem tget_tdel (t : Tbl α) (k j : Nat) : tget d (tdel t k) j = if j = k then d else tget d t j := by
  induction t with
  | nil => simp [tdel, tget]
  | cons e t ih =>
    by_cases h : e.1 = k <;> by_cases hj : e.1 = j <;> simp_all [tdel, tget]

/-- Inserting a key reads as its value there and changes nothing else. -/
theorem tget_tins (t : Tbl α) (k j : Nat) (v : α) : tget d (tins k v t) j = if j = k then v else tget d t j := by
  induction t with
  | nil => by_cases h : j = k <;> simp [tins, tget, h, Ne.symm]
  | cons e t ih =>
    simp only [tins]
    split
    · by_cases h : j = k
      · subst h; simp [tget]
      · have : ¬ k = j := fun e => h e.symm
        simp [tget, h, this]
    · split
      · rename_i he
        by_cases h : j = k
        · subst h; simp [tget]
        · have : ¬ k = j := fun e => h e.symm
          simp [tget, h, this, he]
      · by_cases h : e.1 = j
        · subst h; simp_all [tget]
        · simp [tget, h, ih]

/-- A read after a write gives the value written at its key and the old one elsewhere. -/
theorem tget_tset [DecidableEq α] (t : Tbl α) (k j : Nat) (v : α) : tget d (tset d k v t) j = if j = k then v else tget d t j := by
  unfold tset
  split
  · subst_vars; exact tget_tdel t k j
  · exact tget_tins t k j v

@[simp] theorem tget_tset_self [DecidableEq α] (t : Tbl α) (k : Nat) (v : α) : tget d (tset d k v t) k = v := by simp [tget_tset]

theorem tget_tset_ne [DecidableEq α] (t : Tbl α) {k j : Nat} (v : α) (h : j ≠ k) : tget d (tset d k v t) j = tget d t j := by
  simp [tget_tset, h]

/-- A write at another key changes no read, whatever an unlisted key reads as. -/
theorem tget_tset_other [DecidableEq α] (d e : α) (t : Tbl α) {k j : Nat} (v : α) (h : j ≠ k) :
    tget e (tset d k v t) j = tget e t j := by
  unfold tset
  split
  · simp [tget_tdel, h]
  · simp [tget_tins, h]

/-- Removing a key keeps lower bounds. -/
theorem tabove_tdel {b : Nat} {t : Tbl α} (k : Nat) (h : tabove b t = true) : tabove b (tdel t k) = true := by
  induction t with
  | nil => rfl
  | cons e t ih =>
    simp only [tabove, List.all_cons, Bool.and_eq_true] at h
    simp only [tdel]
    split
    · exact ih h.2
    · simp only [tabove, List.all_cons, Bool.and_eq_true]; exact ⟨h.1, ih h.2⟩

/-- Inserting a key above a bound keeps the bound. -/
theorem tabove_tins {b k : Nat} {t : Tbl α} (v : α) (hk : b < k) (h : tabove b t = true) : tabove b (tins k v t) = true := by
  induction t with
  | nil => simp [tins, tabove, hk]
  | cons e t ih =>
    simp only [tabove, List.all_cons, Bool.and_eq_true, decide_eq_true_eq] at h
    simp only [tins]
    split
    · simp only [tabove, List.all_cons, Bool.and_eq_true, decide_eq_true_eq]; exact ⟨hk, h.1, h.2⟩
    · split
      · simp only [tabove, List.all_cons, Bool.and_eq_true, decide_eq_true_eq]; exact ⟨hk, h.2⟩
      · simp only [tabove, List.all_cons, Bool.and_eq_true, decide_eq_true_eq]; exact ⟨h.1, ih h.2⟩

theorem twf_tdel [DecidableEq α] {t : Tbl α} (k : Nat) (h : twf d t = true) : twf d (tdel t k) = true := by
  induction t with
  | nil => rfl
  | cons e t ih =>
    simp only [twf, Bool.and_eq_true] at h
    simp only [tdel]
    split
    · exact ih h.2
    · simp only [twf, Bool.and_eq_true]; exact ⟨⟨h.1.1, tabove_tdel k h.1.2⟩, ih h.2⟩

theorem twf_tins [DecidableEq α] {t : Tbl α} {k : Nat} {v : α} (hv : v ≠ d) (h : twf d t = true) : twf d (tins k v t) = true := by
  induction t with
  | nil => simp [tins, twf, tabove, hv]
  | cons e t ih =>
    simp only [twf, Bool.and_eq_true, decide_eq_true_eq] at h
    simp only [tins]
    split
    · rename_i hlt
      have ha := tabove_mono h.1.2 (Nat.le_of_lt hlt)
      simp only [tabove] at ha
      rw [twf, twf, h.2]
      simp only [tabove, List.all_cons, hlt, ha, decide_true, Bool.and_true, Bool.and_eq_true]
      exact ⟨by simpa using hv, by simpa using h.1.1, h.1.2⟩
    · split
      · rename_i he; subst he; simp [twf, hv, h.1.2, h.2]
      · rename_i hlt hne
        have : e.1 < k := by omega
        simp [twf, h.1.1, tabove_tins v this h.1.2, ih h.2]

/-- A write keeps the canonical form. -/
theorem twf_tset [DecidableEq α] {t : Tbl α} (k : Nat) (v : α) (h : twf d t = true) : twf d (tset d k v t) = true := by
  unfold tset
  split
  · exact twf_tdel k h
  · rename_i hv; exact twf_tins hv h

end Sys2Proof.Machine
end

