-- ==== Sys2Proof/Laws/Frame1.lean ====
section
/-!
SUPPORT. Frames of every operation that writes neither HBM, the timebase nor OTP: it leaves `State.kept` as it was. One lemma
per operation, in the order of the machine's files (here: registers to the loader).
-/
set_option linter.all false

namespace Sys2Proof.Machine

/-- The queue of commands, what the part is, HBM contents, the timebase and OTP: what few operations change. -/
def State.kept (s : State) : List Instr × Bool × Dword × List Host.Cell × List Host.Cell × Nat × Nat × Tbl Nat ×
    Tbl (List Byte) × Nat × Bool :=
  (s.pending, s.a144, s.serial, s.mem, s.side, s.now, s.sec.counter, s.sec.vk, s.sec.vkKey, s.sec.revoked, s.sec.otk)

@[simp] theorem kept_eta (s : State) :
    (s.pending, s.a144, s.serial, s.mem, s.side, s.now, s.sec.counter, s.sec.vk, s.sec.vkKey, s.sec.revoked, s.sec.otk) =
      s.kept := Prod.ext rfl rfl

/-- What a state keeps is read off its fields. -/
@[simp] theorem kept_mk (pending_ : List Instr) (a144_ : Bool) (serial_ : Dword) (now_ : Nat) (regs_ : Tbl Word) (pat_
    : Pattern) (ldr_ : Loader) (pwr_ : Power) (flt_ : Collector) (lnt_ : Lint) (hif_ : Hif) (sessions_ : Tbl Session)
    (tiles_ : Tbl Tile) (admitted_ : Nat) (resetting_ : Nat) (pages_ : Tbl HPage) (lastDfree_ : Word) (lowArmed_ :
    Bool) (subs_ : Tbl Sub) (svcs_ : Tbl Svc) (portBkt_ : Tbl Bucket) (eths_ : Tbl Eth) (ingest_ : Tbl Ingest) (chans_
    : Tbl Chan) (dmaReq_ : Nat) (cvus_ : Tbl Cvu) (arbs_ : Tbl Arb) (hbm_ : Tbl Stack) (mem_ : List Host.Cell) (side_
    : List Host.Cell) (lastUnc_ : Nat) (sec_ : Sec) (lin_ : Line) (pmu_ : Pmu) (outbox_ : List Emit) (freeCtr_ : Nat)
    : State.kept ⟨pending_, a144_, serial_, now_, regs_, pat_, ldr_, pwr_, flt_, lnt_, hif_, sessions_, tiles_,
    admitted_, resetting_, pages_, lastDfree_, lowArmed_, subs_, svcs_, portBkt_, eths_, ingest_, chans_, dmaReq_,
    cvus_, arbs_, hbm_, mem_, side_, lastUnc_, sec_, lin_, pmu_, outbox_, freeCtr_⟩ = (pending_, a144_, serial_, mem_,
    side_, now_, sec_.counter, sec_.vk, sec_.vkKey, sec_.revoked, sec_.otk) := Prod.ext rfl rfl

@[simp] theorem foldl_kept {α : Type} (f : State → α → State) (h : ∀ s a, (f s a).kept = s.kept) (l : List α) (s : State) :
    (l.foldl f s).kept = s.kept := by
  induction l generalizing s with
  | nil => rfl
  | cons a t ih => rw [List.foldl_cons, ih, h]

@[simp] theorem foldl1_kept {α β : Type} (f : State × β → α → State × β) (h : ∀ s a, (f s a).1.kept = s.1.kept) (l : List α) (s : State × β) :
    (l.foldl f s).1.kept = s.1.kept := by
  induction l generalizing s with
  | nil => rfl
  | cons a t ih => rw [List.foldl_cons, ih, h]

@[simp] theorem ite_kept (c : Prop) [Decidable c] (a b : State) :
    (if c then a else b).kept = if c then a.kept else b.kept := apply_ite _ _ _ _

@[simp] theorem ite1_kept {β : Type} (c : Prop) [Decidable c] (a b : State × β) :
    (if c then a else b).1.kept = if c then a.1.kept else b.1.kept := by split <;> rfl

@[simp] theorem State.setReg_kept (s : State) (off : Nat) (v : Word) : (State.setReg s off v).kept = s.kept :=
  by unfold State.setReg; simp [-ite_eq_left_iff, -ite_eq_right_iff]
@[simp] theorem State.bump_kept (s : State) (off : Nat) (k : Nat) : (State.bump s off k).kept = s.kept :=
  by unfold State.bump; simp [-ite_eq_left_iff, -ite_eq_right_iff]
@[simp] theorem State.setSes_kept (s : State) (n : Nat) (x : Session) : (State.setSes s n x).kept = s.kept :=
  by unfold State.setSes; simp [-ite_eq_left_iff, -ite_eq_right_iff]
@[simp] theorem State.setTile_kept (s : State) (n : Nat) (x : Tile) : (State.setTile s n x).kept = s.kept :=
  by unfold State.setTile; simp [-ite_eq_left_iff, -ite_eq_right_iff]
@[simp] theorem State.setQuad_kept (s : State) (q : Nat) (x : Quad) : (State.setQuad s q x).kept = s.kept :=
  by unfold State.setQuad; simp [-ite_eq_left_iff, -ite_eq_right_iff]
@[simp] theorem State.setDom_kept (s : State) (d : Nat) (x : Dom) : (State.setDom s d x).kept = s.kept :=
  by unfold State.setDom; simp [-ite_eq_left_iff, -ite_eq_right_iff]
@[simp] theorem State.setStack_kept (s : State) (n : Nat) (x : Stack) : (State.setStack s n x).kept = s.kept :=
  by unfold State.setStack; simp [-ite_eq_left_iff, -ite_eq_right_iff]
@[simp] theorem State.setFn_kept (s : State) (n : Nat) (x : Func) : (State.setFn s n x).kept = s.kept :=
  by unfold State.setFn; simp [-ite_eq_left_iff, -ite_eq_right_iff]
@[simp] theorem State.setSub_kept (s : State) (n : Nat) (x : Sub) : (State.setSub s n x).kept = s.kept :=
  by unfold State.setSub; simp [-ite_eq_left_iff, -ite_eq_right_iff]
@[simp] theorem State.setEth_kept (s : State) (p : Nat) (x : Eth) : (State.setEth s p x).kept = s.kept :=
  by unfold State.setEth; simp [-ite_eq_left_iff, -ite_eq_right_iff]
@[simp] theorem State.setChan_kept (s : State) (n : Nat) (x : Chan) : (State.setChan s n x).kept = s.kept :=
  by unfold State.setChan; simp [-ite_eq_left_iff, -ite_eq_right_iff]
@[simp] theorem State.whenLive_kept (s : State) (f : State → State) (h_f : ∀ s, (f s).kept = s.kept) : (State.whenLive s f).kept = s.kept :=
  by unfold State.whenLive; simp [-ite_eq_left_iff, -ite_eq_right_iff, h_f]
@[simp] theorem State.noteIgn_kept (s : State) (base : Nat) (off : Nat) (v : Word) : (State.noteIgn s base off v).kept = s.kept :=
  by unfold State.noteIgn; simp [-ite_eq_left_iff, -ite_eq_right_iff]
@[simp] theorem State.ignored_kept (s : State) (off : Nat) (v : Word) : (State.ignored s off v).kept = s.kept :=
  by unfold State.ignored; simp [-ite_eq_left_iff, -ite_eq_right_iff]
@[simp] theorem State.ignoredVf_kept (s : State) (fn : Nat) (off : Nat) (v : Word) : (State.ignoredVf s fn off v).kept = s.kept :=
  by unfold State.ignoredVf; simp [-ite_eq_left_iff, -ite_eq_right_iff]
@[simp] theorem State.ignoredSes_kept (s : State) (n : Nat) (off : Nat) (v : Word) (reason : Nat) : (State.ignoredSes s n off v reason).kept = s.kept :=
  by unfold State.ignoredSes; simp [-ite_eq_left_iff, -ite_eq_right_iff]
@[simp] theorem State.emit_kept (s : State) (e : Emit) : (State.emit s e).kept = s.kept :=
  by unfold State.emit; simp [-ite_eq_left_iff, -ite_eq_right_iff]
@[simp] theorem State.fresh_kept (s : State) : (State.fresh s).1.kept = s.kept :=
  by unfold State.fresh; simp [-ite_eq_left_iff, -ite_eq_right_iff]
@[simp] theorem State.cntAdd_kept (s : State) (c : Nat) (k : Nat) (x4 : Nat) : (State.cntAdd s c k x4).kept = s.kept := by
  induction x4 generalizing s c k with
  | zero => unfold State.cntAdd; repeat' (first | (simp [-ite_eq_left_iff, -ite_eq_right_iff]; done) | split | (refine (foldl_kept _ (fun s a => ?_) _ _).trans ?_) | simp [-ite_eq_left_iff, -ite_eq_right_iff])
  | succ n ih => unfold State.cntAdd; repeat' (first | (simp [-ite_eq_left_iff, -ite_eq_right_iff, ih]; done) | split | (refine (foldl_kept _ (fun s a => ?_) _ _).trans ?_) | simp [-ite_eq_left_iff, -ite_eq_right_iff, ih])
@[simp] theorem State.cntEvent_kept (s : State) (cs : List Nat) (code : Nat) (unit : Nat) (k : Nat) : (State.cntEvent s cs code unit k).kept = s.kept :=
  by unfold State.cntEvent; simp [-ite_eq_left_iff, -ite_eq_right_iff]
@[simp] theorem State.count_kept (s : State) (code : Nat) (unit : Nat) (k : Nat) : (State.count s code unit k).kept = s.kept :=
  by unfold State.count; simp [-ite_eq_left_iff, -ite_eq_right_iff]
@[simp] theorem State.countTile_kept (s : State) (t : Nat) (code : Nat) : (State.countTile s t code).kept = s.kept :=
  by unfold State.countTile; simp [-ite_eq_left_iff, -ite_eq_right_iff]
@[simp] theorem State.message_kept (s : State) (fn : Nat) : (State.message s fn).kept = s.kept :=
  by unfold State.message; simp [-ite_eq_left_iff, -ite_eq_right_iff]
@[simp] theorem State.writeRec_kept (s : State) (fn : Nat) (r : BktRec) : (State.writeRec s fn r).kept = s.kept :=
  by unfold State.writeRec; simp [-ite_eq_left_iff, -ite_eq_right_iff]
@[simp] theorem State.post_kept (s : State) (fn : Nat) (grp : Option Nat) (r : BktRec) : (State.post s fn grp r).kept = s.kept := by
  unfold State.post; repeat' (first | (simp [-ite_eq_left_iff, -ite_eq_right_iff]; done) | split | (refine (foldl_kept _ (fun s a => ?_) _ _).trans ?_) | (refine (foldl1_kept _ (fun s a => ?_) _ _).trans ?_) | simp [-ite_eq_left_iff, -ite_eq_right_iff])
@[simp] theorem State.drainHold_kept (s : State) (fn : Nat) (x3 : Nat) : (State.drainHold s fn x3).kept = s.kept := by
  fun_induction State.drainHold s fn x3 <;> simp_all [-ite_eq_left_iff, -ite_eq_right_iff]
@[simp] theorem State.assertSrc_kept (s : State) (n : Nat) (detail : Word) (ses : Nat) : (State.assertSrc s n detail ses).kept = s.kept :=
  by unfold State.assertSrc; simp [-ite_eq_left_iff, -ite_eq_right_iff]
@[simp] theorem State.clearPend_kept (s : State) (n : Nat) : (State.clearPend s n).kept = s.kept :=
  by unfold State.clearPend; simp [-ite_eq_left_iff, -ite_eq_right_iff]
@[simp] theorem State.deassertSrc_kept (s : State) (n : Nat) : (State.deassertSrc s n).kept = s.kept :=
  by unfold State.deassertSrc; simp [-ite_eq_left_iff, -ite_eq_right_iff]
@[simp] theorem State.raiseLevel_kept (s : State) (n : Nat) (detail : Word) : (State.raiseLevel s n detail).kept = s.kept :=
  by unfold State.raiseLevel; simp [-ite_eq_left_iff, -ite_eq_right_iff]
@[simp] theorem State.publish_kept (s : State) (n : Nat) : (State.publish s n).kept = s.kept :=
  by unfold State.publish; simp [-ite_eq_left_iff, -ite_eq_right_iff]
@[simp] theorem State.setSt_kept (s : State) (n : Nat) (st : Ses) : (State.setSt s n st).kept = s.kept :=
  by unfold State.setSt; simp [-ite_eq_left_iff, -ite_eq_right_iff]
@[simp] theorem State.postState_kept (s : State) (n : Nat) (new : Ses) (old : Ses) (failed : Bool) : (State.postState s n new old failed).kept = s.kept :=
  by unfold State.postState; simp [-ite_eq_left_iff, -ite_eq_right_iff]
@[simp] theorem State.setPage_kept (s : State) (i : Nat) (p : HPage) : (State.setPage s i p).kept = s.kept :=
  by unfold State.setPage; simp [-ite_eq_left_iff, -ite_eq_right_iff]
@[simp] theorem State.checkLow_kept (s : State) : (State.checkLow s).kept = s.kept :=
  by unfold State.checkLow; simp [-ite_eq_left_iff, -ite_eq_right_iff]
@[simp] theorem State.allocPage_kept (s : State) (i : Nat) : (State.allocPage s i).kept = s.kept :=
  by unfold State.allocPage; simp [-ite_eq_left_iff, -ite_eq_right_iff]
@[simp] theorem State.reserve_kept (s : State) (n : Nat) : (State.reserve s n).1.kept = s.kept :=
  by unfold State.reserve; simp [-ite_eq_left_iff, -ite_eq_right_iff]
@[simp] theorem State.freePage_kept (s : State) (i : Nat) : (State.freePage s i).kept = s.kept :=
  by unfold State.freePage; simp [-ite_eq_left_iff, -ite_eq_right_iff]
@[simp] theorem State.freeAll_kept (s : State) (ps : List Nat) : (State.freeAll s ps).kept = s.kept :=
  by unfold State.freeAll; simp [-ite_eq_left_iff, -ite_eq_right_iff]
@[simp] theorem State.dropRef_kept (s : State) (i : Nat) : (State.dropRef s i).kept = s.kept :=
  by unfold State.dropRef; simp [-ite_eq_left_iff, -ite_eq_right_iff]
@[simp] theorem State.releasePage_kept (s : State) (consumer : Nat) (pg : Nat × Nat) : (State.releasePage s consumer pg).1.kept = s.kept :=
  by unfold State.releasePage; simp [-ite_eq_left_iff, -ite_eq_right_iff]
@[simp] theorem State.fillPages_kept (s : State) (refs : Nat) (x3 : Nat) (x4 : List Nat) : (State.fillPages s refs x3 x4).kept = s.kept := by
  induction x4 generalizing s x3 with
  | nil => unfold State.fillPages; repeat' (first | (simp [-ite_eq_left_iff, -ite_eq_right_iff]; done) | split | (refine (foldl_kept _ (fun s a => ?_) _ _).trans ?_) | simp [-ite_eq_left_iff, -ite_eq_right_iff])
  | cons a t ih => unfold State.fillPages; repeat' (first | (simp [-ite_eq_left_iff, -ite_eq_right_iff, ih]; done) | split | (refine (foldl_kept _ (fun s a => ?_) _ _).trans ?_) | simp [-ite_eq_left_iff, -ite_eq_right_iff, ih])
@[simp] theorem State.refloor_kept (s : State) (p : Nat) : (State.refloor s p).kept = s.kept :=
  by unfold State.refloor; simp [-ite_eq_left_iff, -ite_eq_right_iff]
@[simp] theorem State.setLport_kept (s : State) (p : Nat) (x : LinePortSt) : (State.setLport s p x).kept = s.kept :=
  by unfold State.setLport; simp [-ite_eq_left_iff, -ite_eq_right_iff]
@[simp] theorem State.txFrame_kept (s : State) (p : Nat) (f : LFrame) : (State.txFrame s p f).kept = s.kept :=
  by unfold State.txFrame; simp [-ite_eq_left_iff, -ite_eq_right_iff]
@[simp] theorem State.sendFrame_kept (s : State) (p : Nat) (f : LFrame) : (State.sendFrame s p f).kept = s.kept :=
  by unfold State.sendFrame; simp [-ite_eq_left_iff, -ite_eq_right_iff]
@[simp] theorem State.drainWait_kept (s : State) (p : Nat) (x3 : Nat) : (State.drainWait s p x3).kept = s.kept := by
  fun_induction State.drainWait s p x3 <;> simp_all [-ite_eq_left_iff, -ite_eq_right_iff]
@[simp] theorem State.sendTo_kept (s : State) (type : Nat) (dst : Nat) (flags : Nat) (info : List Nat) (bulk : Option MigBulk) : (State.sendTo s type dst flags info bulk).kept = s.kept :=
  by unfold State.sendTo; simp [-ite_eq_left_iff, -ite_eq_right_iff]
@[simp] theorem State.note_kept (s : State) (a : Nat) (kind : Nat) (fig : Nat) : (State.note s a kind fig).kept = s.kept :=
  by unfold State.note; simp [-ite_eq_left_iff, -ite_eq_right_iff]
@[simp] theorem State.loadTile_kept (s : State) (pan : Panel) (t : Nat) : (State.loadTile s pan t).kept = s.kept :=
  by unfold State.loadTile; simp [-ite_eq_left_iff, -ite_eq_right_iff]
@[simp] theorem State.flushInbox_kept (s : State) (t : Nat) : (State.flushInbox s t).kept = s.kept :=
  by unfold State.flushInbox; simp [-ite_eq_left_iff, -ite_eq_right_iff]
@[simp] theorem State.modSes_kept (s : State) (n : Nat) (f : Session → Session) : (State.modSes s n f).kept = s.kept :=
  by unfold State.modSes; simp [-ite_eq_left_iff, -ite_eq_right_iff]
@[simp] theorem State.modTile_kept (s : State) (n : Nat) (f : Tile → Tile) : (State.modTile s n f).kept = s.kept :=
  by unfold State.modTile; simp [-ite_eq_left_iff, -ite_eq_right_iff]
@[simp] theorem State.modUnit_kept (s : State) (u : UnitRef) (f : WUnit → WUnit) : (State.modUnit s u f).kept = s.kept :=
  by unfold State.modUnit; simp [-ite_eq_left_iff, -ite_eq_right_iff]
@[simp] theorem State.stopRoutine_kept (s : State) (t : Nat) (c : Nat) : (State.stopRoutine s t c).kept = s.kept :=
  by unfold State.stopRoutine; simp [-ite_eq_left_iff, -ite_eq_right_iff]
@[simp] theorem State.patchMove_kept (s : State) (u : UnitRef) (t : Option Nat) : (State.patchMove s u t).kept = s.kept :=
  by unfold State.patchMove; simp [-ite_eq_left_iff, -ite_eq_right_iff]
@[simp] theorem State.archiveBack_kept (s : State) (u : UnitRef) : (State.archiveBack s u).kept = s.kept := by
  unfold State.archiveBack; repeat' (first | (simp [-ite_eq_left_iff, -ite_eq_right_iff]; done) | split | (refine (foldl_kept _ (fun s a => ?_) _ _).trans ?_) | (refine (foldl1_kept _ (fun s a => ?_) _ _).trans ?_) | simp [-ite_eq_left_iff, -ite_eq_right_iff])
@[simp] theorem State.abandonTile_kept (s : State) (t : Nat) : (State.abandonTile s t).kept = s.kept := by
  unfold State.abandonTile; repeat' (first | (simp [-ite_eq_left_iff, -ite_eq_right_iff]; done) | split | (refine (foldl_kept _ (fun s a => ?_) _ _).trans ?_) | (refine (foldl1_kept _ (fun s a => ?_) _ _).trans ?_) | simp [-ite_eq_left_iff, -ite_eq_right_iff])
@[simp] theorem State.askAbandon_kept (s : State) (c : Nat) (t : Nat) : (State.askAbandon s c t).kept = s.kept :=
  by unfold State.askAbandon; simp [-ite_eq_left_iff, -ite_eq_right_iff]
@[simp] theorem State.settle_kept (s : State) (e : FaultEv) : (State.settle s e).1.kept = s.kept :=
  by unfold State.settle; simp [-ite_eq_left_iff, -ite_eq_right_iff]
@[simp] theorem State.recordFirst_kept (s : State) (e : Settled) : (State.recordFirst s e).kept = s.kept :=
  by unfold State.recordFirst; simp [-ite_eq_left_iff, -ite_eq_right_iff]
@[simp] theorem State.lintPush_kept (s : State) (t : LintTrig) : (State.lintPush s t).kept = s.kept :=
  by unfold State.lintPush; simp [-ite_eq_left_iff, -ite_eq_right_iff]
@[simp] theorem State.fireSlot_kept (s : State) (n : Nat) : (State.fireSlot s n).kept = s.kept :=
  by unfold State.fireSlot; simp [-ite_eq_left_iff, -ite_eq_right_iff]
@[simp] theorem State.lintFault_kept (s : State) (e : Settled) : (State.lintFault s e).kept = s.kept := by
  unfold State.lintFault; repeat' (first | (simp [-ite_eq_left_iff, -ite_eq_right_iff]; done) | split | (refine (foldl_kept _ (fun s a => ?_) _ _).trans ?_) | (refine (foldl1_kept _ (fun s a => ?_) _ _).trans ?_) | simp [-ite_eq_left_iff, -ite_eq_right_iff])
@[simp] theorem State.signal_kept (s : State) (e : Settled) : (State.signal s e).kept = s.kept :=
  by unfold State.signal; simp [-ite_eq_left_iff, -ite_eq_right_iff]
@[simp] theorem State.toMigrating_kept (s : State) (n : Nat) (auto : Bool) : (State.toMigrating s n auto).kept = s.kept :=
  by unfold State.toMigrating; simp [-ite_eq_left_iff, -ite_eq_right_iff]
@[simp] theorem State.migrateOut_kept (s : State) (n : Nat) (auto : Bool) : (State.migrateOut s n auto).kept = s.kept :=
  by unfold State.migrateOut; simp [-ite_eq_left_iff, -ite_eq_right_iff]
@[simp] theorem State.safeNotice_kept (s : State) : (State.safeNotice s).kept = s.kept :=
  by unfold State.safeNotice; simp [-ite_eq_left_iff, -ite_eq_right_iff]
@[simp] theorem State.enterSafe_kept (s : State) : (State.enterSafe s).kept = s.kept :=
  by unfold State.enterSafe; simp [-ite_eq_left_iff, -ite_eq_right_iff]
@[simp] theorem State.reactDev_kept (s : State) (e : Settled) : (State.reactDev s e).kept = s.kept :=
  by unfold State.reactDev; simp [-ite_eq_left_iff, -ite_eq_right_iff]
@[simp] theorem State.raiseDev_kept (s : State) (k : Nat) (detail : optParam Word 0) (ses : Nat) : (State.raiseDev s k detail ses).kept = s.kept :=
  by unfold State.raiseDev; simp [-ite_eq_left_iff, -ite_eq_right_iff]
@[simp] theorem State.promote_kept (s : State) (t : Nat) : (State.promote s t).kept = s.kept :=
  by unfold State.promote; simp [-ite_eq_left_iff, -ite_eq_right_iff]
@[simp] theorem State.spareCheck_kept (s : State) (p : Nat) : (State.spareCheck s p).kept = s.kept :=
  by unfold State.spareCheck; simp [-ite_eq_left_iff, -ite_eq_right_iff]
@[simp] theorem State.retireTile_kept (s : State) (t : Nat) : (State.retireTile s t).kept = s.kept := by
  unfold State.retireTile; repeat' (first | (simp [-ite_eq_left_iff, -ite_eq_right_iff]; done) | split | (refine (foldl_kept _ (fun s a => ?_) _ _).trans ?_) | (refine (foldl1_kept _ (fun s a => ?_) _ _).trans ?_) | simp [-ite_eq_left_iff, -ite_eq_right_iff])
@[simp] theorem State.latePromotion_kept (s : State) (k : Nat) : (State.latePromotion s k).kept = s.kept := by
  unfold State.latePromotion; repeat' (first | (simp [-ite_eq_left_iff, -ite_eq_right_iff]; done) | split | (refine (foldl_kept _ (fun s a => ?_) _ _).trans ?_) | (refine (foldl1_kept _ (fun s a => ?_) _ _).trans ?_) | simp [-ite_eq_left_iff, -ite_eq_right_iff])
@[simp] theorem State.panelReset_kept (s : State) (p : Nat) : (State.panelReset s p).kept = s.kept := by
  unfold State.panelReset; repeat' (first | (simp [-ite_eq_left_iff, -ite_eq_right_iff]; done) | split | (refine (foldl_kept _ (fun s a => ?_) _ _).trans ?_) | (refine (foldl1_kept _ (fun s a => ?_) _ _).trans ?_) | simp [-ite_eq_left_iff, -ite_eq_right_iff])
@[simp] theorem State.postLoader_kept (s : State) (reject : Nat) : (State.postLoader s reject).kept = s.kept :=
  by unfold State.postLoader; simp [-ite_eq_left_iff, -ite_eq_right_iff]
@[simp] theorem State.loaderEnd_kept (s : State) (reject : Nat) : (State.loaderEnd s reject).kept = s.kept :=
  by unfold State.loaderEnd; simp [-ite_eq_left_iff, -ite_eq_right_iff]
@[simp] theorem State.rollBack_kept (s : State) (reject : Nat) : (State.rollBack s reject).kept = s.kept :=
  by unfold State.rollBack; simp [-ite_eq_left_iff, -ite_eq_right_iff]
@[simp] theorem State.react_kept (s : State) (e : Settled) : (State.react s e).kept = s.kept := by
  unfold State.react; repeat' (first | (simp [-ite_eq_left_iff, -ite_eq_right_iff]; done) | split | (refine (foldl_kept _ (fun s a => ?_) _ _).trans ?_) | (refine (foldl1_kept _ (fun s a => ?_) _ _).trans ?_) | simp [-ite_eq_left_iff, -ite_eq_right_iff])
@[simp] theorem State.collect_kept (s : State) (evs : List FaultEv) : (State.collect s evs).kept = s.kept := by
  unfold State.collect; repeat' (first | (simp [-ite_eq_left_iff, -ite_eq_right_iff]; done) | split | (refine (foldl_kept _ (fun s a => ?_) _ _).trans ?_) | (refine (foldl1_kept _ (fun s a => ?_) _ _).trans ?_) | simp [-ite_eq_left_iff, -ite_eq_right_iff])
@[simp] theorem State.raise_kept (s : State) (k : Nat) (u : Nat) (detail : optParam Word 0) (ses : Nat) : (State.raise s k u detail ses).kept = s.kept :=
  by unfold State.raise; simp [-ite_eq_left_iff, -ite_eq_right_iff]
@[simp] theorem State.access_kept (s : State) (p : LinePos) : (State.access s p).kept = s.kept :=
  by unfold State.access; simp [-ite_eq_left_iff, -ite_eq_right_iff]
@[simp] theorem State.countLanes_kept (s : State) (k : Nat) (c : Nat) (errs : List (Nat × Byte)) : (State.countLanes s k c errs).kept = s.kept :=
  by unfold State.countLanes; simp [-ite_eq_left_iff, -ite_eq_right_iff]
@[simp] theorem State.wakeStack_kept (s : State) (k : Nat) : (State.wakeStack s k).kept = s.kept :=
  by unfold State.wakeStack; simp [-ite_eq_left_iff, -ite_eq_right_iff]
@[simp] theorem State.rowCloseOp_kept (s : State) (k : Nat) (c : Nat) (rank : Nat) (bank : Nat) : (State.rowCloseOp s k c rank bank).kept = s.kept :=
  by unfold State.rowCloseOp; simp [-ite_eq_left_iff, -ite_eq_right_iff]
@[simp] theorem State.applyBand_kept (s : State) (k : Nat) : (State.applyBand s k).kept = s.kept :=
  by unfold State.applyBand; simp [-ite_eq_left_iff, -ite_eq_right_iff]
@[simp] theorem State.tempReportOp_kept (s : State) (k : Nat) (temp : Nat) : (State.tempReportOp s k temp).kept = s.kept :=
  by unfold State.tempReportOp; simp [-ite_eq_left_iff, -ite_eq_right_iff]
@[simp] theorem State.refreshOp_kept (s : State) (k : Nat) (rank : Nat) : (State.refreshOp s k rank).kept = s.kept :=
  by unfold State.refreshOp; simp [-ite_eq_left_iff, -ite_eq_right_iff]
@[simp] theorem State.rankPdOp_kept (s : State) (k : Nat) (rank : Nat) : (State.rankPdOp s k rank).kept = s.kept :=
  by unfold State.rankPdOp; simp [-ite_eq_left_iff, -ite_eq_right_iff]
@[simp] theorem State.rankSrOp_kept (s : State) (k : Nat) (rank : Nat) : (State.rankSrOp s k rank).kept = s.kept :=
  by unfold State.rankSrOp; simp [-ite_eq_left_iff, -ite_eq_right_iff]
@[simp] theorem State.loadWindowOp_kept (s : State) (k : Nat) (loads : List Nat) (margins : List (Nat × Nat × Nat)) : (State.loadWindowOp s k loads margins).kept = s.kept := by
  unfold State.loadWindowOp; repeat' (first | (simp [-ite_eq_left_iff, -ite_eq_right_iff]; done) | split | (refine (foldl_kept _ (fun s a => ?_) _ _).trans ?_) | (refine (foldl1_kept _ (fun s a => ?_) _ _).trans ?_) | simp [-ite_eq_left_iff, -ite_eq_right_iff])
@[simp] theorem State.freqTry_kept (s : State) (k : Nat) : (State.freqTry s k).kept = s.kept := by
  unfold State.freqTry; repeat' (first | (simp [-ite_eq_left_iff, -ite_eq_right_iff]; done) | split | (refine (foldl_kept _ (fun s a => ?_) _ _).trans ?_) | (refine (foldl1_kept _ (fun s a => ?_) _ _).trans ?_) | simp [-ite_eq_left_iff, -ite_eq_right_iff])
@[simp] theorem State.freqAll_kept (s : State) : (State.freqAll s).kept = s.kept :=
  by unfold State.freqAll; simp [-ite_eq_left_iff, -ite_eq_right_iff]
@[simp] theorem State.freqWrite_kept (s : State) (k : Nat) (v : Word) : (State.freqWrite s k v).kept = s.kept :=
  by unfold State.freqWrite; simp [-ite_eq_left_iff, -ite_eq_right_iff]
@[simp] theorem State.freqDoneOp_kept (s : State) (k : Nat) : (State.freqDoneOp s k).kept = s.kept := by
  unfold State.freqDoneOp; repeat' (first | (simp [-ite_eq_left_iff, -ite_eq_right_iff]; done) | split | (refine (foldl_kept _ (fun s a => ?_) _ _).trans ?_) | (refine (foldl1_kept _ (fun s a => ?_) _ _).trans ?_) | simp [-ite_eq_left_iff, -ite_eq_right_iff])
@[simp] theorem State.trainNow_kept (s : State) (k : Nat) (v : Word) : (State.trainNow s k v).kept = s.kept := by
  unfold State.trainNow; repeat' (first | (simp [-ite_eq_left_iff, -ite_eq_right_iff]; done) | split | (refine (foldl_kept _ (fun s a => ?_) _ _).trans ?_) | (refine (foldl1_kept _ (fun s a => ?_) _ _).trans ?_) | simp [-ite_eq_left_iff, -ite_eq_right_iff])
@[simp] theorem State.trainWrite_kept (s : State) (k : Nat) (v : Word) : (State.trainWrite s k v).kept = s.kept :=
  by unfold State.trainWrite; simp [-ite_eq_left_iff, -ite_eq_right_iff]
@[simp] theorem State.trainResume_kept (s : State) : (State.trainResume s).kept = s.kept :=
  by unfold State.trainResume; simp [-ite_eq_left_iff, -ite_eq_right_iff]
@[simp] theorem State.sweepDoneOp_kept (s : State) (k : Nat) (r : SweepResult) : (State.sweepDoneOp s k r).kept = s.kept := by
  unfold State.sweepDoneOp; repeat' (first | (simp [-ite_eq_left_iff, -ite_eq_right_iff]; done) | split | (refine (foldl_kept _ (fun s a => ?_) _ _).trans ?_) | (refine (foldl1_kept _ (fun s a => ?_) _ _).trans ?_) | simp [-ite_eq_left_iff, -ite_eq_right_iff])
@[simp] theorem State.caParityOp_kept (s : State) (k : Nat) (c : Nat) (again : Bool) : (State.caParityOp s k c again).kept = s.kept :=
  by unfold State.caParityOp; simp [-ite_eq_left_iff, -ite_eq_right_iff]
@[simp] theorem State.dflagsWrite_kept (s : State) (k : Nat) (v : Word) : (State.dflagsWrite s k v).kept = s.kept :=
  by unfold State.dflagsWrite; simp [-ite_eq_left_iff, -ite_eq_right_iff]
@[simp] theorem State.dsetWrite_kept (s : State) (k : Nat) (v : Word) : (State.dsetWrite s k v).kept = s.kept :=
  by unfold State.dsetWrite; simp [-ite_eq_left_iff, -ite_eq_right_iff]
@[simp] theorem State.memcWrite_kept (s : State) (k : Nat) (c : Nat) (o : Nat) (v : Word) : (State.memcWrite s k c o v).kept = s.kept :=
  by unfold State.memcWrite; simp [-ite_eq_left_iff, -ite_eq_right_iff]
@[simp] theorem State.memWrite_kept (s : State) (k : Nat) (o : Nat) (v : Word) : (State.memWrite s k o v).kept = s.kept :=
  by unfold State.memWrite; simp [-ite_eq_left_iff, -ite_eq_right_iff]
@[simp] theorem State.whenMem_kept (s : State) (k : Nat) (o : Nat) (v : Word) (f : State → State) (h_f : ∀ s, (f s).kept = s.kept) : (State.whenMem s k o v f).kept = s.kept :=
  by unfold State.whenMem; simp [-ite_eq_left_iff, -ite_eq_right_iff, h_f]
@[simp] theorem State.loadStart_kept (s : State) (piece : Bool) : (State.loadStart s piece).kept = s.kept :=
  by unfold State.loadStart; simp [-ite_eq_left_iff, -ite_eq_right_iff]
@[simp] theorem State.loadFullOp_kept (s : State) (v : Word) : (State.loadFullOp s v).kept = s.kept :=
  by unfold State.loadFullOp; simp [-ite_eq_left_iff, -ite_eq_right_iff]
@[simp] theorem State.loadPieceOp_kept (s : State) (v : Word) : (State.loadPieceOp s v).kept = s.kept :=
  by unfold State.loadPieceOp; simp [-ite_eq_left_iff, -ite_eq_right_iff]
@[simp] theorem State.abortOp_kept (s : State) (v : Word) : (State.abortOp s v).kept = s.kept :=
  by unfold State.abortOp; simp [-ite_eq_left_iff, -ite_eq_right_iff]
@[simp] theorem State.clearOp_kept (s : State) (v : Word) : (State.clearOp s v).kept = s.kept :=
  by unfold State.clearOp; simp [-ite_eq_left_iff, -ite_eq_right_iff]
@[simp] theorem State.patCmd_kept (s : State) (v : Word) : (State.patCmd s v).kept = s.kept :=
  by unfold State.patCmd; simp [-ite_eq_left_iff, -ite_eq_right_iff]
@[simp] theorem State.fabricDown_kept (s : State) : (State.fabricDown s).kept = s.kept :=
  by unfold State.fabricDown; simp [-ite_eq_left_iff, -ite_eq_right_iff]
@[simp] theorem State.setPorts_kept (s t : State) : (State.setPorts s t).kept = t.kept := by
  unfold State.setPorts; repeat' (first | (simp [-ite_eq_left_iff, -ite_eq_right_iff]; done) | split | (refine (foldl_kept _ (fun s a => ?_) _ _).trans ?_) | simp [-ite_eq_left_iff, -ite_eq_right_iff])
@[simp] theorem State.noPattern_kept (s : State) : (State.noPattern s).kept = s.kept :=
  by unfold State.noPattern; simp [-ite_eq_left_iff, -ite_eq_right_iff]
@[simp] theorem State.clearDoneOp_kept (s : State) : (State.clearDoneOp s).kept = s.kept :=
  by unfold State.clearDoneOp; simp [-ite_eq_left_iff, -ite_eq_right_iff]
@[simp] theorem State.fetchDoneOp_kept (s : State) (r : FetchResult) : (State.fetchDoneOp s r).kept = s.kept := by
  unfold State.fetchDoneOp; repeat' (first | (simp [-ite_eq_left_iff, -ite_eq_right_iff]; done) | split | (refine (foldl_kept _ (fun s a => ?_) _ _).trans ?_) | (refine (foldl1_kept _ (fun s a => ?_) _ _).trans ?_) | simp [-ite_eq_left_iff, -ite_eq_right_iff])
@[simp] theorem State.startPll_kept (s : State) (q : Nat) (mhz : Nat) : (State.startPll s q mhz).kept = s.kept :=
  by unfold State.startPll; simp [-ite_eq_left_iff, -ite_eq_right_iff]
@[simp] theorem State.powerFabric_kept (s : State) (pt : Pattern) : (State.powerFabric s pt).kept = s.kept :=
  by unfold State.powerFabric; simp [-ite_eq_left_iff, -ite_eq_right_iff]
@[simp] theorem State.pressDrain_kept (s : State) (im : List Byte) (pt : Pattern) : (State.pressDrain s im pt).kept = s.kept := by
  unfold State.pressDrain; repeat' (first | (simp [-ite_eq_left_iff, -ite_eq_right_iff]; done) | split | (refine (foldl_kept _ (fun s a => ?_) _ _).trans ?_) | (refine (foldl1_kept _ (fun s a => ?_) _ _).trans ?_) | simp [-ite_eq_left_iff, -ite_eq_right_iff])
@[simp] theorem State.validationDoneOp_kept (s : State) : (State.validationDoneOp s).kept = s.kept := by
  unfold State.validationDoneOp; repeat' (first | (simp [-ite_eq_left_iff, -ite_eq_right_iff]; done) | split | (refine (foldl_kept _ (fun s a => ?_) _ _).trans ?_) | (refine (foldl1_kept _ (fun s a => ?_) _ _).trans ?_) | simp [-ite_eq_left_iff, -ite_eq_right_iff])
@[simp] theorem State.promoteRetired_kept (s : State) (roles : Tbl Word) (mask : Nat) : (State.promoteRetired s roles mask).kept = s.kept := by
  unfold State.promoteRetired; repeat' (first | (simp [-ite_eq_left_iff, -ite_eq_right_iff]; done) | split | (refine (foldl_kept _ (fun s a => ?_) _ _).trans ?_) | (refine (foldl1_kept _ (fun s a => ?_) _ _).trans ?_) | simp [-ite_eq_left_iff, -ite_eq_right_iff])
@[simp] theorem State.loadPanels_kept (s : State) (mask : Nat) : (State.loadPanels s mask).kept = s.kept :=
  by unfold State.loadPanels; simp [-ite_eq_left_iff, -ite_eq_right_iff]
@[simp] theorem State.capRates_kept (s : State) : (State.capRates s).kept = s.kept :=
  by unfold State.capRates; simp [-ite_eq_left_iff, -ite_eq_right_iff]
@[simp] theorem State.checkPatch_kept (s : State) (pt : Pattern) : (State.checkPatch s pt).kept = s.kept :=
  by unfold State.checkPatch; simp [-ite_eq_left_iff, -ite_eq_right_iff]
@[simp] theorem State.storeLoadDoneOp_kept (s : State) (fails : List Nat) : (State.storeLoadDoneOp s fails).kept = s.kept :=
  by unfold State.storeLoadDoneOp; simp [-ite_eq_left_iff, -ite_eq_right_iff]
@[simp] theorem State.quietOpenOp_kept (s : State) : (State.quietOpenOp s).kept = s.kept :=
  by unfold State.quietOpenOp; simp [-ite_eq_left_iff, -ite_eq_right_iff]
@[simp] theorem State.quietCloseOp_kept (s : State) (fails : List Nat) : (State.quietCloseOp s fails).kept = s.kept :=
  by unfold State.quietCloseOp; simp [-ite_eq_left_iff, -ite_eq_right_iff]
@[simp] theorem State.pressTimeoutOp_kept (s : State) : (State.pressTimeoutOp s).kept = s.kept :=
  by unfold State.pressTimeoutOp; simp [-ite_eq_left_iff, -ite_eq_right_iff]
@[simp] theorem State.patWrite_kept (s : State) (o : Nat) (v : Word) : (State.patWrite s o v).kept = s.kept :=
  by unfold State.patWrite; simp [-ite_eq_left_iff, -ite_eq_right_iff]

end Sys2Proof.Machine
end

