-- ==== Sys2Proof/Laws/Frame2.lean ====
section
/-!
SUPPORT. Frames of every operation that writes neither HBM, the timebase nor OTP: it leaves `State.kept` as it was. One lemma
per operation, in the order of the machine's files (here: output to delivery).
-/
set_option linter.all false

namespace Sys2Proof.Machine

@[simp] theorem State.releasePages_kept (s : State) (consumer : Nat) (ps : List (Nat × Nat)) : (State.releasePages s consumer ps).kept = s.kept :=
  by unfold State.releasePages; simp [-ite_eq_left_iff, -ite_eq_right_iff]
@[simp] theorem State.dropUnit_kept (s : State) (q : QUnit) : (State.dropUnit s q).kept = s.kept :=
  by unfold State.dropUnit; simp [-ite_eq_left_iff, -ite_eq_right_iff]
@[simp] theorem State.flushWhere_kept (s : State) (n : Nat) (p : QUnit → Bool) : (State.flushWhere s n p).kept = s.kept :=
  by unfold State.flushWhere; simp [-ite_eq_left_iff, -ite_eq_right_iff]
@[simp] theorem State.flushSub_kept (s : State) (n : Nat) : (State.flushSub s n).kept = s.kept :=
  by unfold State.flushSub; simp [-ite_eq_left_iff, -ite_eq_right_iff]
@[simp] theorem State.flushSes_kept (s : State) (n : Nat) : (State.flushSes s n).kept = s.kept :=
  by unfold State.flushSes; simp [-ite_eq_left_iff, -ite_eq_right_iff]
@[simp] theorem State.pushOut_kept (s : State) (n : Nat) (o : OutItem) : (State.pushOut s n o).kept = s.kept :=
  by unfold State.pushOut; simp [-ite_eq_left_iff, -ite_eq_right_iff]
@[simp] theorem State.consumeHint_kept (s : State) (n : Nat) : (State.consumeHint s n).kept = s.kept :=
  by unfold State.consumeHint; simp [-ite_eq_left_iff, -ite_eq_right_iff]
@[simp] theorem State.consumeInput_kept (s : State) (n : Nat) (free : Bool) : (State.consumeInput s n free).kept = s.kept :=
  by unfold State.consumeInput; simp [-ite_eq_left_iff, -ite_eq_right_iff]
@[simp] theorem State.countDrop_kept (s : State) (n : Nat) (num : Nat) (reason : Nat) (pts : Nat) (band : Nat) (per : Bool) : (State.countDrop s n num reason pts band per).kept = s.kept :=
  by unfold State.countDrop; simp [-ite_eq_left_iff, -ite_eq_right_iff]
@[simp] theorem State.outputPics_kept (s : State) (n : Nat) (c : Tbl Word) (nums : List Nat) : (State.outputPics s n c nums).kept = s.kept := by
  unfold State.outputPics; repeat' (first | (simp [-ite_eq_left_iff, -ite_eq_right_iff]; done) | split | (refine (foldl_kept _ (fun s a => ?_) _ _).trans ?_) | (refine (foldl1_kept _ (fun s a => ?_) _ _).trans ?_) | simp [-ite_eq_left_iff, -ite_eq_right_iff])
@[simp] theorem State.tagEos_kept (s : State) (n : Nat) : (State.tagEos s n).kept = s.kept :=
  by unfold State.tagEos; simp [-ite_eq_left_iff, -ite_eq_right_iff]
@[simp] theorem State.flushDpb_kept (s : State) (n : Nat) : (State.flushDpb s n).kept = s.kept :=
  by unfold State.flushDpb; simp [-ite_eq_left_iff, -ite_eq_right_iff]
@[simp] theorem State.markEos_kept (s : State) (n : Nat) : (State.markEos s n).kept = s.kept :=
  by unfold State.markEos; simp [-ite_eq_left_iff, -ite_eq_right_iff]
@[simp] theorem State.onSes_kept (s : State) (fn : Nat) (n : Nat) (off : Nat) (v : Word) (f : State → Nat → State) (h_f : ∀ s a, (f s a).kept = s.kept) : (State.onSes s fn n off v f).kept = s.kept := by
  unfold State.onSes; repeat' (first | (simp [-ite_eq_left_iff, -ite_eq_right_iff, h_f]; done) | split | (refine (foldl_kept _ (fun s a => ?_) _ _).trans ?_) | (refine (foldl1_kept _ (fun s a => ?_) _ _).trans ?_) | simp [-ite_eq_left_iff, -ite_eq_right_iff, h_f])
@[simp] theorem State.paceSub_kept (s : State) (sub : Nat) (period : Nat) (rd : Nat × Nat) : (State.paceSub s sub period rd).kept = s.kept :=
  by unfold State.paceSub; simp [-ite_eq_left_iff, -ite_eq_right_iff]
@[simp] theorem State.derivePace_kept (s : State) (n : Nat) (c : Tbl Word) : (State.derivePace s n c).kept = s.kept :=
  by unfold State.derivePace; simp [-ite_eq_left_iff, -ite_eq_right_iff]
@[simp] theorem State.takeForce_kept (s : State) (n : Nat) (c : Tbl Word) : (State.takeForce s n c).kept = s.kept :=
  by unfold State.takeForce; simp [-ite_eq_left_iff, -ite_eq_right_iff]
@[simp] theorem State.applyPending_kept (s : State) (n : Nat) : (State.applyPending s n).kept = s.kept := by
  unfold State.applyPending; repeat' (first | (simp [-ite_eq_left_iff, -ite_eq_right_iff]; done) | split | (refine (foldl_kept _ (fun s a => ?_) _ _).trans ?_) | (refine (foldl1_kept _ (fun s a => ?_) _ _).trans ?_) | simp [-ite_eq_left_iff, -ite_eq_right_iff])
@[simp] theorem State.endDrain_kept (s : State) (n : Nat) : (State.endDrain s n).kept = s.kept := by
  unfold State.endDrain; repeat' (first | (simp [-ite_eq_left_iff, -ite_eq_right_iff]; done) | split | (refine (foldl_kept _ (fun s a => ?_) _ _).trans ?_) | (refine (foldl1_kept _ (fun s a => ?_) _ _).trans ?_) | simp [-ite_eq_left_iff, -ite_eq_right_iff])
@[simp] theorem State.applyCalm_kept (s : State) (n : Nat) : (State.applyCalm s n).kept = s.kept :=
  by unfold State.applyCalm; simp [-ite_eq_left_iff, -ite_eq_right_iff]
@[simp] theorem State.freeSesPages_kept (s : State) (n : Nat) : (State.freeSesPages s n).kept = s.kept :=
  by unfold State.freeSesPages; simp [-ite_eq_left_iff, -ite_eq_right_iff]
@[simp] theorem State.warmSpares_kept (s : State) (p : Nat) : (State.warmSpares s p).kept = s.kept := by
  unfold State.warmSpares; repeat' (first | (simp [-ite_eq_left_iff, -ite_eq_right_iff]; done) | split | (refine (foldl_kept _ (fun s a => ?_) _ _).trans ?_) | (refine (foldl1_kept _ (fun s a => ?_) _ _).trans ?_) | simp [-ite_eq_left_iff, -ite_eq_right_iff])
@[simp] theorem State.openOp_kept (s : State) (n : Nat) : (State.openOp s n).kept = s.kept := by
  unfold State.openOp; repeat' (first | (simp [-ite_eq_left_iff, -ite_eq_right_iff]; done) | split | (refine (foldl_kept _ (fun s a => ?_) _ _).trans ?_) | (refine (foldl1_kept _ (fun s a => ?_) _ _).trans ?_) | simp [-ite_eq_left_iff, -ite_eq_right_iff])
@[simp] theorem State.configureOp_kept (s : State) (n : Nat) : (State.configureOp s n).kept = s.kept :=
  by unfold State.configureOp; simp [-ite_eq_left_iff, -ite_eq_right_iff]
@[simp] theorem State.resetSeqs_kept (s : State) (n : Nat) : (State.resetSeqs s n).kept = s.kept :=
  by unfold State.resetSeqs; simp [-ite_eq_left_iff, -ite_eq_right_iff]
@[simp] theorem State.startOp_kept (s : State) (n : Nat) : (State.startOp s n).kept = s.kept :=
  by unfold State.startOp; simp [-ite_eq_left_iff, -ite_eq_right_iff]
@[simp] theorem State.pauseOp_kept (s : State) (n : Nat) : (State.pauseOp s n).kept = s.kept :=
  by unfold State.pauseOp; simp [-ite_eq_left_iff, -ite_eq_right_iff]
@[simp] theorem State.resumeOp_kept (s : State) (n : Nat) : (State.resumeOp s n).kept = s.kept :=
  by unfold State.resumeOp; simp [-ite_eq_left_iff, -ite_eq_right_iff]
@[simp] theorem State.drainOne_kept (s : State) (n : Nat) : (State.drainOne s n).kept = s.kept :=
  by unfold State.drainOne; simp [-ite_eq_left_iff, -ite_eq_right_iff]
@[simp] theorem State.drainOp_kept (s : State) (n : Nat) : (State.drainOp s n).kept = s.kept :=
  by unfold State.drainOp; simp [-ite_eq_left_iff, -ite_eq_right_iff]
@[simp] theorem State.dropUnits_kept (s : State) (n : Nat) : (State.dropUnits s n).kept = s.kept := by
  unfold State.dropUnits; repeat' (first | (simp [-ite_eq_left_iff, -ite_eq_right_iff]; done) | split | (refine (foldl_kept _ (fun s a => ?_) _ _).trans ?_) | (refine (foldl1_kept _ (fun s a => ?_) _ _).trans ?_) | simp [-ite_eq_left_iff, -ite_eq_right_iff])
@[simp] theorem State.wipe_kept (s : State) (n : Nat) : (State.wipe s n).kept = s.kept :=
  by unfold State.wipe; simp [-ite_eq_left_iff, -ite_eq_right_iff]
@[simp] theorem State.migDstFail_kept (s : State) (n : Nat) : (State.migDstFail s n).kept = s.kept := by
  unfold State.migDstFail; repeat' (first | (simp [-ite_eq_left_iff, -ite_eq_right_iff]; done) | split | (refine (foldl_kept _ (fun s a => ?_) _ _).trans ?_) | (refine (foldl1_kept _ (fun s a => ?_) _ _).trans ?_) | simp [-ite_eq_left_iff, -ite_eq_right_iff])
@[simp] theorem State.migSrcFail_kept (s : State) (n : Nat) : (State.migSrcFail s n).kept = s.kept := by
  unfold State.migSrcFail; repeat' (first | (simp [-ite_eq_left_iff, -ite_eq_right_iff]; done) | split | (refine (foldl_kept _ (fun s a => ?_) _ _).trans ?_) | (refine (foldl1_kept _ (fun s a => ?_) _ _).trans ?_) | simp [-ite_eq_left_iff, -ite_eq_right_iff])
@[simp] theorem State.safeMigEnd_kept (s : State) (n : Nat) (ok : Bool) : (State.safeMigEnd s n ok).kept = s.kept :=
  by unfold State.safeMigEnd; simp [-ite_eq_left_iff, -ite_eq_right_iff]
@[simp] theorem State.migNotice_kept (s : State) (n : Nat) : (State.migNotice s n).kept = s.kept := by
  unfold State.migNotice; repeat' (first | (simp [-ite_eq_left_iff, -ite_eq_right_iff]; done) | split | (refine (foldl_kept _ (fun s a => ?_) _ _).trans ?_) | (refine (foldl1_kept _ (fun s a => ?_) _ _).trans ?_) | simp [-ite_eq_left_iff, -ite_eq_right_iff])
@[simp] theorem State.migRefuse_kept (s : State) (n : Nat) : (State.migRefuse s n).kept = s.kept := by
  unfold State.migRefuse; repeat' (first | (simp [-ite_eq_left_iff, -ite_eq_right_iff]; done) | split | (refine (foldl_kept _ (fun s a => ?_) _ _).trans ?_) | (refine (foldl1_kept _ (fun s a => ?_) _ _).trans ?_) | simp [-ite_eq_left_iff, -ite_eq_right_iff])
@[simp] theorem State.migFail_kept (s : State) (n : Nat) : (State.migFail s n).kept = s.kept := by
  unfold State.migFail; repeat' (first | (simp [-ite_eq_left_iff, -ite_eq_right_iff]; done) | split | (refine (foldl_kept _ (fun s a => ?_) _ _).trans ?_) | (refine (foldl1_kept _ (fun s a => ?_) _ _).trans ?_) | simp [-ite_eq_left_iff, -ite_eq_right_iff])
@[simp] theorem State.closeOp_kept (s : State) (n : Nat) : (State.closeOp s n).kept = s.kept := by
  unfold State.closeOp; repeat' (first | (simp [-ite_eq_left_iff, -ite_eq_right_iff]; done) | split | (refine (foldl_kept _ (fun s a => ?_) _ _).trans ?_) | (refine (foldl1_kept _ (fun s a => ?_) _ _).trans ?_) | simp [-ite_eq_left_iff, -ite_eq_right_iff])
@[simp] theorem State.migrateInOp_kept (s : State) (n : Nat) : (State.migrateInOp s n).kept = s.kept :=
  by unfold State.migrateInOp; simp [-ite_eq_left_iff, -ite_eq_right_iff]
@[simp] theorem State.invalidateOp_kept (s : State) (n : Nat) (m : Nat) : (State.invalidateOp s n m).kept = s.kept :=
  by unfold State.invalidateOp; simp [-ite_eq_left_iff, -ite_eq_right_iff]
@[simp] theorem State.recoveryOp_kept (s : State) (n : Nat) : (State.recoveryOp s n).kept = s.kept :=
  by unfold State.recoveryOp; simp [-ite_eq_left_iff, -ite_eq_right_iff]
@[simp] theorem State.cmdEffect_kept (s : State) (n : Nat) (cmd : Nat) (arg : Nat) : (State.cmdEffect s n cmd arg).kept = s.kept :=
  by unfold State.cmdEffect; simp [-ite_eq_left_iff, -ite_eq_right_iff]
@[simp] theorem State.sesCmd_kept (s : State) (n : Nat) (v : Word) : (State.sesCmd s n v).kept = s.kept := by
  unfold State.sesCmd; repeat' (first | (simp [-ite_eq_left_iff, -ite_eq_right_iff]; done) | split | (refine (foldl_kept _ (fun s a => ?_) _ _).trans ?_) | (refine (foldl1_kept _ (fun s a => ?_) _ _).trans ?_) | simp [-ite_eq_left_iff, -ite_eq_right_iff])
@[simp] theorem State.sesLevel_kept (s : State) (n : Nat) (v : Word) : (State.sesLevel s n v).kept = s.kept :=
  by unfold State.sesLevel; simp [-ite_eq_left_iff, -ite_eq_right_iff]
@[simp] theorem State.payHints_kept (s : State) (n : Nat) (x3 : Nat) : (State.payHints s n x3).kept = s.kept := by
  fun_induction State.payHints s n x3 <;> simp_all [-ite_eq_left_iff, -ite_eq_right_iff]
@[simp] theorem State.tailWrite_kept (s : State) (n : Nat) (off : Nat) (v : Word) : (State.tailWrite s n off v).kept = s.kept :=
  by unfold State.tailWrite; simp [-ite_eq_left_iff, -ite_eq_right_iff]
@[simp] theorem State.outHeadOp_kept (s : State) (n : Nat) (v : Word) : (State.outHeadOp s n v).kept = s.kept :=
  by unfold State.outHeadOp; simp [-ite_eq_left_iff, -ite_eq_right_iff]
@[simp] theorem State.sourceIn_kept (s : State) (n : Nat) (p : Pic) : (State.sourceIn s n p).kept = s.kept := by
  unfold State.sourceIn; repeat' (first | (simp [-ite_eq_left_iff, -ite_eq_right_iff]; done) | split | (refine (foldl_kept _ (fun s a => ?_) _ _).trans ?_) | (refine (foldl1_kept _ (fun s a => ?_) _ _).trans ?_) | simp [-ite_eq_left_iff, -ite_eq_right_iff])
@[simp] theorem State.fetchRows_kept (s : State) (n : Nat) (x3 : Nat) : (State.fetchRows s n x3).kept = s.kept := by
  induction x3 generalizing s with
  | zero => unfold State.fetchRows; repeat' (first | (simp [-ite_eq_left_iff, -ite_eq_right_iff]; done) | split | (refine (foldl_kept _ (fun s a => ?_) _ _).trans ?_) | simp [-ite_eq_left_iff, -ite_eq_right_iff])
  | succ k ih => unfold State.fetchRows; repeat' (first | (simp [-ite_eq_left_iff, -ite_eq_right_iff, ih]; done) | split | (refine (foldl_kept _ (fun s a => ?_) _ _).trans ?_) | simp [-ite_eq_left_iff, -ite_eq_right_iff, ih])
@[simp] theorem State.rowsWrite_kept (s : State) (n : Nat) (v : Word) : (State.rowsWrite s n v).kept = s.kept :=
  by unfold State.rowsWrite; simp [-ite_eq_left_iff, -ite_eq_right_iff]
@[simp] theorem State.bufHeadOp_kept (s : State) (n : Nat) (v : Word) : (State.bufHeadOp s n v).kept = s.kept :=
  by unfold State.bufHeadOp; simp [-ite_eq_left_iff, -ite_eq_right_iff]
@[simp] theorem State.winRelease_kept (s : State) (n : Nat) (v : Word) : (State.winRelease s n v).kept = s.kept :=
  by unfold State.winRelease; simp [-ite_eq_left_iff, -ite_eq_right_iff]
@[simp] theorem State.bindWrite_kept (s : State) (n : Nat) (off : Nat) (v : Word) : (State.bindWrite s n off v).kept = s.kept :=
  by unfold State.bindWrite; simp [-ite_eq_left_iff, -ite_eq_right_iff]
@[simp] theorem State.stageWrite_kept (s : State) (n : Nat) (off : Nat) (mask : Nat) (v : Word) : (State.stageWrite s n off mask v).kept = s.kept :=
  by unfold State.stageWrite; simp [-ite_eq_left_iff, -ite_eq_right_iff]
@[simp] theorem State.sesWrite_kept (s : State) (n : Nat) (off : Nat) (v : Word) : (State.sesWrite s n off v).kept = s.kept := by
  unfold State.sesWrite; repeat' (first | (simp [-ite_eq_left_iff, -ite_eq_right_iff]; done) | split | (refine (foldl_kept _ (fun s a => ?_) _ _).trans ?_) | (refine (foldl1_kept _ (fun s a => ?_) _ _).trans ?_) | simp [-ite_eq_left_iff, -ite_eq_right_iff])
@[simp] theorem State.cmdVia_kept (s : State) (fn : Nat) (n : Nat) (cmd : Nat) (arg : BitVec 24) : (State.cmdVia s fn n cmd arg).kept = s.kept :=
  by unfold State.cmdVia; simp [-ite_eq_left_iff, -ite_eq_right_iff]
@[simp] theorem State.followTop_kept (s : State) (n : Nat) (num : Nat) (c0 : Tbl Word) (done : Nat) (whole : Bool) : (State.followTop s n num c0 done whole).kept = s.kept :=
  by unfold State.followTop; simp [-ite_eq_left_iff, -ite_eq_right_iff]
@[simp] theorem State.admitPic_kept (s : State) (n : Nat) (p : Pic) (forceKey : Bool) (ready : Bool) (late : Bool) (top : Option Pic) : (State.admitPic s n p forceKey ready late top).kept = s.kept :=
  by unfold State.admitPic; simp [-ite_eq_left_iff, -ite_eq_right_iff]
@[simp] theorem State.drainLower_kept (s : State) (n : Nat) : (State.drainLower s n).kept = s.kept :=
  by unfold State.drainLower; simp [-ite_eq_left_iff, -ite_eq_right_iff]
@[simp] theorem State.dropNew_kept (s : State) (n : Nat) (p : Pic) (reason : Nat) : (State.dropNew s n p reason).kept = s.kept := by
  unfold State.dropNew; repeat' (first | (simp [-ite_eq_left_iff, -ite_eq_right_iff]; done) | split | (refine (foldl_kept _ (fun s a => ?_) _ _).trans ?_) | (refine (foldl1_kept _ (fun s a => ?_) _ _).trans ?_) | simp [-ite_eq_left_iff, -ite_eq_right_iff])
@[simp] theorem State.dropOwed_kept (s : State) (m : Nat) (p : Pic) (reason : Nat) : (State.dropOwed s m p reason).kept = s.kept := by
  unfold State.dropOwed; repeat' (first | (simp [-ite_eq_left_iff, -ite_eq_right_iff]; done) | split | (refine (foldl_kept _ (fun s a => ?_) _ _).trans ?_) | (refine (foldl1_kept _ (fun s a => ?_) _ _).trans ?_) | simp [-ite_eq_left_iff, -ite_eq_right_iff])
@[simp] theorem State.tryLower_kept (s : State) (m : Nat) (p : Pic) (top : Option Pic) (again : Bool) : (State.tryLower s m p top again).kept = s.kept := by
  unfold State.tryLower; repeat' (first | (simp [-ite_eq_left_iff, -ite_eq_right_iff]; done) | split | (refine (foldl_kept _ (fun s a => ?_) _ _).trans ?_) | (refine (foldl1_kept _ (fun s a => ?_) _ _).trans ?_) | simp [-ite_eq_left_iff, -ite_eq_right_iff])
@[simp] theorem State.admitLower_kept (s : State) (n : Nat) (top : Pic) : (State.admitLower s n top).kept = s.kept :=
  by unfold State.admitLower; simp [-ite_eq_left_iff, -ite_eq_right_iff]
@[simp] theorem State.retestLower_kept (s : State) (m : Nat) : (State.retestLower s m).kept = s.kept := by
  unfold State.retestLower; repeat' (first | (simp [-ite_eq_left_iff, -ite_eq_right_iff]; done) | split | (refine (foldl_kept _ (fun s a => ?_) _ _).trans ?_) | (refine (foldl1_kept _ (fun s a => ?_) _ _).trans ?_) | simp [-ite_eq_left_iff, -ite_eq_right_iff])
@[simp] theorem State.setFlow_kept (s : State) (k : Nat) (f : Ingest) : (State.setFlow s k f).kept = s.kept :=
  by unfold State.setFlow; simp [-ite_eq_left_iff, -ite_eq_right_iff]
@[simp] theorem State.takeHint_kept (s : State) (n : Nat) (a : AdmitIn) (p : Pic) : (State.takeHint s n a p).1.kept = s.kept :=
  by unfold State.takeHint; simp [-ite_eq_left_iff, -ite_eq_right_iff]
@[simp] theorem State.admitEnc_kept (s : State) (n : Nat) (a : AdmitIn) (p : Pic) (ing : Option (Nat × IngPic)) (late : Bool) : (State.admitEnc s n a p ing late).kept = s.kept := by
  have h1 : ∀ (t : State) (o : Option Pic), (match o with | some q => t.admitLower n q | none => t).kept = t.kept := by intro t o; split <;> simp
  unfold State.admitEnc
  refine (h1 _ _).trans ?_
  repeat' (first | (simp [-ite_eq_left_iff, -ite_eq_right_iff]; done) | split | (refine (foldl_kept _ (fun s a => ?_) _ _).trans ?_) | simp [-ite_eq_left_iff, -ite_eq_right_iff])
@[simp] theorem State.considerEnc_kept (s : State) (n : Nat) (a0 : AdmitIn) : (State.considerEnc s n a0).kept = s.kept := by
  unfold State.considerEnc; repeat' (first | (simp [-ite_eq_left_iff, -ite_eq_right_iff]; done) | split | (refine (foldl_kept _ (fun s a => ?_) _ _).trans ?_) | (refine (foldl1_kept _ (fun s a => ?_) _ _).trans ?_) | simp [-ite_eq_left_iff, -ite_eq_right_iff])
@[simp] theorem State.copyChunks_kept (s : State) (n : Nat) (sz : Nat) (x4 : Nat) (x5 : List (List Byte)) : (State.copyChunks s n sz x4 x5).kept = s.kept := by
  induction x5 generalizing s x4 with
  | nil => unfold State.copyChunks; repeat' (first | (simp [-ite_eq_left_iff, -ite_eq_right_iff]; done) | split | (refine (foldl_kept _ (fun s a => ?_) _ _).trans ?_) | simp [-ite_eq_left_iff, -ite_eq_right_iff])
  | cons a t ih => unfold State.copyChunks; repeat' (first | (simp [-ite_eq_left_iff, -ite_eq_right_iff, ih]; done) | split | (refine (foldl_kept _ (fun s a => ?_) _ _).trans ?_) | simp [-ite_eq_left_iff, -ite_eq_right_iff, ih])
@[simp] theorem State.considerDec_kept (s : State) (n : Nat) (a0 : AdmitIn) : (State.considerDec s n a0).kept = s.kept := by
  unfold State.considerDec; repeat' (first | (simp [-ite_eq_left_iff, -ite_eq_right_iff]; done) | split | (refine (foldl_kept _ (fun s a => ?_) _ _).trans ?_) | (refine (foldl1_kept _ (fun s a => ?_) _ _).trans ?_) | simp [-ite_eq_left_iff, -ite_eq_right_iff])
@[simp] theorem State.consider_kept (s : State) (n : Nat) (a : AdmitIn) : (State.consider s n a).kept = s.kept := by
  unfold State.consider; repeat' (first | (simp [-ite_eq_left_iff, -ite_eq_right_iff]; done) | split | (refine (foldl_kept _ (fun s a => ?_) _ _).trans ?_) | (refine (foldl1_kept _ (fun s a => ?_) _ _).trans ?_) | simp [-ite_eq_left_iff, -ite_eq_right_iff])
@[simp] theorem State.retestAll_kept (s : State) : (State.retestAll s).kept = s.kept := by
  unfold State.retestAll; repeat' (first | (simp [-ite_eq_left_iff, -ite_eq_right_iff]; done) | split | (refine (foldl_kept _ (fun s a => ?_) _ _).trans ?_) | (refine (foldl1_kept _ (fun s a => ?_) _ _).trans ?_) | simp [-ite_eq_left_iff, -ite_eq_right_iff])
@[simp] theorem State.winFree_kept (s : State) (n : Nat) (v : Word) : (State.winFree s n v).kept = s.kept := by
  unfold State.winFree; repeat' (first | (simp [-ite_eq_left_iff, -ite_eq_right_iff]; done) | split | (refine (foldl_kept _ (fun s a => ?_) _ _).trans ?_) | (refine (foldl1_kept _ (fun s a => ?_) _ _).trans ?_) | simp [-ite_eq_left_iff, -ite_eq_right_iff])
@[simp] theorem State.planPic_kept (s : State) (n : Nat) (num : Nat) : (State.planPic s n num).kept = s.kept := by
  unfold State.planPic; repeat' (first | (simp [-ite_eq_left_iff, -ite_eq_right_iff]; done) | split | (refine (foldl_kept _ (fun s a => ?_) _ _).trans ?_) | (refine (foldl1_kept _ (fun s a => ?_) _ _).trans ?_) | simp [-ite_eq_left_iff, -ite_eq_right_iff])
@[simp] theorem State.startUnit_kept (s : State) (u : UnitRef) (gang : List Nat) (t : Nat) : (State.startUnit s u gang t).kept = s.kept :=
  by unfold State.startUnit; simp [-ite_eq_left_iff, -ite_eq_right_iff]
@[simp] theorem State.inputFail_kept (s : State) (u : UnitRef) (f : InputFail) : (State.inputFail s u f).kept = s.kept := by
  unfold State.inputFail; repeat' (first | (simp [-ite_eq_left_iff, -ite_eq_right_iff]; done) | split | (refine (foldl_kept _ (fun s a => ?_) _ _).trans ?_) | (refine (foldl1_kept _ (fun s a => ?_) _ _).trans ?_) | simp [-ite_eq_left_iff, -ite_eq_right_iff])
@[simp] theorem State.launch_kept (s : State) (r : Ready) (ts : List Nat) (inputs : List InputFail) : (State.launch s r ts inputs).kept = s.kept :=
  by unfold State.launch; simp [-ite_eq_left_iff, -ite_eq_right_iff]
@[simp] theorem State.dispatchOp_kept (s : State) (p : Nat) (inputs : List InputFail) : (State.dispatchOp s p inputs).kept = s.kept := by
  unfold State.dispatchOp; repeat' (first | (simp [-ite_eq_left_iff, -ite_eq_right_iff]; done) | split | (refine (foldl_kept _ (fun s a => ?_) _ _).trans ?_) | (refine (foldl1_kept _ (fun s a => ?_) _ _).trans ?_) | simp [-ite_eq_left_iff, -ite_eq_right_iff])
@[simp] theorem State.tileIdleOffOp_kept (s : State) (t : Nat) : (State.tileIdleOffOp s t).kept = s.kept :=
  by unfold State.tileIdleOffOp; simp [-ite_eq_left_iff, -ite_eq_right_iff]
@[simp] theorem State.pllStopOp_kept (s : State) (q : Nat) : (State.pllStopOp s q).kept = s.kept :=
  by unfold State.pllStopOp; simp [-ite_eq_left_iff, -ite_eq_right_iff]
@[simp] theorem State.makeRoom_kept (s : State) (sub : Nat) : (State.makeRoom s sub).kept = s.kept := by
  unfold State.makeRoom; repeat' (first | (simp [-ite_eq_left_iff, -ite_eq_right_iff]; done) | split | (refine (foldl_kept _ (fun s a => ?_) _ _).trans ?_) | (refine (foldl1_kept _ (fun s a => ?_) _ _).trans ?_) | simp [-ite_eq_left_iff, -ite_eq_right_iff])
@[simp] theorem State.enqueueSub_kept (s : State) (sub : Nat) (q : QUnit) (td : Bool) (pkts : List (Nat × List Byte)) : (State.enqueueSub s sub q td pkts).kept = s.kept := by
  unfold State.enqueueSub; repeat' (first | (simp [-ite_eq_left_iff, -ite_eq_right_iff]; done) | split | (refine (foldl_kept _ (fun s a => ?_) _ _).trans ?_) | (refine (foldl1_kept _ (fun s a => ?_) _ _).trans ?_) | simp [-ite_eq_left_iff, -ite_eq_right_iff])
@[simp] theorem State.deliver_kept (s : State) (n : Nat) (p : Pic) (w : WUnit) (last : Bool) (tb : Bool) : (State.deliver s n p w last tb).kept = s.kept := by
  unfold State.deliver; repeat' (first | (simp [-ite_eq_left_iff, -ite_eq_right_iff]; done) | split | (refine (foldl_kept _ (fun s a => ?_) _ _).trans ?_) | (refine (foldl1_kept _ (fun s a => ?_) _ _).trans ?_) | simp [-ite_eq_left_iff, -ite_eq_right_iff])
@[simp] theorem State.giveBack_kept (s : State) (n : Nat) (p : Pic) : (State.giveBack s n p).kept = s.kept := by
  unfold State.giveBack; repeat' (first | (simp [-ite_eq_left_iff, -ite_eq_right_iff]; done) | split | (refine (foldl_kept _ (fun s a => ?_) _ _).trans ?_) | (refine (foldl1_kept _ (fun s a => ?_) _ _).trans ?_) | simp [-ite_eq_left_iff, -ite_eq_right_iff])
@[simp] theorem State.pruneKept_kept (s : State) (n : Nat) : (State.pruneKept s n).kept = s.kept :=
  by unfold State.pruneKept; simp [-ite_eq_left_iff, -ite_eq_right_iff]
@[simp] theorem State.afterPic_kept (s : State) (n : Nat) : (State.afterPic s n).kept = s.kept :=
  by unfold State.afterPic; simp [-ite_eq_left_iff, -ite_eq_right_iff]
@[simp] theorem State.countLate_kept (s : State) (n : Nat) (p : Pic) : (State.countLate s n p).kept = s.kept := by
  unfold State.countLate; repeat' (first | (simp [-ite_eq_left_iff, -ite_eq_right_iff]; done) | split | (refine (foldl_kept _ (fun s a => ?_) _ _).trans ?_) | (refine (foldl1_kept _ (fun s a => ?_) _ _).trans ?_) | simp [-ite_eq_left_iff, -ite_eq_right_iff])
@[simp] theorem State.finishPic_kept (s : State) (n : Nat) (num : Nat) (filler : Nat) : (State.finishPic s n num filler).kept = s.kept := by
  unfold State.finishPic; repeat' (first | (simp [-ite_eq_left_iff, -ite_eq_right_iff]; done) | split | (refine (foldl_kept _ (fun s a => ?_) _ _).trans ?_) | (refine (foldl1_kept _ (fun s a => ?_) _ _).trans ?_) | simp [-ite_eq_left_iff, -ite_eq_right_iff])
@[simp] theorem State.handDown_kept (s : State) (n num : Nat) (field : Tbl ColVec) : (State.handDown s n num field).kept = s.kept := by
  unfold State.handDown; repeat' (first | (simp [-ite_eq_left_iff, -ite_eq_right_iff]; done) | split | (refine (foldl_kept _ (fun s a => ?_) _ _).trans ?_) | (refine (foldl1_kept _ (fun s a => ?_) _ _).trans ?_) | simp [-ite_eq_left_iff, -ite_eq_right_iff])
@[simp] theorem State.finishDec_kept (s : State) (n : Nat) (p : Pic) (e : DecEnd) (r : DecResult) : (State.finishDec s n p e r).kept = s.kept := by
  unfold State.finishDec; repeat' (first | (simp [-ite_eq_left_iff, -ite_eq_right_iff]; done) | split | (refine (foldl_kept _ (fun s a => ?_) _ _).trans ?_) | (refine (foldl1_kept _ (fun s a => ?_) _ _).trans ?_) | simp [-ite_eq_left_iff, -ite_eq_right_iff])
@[simp] theorem State.lostUnit_kept (s : State) (n : Nat) (p : Pic) : (State.lostUnit s n p).kept = s.kept := by
  unfold State.lostUnit; repeat' (first | (simp [-ite_eq_left_iff, -ite_eq_right_iff]; done) | split | (refine (foldl_kept _ (fun s a => ?_) _ _).trans ?_) | (refine (foldl1_kept _ (fun s a => ?_) _ _).trans ?_) | simp [-ite_eq_left_iff, -ite_eq_right_iff])
@[simp] theorem State.dropPicUnits_kept (s : State) (n : Nat) (num : Nat) : (State.dropPicUnits s n num).kept = s.kept := by
  unfold State.dropPicUnits; repeat' (first | (simp [-ite_eq_left_iff, -ite_eq_right_iff]; done) | split | (refine (foldl_kept _ (fun s a => ?_) _ _).trans ?_) | (refine (foldl1_kept _ (fun s a => ?_) _ _).trans ?_) | simp [-ite_eq_left_iff, -ite_eq_right_iff])
@[simp] theorem State.keepBands_kept (s : State) (n : Nat) (p : Pic) (per : Bool) : (State.keepBands s n p per).kept = s.kept := by
  unfold State.keepBands; repeat' (first | (simp [-ite_eq_left_iff, -ite_eq_right_iff]; done) | split | (refine (foldl_kept _ (fun s a => ?_) _ _).trans ?_) | (refine (foldl1_kept _ (fun s a => ?_) _ _).trans ?_) | simp [-ite_eq_left_iff, -ite_eq_right_iff])
@[simp] theorem State.losePic_kept (s : State) (n num band : Nat) : (State.losePic s n num band).kept = s.kept := by
  unfold State.losePic; repeat' (first | (simp [-ite_eq_left_iff, -ite_eq_right_iff]; done) | split | (refine (foldl_kept _ (fun s a => ?_) _ _).trans ?_) | (refine (foldl1_kept _ (fun s a => ?_) _ _).trans ?_) | simp [-ite_eq_left_iff, -ite_eq_right_iff])
@[simp] theorem State.loseAll_kept (s : State) (n : Nat) (num : Nat) (band : Nat) : (State.loseAll s n num band).kept = s.kept :=
  by unfold State.loseAll; simp [-ite_eq_left_iff, -ite_eq_right_iff]
@[simp] theorem State.finalFail_kept (s : State) (u : UnitRef) : (State.finalFail s u).kept = s.kept := by
  unfold State.finalFail; repeat' (first | (simp [-ite_eq_left_iff, -ite_eq_right_iff]; done) | split | (refine (foldl_kept _ (fun s a => ?_) _ _).trans ?_) | (refine (foldl1_kept _ (fun s a => ?_) _ _).trans ?_) | simp [-ite_eq_left_iff, -ite_eq_right_iff])
@[simp] theorem State.unitFailed_kept (s : State) (u : UnitRef) (t : Nat) (replay : Bool) : (State.unitFailed s u t replay).kept = s.kept := by
  unfold State.unitFailed; repeat' (first | (simp [-ite_eq_left_iff, -ite_eq_right_iff]; done) | split | (refine (foldl_kept _ (fun s a => ?_) _ _).trans ?_) | (refine (foldl1_kept _ (fun s a => ?_) _ _).trans ?_) | simp [-ite_eq_left_iff, -ite_eq_right_iff])
@[simp] theorem State.enterSelfTest_kept (s : State) (t : Nat) : (State.enterSelfTest s t).kept = s.kept :=
  by unfold State.enterSelfTest; simp [-ite_eq_left_iff, -ite_eq_right_iff]
@[simp] theorem State.noteRct_kept (s : State) (t : Nat) (u : UnitRef) (fails : Nat) (bad : Bool) (r : UnitResult) : (State.noteRct s t u fails bad r).kept = s.kept :=
  by unfold State.noteRct; simp [-ite_eq_left_iff, -ite_eq_right_iff]
@[simp] theorem State.trapUnit_kept (s : State) (t : Nat) (r : UnitResult) : (State.trapUnit s t r).kept = s.kept := by
  unfold State.trapUnit; repeat' (first | (simp [-ite_eq_left_iff, -ite_eq_right_iff]; done) | split | (refine (foldl_kept _ (fun s a => ?_) _ _).trans ?_) | (refine (foldl1_kept _ (fun s a => ?_) _ _).trans ?_) | simp [-ite_eq_left_iff, -ite_eq_right_iff])
@[simp] theorem State.tileCommits_kept (s : State) (t : Nat) (u : UnitRef) (r : UnitResult) : (State.tileCommits s t u r).kept = s.kept := by
  unfold State.tileCommits; repeat' (first | (simp [-ite_eq_left_iff, -ite_eq_right_iff]; done) | split | (refine (foldl_kept _ (fun s a => ?_) _ _).trans ?_) | (refine (foldl1_kept _ (fun s a => ?_) _ _).trans ?_) | simp [-ite_eq_left_iff, -ite_eq_right_iff])
@[simp] theorem State.yieldWord_kept (s : State) (t : Nat) : (State.yieldWord s t).kept = s.kept :=
  by unfold State.yieldWord; simp [-ite_eq_left_iff, -ite_eq_right_iff]
@[simp] theorem State.needle_kept (s : State) (t : Nat) (cl : Nat) (f : State → Word → State) (h_f : ∀ s a, (f s a).kept = s.kept) : (State.needle s t cl f).kept = s.kept := by
  unfold State.needle; repeat' (first | (simp [-ite_eq_left_iff, -ite_eq_right_iff, h_f]; done) | split | (refine (foldl_kept _ (fun s a => ?_) _ _).trans ?_) | (refine (foldl1_kept _ (fun s a => ?_) _ _).trans ?_) | simp [-ite_eq_left_iff, -ite_eq_right_iff, h_f])
@[simp] theorem State.ndlWord_kept (s : State) (t : Nat) (f : Needle → Needle) : (State.ndlWord s t f).kept = s.kept :=
  by unfold State.ndlWord; simp [-ite_eq_left_iff, -ite_eq_right_iff]
@[simp] theorem State.abandonOp_kept (s : State) (t : Nat) : (State.abandonOp s t).kept = s.kept :=
  by unfold State.abandonOp; simp [-ite_eq_left_iff, -ite_eq_right_iff]
@[simp] theorem State.tileBroken_kept (s : State) (t : Nat) (k : Nat) : (State.tileBroken s t k).kept = s.kept := by
  unfold State.tileBroken; repeat' (first | (simp [-ite_eq_left_iff, -ite_eq_right_iff]; done) | split | (refine (foldl_kept _ (fun s a => ?_) _ _).trans ?_) | (refine (foldl1_kept _ (fun s a => ?_) _ _).trans ?_) | simp [-ite_eq_left_iff, -ite_eq_right_iff])
@[simp] theorem State.watchdogOp_kept (s : State) (t : Nat) : (State.watchdogOp s t).kept = s.kept :=
  by unfold State.watchdogOp; simp [-ite_eq_left_iff, -ite_eq_right_iff]
@[simp] theorem State.tileFaultOp_kept (s : State) (t : Nat) (k : TileFaultKind) : (State.tileFaultOp s t k).kept = s.kept :=
  by unfold State.tileFaultOp; simp [-ite_eq_left_iff, -ite_eq_right_iff]
@[simp] theorem State.selfTestPass_kept (s : State) (t : Nat) : (State.selfTestPass s t).kept = s.kept :=
  by unfold State.selfTestPass; simp [-ite_eq_left_iff, -ite_eq_right_iff]
@[simp] theorem State.selfTestFail_kept (s : State) (t : Nat) : (State.selfTestFail s t).kept = s.kept :=
  by unfold State.selfTestFail; simp [-ite_eq_left_iff, -ite_eq_right_iff]
@[simp] theorem State.selfTestOp_kept (s : State) (t : Nat) (e : SelfTestEnd) : (State.selfTestOp s t e).kept = s.kept := by
  unfold State.selfTestOp; repeat' (first | (simp [-ite_eq_left_iff, -ite_eq_right_iff]; done) | split | (refine (foldl_kept _ (fun s a => ?_) _ _).trans ?_) | (refine (foldl1_kept _ (fun s a => ?_) _ _).trans ?_) | simp [-ite_eq_left_iff, -ite_eq_right_iff])
@[simp] theorem State.retireOp_kept (s : State) (t : Nat) (v : Word) : (State.retireOp s t v).kept = s.kept :=
  by unfold State.retireOp; simp [-ite_eq_left_iff, -ite_eq_right_iff]
@[simp] theorem State.retestOp_kept (s : State) (t : Nat) (v : Word) : (State.retestOp s t v).kept = s.kept :=
  by unfold State.retestOp; simp [-ite_eq_left_iff, -ite_eq_right_iff]
@[simp] theorem State.tileCmd_kept (s : State) (v : Word) : (State.tileCmd s v).kept = s.kept :=
  by unfold State.tileCmd; simp [-ite_eq_left_iff, -ite_eq_right_iff]
@[simp] theorem State.panelResetDone_kept (s : State) (p : Nat) (fails : List Nat) : (State.panelResetDone s p fails).kept = s.kept :=
  by unfold State.panelResetDone; simp [-ite_eq_left_iff, -ite_eq_right_iff]
@[simp] theorem State.budgetOp_kept (s : State) (b : BudgetIn) : (State.budgetOp s b).kept = s.kept := by
  unfold State.budgetOp; repeat' (first | (simp [-ite_eq_left_iff, -ite_eq_right_iff]; done) | split | (refine (foldl_kept _ (fun s a => ?_) _ _).trans ?_) | (refine (foldl1_kept _ (fun s a => ?_) _ _).trans ?_) | simp [-ite_eq_left_iff, -ite_eq_right_iff])
@[simp] theorem State.writeOut_kept (s : State) (n : Nat) (bytes : List Byte) : (State.writeOut s n bytes).kept = s.kept :=
  by unfold State.writeOut; simp [-ite_eq_left_iff, -ite_eq_right_iff]
@[simp] theorem State.recodeUnit_kept (s : State) (u : UnitRef) : (State.recodeUnit s u).kept = s.kept :=
  by unfold State.recodeUnit; simp [-ite_eq_left_iff, -ite_eq_right_iff]
@[simp] theorem State.dropQueued_kept (s : State) (f : QUnit → Bool) : (State.dropQueued s f).kept = s.kept :=
  by unfold State.dropQueued; simp [-ite_eq_left_iff, -ite_eq_right_iff]
@[simp] theorem State.giveUpUnit_kept (s : State) (u : UnitRef) : (State.giveUpUnit s u).kept = s.kept :=
  by unfold State.giveUpUnit; simp [-ite_eq_left_iff, -ite_eq_right_iff]
@[simp] theorem State.pageFailed_kept (s : State) (u : UnitRef) : (State.pageFailed s u).kept = s.kept := by
  unfold State.pageFailed; repeat' (first | (simp [-ite_eq_left_iff, -ite_eq_right_iff]; done) | split | (refine (foldl_kept _ (fun s a => ?_) _ _).trans ?_) | (refine (foldl1_kept _ (fun s a => ?_) _ _).trans ?_) | simp [-ite_eq_left_iff, -ite_eq_right_iff])
@[simp] theorem State.recordOf_kept (s : State) (n : Nat) (o : OutItem) (off : Nat) (flags : Nat) : (State.recordOf s n o off flags).kept = s.kept := by
  unfold State.recordOf; repeat' (first | (simp [-ite_eq_left_iff, -ite_eq_right_iff]; done) | split | (refine (foldl_kept _ (fun s a => ?_) _ _).trans ?_) | (refine (foldl1_kept _ (fun s a => ?_) _ _).trans ?_) | simp [-ite_eq_left_iff, -ite_eq_right_iff])
@[simp] theorem State.deliverUnit_kept (s : State) (n : Nat) (o : OutItem) (rest : List OutItem) (at_ : Nat × Bool) (bytes : List Byte) : (State.deliverUnit s n o rest at_ bytes).kept = s.kept := by
  unfold State.deliverUnit; repeat' (first | (simp [-ite_eq_left_iff, -ite_eq_right_iff]; done) | split | (refine (foldl_kept _ (fun s a => ?_) _ _).trans ?_) | (refine (foldl1_kept _ (fun s a => ?_) _ _).trans ?_) | simp [-ite_eq_left_iff, -ite_eq_right_iff])
@[simp] theorem State.deliverDec_kept (s : State) (n : Nat) (o : OutItem) (d : DecOut) (rest : List OutItem) (bad : Bool) : (State.deliverDec s n o d rest bad).kept = s.kept := by
  unfold State.deliverDec; repeat' (first | (simp [-ite_eq_left_iff, -ite_eq_right_iff]; done) | split | (refine (foldl_kept _ (fun s a => ?_) _ _).trans ?_) | (refine (foldl1_kept _ (fun s a => ?_) _ _).trans ?_) | simp [-ite_eq_left_iff, -ite_eq_right_iff])

end Sys2Proof.Machine
end

