-- ==== Sys2Proof/Laws/Frame3.lean ====
section
/-!
SUPPORT. Frames of every operation that writes neither HBM, the timebase nor OTP: it leaves `State.kept` as it was. One lemma
per operation, in the order of the machine's files (here: Ethernet to the register file).
-/
set_option linter.all false

namespace Sys2Proof.Machine

@[simp] theorem State.postLink_kept (s : State) (p : Nat) (up : Bool) : (State.postLink s p up).kept = s.kept :=
  by unfold State.postLink; simp [-ite_eq_left_iff, -ite_eq_right_iff]
@[simp] theorem State.linkUpOp_kept (s : State) (p : Nat) : (State.linkUpOp s p).kept = s.kept :=
  by unfold State.linkUpOp; simp [-ite_eq_left_iff, -ite_eq_right_iff]
@[simp] theorem State.trimQueue_kept (s : State) (n : Nat) : (State.trimQueue s n).kept = s.kept :=
  by unfold State.trimQueue; simp [-ite_eq_left_iff, -ite_eq_right_iff]
@[simp] theorem State.failover_kept (s : State) (p : Nat) : (State.failover s p).kept = s.kept :=
  by unfold State.failover; simp [-ite_eq_left_iff, -ite_eq_right_iff]
@[simp] theorem State.ingestSource_kept (s : State) (k : Nat) (q : IngPic) : (State.ingestSource s k q).kept = s.kept := by
  unfold State.ingestSource; repeat' (first | (simp [-ite_eq_left_iff, -ite_eq_right_iff]; done) | split | (refine (foldl_kept _ (fun s a => ?_) _ _).trans ?_) | (refine (foldl1_kept _ (fun s a => ?_) _ _).trans ?_) | simp [-ite_eq_left_iff, -ite_eq_right_iff])
@[simp] theorem State.closeIng_kept (s : State) (k : Nat) (q : IngPic) : (State.closeIng s k q).kept = s.kept := by
  unfold State.closeIng; repeat' (first | (simp [-ite_eq_left_iff, -ite_eq_right_iff]; done) | split | (refine (foldl_kept _ (fun s a => ?_) _ _).trans ?_) | (refine (foldl1_kept _ (fun s a => ?_) _ _).trans ?_) | simp [-ite_eq_left_iff, -ite_eq_right_iff])
@[simp] theorem State.closeWhere_kept (s : State) (k : Nat) (due : IngPic → Bool) : (State.closeWhere s k due).kept = s.kept :=
  by unfold State.closeWhere; simp [-ite_eq_left_iff, -ite_eq_right_iff]
@[simp] theorem State.linkDownOp_kept (s : State) (p : Nat) : (State.linkDownOp s p).kept = s.kept :=
  by unfold State.linkDownOp; simp [-ite_eq_left_iff, -ite_eq_right_iff]
@[simp] theorem State.failbackOp_kept (s : State) (n : Nat) : (State.failbackOp s n).kept = s.kept :=
  by unfold State.failbackOp; simp [-ite_eq_left_iff, -ite_eq_right_iff]
@[simp] theorem State.punt_kept (s : State) (p : Nat) (f : EthFrame) : (State.punt s p f).kept = s.kept :=
  by unfold State.punt; simp [-ite_eq_left_iff, -ite_eq_right_iff]
@[simp] theorem State.openIng_kept (s : State) (k : Nat) (f : EthFrame) (p : Nat) : (State.openIng s k f p).kept = s.kept := by
  unfold State.openIng; repeat' (first | (simp [-ite_eq_left_iff, -ite_eq_right_iff]; done) | split | (refine (foldl_kept _ (fun s a => ?_) _ _).trans ?_) | (refine (foldl1_kept _ (fun s a => ?_) _ _).trans ?_) | simp [-ite_eq_left_iff, -ite_eq_right_iff])
@[simp] theorem State.ingestRows_kept (s : State) (k : Nat) (f : EthFrame) : (State.ingestRows s k f).kept = s.kept := by
  unfold State.ingestRows; repeat' (first | (simp [-ite_eq_left_iff, -ite_eq_right_iff]; done) | split | simp [-ite_eq_left_iff, -ite_eq_right_iff])
@[simp] theorem State.ingestPkt_kept (s : State) (k : Nat) (p : Nat) (f : EthFrame) : (State.ingestPkt s k p f).kept = s.kept := by
  unfold State.ingestPkt; repeat' (first | (simp [-ite_eq_left_iff, -ite_eq_right_iff]; done) | split | (refine (foldl_kept _ (fun s a => ?_) _ _).trans ?_) | (refine (foldl1_kept _ (fun s a => ?_) _ _).trans ?_) | simp [-ite_eq_left_iff, -ite_eq_right_iff])
@[simp] theorem State.frameOp_kept (s : State) (p : Nat) (f : EthFrame) : (State.frameOp s p f).kept = s.kept := by
  unfold State.frameOp; repeat' (first | (simp [-ite_eq_left_iff, -ite_eq_right_iff]; done) | split | (refine (foldl_kept _ (fun s a => ?_) _ _).trans ?_) | (refine (foldl1_kept _ (fun s a => ?_) _ _).trans ?_) | simp [-ite_eq_left_iff, -ite_eq_right_iff])
@[simp] theorem State.ingTimeoutOp_kept (s : State) (k : Nat) : (State.ingTimeoutOp s k).kept = s.kept :=
  by unfold State.ingTimeoutOp; simp [-ite_eq_left_iff, -ite_eq_right_iff]
@[simp] theorem State.htxTail_kept (s : State) (p : Nat) (v : Word) : (State.htxTail s p v).kept = s.kept :=
  by unfold State.htxTail; simp [-ite_eq_left_iff, -ite_eq_right_iff]
@[simp] theorem State.setSvc_kept (s : State) (k : Nat) (x : Svc) : (State.setSvc s k x).kept = s.kept :=
  by unfold State.setSvc; simp [-ite_eq_left_iff, -ite_eq_right_iff]
@[simp] theorem State.setBucket_kept (s : State) (b : BucketId) (x : Bucket) : (State.setBucket s b x).kept = s.kept := by
  unfold State.setBucket; repeat' (first | (simp [-ite_eq_left_iff, -ite_eq_right_iff]; done) | split | (refine (foldl_kept _ (fun s a => ?_) _ _).trans ?_) | (refine (foldl1_kept _ (fun s a => ?_) _ _).trans ?_) | simp [-ite_eq_left_iff, -ite_eq_right_iff])
@[simp] theorem State.riseOp_kept (s : State) (b : BucketId) : (State.riseOp s b).kept = s.kept :=
  by unfold State.riseOp; simp [-ite_eq_left_iff, -ite_eq_right_iff]
@[simp] theorem State.resetBucket_kept (s : State) (b : BucketId) (full : Bool) : (State.resetBucket s b full).kept = s.kept :=
  by unfold State.resetBucket; simp [-ite_eq_left_iff, -ite_eq_right_iff]
@[simp] theorem State.charge_kept (s : State) (b : BucketId) : (State.charge s b).kept = s.kept :=
  by unfold State.charge; simp [-ite_eq_left_iff, -ite_eq_right_iff]
@[simp] theorem State.subCommitTo_kept (s : State) (n : Nat) : (State.subCommitTo s n).kept = s.kept := by
  unfold State.subCommitTo; repeat' (first | (simp [-ite_eq_left_iff, -ite_eq_right_iff]; done) | split | (refine (foldl_kept _ (fun s a => ?_) _ _).trans ?_) | (refine (foldl1_kept _ (fun s a => ?_) _ _).trans ?_) | simp [-ite_eq_left_iff, -ite_eq_right_iff])
@[simp] theorem State.subSel_kept (s : State) (v : Word) : (State.subSel s v).kept = s.kept := by
  unfold State.subSel; repeat' (first | (simp [-ite_eq_left_iff, -ite_eq_right_iff]; done) | split | (refine (foldl_kept _ (fun s a => ?_) _ _).trans ?_) | (refine (foldl1_kept _ (fun s a => ?_) _ _).trans ?_) | simp [-ite_eq_left_iff, -ite_eq_right_iff])
@[simp] theorem State.svcCommitTo_kept (s : State) (k : Nat) : (State.svcCommitTo s k).kept = s.kept := by
  unfold State.svcCommitTo; repeat' (first | (simp [-ite_eq_left_iff, -ite_eq_right_iff]; done) | split | (refine (foldl_kept _ (fun s a => ?_) _ _).trans ?_) | (refine (foldl1_kept _ (fun s a => ?_) _ _).trans ?_) | simp [-ite_eq_left_iff, -ite_eq_right_iff])
@[simp] theorem State.svcSel_kept (s : State) (v : Word) : (State.svcSel s v).kept = s.kept := by
  unfold State.svcSel; repeat' (first | (simp [-ite_eq_left_iff, -ite_eq_right_iff]; done) | split | (refine (foldl_kept _ (fun s a => ?_) _ _).trans ?_) | (refine (foldl1_kept _ (fun s a => ?_) _ _).trans ?_) | simp [-ite_eq_left_iff, -ite_eq_right_iff])
@[simp] theorem State.portShape_kept (s : State) (p : Nat) (isPeriod : Bool) (v : Word) : (State.portShape s p isPeriod v).kept = s.kept :=
  by unfold State.portShape; simp [-ite_eq_left_iff, -ite_eq_right_iff]
@[simp] theorem State.flowSel_kept (s : State) (v : Word) : (State.flowSel s v).kept = s.kept :=
  by unfold State.flowSel; simp [-ite_eq_left_iff, -ite_eq_right_iff]
@[simp] theorem State.setGate_kept (s : State) (p : Nat) (g : Gate) : (State.setGate s p g).kept = s.kept :=
  by unfold State.setGate; simp [-ite_eq_left_iff, -ite_eq_right_iff]
@[simp] theorem State.gateCtl_kept (s : State) (p : Nat) (v : Word) : (State.gateCtl s p v).kept = s.kept :=
  by unfold State.gateCtl; simp [-ite_eq_left_iff, -ite_eq_right_iff]
@[simp] theorem State.gateStartOp_kept (s : State) (p : Nat) : (State.gateStartOp s p).kept = s.kept :=
  by unfold State.gateStartOp; simp [-ite_eq_left_iff, -ite_eq_right_iff]
@[simp] theorem State.gateAdvanceOp_kept (s : State) (p : Nat) : (State.gateAdvanceOp s p).kept = s.kept :=
  by unfold State.gateAdvanceOp; simp [-ite_eq_left_iff, -ite_eq_right_iff]
@[simp] theorem State.drr_kept (s : State) (p : Nat) (ring : List Nat) (cs : List Cand) (x5 : Nat) (x6 : Nat) : (State.drr s p ring cs x5 x6).1.kept = s.kept := by
  induction x5 generalizing s x6 with
  | zero => unfold State.drr; repeat' (first | (simp [-ite_eq_left_iff, -ite_eq_right_iff]; done) | split | (refine (foldl_kept _ (fun s a => ?_) _ _).trans ?_) | simp [-ite_eq_left_iff, -ite_eq_right_iff])
  | succ n ih => unfold State.drr; repeat' (first | (simp [-ite_eq_left_iff, -ite_eq_right_iff, ih]; done) | split | (refine (foldl_kept _ (fun s a => ?_) _ _).trans ?_) | simp [-ite_eq_left_iff, -ite_eq_right_iff, ih])
@[simp] theorem State.nonLive_kept (s : State) (p : Nat) (cs : List Cand) : (State.nonLive s p cs).1.kept = s.kept := by
  unfold State.nonLive; repeat' (first | (simp [-ite_eq_left_iff, -ite_eq_right_iff]; done) | split | (refine (foldl_kept _ (fun s a => ?_) _ _).trans ?_) | (refine (foldl1_kept _ (fun s a => ?_) _ _).trans ?_) | simp [-ite_eq_left_iff, -ite_eq_right_iff])
@[simp] theorem State.takePkt_kept (s : State) (n : Nat) : (State.takePkt s n).kept = s.kept := by
  unfold State.takePkt; repeat' (first | (simp [-ite_eq_left_iff, -ite_eq_right_iff]; done) | split | (refine (foldl_kept _ (fun s a => ?_) _ _).trans ?_) | (refine (foldl1_kept _ (fun s a => ?_) _ _).trans ?_) | simp [-ite_eq_left_iff, -ite_eq_right_iff])
@[simp] theorem State.chargeAll_kept (s : State) (p : Nat) (c : Cand) : (State.chargeAll s p c).kept = s.kept :=
  by unfold State.chargeAll; simp [-ite_eq_left_iff, -ite_eq_right_iff]
@[simp] theorem State.sendRtp_kept (s : State) (p : Nat) (c : Cand) (d : List Byte) : (State.sendRtp s p c d).kept = s.kept := by
  unfold State.sendRtp; repeat' (first | (simp [-ite_eq_left_iff, -ite_eq_right_iff]; done) | split | (refine (foldl_kept _ (fun s a => ?_) _ _).trans ?_) | (refine (foldl1_kept _ (fun s a => ?_) _ _).trans ?_) | simp [-ite_eq_left_iff, -ite_eq_right_iff])
@[simp] theorem State.handEth_kept (s : State) (p : Nat) (c : Cand) (chk : EgressCheck) (d : List Byte) : (State.handEth s p c chk d).kept = s.kept := by
  unfold State.handEth; repeat' (first | (simp [-ite_eq_left_iff, -ite_eq_right_iff]; done) | split | (refine (foldl_kept _ (fun s a => ?_) _ _).trans ?_) | (refine (foldl1_kept _ (fun s a => ?_) _ _).trans ?_) | simp [-ite_eq_left_iff, -ite_eq_right_iff])
@[simp] theorem State.handHost_kept (s : State) (c : Cand) (ok : Bool) (d : List Byte) : (State.handHost s c ok d).kept = s.kept := by
  unfold State.handHost; repeat' (first | (simp [-ite_eq_left_iff, -ite_eq_right_iff]; done) | split | (refine (foldl_kept _ (fun s a => ?_) _ _).trans ?_) | (refine (foldl1_kept _ (fun s a => ?_) _ _).trans ?_) | simp [-ite_eq_left_iff, -ite_eq_right_iff])
@[simp] theorem State.handLine_kept (s : State) (c : Cand) (ok : Bool) (d : List Byte) : (State.handLine s c ok d).kept = s.kept := by
  unfold State.handLine; repeat' (first | (simp [-ite_eq_left_iff, -ite_eq_right_iff]; done) | split | (refine (foldl_kept _ (fun s a => ?_) _ _).trans ?_) | (refine (foldl1_kept _ (fun s a => ?_) _ _).trans ?_) | simp [-ite_eq_left_iff, -ite_eq_right_iff])
@[simp] theorem State.handHtx_kept (s : State) (p : Nat) (entry : List Byte) : (State.handHtx s p entry).kept = s.kept :=
  by unfold State.handHtx; simp [-ite_eq_left_iff, -ite_eq_right_iff]

@[simp] theorem State.staleOp_kept (s : State) (n : Nat) : (State.staleOp s n).kept = s.kept :=
  by unfold State.staleOp; simp [-ite_eq_left_iff, -ite_eq_right_iff]
@[simp] theorem State.ethWrite_kept (s : State) (p : Nat) (r : Nat) (v : Word) : (State.ethWrite s p r v).kept = s.kept :=
  by unfold State.ethWrite; simp [-ite_eq_left_iff, -ite_eq_right_iff]
@[simp] theorem State.mglWrite_kept (s : State) (o : Nat) (v : Word) : (State.mglWrite s o v).kept = s.kept :=
  by unfold State.mglWrite; simp [-ite_eq_left_iff, -ite_eq_right_iff]
@[simp] theorem State.mapUnits_kept (s : State) (k : Nat) (f : FltUnit → FltUnit) : (State.mapUnits s k f).kept = s.kept :=
  by unfold State.mapUnits; simp [-ite_eq_left_iff, -ite_eq_right_iff]
@[simp] theorem State.ackFaults_kept (s : State) (hi : Bool) (v : Word) : (State.ackFaults s hi v).kept = s.kept :=
  by unfold State.ackFaults; simp [-ite_eq_left_iff, -ite_eq_right_iff]
@[simp] theorem State.clearFirst_kept (s : State) (v : Word) : (State.clearFirst s v).kept = s.kept :=
  by unfold State.clearFirst; simp [-ite_eq_left_iff, -ite_eq_right_iff]
@[simp] theorem State.writeFltCfg_kept (s : State) (v : Word) : (State.writeFltCfg s v).kept = s.kept :=
  by unfold State.writeFltCfg; simp [-ite_eq_left_iff, -ite_eq_right_iff]
@[simp] theorem State.writeFltWinLo_kept (s : State) (v : Word) : (State.writeFltWinLo s v).kept = s.kept :=
  by unfold State.writeFltWinLo; simp [-ite_eq_left_iff, -ite_eq_right_iff]
@[simp] theorem State.writeFltWin_kept (s : State) (v : Word) : (State.writeFltWin s v).kept = s.kept :=
  by unfold State.writeFltWin; simp [-ite_eq_left_iff, -ite_eq_right_iff]
@[simp] theorem State.injectFault_kept (s : State) (v : Word) : (State.injectFault s v).kept = s.kept :=
  by unfold State.injectFault; simp [-ite_eq_left_iff, -ite_eq_right_iff]
@[simp] theorem State.fltWrite_kept (s : State) (o : Nat) (v : Word) : (State.fltWrite s o v).kept = s.kept :=
  by unfold State.fltWrite; simp [-ite_eq_left_iff, -ite_eq_right_iff]
@[simp] theorem State.lintFreeze_kept (s : State) : (State.lintFreeze s).kept = s.kept :=
  by unfold State.lintFreeze; simp [-ite_eq_left_iff, -ite_eq_right_iff]
@[simp] theorem State.lintUnfreeze_kept (s : State) (v : Word) : (State.lintUnfreeze s v).kept = s.kept :=
  by unfold State.lintUnfreeze; simp [-ite_eq_left_iff, -ite_eq_right_iff]
@[simp] theorem State.lintSnap_kept (s : State) : (State.lintSnap s).kept = s.kept :=
  by unfold State.lintSnap; simp [-ite_eq_left_iff, -ite_eq_right_iff]
@[simp] theorem State.lintWipe_kept (s : State) (v : Word) : (State.lintWipe s v).kept = s.kept :=
  by unfold State.lintWipe; simp [-ite_eq_left_iff, -ite_eq_right_iff]
@[simp] theorem State.lintCtl_kept (s : State) (v : Word) : (State.lintCtl s v).kept = s.kept :=
  by unfold State.lintCtl; simp [-ite_eq_left_iff, -ite_eq_right_iff]
@[simp] theorem State.lntWrite_kept (s : State) (o : Nat) (v : Word) : (State.lntWrite s o v).kept = s.kept :=
  by unfold State.lntWrite; simp [-ite_eq_left_iff, -ite_eq_right_iff]
@[simp] theorem State.wakeFor_kept (s : State) (d : Desc) : (State.wakeFor s d).kept = s.kept :=
  by unfold State.wakeFor; simp [-ite_eq_left_iff, -ite_eq_right_iff]
@[simp] theorem State.burstOp_kept (s : State) (n : Nat) : (State.burstOp s n).kept = s.kept := by
  unfold State.burstOp; repeat' (first | (simp [-ite_eq_left_iff, -ite_eq_right_iff]; done) | split | (refine (foldl_kept _ (fun s a => ?_) _ _).trans ?_) | (refine (foldl1_kept _ (fun s a => ?_) _ _).trans ?_) | simp [-ite_eq_left_iff, -ite_eq_right_iff])
@[simp] theorem State.dmaTail_kept (s : State) (n : Nat) (v : Word) : (State.dmaTail s n v).kept = s.kept :=
  by unfold State.dmaTail; simp [-ite_eq_left_iff, -ite_eq_right_iff]
@[simp] theorem State.reqSet_kept (s : State) (v : Word) : (State.reqSet s v).kept = s.kept :=
  by unfold State.reqSet; simp [-ite_eq_left_iff, -ite_eq_right_iff]
@[simp] theorem State.reqClear_kept (s : State) (v : Word) : (State.reqClear s v).kept = s.kept :=
  by unfold State.reqClear; simp [-ite_eq_left_iff, -ite_eq_right_iff]
@[simp] theorem State.inboxCtl_kept (s : State) (t : Nat) (v : Word) : (State.inboxCtl s t v).kept = s.kept := by
  unfold State.inboxCtl; repeat' (first | (simp [-ite_eq_left_iff, -ite_eq_right_iff]; done) | split | (refine (foldl_kept _ (fun s a => ?_) _ _).trans ?_) | (refine (foldl1_kept _ (fun s a => ?_) _ _).trans ?_) | simp [-ite_eq_left_iff, -ite_eq_right_iff])
@[simp] theorem State.arbGrant_kept (s : State) (k : Nat) (eligible : BitVec 16) : (State.arbGrant s k eligible).kept = s.kept := by
  unfold State.arbGrant; repeat' (first | (simp [-ite_eq_left_iff, -ite_eq_right_iff]; done) | split | (refine (foldl_kept _ (fun s a => ?_) _ _).trans ?_) | (refine (foldl1_kept _ (fun s a => ?_) _ _).trans ?_) | simp [-ite_eq_left_iff, -ite_eq_right_iff])
@[simp] theorem State.arbSeed_kept (s : State) (k : Nat) (v : Word) : (State.arbSeed s k v).kept = s.kept :=
  by unfold State.arbSeed; simp [-ite_eq_left_iff, -ite_eq_right_iff]
@[simp] theorem State.arbWrite_kept (s : State) (o : Nat) (v : Word) : (State.arbWrite s o v).kept = s.kept :=
  by unfold State.arbWrite; simp [-ite_eq_left_iff, -ite_eq_right_iff]
@[simp] theorem State.setCvu_kept (s : State) (u : Nat) (x : Cvu) : (State.setCvu s u x).kept = s.kept :=
  by unfold State.setCvu; simp [-ite_eq_left_iff, -ite_eq_right_iff]
@[simp] theorem State.cvuFeed_kept (s : State) (u : Nat) (n : Nat) (v : Word) : (State.cvuFeed s u n v).kept = s.kept :=
  by unfold State.cvuFeed; simp [-ite_eq_left_iff, -ite_eq_right_iff]
@[simp] theorem State.cvuResult_kept (s : State) (u : Nat) : (State.cvuResult s u).kept = s.kept :=
  by unfold State.cvuResult; simp [-ite_eq_left_iff, -ite_eq_right_iff]
@[simp] theorem State.cvuCtl_kept (s : State) (u : Nat) (v : Word) : (State.cvuCtl s u v).kept = s.kept :=
  by unfold State.cvuCtl; simp [-ite_eq_left_iff, -ite_eq_right_iff]
@[simp] theorem State.cvuWrite_kept (s : State) (o : Nat) (v : Word) : (State.cvuWrite s o v).kept = s.kept :=
  by unfold State.cvuWrite; simp [-ite_eq_left_iff, -ite_eq_right_iff]
@[simp] theorem State.onCvu_kept (s : State) (u : Nat) (f : State → State) (h_f : ∀ s, (f s).kept = s.kept) : (State.onCvu s u f).kept = s.kept :=
  by unfold State.onCvu; simp [-ite_eq_left_iff, -ite_eq_right_iff, h_f]
@[simp] theorem State.setLink_kept (s : State) (w : Word) : (State.setLink s w).kept = s.kept :=
  by unfold State.setLink; simp [-ite_eq_left_iff, -ite_eq_right_iff]
@[simp] theorem State.pcieUpOp_kept (s : State) (speed : Nat) (width : Nat) (flit : Bool) : (State.pcieUpOp s speed width flit).kept = s.kept :=
  by unfold State.pcieUpOp; simp [-ite_eq_left_iff, -ite_eq_right_iff]
@[simp] theorem State.pcieDownOp_kept (s : State) : (State.pcieDownOp s).kept = s.kept :=
  by unfold State.pcieDownOp; simp [-ite_eq_left_iff, -ite_eq_right_iff]
@[simp] theorem State.ignFn_kept (s : State) (fn : Nat) (o : Nat) (v : Word) : (State.ignFn s fn o v).kept = s.kept :=
  by unfold State.ignFn; simp [-ite_eq_left_iff, -ite_eq_right_iff]
@[simp] theorem State.flushHost_kept (s : State) (fn : Nat) : (State.flushHost s fn).kept = s.kept :=
  by unfold State.flushHost; simp [-ite_eq_left_iff, -ite_eq_right_iff]
@[simp] theorem State.vfFlrOp_kept (s : State) (vf : Nat) : (State.vfFlrOp s vf).kept = s.kept := by
  unfold State.vfFlrOp; repeat' (first | (simp [-ite_eq_left_iff, -ite_eq_right_iff]; done) | split | (refine (foldl_kept _ (fun s a => ?_) _ _).trans ?_) | (refine (foldl1_kept _ (fun s a => ?_) _ _).trans ?_) | simp [-ite_eq_left_iff, -ite_eq_right_iff])
@[simp] theorem State.vfEnableOp_kept (s : State) : (State.vfEnableOp s).kept = s.kept :=
  by unfold State.vfEnableOp; simp [-ite_eq_left_iff, -ite_eq_right_iff]
@[simp] theorem State.flrClose_kept (s : State) (n : Nat) : (State.flrClose s n).kept = s.kept := by
  have h1 : ∀ t : State, (if (t.ses n).st = .closed then t else t.closeOp n).kept = t.kept := by intro t; split <;> simp
  unfold State.flrClose
  refine (h1 _).trans ?_
  repeat' (first | (simp [-ite_eq_left_iff, -ite_eq_right_iff]; done) | split | (refine (foldl_kept _ (fun s a => ?_) _ _).trans ?_) | simp [-ite_eq_left_iff, -ite_eq_right_iff])
@[simp] theorem State.flrDoneOp_kept (s : State) (vf : Nat) : (State.flrDoneOp s vf).kept = s.kept :=
  by unfold State.flrDoneOp; simp [-ite_eq_left_iff, -ite_eq_right_iff]
@[simp] theorem State.vfSess_kept (s : State) (vf : Nat) (v : Word) : (State.vfSess s vf v).kept = s.kept :=
  by unfold State.vfSess; simp [-ite_eq_left_iff, -ite_eq_right_iff]
@[simp] theorem State.vfRegs_kept (s : State) (vf : Nat) (o : Nat) (v : Word) : (State.vfRegs s vf o v).kept = s.kept :=
  by unfold State.vfRegs; simp [-ite_eq_left_iff, -ite_eq_right_iff]
@[simp] theorem State.bktCtl_kept (s : State) (fn : Nat) (v : Word) : (State.bktCtl s fn v).kept = s.kept :=
  by unfold State.bktCtl; simp [-ite_eq_left_iff, -ite_eq_right_iff]
@[simp] theorem State.bktHead_kept (s : State) (fn : Nat) (v : Word) : (State.bktHead s fn v).kept = s.kept :=
  by unfold State.bktHead; simp [-ite_eq_left_iff, -ite_eq_right_iff]
@[simp] theorem State.bktWrite_kept (s : State) (fn : Nat) (o : Nat) (v : Word) : (State.bktWrite s fn o v).kept = s.kept :=
  by unfold State.bktWrite; simp [-ite_eq_left_iff, -ite_eq_right_iff]
@[simp] theorem State.hprWrite_kept (s : State) (fn : Nat) (o : Nat) (v : Word) : (State.hprWrite s fn o v).kept = s.kept :=
  by unfold State.hprWrite; simp [-ite_eq_left_iff, -ite_eq_right_iff]
@[simp] theorem State.modExpiry_kept (s : State) (fn : Nat) : (State.modExpiry s fn).kept = s.kept :=
  by unfold State.modExpiry; simp [-ite_eq_left_iff, -ite_eq_right_iff]
@[simp] theorem State.setMasks_kept (s : State) (fn : Nat) (enable : Bool) (fnMask : Bool) (vecMask : Bool) : (State.setMasks s fn enable fnMask vecMask).kept = s.kept :=
  by unfold State.setMasks; simp [-ite_eq_left_iff, -ite_eq_right_iff]
@[simp] theorem State.msixWrite_kept (s : State) (fn : Nat) (o : Nat) (v : Word) : (State.msixWrite s fn o v).kept = s.kept :=
  by unfold State.msixWrite; simp [-ite_eq_left_iff, -ite_eq_right_iff]
@[simp] theorem State.claim_kept (s : State) : (State.claim s).kept = s.kept := by
  unfold State.claim; repeat' (first | (simp [-ite_eq_left_iff, -ite_eq_right_iff]; done) | split | (refine (foldl_kept _ (fun s a => ?_) _ _).trans ?_) | (refine (foldl1_kept _ (fun s a => ?_) _ _).trans ?_) | simp [-ite_eq_left_iff, -ite_eq_right_iff])
@[simp] theorem State.eoi_kept (s : State) (v : Word) : (State.eoi s v).kept = s.kept :=
  by unfold State.eoi; simp [-ite_eq_left_iff, -ite_eq_right_iff]
@[simp] theorem State.pendEnable_kept (s : State) (v : Word) : (State.pendEnable s v).kept = s.kept :=
  by unfold State.pendEnable; simp [-ite_eq_left_iff, -ite_eq_right_iff]
@[simp] theorem State.sourceAssert_kept (s : State) (n : Nat) (detail : Word) (ses : Nat) : (State.sourceAssert s n detail ses).kept = s.kept :=
  by unfold State.sourceAssert; simp [-ite_eq_left_iff, -ite_eq_right_iff]
@[simp] theorem State.sourceDrop_kept (s : State) (n : Nat) : (State.sourceDrop s n).kept = s.kept :=
  by unfold State.sourceDrop; simp [-ite_eq_left_iff, -ite_eq_right_iff]
@[simp] theorem State.hifWrite_kept (s : State) (o : Nat) (v : Word) : (State.hifWrite s o v).kept = s.kept :=
  by unfold State.hifWrite; simp [-ite_eq_left_iff, -ite_eq_right_iff]
@[simp] theorem State.onFn_kept (s : State) (fn : Nat) (f : State → State) (h_f : ∀ s, (f s).kept = s.kept) : (State.onFn s fn f).kept = s.kept :=
  by unfold State.onFn; simp [-ite_eq_left_iff, -ite_eq_right_iff, h_f]
@[simp] theorem State.sendAck_kept (s : State) (p : Nat) : (State.sendAck s p).kept = s.kept :=
  by unfold State.sendAck; simp [-ite_eq_left_iff, -ite_eq_right_iff]
@[simp] theorem State.rxFrame_kept (s : State) (p : Nat) (h : LineHdr) (f : State → State) (hf : ∀ s, (f s).kept = s.kept) : (State.rxFrame s p h f).kept = s.kept := by
  unfold State.rxFrame; repeat' (first | (simp [-ite_eq_left_iff, -ite_eq_right_iff, hf]; done) | split | (refine (foldl_kept _ (fun s a => ?_) _ _).trans ?_) | simp [-ite_eq_left_iff, -ite_eq_right_iff, hf])
@[simp] theorem State.forward_kept (s : State) (p : Nat) (h : LineHdr) (type : Nat) (dst : Nat) (info : List Nat) (bulk : Option MigBulk) : (State.forward s p h type dst info bulk).kept = s.kept :=
  by unfold State.forward; simp [-ite_eq_left_iff, -ite_eq_right_iff]
@[simp] theorem State.rxLine_kept (s : State) (p : Nat) (h : LineHdr) (type : Nat) (info : List Nat) (f : State → State) (h_f : ∀ s, (f s).kept = s.kept) (bulk : Option MigBulk) : (State.rxLine s p h type info f bulk).kept = s.kept :=
  by unfold State.rxLine; simp [-ite_eq_left_iff, -ite_eq_right_iff, h_f]
@[simp] theorem State.modLin_kept (s : State) (f : Line → Line) : (State.modLin s f).kept = s.kept :=
  by unfold State.modLin; simp [-ite_eq_left_iff, -ite_eq_right_iff]
@[simp] theorem State.sendIfUp_kept (s : State) (p : Nat) (f : LFrame) : (State.sendIfUp s p f).kept = s.kept :=
  by unfold State.sendIfUp; simp [-ite_eq_left_iff, -ite_eq_right_iff]
@[simp] theorem State.pegNext_kept (s : State) (p : Nat) (a : Nat) : (State.pegNext s p a).kept = s.kept :=
  by unfold State.pegNext; simp [-ite_eq_left_iff, -ite_eq_right_iff]
@[simp] theorem State.pegBelow_kept (s : State) (a : Nat) : (State.pegBelow s a).kept = s.kept :=
  by unfold State.pegBelow; simp [-ite_eq_left_iff, -ite_eq_right_iff]
@[simp] theorem State.pegHead_kept (s : State) : (State.pegHead s).kept = s.kept :=
  by unfold State.pegHead; simp [-ite_eq_left_iff, -ite_eq_right_iff]
@[simp] theorem State.sendPegAck_kept (s : State) : (State.sendPegAck s).kept = s.kept :=
  by unfold State.sendPegAck; simp [-ite_eq_left_iff, -ite_eq_right_iff]
@[simp] theorem State.pegRequest_kept (s : State) (p : Nat) (serial : Dword) (manager : Bool) : (State.pegRequest s p serial manager).kept = s.kept := by
  unfold State.pegRequest; repeat' (first | (simp [-ite_eq_left_iff, -ite_eq_right_iff]; done) | split | (refine (foldl_kept _ (fun s a => ?_) _ _).trans ?_) | (refine (foldl1_kept _ (fun s a => ?_) _ _).trans ?_) | simp [-ite_eq_left_iff, -ite_eq_right_iff])
@[simp] theorem State.pegWaiting_kept (s : State) : (State.pegWaiting s).kept = s.kept :=
  by unfold State.pegWaiting; simp [-ite_eq_left_iff, -ite_eq_right_iff]
@[simp] theorem State.pegTake_kept (s : State) (a : Nat) : (State.pegTake s a).kept = s.kept :=
  by unfold State.pegTake; simp [-ite_eq_left_iff, -ite_eq_right_iff]
@[simp] theorem State.pegOp_kept (s : State) (h : LineHdr) (a : Nat) : (State.pegOp s h a).kept = s.kept :=
  by unfold State.pegOp; simp [-ite_eq_left_iff, -ite_eq_right_iff]
@[simp] theorem State.pegDeferred_kept (s : State) : (State.pegDeferred s).kept = s.kept := by
  unfold State.pegDeferred; repeat' (first | (simp [-ite_eq_left_iff, -ite_eq_right_iff]; done) | split | (refine (foldl_kept _ (fun s a => ?_) _ _).trans ?_) | (refine (foldl1_kept _ (fun s a => ?_) _ _).trans ?_) | simp [-ite_eq_left_iff, -ite_eq_right_iff])
@[simp] theorem State.pegReqOp_kept (s : State) (p : Nat) (h : LineHdr) (serial : Dword) (manager : Bool) : (State.pegReqOp s p h serial manager).kept = s.kept :=
  by unfold State.pegReqOp; simp [-ite_eq_left_iff, -ite_eq_right_iff]
@[simp] theorem State.heard_kept (s : State) (a : Nat) : (State.heard s a).kept = s.kept :=
  by unfold State.heard; simp [-ite_eq_left_iff, -ite_eq_right_iff]
@[simp] theorem State.pegAckOp_kept (s : State) (p : Nat) (h : LineHdr) (serial : Dword) : (State.pegAckOp s p h serial).kept = s.kept :=
  by unfold State.pegAckOp; simp [-ite_eq_left_iff, -ite_eq_right_iff]
@[simp] theorem State.lineMigErrors_kept (s : State) (q : Nat → Bool) : (State.lineMigErrors s q).kept = s.kept := by
  unfold State.lineMigErrors; repeat' (first | (simp [-ite_eq_left_iff, -ite_eq_right_iff]; done) | split | (refine (foldl_kept _ (fun s a => ?_) _ _).trans ?_) | (refine (foldl1_kept _ (fun s a => ?_) _ _).trans ?_) | simp [-ite_eq_left_iff, -ite_eq_right_iff])
@[simp] theorem State.pegNakOp_kept (s : State) (p : Nat) (h : LineHdr) (full : Bool) : (State.pegNakOp s p h full).kept = s.kept :=
  by unfold State.pegNakOp; simp [-ite_eq_left_iff, -ite_eq_right_iff]
@[simp] theorem State.timeSyncOp_kept (s : State) (p : Nat) (h : LineHdr) : (State.timeSyncOp s p h).kept = s.kept :=
  by unfold State.timeSyncOp; simp [-ite_eq_left_iff, -ite_eq_right_iff]
@[simp] theorem State.timeTimerOp_kept (s : State) : (State.timeTimerOp s).kept = s.kept :=
  by unfold State.timeTimerOp; simp [-ite_eq_left_iff, -ite_eq_right_iff]
@[simp] theorem State.discipline_kept (s : State) (off : Int) : (State.discipline s off).kept = s.kept :=
  by unfold State.discipline; simp [-ite_eq_left_iff, -ite_eq_right_iff]
@[simp] theorem State.timeRespOp_kept (s : State) (h : LineHdr) (t2 : Nat) (t3 : Nat) : (State.timeRespOp s h t2 t3).kept = s.kept := by
  unfold State.timeRespOp
  refine State.rxFrame_kept _ _ _ _ (fun s => ?_)
  repeat' (first | (simp [-ite_eq_left_iff, -ite_eq_right_iff]; done) | split | (refine (foldl_kept _ (fun s a => ?_) _ _).trans ?_) | simp [-ite_eq_left_iff, -ite_eq_right_iff])
@[simp] theorem State.noteOp_kept (s : State) (p : Nat) (h : LineHdr) (detail : Word) : (State.noteOp s p h detail).kept = s.kept :=
  by unfold State.noteOp; simp [-ite_eq_left_iff, -ite_eq_right_iff]
@[simp] theorem State.pktOp_kept (s : State) (p : Nat) (h : LineHdr) (sub : Nat) (payload : List Byte) : (State.pktOp s p h sub payload).kept = s.kept :=
  by unfold State.pktOp; simp [-ite_eq_left_iff, -ite_eq_right_iff]
@[simp] theorem State.linkAckOp_kept (s : State) (p : Nat) (seq : Nat) : (State.linkAckOp s p seq).kept = s.kept :=
  by unfold State.linkAckOp; simp [-ite_eq_left_iff, -ite_eq_right_iff]
@[simp] theorem State.lineDown_kept (s : State) (p : Nat) : (State.lineDown s p).kept = s.kept :=
  by unfold State.lineDown; simp [-ite_eq_left_iff, -ite_eq_right_iff]
@[simp] theorem State.linkNakOp_kept (s : State) (p : Nat) (seq : Nat) : (State.linkNakOp s p seq).kept = s.kept :=
  by unfold State.linkNakOp; simp [-ite_eq_left_iff, -ite_eq_right_iff]
@[simp] theorem State.ackTimerOp_kept (s : State) (p : Nat) : (State.ackTimerOp s p).kept = s.kept :=
  by unfold State.ackTimerOp; simp [-ite_eq_left_iff, -ite_eq_right_iff]
@[simp] theorem State.lineDownOp_kept (s : State) (p : Nat) : (State.lineDownOp s p).kept = s.kept :=
  by unfold State.lineDownOp; simp [-ite_eq_left_iff, -ite_eq_right_iff]
@[simp] theorem State.lineUpOp_kept (s : State) (p : Nat) : (State.lineUpOp s p).kept = s.kept :=
  by unfold State.lineUpOp; simp [-ite_eq_left_iff, -ite_eq_right_iff]
@[simp] theorem State.frameErrOp_kept (s : State) (p : Nat) (e : FrameErr) : (State.frameErrOp s p e).kept = s.kept := by
  unfold State.frameErrOp; repeat' (first | (simp [-ite_eq_left_iff, -ite_eq_right_iff]; done) | split | (refine (foldl_kept _ (fun s a => ?_) _ _).trans ?_) | (refine (foldl1_kept _ (fun s a => ?_) _ _).trans ?_) | simp [-ite_eq_left_iff, -ite_eq_right_iff])
@[simp] theorem State.publishTable_kept (s : State) (base : Nat) (level : Nat) (round : Nat) : (State.publishTable s base level round).kept = s.kept :=
  by unfold State.publishTable; simp [-ite_eq_left_iff, -ite_eq_right_iff]
@[simp] theorem State.storeReport_kept (s : State) (level : Nat) (k : Nat) (m : Summary) : (State.storeReport s level k m).kept = s.kept :=
  by unfold State.storeReport; simp [-ite_eq_left_iff, -ite_eq_right_iff]
@[simp] theorem State.sendAgg_kept (s : State) (level : Nat) (dst : Nat) (k : Nat) (m : Summary) : (State.sendAgg s level dst k m).kept = s.kept :=
  by unfold State.sendAgg; simp [-ite_eq_left_iff, -ite_eq_right_iff]
@[simp] theorem State.trunkTotals_kept (s : State) : (State.trunkTotals s).kept = s.kept :=
  by unfold State.trunkTotals; simp [-ite_eq_left_iff, -ite_eq_right_iff]
@[simp] theorem State.publishLine_kept (s : State) : (State.publishLine s).kept = s.kept :=
  by unfold State.publishLine; simp [-ite_eq_left_iff, -ite_eq_right_iff]
@[simp] theorem State.linePublishOp_kept (s : State) : (State.linePublishOp s).kept = s.kept :=
  by unfold State.linePublishOp; simp [-ite_eq_left_iff, -ite_eq_right_iff]
@[simp] theorem State.aggOp_kept (s : State) (p : Nat) (h : LineHdr) (round : Nat) (level : Nat) (m : Summary) : (State.aggOp s p h round level m).kept = s.kept :=
  by unfold State.aggOp; simp [-ite_eq_left_iff, -ite_eq_right_iff]
@[simp] theorem State.aggRoundOp_kept (s : State) : (State.aggRoundOp s).kept = s.kept :=
  by unfold State.aggRoundOp; simp [-ite_eq_left_iff, -ite_eq_right_iff]
@[simp] theorem State.linPegCmd_kept (s : State) (v : Word) : (State.linPegCmd s v).kept = s.kept :=
  by unfold State.linPegCmd; simp [-ite_eq_left_iff, -ite_eq_right_iff]
@[simp] theorem State.linRequestCmd_kept (s : State) : (State.linRequestCmd s).kept = s.kept :=
  by unfold State.linRequestCmd; simp [-ite_eq_left_iff, -ite_eq_right_iff]
@[simp] theorem State.linReleaseCmd_kept (s : State) (v : Word) : (State.linReleaseCmd s v).kept = s.kept :=
  by unfold State.linReleaseCmd; simp [-ite_eq_left_iff, -ite_eq_right_iff]
@[simp] theorem State.linCmd_kept (s : State) (v : Word) : (State.linCmd s v).kept = s.kept :=
  by unfold State.linCmd; simp [-ite_eq_left_iff, -ite_eq_right_iff]
@[simp] theorem State.linCtl_kept (s : State) (v : Word) : (State.linCtl s v).kept = s.kept :=
  by unfold State.linCtl; simp [-ite_eq_left_iff, -ite_eq_right_iff]
@[simp] theorem State.linWrite_kept (s : State) (o : Nat) (v : Word) : (State.linWrite s o v).kept = s.kept :=
  by unfold State.linWrite; simp [-ite_eq_left_iff, -ite_eq_right_iff]
@[simp] theorem State.setPhase_kept (s : State) (n : Nat) (k : Nat) : (State.setPhase s n k).kept = s.kept :=
  by unfold State.setPhase; simp [-ite_eq_left_iff, -ite_eq_right_iff]
@[simp] theorem State.stateCopyOp_kept (s : State) (n : Nat) : (State.stateCopyOp s n).kept = s.kept := by
  unfold State.stateCopyOp; repeat' (first | (simp [-ite_eq_left_iff, -ite_eq_right_iff]; done) | split | (refine (foldl_kept _ (fun s a => ?_) _ _).trans ?_) | (refine (foldl1_kept _ (fun s a => ?_) _ _).trans ?_) | simp [-ite_eq_left_iff, -ite_eq_right_iff])
@[simp] theorem State.closeSource_kept (s : State) (n : Nat) : (State.closeSource s n).kept = s.kept :=
  by unfold State.closeSource; simp [-ite_eq_left_iff, -ite_eq_right_iff]
@[simp] theorem State.openDest_kept (s : State) (d : Nat) (gen : Word) (prior : Ses) : (State.openDest s d gen prior).kept = s.kept := by
  unfold State.openDest; repeat' (first | (simp [-ite_eq_left_iff, -ite_eq_right_iff]; done) | split | (refine (foldl_kept _ (fun s a => ?_) _ _).trans ?_) | (refine (foldl1_kept _ (fun s a => ?_) _ _).trans ?_) | simp [-ite_eq_left_iff, -ite_eq_right_iff])
@[simp] theorem State.completeLocal_kept (s : State) (n : Nat) : (State.completeLocal s n).kept = s.kept := by
  unfold State.completeLocal; repeat' (first | (simp [-ite_eq_left_iff, -ite_eq_right_iff]; done) | split | (refine (foldl_kept _ (fun s a => ?_) _ _).trans ?_) | (refine (foldl1_kept _ (fun s a => ?_) _ _).trans ?_) | simp [-ite_eq_left_iff, -ite_eq_right_iff])
@[simp] theorem State.completeRemote_kept (s : State) (d : Nat) (b : MigBulk) : (State.completeRemote s d b).kept = s.kept := by
  unfold State.completeRemote; repeat' (first | (simp [-ite_eq_left_iff, -ite_eq_right_iff]; done) | split | (refine (foldl_kept _ (fun s a => ?_) _ _).trans ?_) | (refine (foldl1_kept _ (fun s a => ?_) _ _).trans ?_) | simp [-ite_eq_left_iff, -ite_eq_right_iff])
@[simp] theorem State.migDoneOp_kept (s : State) (n : Nat) : (State.migDoneOp s n).kept = s.kept := by
  unfold State.migDoneOp; repeat' (first | (simp [-ite_eq_left_iff, -ite_eq_right_iff]; done) | split | (refine (foldl_kept _ (fun s a => ?_) _ _).trans ?_) | (refine (foldl1_kept _ (fun s a => ?_) _ _).trans ?_) | simp [-ite_eq_left_iff, -ite_eq_right_iff])
@[simp] theorem State.migTimeoutOp_kept (s : State) (n : Nat) : (State.migTimeoutOp s n).kept = s.kept := by
  unfold State.migTimeoutOp; repeat' (first | (simp [-ite_eq_left_iff, -ite_eq_right_iff]; done) | split | (refine (foldl_kept _ (fun s a => ?_) _ _).trans ?_) | (refine (foldl1_kept _ (fun s a => ?_) _ _).trans ?_) | simp [-ite_eq_left_iff, -ite_eq_right_iff])
@[simp] theorem State.deadlineOp_kept (s : State) (n : Nat) (a0 : AdmitIn) : (State.deadlineOp s n a0).kept = s.kept := by
  unfold State.deadlineOp; repeat' (first | (simp [-ite_eq_left_iff, -ite_eq_right_iff]; done) | split | (refine (foldl_kept _ (fun s a => ?_) _ _).trans ?_) | (refine (foldl1_kept _ (fun s a => ?_) _ _).trans ?_) | simp [-ite_eq_left_iff, -ite_eq_right_iff])
@[simp] theorem State.migAnswer_kept (s : State) (h : LineHdr) (code : Nat) (peerSes : Nat) (ses : Nat) : (State.migAnswer s h code peerSes ses).kept = s.kept :=
  by unfold State.migAnswer; simp [-ite_eq_left_iff, -ite_eq_right_iff]
@[simp] theorem State.migOpen_kept (s : State) (h : LineHdr) (d : Nat) (srcSes : Nat) (cls : Nat) (group : Word) (w : Nat) (ht : Nat) : (State.migOpen s h d srcSes cls group w ht).kept = s.kept := by
  unfold State.migOpen; repeat' (first | (simp [-ite_eq_left_iff, -ite_eq_right_iff]; done) | split | (refine (foldl_kept _ (fun s a => ?_) _ _).trans ?_) | (refine (foldl1_kept _ (fun s a => ?_) _ _).trans ?_) | simp [-ite_eq_left_iff, -ite_eq_right_iff])
@[simp] theorem State.migCheck_kept (s : State) (h : LineHdr) (d : Nat) (crc : Word) (b : MigBulk) : (State.migCheck s h d crc b).kept = s.kept := by
  unfold State.migCheck; repeat' (first | (simp [-ite_eq_left_iff, -ite_eq_right_iff]; done) | split | (refine (foldl_kept _ (fun s a => ?_) _ _).trans ?_) | (refine (foldl1_kept _ (fun s a => ?_) _ _).trans ?_) | simp [-ite_eq_left_iff, -ite_eq_right_iff])
@[simp] theorem State.migAccepted_kept (s : State) (h : LineHdr) (n : Nat) : (State.migAccepted s h n).kept = s.kept := by
  unfold State.migAccepted; repeat' (first | (simp [-ite_eq_left_iff, -ite_eq_right_iff]; done) | split | (refine (foldl_kept _ (fun s a => ?_) _ _).trans ?_) | (refine (foldl1_kept _ (fun s a => ?_) _ _).trans ?_) | simp [-ite_eq_left_iff, -ite_eq_right_iff])
@[simp] theorem State.migRefused_kept (s : State) (h : LineHdr) (n : Nat) : (State.migRefused s h n).kept = s.kept := by
  unfold State.migRefused; repeat' (first | (simp [-ite_eq_left_iff, -ite_eq_right_iff]; done) | split | (refine (foldl_kept _ (fun s a => ?_) _ _).trans ?_) | (refine (foldl1_kept _ (fun s a => ?_) _ _).trans ?_) | simp [-ite_eq_left_iff, -ite_eq_right_iff])
@[simp] theorem State.migCtlOp_kept (s : State) (p : Nat) (h : LineHdr) (n : Nat) (m : MigMsg) : (State.migCtlOp s p h n m).kept = s.kept := by
  unfold State.migCtlOp; repeat' (first | (simp [-ite_eq_left_iff, -ite_eq_right_iff]; done) | split | (refine (foldl_kept _ (fun s a => ?_) _ _).trans ?_) | (refine (foldl1_kept _ (fun s a => ?_) _ _).trans ?_) | simp [-ite_eq_left_iff, -ite_eq_right_iff])
@[simp] theorem State.migDataOp_kept (s : State) (p : Nat) (h : LineHdr) (n : Nat) (b : List Byte) : (State.migDataOp s p h n b).kept = s.kept :=
  by unfold State.migDataOp; simp [-ite_eq_left_iff, -ite_eq_right_iff]
@[simp] theorem State.secEvent_kept (s : State) (code : Nat) (slot : Nat) : (State.secEvent s code slot).kept = s.kept :=
  by unfold State.secEvent; simp [-ite_eq_left_iff, -ite_eq_right_iff, State.setSec, State.secOk, State.secEnd]
@[simp] theorem State.secIgn_kept (s : State) (v : Word) : (State.secIgn s v).kept = s.kept :=
  by unfold State.secIgn; simp [-ite_eq_left_iff, -ite_eq_right_iff, State.setSec, State.secOk, State.secEnd]
@[simp] theorem State.secRun_kept (s : State) (v : Word) : (State.secRun s v).kept = s.kept :=
  by unfold State.secRun; simp [-ite_eq_left_iff, -ite_eq_right_iff, State.setSec, State.secOk, State.secEnd]
@[simp] theorem State.secImport_kept (s : State) (v : Word) : (State.secImport s v).kept = s.kept :=
  by unfold State.secImport; simp [-ite_eq_left_iff, -ite_eq_right_iff, State.setSec, State.secOk, State.secEnd]
@[simp] theorem State.secClear_kept (s : State) (v : Word) : (State.secClear s v).kept = s.kept :=
  by unfold State.secClear; simp [-ite_eq_left_iff, -ite_eq_right_iff, State.setSec, State.secOk, State.secEnd]
@[simp] theorem State.secProvision_kept (s : State) (v : Word) : (State.secProvision s v).kept = s.kept :=
  by unfold State.secProvision; simp [-ite_eq_left_iff, -ite_eq_right_iff, State.setSec, State.secOk, State.secEnd]
@[simp] theorem State.secLock_kept (s : State) (v : Word) : (State.secLock s v).kept = s.kept :=
  by unfold State.secLock; simp [-ite_eq_left_iff, -ite_eq_right_iff, State.setSec, State.secOk, State.secEnd]
@[simp] theorem State.secUnlock_kept (s : State) (v : Word) : (State.secUnlock s v).kept = s.kept :=
  by unfold State.secUnlock; simp [-ite_eq_left_iff, -ite_eq_right_iff, State.setSec, State.secOk, State.secEnd]
@[simp] theorem State.importFail_kept (s : State) (v : Word) : (State.importFail s v).kept = s.kept :=
  by unfold State.importFail; simp [-ite_eq_left_iff, -ite_eq_right_iff, State.setSec, State.secOk, State.secEnd]
@[simp] theorem State.setPmu_kept (s : State) (p : Pmu) : (State.setPmu s p).kept = s.kept :=
  by unfold State.setPmu; simp [-ite_eq_left_iff, -ite_eq_right_iff]
@[simp] theorem State.evtWrite_kept (s : State) (c : Nat) (v : Word) : (State.evtWrite s c v).kept = s.kept :=
  by unfold State.evtWrite; simp [-ite_eq_left_iff, -ite_eq_right_iff]
@[simp] theorem State.cntWrite_kept (s : State) (c : Nat) (hi : Bool) (v : Word) : (State.cntWrite s c hi v).kept = s.kept :=
  by unfold State.cntWrite; simp [-ite_eq_left_iff, -ite_eq_right_iff]
@[simp] theorem State.pmuCtl_kept (s : State) (v : Word) : (State.pmuCtl s v).kept = s.kept :=
  by unfold State.pmuCtl; simp [-ite_eq_left_iff, -ite_eq_right_iff]
@[simp] theorem State.lintCounter_kept (s : State) (n : Nat) : (State.lintCounter s n).kept = s.kept :=
  by unfold State.lintCounter; simp [-ite_eq_left_iff, -ite_eq_right_iff]
@[simp] theorem State.thresholdOp_kept (s : State) (n : Nat) (value : Nat) : (State.thresholdOp s n value).kept = s.kept :=
  by unfold State.thresholdOp; simp [-ite_eq_left_iff, -ite_eq_right_iff]
@[simp] theorem State.thrAck_kept (s : State) (hi : Bool) (v : Word) : (State.thrAck s hi v).kept = s.kept :=
  by unfold State.thrAck; simp [-ite_eq_left_iff, -ite_eq_right_iff]
@[simp] theorem State.sampleOp_kept (s : State) (t : Nat) (latency : Nat) (ctu : Word) : (State.sampleOp s t latency ctu).kept = s.kept :=
  by unfold State.sampleOp; simp [-ite_eq_left_iff, -ite_eq_right_iff]
@[simp] theorem State.sampleMove_kept (s : State) : (State.sampleMove s).kept = s.kept := by
  unfold State.sampleMove; repeat' (first | (simp [-ite_eq_left_iff, -ite_eq_right_iff]; done) | split | (refine (foldl_kept _ (fun s a => ?_) _ _).trans ?_) | (refine (foldl1_kept _ (fun s a => ?_) _ _).trans ?_) | simp [-ite_eq_left_iff, -ite_eq_right_iff])
@[simp] theorem State.sampleDrain_kept (s : State) : (State.sampleDrain s).kept = s.kept :=
  by unfold State.sampleDrain; simp [-ite_eq_left_iff, -ite_eq_right_iff]
@[simp] theorem State.sampleHead_kept (s : State) (v : Word) : (State.sampleHead s v).kept = s.kept :=
  by unfold State.sampleHead; simp [-ite_eq_left_iff, -ite_eq_right_iff]
@[simp] theorem State.bwOp_kept (s : State) (totals : List Nat) : (State.bwOp s totals).kept = s.kept :=
  by unfold State.bwOp; simp [-ite_eq_left_iff, -ite_eq_right_iff]
@[simp] theorem State.bwWinWrite_kept (s : State) (v : Word) : (State.bwWinWrite s v).kept = s.kept :=
  by unfold State.bwWinWrite; simp [-ite_eq_left_iff, -ite_eq_right_iff]
@[simp] theorem State.pmuWrite_kept (s : State) (o : Nat) (v : Word) : (State.pmuWrite s o v).kept = s.kept :=
  by unfold State.pmuWrite; simp [-ite_eq_left_iff, -ite_eq_right_iff]
@[simp] theorem State.msrWrite_kept (s : State) (t : Nat) (o : Nat) (v : Word) : (State.msrWrite s t o v).kept = s.kept :=
  by unfold State.msrWrite; simp [-ite_eq_left_iff, -ite_eq_right_iff]
@[simp] theorem State.setPwr_kept (s : State) (p : Power) : (State.setPwr s p).kept = s.kept :=
  by unfold State.setPwr; simp [-ite_eq_left_iff, -ite_eq_right_iff]
@[simp] theorem State.mergeAon_kept (s : State) : (State.mergeAon s).kept = s.kept :=
  by unfold State.mergeAon; simp [-ite_eq_left_iff, -ite_eq_right_iff]
@[simp] theorem State.retireUntested_kept (s : State) (t : Nat) : (State.retireUntested s t).kept = s.kept :=
  by unfold State.retireUntested; simp [-ite_eq_left_iff, -ite_eq_right_iff]
@[simp] theorem State.standbyOp_kept (s : State) (v : Word) : (State.standbyOp s v).kept = s.kept :=
  by unfold State.standbyOp; simp [-ite_eq_left_iff, -ite_eq_right_iff]
@[simp] theorem State.standbyEntryOp_kept (s : State) : (State.standbyEntryOp s).kept = s.kept :=
  by unfold State.standbyEntryOp; simp [-ite_eq_left_iff, -ite_eq_right_iff]
@[simp] theorem State.wakeReject_kept (s : State) (code : Nat) : (State.wakeReject s code).kept = s.kept :=
  by unfold State.wakeReject; simp [-ite_eq_left_iff, -ite_eq_right_iff]
@[simp] theorem State.wakeReload_kept (s : State) : (State.wakeReload s).kept = s.kept :=
  by unfold State.wakeReload; simp [-ite_eq_left_iff, -ite_eq_right_iff]
@[simp] theorem State.wakeDoneOp_kept (s : State) (copyOk : Bool) (storeOk : Bool) : (State.wakeDoneOp s copyOk storeOk).kept = s.kept :=
  by unfold State.wakeDoneOp; simp [-ite_eq_left_iff, -ite_eq_right_iff]
@[simp] theorem State.releaseOp_kept (s : State) : (State.releaseOp s).kept = s.kept :=
  by unfold State.releaseOp; simp [-ite_eq_left_iff, -ite_eq_right_iff]
@[simp] theorem State.firmwareOp_kept (s : State) (f : FirmwareIn) : (State.firmwareOp s f).kept = s.kept := by
  unfold State.firmwareOp State.setLink; repeat' (first | (simp [-ite_eq_left_iff, -ite_eq_right_iff]; done) | split | (refine (foldl_kept _ (fun s a => ?_) _ _).trans ?_) | simp [-ite_eq_left_iff, -ite_eq_right_iff])
@[simp] theorem State.takePatch_kept (s : State) (p : PatchIn) : (State.takePatch s p).kept = s.kept := by
  unfold State.takePatch; repeat' (first | (simp [-ite_eq_left_iff, -ite_eq_right_iff]; done) | split | (refine (foldl_kept _ (fun s a => ?_) _ _).trans ?_) | (refine (foldl1_kept _ (fun s a => ?_) _ _).trans ?_) | simp [-ite_eq_left_iff, -ite_eq_right_iff])
@[simp] theorem State.trainEnd_kept (s : State) (k : Nat) : (State.trainEnd s k).kept = s.kept := by
  unfold State.trainEnd; repeat' (first | (simp [-ite_eq_left_iff, -ite_eq_right_iff]; done) | split | (refine (foldl_kept _ (fun s a => ?_) _ _).trans ?_) | (refine (foldl1_kept _ (fun s a => ?_) _ _).trans ?_) | simp [-ite_eq_left_iff, -ite_eq_right_iff])
@[simp] theorem State.bootOp_kept (s : State) (p : PatchIn) : (State.bootOp s p).kept = s.kept :=
  by unfold State.bootOp; simp [-ite_eq_left_iff, -ite_eq_right_iff]
@[simp] theorem State.warmDoneOp_kept (s : State) : (State.warmDoneOp s).kept = s.kept :=
  by unfold State.warmDoneOp; simp [-ite_eq_left_iff, -ite_eq_right_iff]
@[simp] theorem State.showHeld_kept (s : State) (k : Nat) : (State.showHeld s k).kept = s.kept :=
  by unfold State.showHeld; simp [-ite_eq_left_iff, -ite_eq_right_iff]
@[simp] theorem State.quadOff_kept (s : State) (q : Nat) : (State.quadOff s q).kept = s.kept :=
  by unfold State.quadOff; simp [-ite_eq_left_iff, -ite_eq_right_iff]
@[simp] theorem State.quadCtl_kept (s : State) (q : Nat) (v : Word) : (State.quadCtl s q v).kept = s.kept :=
  by unfold State.quadCtl; simp [-ite_eq_left_iff, -ite_eq_right_iff]
@[simp] theorem State.stackSleepOp_kept (s : State) (k : Nat) : (State.stackSleepOp s k).kept = s.kept :=
  by unfold State.stackSleepOp; simp [-ite_eq_left_iff, -ite_eq_right_iff]
@[simp] theorem State.stackWakeOp_kept (s : State) (k : Nat) : (State.stackWakeOp s k).kept = s.kept :=
  by unfold State.stackWakeOp; simp [-ite_eq_left_iff, -ite_eq_right_iff]
@[simp] theorem State.quadSleepOp_kept (s : State) (q : Nat) : (State.quadSleepOp s q).kept = s.kept :=
  by unfold State.quadSleepOp; simp [-ite_eq_left_iff, -ite_eq_right_iff]
@[simp] theorem State.dieHot_kept (s : State) (d : Nat) : (State.dieHot s d).kept = s.kept :=
  by unfold State.dieHot; simp [-ite_eq_left_iff, -ite_eq_right_iff]
@[simp] theorem State.throttle_kept (s : State) (q : Nat) : (State.throttle s q).kept = s.kept :=
  by unfold State.throttle; simp [-ite_eq_left_iff, -ite_eq_right_iff]
@[simp] theorem State.trip_kept (s : State) : (State.trip s).kept = s.kept :=
  by unfold State.trip; simp [-ite_eq_left_iff, -ite_eq_right_iff]
@[simp] theorem State.thermal_kept (s : State) : (State.thermal s).kept = s.kept :=
  by unfold State.thermal; simp [-ite_eq_left_iff, -ite_eq_right_iff]
@[simp] theorem State.tempOp_kept (s : State) (h : Nat) (f0 : Nat) (f1 : Nat) : (State.tempOp s h f0 f1).kept = s.kept :=
  by unfold State.tempOp; simp [-ite_eq_left_iff, -ite_eq_right_iff]
@[simp] theorem State.stepUpOp_kept (s : State) (q : Nat) : (State.stepUpOp s q).kept = s.kept := by
  unfold State.stepUpOp; repeat' (first | (simp [-ite_eq_left_iff, -ite_eq_right_iff]; done) | split | (refine (foldl_kept _ (fun s a => ?_) _ _).trans ?_) | (refine (foldl1_kept _ (fun s a => ?_) _ _).trans ?_) | simp [-ite_eq_left_iff, -ite_eq_right_iff])
@[simp] theorem State.pllLossOp_kept (s : State) (q : Nat) (supply : Bool) : (State.pllLossOp s q supply).kept = s.kept :=
  by unfold State.pllLossOp; simp [-ite_eq_left_iff, -ite_eq_right_iff]
@[simp] theorem State.aonFault_kept (s : State) (k : Nat) : (State.aonFault s k).kept = s.kept :=
  by unfold State.aonFault; simp [-ite_eq_left_iff, -ite_eq_right_iff]
@[simp] theorem State.adjWrite_kept (s : State) (v : Word) : (State.adjWrite s v).kept = s.kept :=
  by unfold State.adjWrite; simp [-ite_eq_left_iff, -ite_eq_right_iff]
@[simp] theorem State.slewWrite_kept (s : State) (v : Word) : (State.slewWrite s v).kept = s.kept :=
  by unfold State.slewWrite; simp [-ite_eq_left_iff, -ite_eq_right_iff]
@[simp] theorem State.stepWrite_kept (s : State) (v : Word) : (State.stepWrite s v).kept = s.kept :=
  by unfold State.stepWrite; simp [-ite_eq_left_iff, -ite_eq_right_iff]
@[simp] theorem State.ppsInOp_kept (s : State) : (State.ppsInOp s).kept = s.kept :=
  by unfold State.ppsInOp; simp [-ite_eq_left_iff, -ite_eq_right_iff]
@[simp] theorem State.ppsOutOp_kept (s : State) : (State.ppsOutOp s).kept = s.kept :=
  by unfold State.ppsOutOp; simp [-ite_eq_left_iff, -ite_eq_right_iff]
@[simp] theorem State.i2cAnswer_kept (s : State) (cmd : Nat) (bs : List Byte) : (State.i2cAnswer s cmd bs).kept = s.kept := by
  unfold State.i2cAnswer; repeat' (first | (simp [-ite_eq_left_iff, -ite_eq_right_iff]; done) | split | (refine (foldl_kept _ (fun s a => ?_) _ _).trans ?_) | (refine (foldl1_kept _ (fun s a => ?_) _ _).trans ?_) | simp [-ite_eq_left_iff, -ite_eq_right_iff])
@[simp] theorem State.i2cVoltsOp_kept (s : State) : (State.i2cVoltsOp s).kept = s.kept :=
  by unfold State.i2cVoltsOp; simp [-ite_eq_left_iff, -ite_eq_right_iff]
@[simp] theorem State.lintWriteOp_kept (s : State) : (State.lintWriteOp s).kept = s.kept := by
  unfold State.lintWriteOp; repeat' (first | (simp [-ite_eq_left_iff, -ite_eq_right_iff]; done) | split | (refine (foldl_kept _ (fun s a => ?_) _ _).trans ?_) | (refine (foldl1_kept _ (fun s a => ?_) _ _).trans ?_) | simp [-ite_eq_left_iff, -ite_eq_right_iff])
@[simp] theorem State.pocketSwitch_kept (s : State) (e : Settled) : (State.pocketSwitch s e).kept = s.kept := by
  unfold State.pocketSwitch; repeat' (first | (simp [-ite_eq_left_iff, -ite_eq_right_iff]; done) | split | (refine (foldl_kept _ (fun s a => ?_) _ _).trans ?_) | (refine (foldl1_kept _ (fun s a => ?_) _ _).trans ?_) | simp [-ite_eq_left_iff, -ite_eq_right_iff])
@[simp] theorem State.lintErrorOp_kept (s : State) : (State.lintErrorOp s).kept = s.kept := by
  unfold State.lintErrorOp; repeat' (first | (simp [-ite_eq_left_iff, -ite_eq_right_iff]; done) | split | (refine (foldl_kept _ (fun s a => ?_) _ _).trans ?_) | (refine (foldl1_kept _ (fun s a => ?_) _ _).trans ?_) | simp [-ite_eq_left_iff, -ite_eq_right_iff])
@[simp] theorem State.ctlWrite_kept (s : State) (o : Nat) (v : Word) : (State.ctlWrite s o v).kept = s.kept :=
  by unfold State.ctlWrite; simp [-ite_eq_left_iff, -ite_eq_right_iff]
@[simp] theorem State.schWrite_kept (s : State) (o : Nat) (v : Word) : (State.schWrite s o v).kept = s.kept :=
  by unfold State.schWrite; simp [-ite_eq_left_iff, -ite_eq_right_iff]
@[simp] theorem State.hmpWrite_kept (s : State) (o : Nat) (v : Word) : (State.hmpWrite s o v).kept = s.kept :=
  by unfold State.hmpWrite; simp [-ite_eq_left_iff, -ite_eq_right_iff]
@[simp] theorem State.depWrite_kept (s : State) (o : Nat) (v : Word) : (State.depWrite s o v).kept = s.kept :=
  by unfold State.depWrite; simp [-ite_eq_left_iff, -ite_eq_right_iff]
@[simp] theorem State.tileWrite_kept (s : State) (t : Nat) (o : Nat) (v : Word) : (State.tileWrite s t o v).kept = s.kept :=
  by unfold State.tileWrite; simp [-ite_eq_left_iff, -ite_eq_right_iff]
@[simp] theorem State.vfWrite_kept (s : State) (vf : Nat) (off : Nat) (v : Word) : (State.vfWrite s vf off v).kept = s.kept :=
  by unfold State.vfWrite; simp [-ite_eq_left_iff, -ite_eq_right_iff]
@[simp] theorem State.busIgnore_kept (s : State) (fn : Nat) (off : Nat) (v : Word) : (State.busIgnore s fn off v).kept = s.kept := by
  unfold State.busIgnore; repeat' (first | (simp [-ite_eq_left_iff, -ite_eq_right_iff]; done) | split | (refine (foldl_kept _ (fun s a => ?_) _ _).trans ?_) | (refine (foldl1_kept _ (fun s a => ?_) _ _).trans ?_) | simp [-ite_eq_left_iff, -ite_eq_right_iff])

end Sys2Proof.Machine
end

