-- ==== Sys2Proof/Laws/State.lean ====
section
/-!
SUPPORT. Laws of the state: for each update of one part of the state, one lemma per field that it leaves as it was, and one
for the read of what it wrote.
-/
namespace Sys2Proof.Machine

@[simp] theorem State.setReg_pending (s : State) (off : Nat) (v : Word) : (s.setReg off v).pending = s.pending := rfl
@[simp] theorem State.setReg_a144 (s : State) (off : Nat) (v : Word) : (s.setReg off v).a144 = s.a144 := rfl
@[simp] theorem State.setReg_serial (s : State) (off : Nat) (v : Word) : (s.setReg off v).serial = s.serial := rfl
@[simp] theorem State.setReg_now (s : State) (off : Nat) (v : Word) : (s.setReg off v).now = s.now := rfl
@[simp] theorem State.setReg_pat (s : State) (off : Nat) (v : Word) : (s.setReg off v).pat = s.pat := rfl
@[simp] theorem State.setReg_ldr (s : State) (off : Nat) (v : Word) : (s.setReg off v).ldr = s.ldr := rfl
@[simp] theorem State.setReg_pwr (s : State) (off : Nat) (v : Word) : (s.setReg off v).pwr = s.pwr := rfl
@[simp] theorem State.setReg_flt (s : State) (off : Nat) (v : Word) : (s.setReg off v).flt = s.flt := rfl
@[simp] theorem State.setReg_lnt (s : State) (off : Nat) (v : Word) : (s.setReg off v).lnt = s.lnt := rfl
@[simp] theorem State.setReg_hif (s : State) (off : Nat) (v : Word) : (s.setReg off v).hif = s.hif := rfl
@[simp] theorem State.setReg_sessions (s : State) (off : Nat) (v : Word) : (s.setReg off v).sessions = s.sessions := rfl
@[simp] theorem State.setReg_tiles (s : State) (off : Nat) (v : Word) : (s.setReg off v).tiles = s.tiles := rfl
@[simp] theorem State.setReg_admitted (s : State) (off : Nat) (v : Word) : (s.setReg off v).admitted = s.admitted := rfl
@[simp] theorem State.setReg_resetting (s : State) (off : Nat) (v : Word) : (s.setReg off v).resetting = s.resetting := rfl
@[simp] theorem State.setReg_pages (s : State) (off : Nat) (v : Word) : (s.setReg off v).pages = s.pages := rfl
@[simp] theorem State.setReg_lastDfree (s : State) (off : Nat) (v : Word) : (s.setReg off v).lastDfree = s.lastDfree := rfl
@[simp] theorem State.setReg_lowArmed (s : State) (off : Nat) (v : Word) : (s.setReg off v).lowArmed = s.lowArmed := rfl
@[simp] theorem State.setReg_subs (s : State) (off : Nat) (v : Word) : (s.setReg off v).subs = s.subs := rfl
@[simp] theorem State.setReg_svcs (s : State) (off : Nat) (v : Word) : (s.setReg off v).svcs = s.svcs := rfl
@[simp] theorem State.setReg_portBkt (s : State) (off : Nat) (v : Word) : (s.setReg off v).portBkt = s.portBkt := rfl
@[simp] theorem State.setReg_eths (s : State) (off : Nat) (v : Word) : (s.setReg off v).eths = s.eths := rfl
@[simp] theorem State.setReg_ingest (s : State) (off : Nat) (v : Word) : (s.setReg off v).ingest = s.ingest := rfl
@[simp] theorem State.setReg_chans (s : State) (off : Nat) (v : Word) : (s.setReg off v).chans = s.chans := rfl
@[simp] theorem State.setReg_dmaReq (s : State) (off : Nat) (v : Word) : (s.setReg off v).dmaReq = s.dmaReq := rfl
@[simp] theorem State.setReg_cvus (s : State) (off : Nat) (v : Word) : (s.setReg off v).cvus = s.cvus := rfl
@[simp] theorem State.setReg_arbs (s : State) (off : Nat) (v : Word) : (s.setReg off v).arbs = s.arbs := rfl
@[simp] theorem State.setReg_hbm (s : State) (off : Nat) (v : Word) : (s.setReg off v).hbm = s.hbm := rfl
@[simp] theorem State.setReg_mem (s : State) (off : Nat) (v : Word) : (s.setReg off v).mem = s.mem := rfl
@[simp] theorem State.setReg_side (s : State) (off : Nat) (v : Word) : (s.setReg off v).side = s.side := rfl
@[simp] theorem State.setReg_lastUnc (s : State) (off : Nat) (v : Word) : (s.setReg off v).lastUnc = s.lastUnc := rfl
@[simp] theorem State.setReg_sec (s : State) (off : Nat) (v : Word) : (s.setReg off v).sec = s.sec := rfl
@[simp] theorem State.setReg_lin (s : State) (off : Nat) (v : Word) : (s.setReg off v).lin = s.lin := rfl
@[simp] theorem State.setReg_pmu (s : State) (off : Nat) (v : Word) : (s.setReg off v).pmu = s.pmu := rfl
@[simp] theorem State.setReg_outbox (s : State) (off : Nat) (v : Word) : (s.setReg off v).outbox = s.outbox := rfl
@[simp] theorem State.setReg_freeCtr (s : State) (off : Nat) (v : Word) : (s.setReg off v).freeCtr = s.freeCtr := rfl

@[simp] theorem State.bump_pending (s : State) (off k : Nat) : (s.bump off k).pending = s.pending := rfl
@[simp] theorem State.bump_a144 (s : State) (off k : Nat) : (s.bump off k).a144 = s.a144 := rfl
@[simp] theorem State.bump_serial (s : State) (off k : Nat) : (s.bump off k).serial = s.serial := rfl
@[simp] theorem State.bump_now (s : State) (off k : Nat) : (s.bump off k).now = s.now := rfl
@[simp] theorem State.bump_pat (s : State) (off k : Nat) : (s.bump off k).pat = s.pat := rfl
@[simp] theorem State.bump_ldr (s : State) (off k : Nat) : (s.bump off k).ldr = s.ldr := rfl
@[simp] theorem State.bump_pwr (s : State) (off k : Nat) : (s.bump off k).pwr = s.pwr := rfl
@[simp] theorem State.bump_flt (s : State) (off k : Nat) : (s.bump off k).flt = s.flt := rfl
@[simp] theorem State.bump_lnt (s : State) (off k : Nat) : (s.bump off k).lnt = s.lnt := rfl
@[simp] theorem State.bump_hif (s : State) (off k : Nat) : (s.bump off k).hif = s.hif := rfl
@[simp] theorem State.bump_sessions (s : State) (off k : Nat) : (s.bump off k).sessions = s.sessions := rfl
@[simp] theorem State.bump_tiles (s : State) (off k : Nat) : (s.bump off k).tiles = s.tiles := rfl
@[simp] theorem State.bump_admitted (s : State) (off k : Nat) : (s.bump off k).admitted = s.admitted := rfl
@[simp] theorem State.bump_resetting (s : State) (off k : Nat) : (s.bump off k).resetting = s.resetting := rfl
@[simp] theorem State.bump_pages (s : State) (off k : Nat) : (s.bump off k).pages = s.pages := rfl
@[simp] theorem State.bump_lastDfree (s : State) (off k : Nat) : (s.bump off k).lastDfree = s.lastDfree := rfl
@[simp] theorem State.bump_lowArmed (s : State) (off k : Nat) : (s.bump off k).lowArmed = s.lowArmed := rfl
@[simp] theorem State.bump_subs (s : State) (off k : Nat) : (s.bump off k).subs = s.subs := rfl
@[simp] theorem State.bump_svcs (s : State) (off k : Nat) : (s.bump off k).svcs = s.svcs := rfl
@[simp] theorem State.bump_portBkt (s : State) (off k : Nat) : (s.bump off k).portBkt = s.portBkt := rfl
@[simp] theorem State.bump_eths (s : State) (off k : Nat) : (s.bump off k).eths = s.eths := rfl
@[simp] theorem State.bump_ingest (s : State) (off k : Nat) : (s.bump off k).ingest = s.ingest := rfl
@[simp] theorem State.bump_chans (s : State) (off k : Nat) : (s.bump off k).chans = s.chans := rfl
@[simp] theorem State.bump_dmaReq (s : State) (off k : Nat) : (s.bump off k).dmaReq = s.dmaReq := rfl
@[simp] theorem State.bump_cvus (s : State) (off k : Nat) : (s.bump off k).cvus = s.cvus := rfl
@[simp] theorem State.bump_arbs (s : State) (off k : Nat) : (s.bump off k).arbs = s.arbs := rfl
@[simp] theorem State.bump_hbm (s : State) (off k : Nat) : (s.bump off k).hbm = s.hbm := rfl
@[simp] theorem State.bump_mem (s : State) (off k : Nat) : (s.bump off k).mem = s.mem := rfl
@[simp] theorem State.bump_side (s : State) (off k : Nat) : (s.bump off k).side = s.side := rfl
@[simp] theorem State.bump_lastUnc (s : State) (off k : Nat) : (s.bump off k).lastUnc = s.lastUnc := rfl
@[simp] theorem State.bump_sec (s : State) (off k : Nat) : (s.bump off k).sec = s.sec := rfl
@[simp] theorem State.bump_lin (s : State) (off k : Nat) : (s.bump off k).lin = s.lin := rfl
@[simp] theorem State.bump_pmu (s : State) (off k : Nat) : (s.bump off k).pmu = s.pmu := rfl
@[simp] theorem State.bump_outbox (s : State) (off k : Nat) : (s.bump off k).outbox = s.outbox := rfl
@[simp] theorem State.bump_freeCtr (s : State) (off k : Nat) : (s.bump off k).freeCtr = s.freeCtr := rfl

@[simp] theorem State.setSes_pending (s : State) (n : Nat) (x : Session) : (s.setSes n x).pending = s.pending := rfl
@[simp] theorem State.setSes_a144 (s : State) (n : Nat) (x : Session) : (s.setSes n x).a144 = s.a144 := rfl
@[simp] theorem State.setSes_serial (s : State) (n : Nat) (x : Session) : (s.setSes n x).serial = s.serial := rfl
@[simp] theorem State.setSes_now (s : State) (n : Nat) (x : Session) : (s.setSes n x).now = s.now := rfl
@[simp] theorem State.setSes_regs (s : State) (n : Nat) (x : Session) : (s.setSes n x).regs = s.regs := rfl
@[simp] theorem State.setSes_pat (s : State) (n : Nat) (x : Session) : (s.setSes n x).pat = s.pat := rfl
@[simp] theorem State.setSes_ldr (s : State) (n : Nat) (x : Session) : (s.setSes n x).ldr = s.ldr := rfl
@[simp] theorem State.setSes_pwr (s : State) (n : Nat) (x : Session) : (s.setSes n x).pwr = s.pwr := rfl
@[simp] theorem State.setSes_flt (s : State) (n : Nat) (x : Session) : (s.setSes n x).flt = s.flt := rfl
@[simp] theorem State.setSes_lnt (s : State) (n : Nat) (x : Session) : (s.setSes n x).lnt = s.lnt := rfl
@[simp] theorem State.setSes_hif (s : State) (n : Nat) (x : Session) : (s.setSes n x).hif = s.hif := rfl
@[simp] theorem State.setSes_tiles (s : State) (n : Nat) (x : Session) : (s.setSes n x).tiles = s.tiles := rfl
@[simp] theorem State.setSes_admitted (s : State) (n : Nat) (x : Session) : (s.setSes n x).admitted = s.admitted := rfl
@[simp] theorem State.setSes_resetting (s : State) (n : Nat) (x : Session) : (s.setSes n x).resetting = s.resetting := rfl
@[simp] theorem State.setSes_pages (s : State) (n : Nat) (x : Session) : (s.setSes n x).pages = s.pages := rfl
@[simp] theorem State.setSes_lastDfree (s : State) (n : Nat) (x : Session) : (s.setSes n x).lastDfree = s.lastDfree := rfl
@[simp] theorem State.setSes_lowArmed (s : State) (n : Nat) (x : Session) : (s.setSes n x).lowArmed = s.lowArmed := rfl
@[simp] theorem State.setSes_subs (s : State) (n : Nat) (x : Session) : (s.setSes n x).subs = s.subs := rfl
@[simp] theorem State.setSes_svcs (s : State) (n : Nat) (x : Session) : (s.setSes n x).svcs = s.svcs := rfl
@[simp] theorem State.setSes_portBkt (s : State) (n : Nat) (x : Session) : (s.setSes n x).portBkt = s.portBkt := rfl
@[simp] theorem State.setSes_eths (s : State) (n : Nat) (x : Session) : (s.setSes n x).eths = s.eths := rfl
@[simp] theorem State.setSes_ingest (s : State) (n : Nat) (x : Session) : (s.setSes n x).ingest = s.ingest := rfl
@[simp] theorem State.setSes_chans (s : State) (n : Nat) (x : Session) : (s.setSes n x).chans = s.chans := rfl
@[simp] theorem State.setSes_dmaReq (s : State) (n : Nat) (x : Session) : (s.setSes n x).dmaReq = s.dmaReq := rfl
@[simp] theorem State.setSes_cvus (s : State) (n : Nat) (x : Session) : (s.setSes n x).cvus = s.cvus := rfl
@[simp] theorem State.setSes_arbs (s : State) (n : Nat) (x : Session) : (s.setSes n x).arbs = s.arbs := rfl
@[simp] theorem State.setSes_hbm (s : State) (n : Nat) (x : Session) : (s.setSes n x).hbm = s.hbm := rfl
@[simp] theorem State.setSes_mem (s : State) (n : Nat) (x : Session) : (s.setSes n x).mem = s.mem := rfl
@[simp] theorem State.setSes_side (s : State) (n : Nat) (x : Session) : (s.setSes n x).side = s.side := rfl
@[simp] theorem State.setSes_lastUnc (s : State) (n : Nat) (x : Session) : (s.setSes n x).lastUnc = s.lastUnc := rfl
@[simp] theorem State.setSes_sec (s : State) (n : Nat) (x : Session) : (s.setSes n x).sec = s.sec := rfl
@[simp] theorem State.setSes_lin (s : State) (n : Nat) (x : Session) : (s.setSes n x).lin = s.lin := rfl
@[simp] theorem State.setSes_pmu (s : State) (n : Nat) (x : Session) : (s.setSes n x).pmu = s.pmu := rfl
@[simp] theorem State.setSes_outbox (s : State) (n : Nat) (x : Session) : (s.setSes n x).outbox = s.outbox := rfl
@[simp] theorem State.setSes_freeCtr (s : State) (n : Nat) (x : Session) : (s.setSes n x).freeCtr = s.freeCtr := rfl
@[simp] theorem State.setSes_ses (s : State) (n : Nat) (x : Session) (j : Nat) :
    (s.setSes n x).ses j = if j = n then x else s.ses j := tget_tset _ _ _ _

@[simp] theorem State.modSes_pending (s : State) (n : Nat) (f : Session → Session) : (s.modSes n f).pending = s.pending := rfl
@[simp] theorem State.modSes_a144 (s : State) (n : Nat) (f : Session → Session) : (s.modSes n f).a144 = s.a144 := rfl
@[simp] theorem State.modSes_serial (s : State) (n : Nat) (f : Session → Session) : (s.modSes n f).serial = s.serial := rfl
@[simp] theorem State.modSes_now (s : State) (n : Nat) (f : Session → Session) : (s.modSes n f).now = s.now := rfl
@[simp] theorem State.modSes_regs (s : State) (n : Nat) (f : Session → Session) : (s.modSes n f).regs = s.regs := rfl
@[simp] theorem State.modSes_pat (s : State) (n : Nat) (f : Session → Session) : (s.modSes n f).pat = s.pat := rfl
@[simp] theorem State.modSes_ldr (s : State) (n : Nat) (f : Session → Session) : (s.modSes n f).ldr = s.ldr := rfl
@[simp] theorem State.modSes_pwr (s : State) (n : Nat) (f : Session → Session) : (s.modSes n f).pwr = s.pwr := rfl
@[simp] theorem State.modSes_flt (s : State) (n : Nat) (f : Session → Session) : (s.modSes n f).flt = s.flt := rfl
@[simp] theorem State.modSes_lnt (s : State) (n : Nat) (f : Session → Session) : (s.modSes n f).lnt = s.lnt := rfl
@[simp] theorem State.modSes_hif (s : State) (n : Nat) (f : Session → Session) : (s.modSes n f).hif = s.hif := rfl
@[simp] theorem State.modSes_tiles (s : State) (n : Nat) (f : Session → Session) : (s.modSes n f).tiles = s.tiles := rfl
@[simp] theorem State.modSes_admitted (s : State) (n : Nat) (f : Session → Session) : (s.modSes n f).admitted = s.admitted := rfl
@[simp] theorem State.modSes_resetting (s : State) (n : Nat) (f : Session → Session) : (s.modSes n f).resetting = s.resetting := rfl
@[simp] theorem State.modSes_pages (s : State) (n : Nat) (f : Session → Session) : (s.modSes n f).pages = s.pages := rfl
@[simp] theorem State.modSes_lastDfree (s : State) (n : Nat) (f : Session → Session) : (s.modSes n f).lastDfree = s.lastDfree := rfl
@[simp] theorem State.modSes_lowArmed (s : State) (n : Nat) (f : Session → Session) : (s.modSes n f).lowArmed = s.lowArmed := rfl
@[simp] theorem State.modSes_subs (s : State) (n : Nat) (f : Session → Session) : (s.modSes n f).subs = s.subs := rfl
@[simp] theorem State.modSes_svcs (s : State) (n : Nat) (f : Session → Session) : (s.modSes n f).svcs = s.svcs := rfl
@[simp] theorem State.modSes_portBkt (s : State) (n : Nat) (f : Session → Session) : (s.modSes n f).portBkt = s.portBkt := rfl
@[simp] theorem State.modSes_eths (s : State) (n : Nat) (f : Session → Session) : (s.modSes n f).eths = s.eths := rfl
@[simp] theorem State.modSes_ingest (s : State) (n : Nat) (f : Session → Session) : (s.modSes n f).ingest = s.ingest := rfl
@[simp] theorem State.modSes_chans (s : State) (n : Nat) (f : Session → Session) : (s.modSes n f).chans = s.chans := rfl
@[simp] theorem State.modSes_dmaReq (s : State) (n : Nat) (f : Session → Session) : (s.modSes n f).dmaReq = s.dmaReq := rfl
@[simp] theorem State.modSes_cvus (s : State) (n : Nat) (f : Session → Session) : (s.modSes n f).cvus = s.cvus := rfl
@[simp] theorem State.modSes_arbs (s : State) (n : Nat) (f : Session → Session) : (s.modSes n f).arbs = s.arbs := rfl
@[simp] theorem State.modSes_hbm (s : State) (n : Nat) (f : Session → Session) : (s.modSes n f).hbm = s.hbm := rfl
@[simp] theorem State.modSes_mem (s : State) (n : Nat) (f : Session → Session) : (s.modSes n f).mem = s.mem := rfl
@[simp] theorem State.modSes_side (s : State) (n : Nat) (f : Session → Session) : (s.modSes n f).side = s.side := rfl
@[simp] theorem State.modSes_lastUnc (s : State) (n : Nat) (f : Session → Session) : (s.modSes n f).lastUnc = s.lastUnc := rfl
@[simp] theorem State.modSes_sec (s : State) (n : Nat) (f : Session → Session) : (s.modSes n f).sec = s.sec := rfl
@[simp] theorem State.modSes_lin (s : State) (n : Nat) (f : Session → Session) : (s.modSes n f).lin = s.lin := rfl
@[simp] theorem State.modSes_pmu (s : State) (n : Nat) (f : Session → Session) : (s.modSes n f).pmu = s.pmu := rfl
@[simp] theorem State.modSes_outbox (s : State) (n : Nat) (f : Session → Session) : (s.modSes n f).outbox = s.outbox := rfl
@[simp] theorem State.modSes_freeCtr (s : State) (n : Nat) (f : Session → Session) : (s.modSes n f).freeCtr = s.freeCtr := rfl

@[simp] theorem State.setTile_pending (s : State) (n : Nat) (x : Tile) : (s.setTile n x).pending = s.pending := rfl
@[simp] theorem State.setTile_a144 (s : State) (n : Nat) (x : Tile) : (s.setTile n x).a144 = s.a144 := rfl
@[simp] theorem State.setTile_serial (s : State) (n : Nat) (x : Tile) : (s.setTile n x).serial = s.serial := rfl
@[simp] theorem State.setTile_now (s : State) (n : Nat) (x : Tile) : (s.setTile n x).now = s.now := rfl
@[simp] theorem State.setTile_regs (s : State) (n : Nat) (x : Tile) : (s.setTile n x).regs = s.regs := rfl
@[simp] theorem State.setTile_pat (s : State) (n : Nat) (x : Tile) : (s.setTile n x).pat = s.pat := rfl
@[simp] theorem State.setTile_ldr (s : State) (n : Nat) (x : Tile) : (s.setTile n x).ldr = s.ldr := rfl
@[simp] theorem State.setTile_pwr (s : State) (n : Nat) (x : Tile) : (s.setTile n x).pwr = s.pwr := rfl
@[simp] theorem State.setTile_flt (s : State) (n : Nat) (x : Tile) : (s.setTile n x).flt = s.flt := rfl
@[simp] theorem State.setTile_lnt (s : State) (n : Nat) (x : Tile) : (s.setTile n x).lnt = s.lnt := rfl
@[simp] theorem State.setTile_hif (s : State) (n : Nat) (x : Tile) : (s.setTile n x).hif = s.hif := rfl
@[simp] theorem State.setTile_sessions (s : State) (n : Nat) (x : Tile) : (s.setTile n x).sessions = s.sessions := rfl
@[simp] theorem State.setTile_admitted (s : State) (n : Nat) (x : Tile) : (s.setTile n x).admitted = s.admitted := rfl
@[simp] theorem State.setTile_resetting (s : State) (n : Nat) (x : Tile) : (s.setTile n x).resetting = s.resetting := rfl
@[simp] theorem State.setTile_pages (s : State) (n : Nat) (x : Tile) : (s.setTile n x).pages = s.pages := rfl
@[simp] theorem State.setTile_lastDfree (s : State) (n : Nat) (x : Tile) : (s.setTile n x).lastDfree = s.lastDfree := rfl
@[simp] theorem State.setTile_lowArmed (s : State) (n : Nat) (x : Tile) : (s.setTile n x).lowArmed = s.lowArmed := rfl
@[simp] theorem State.setTile_subs (s : State) (n : Nat) (x : Tile) : (s.setTile n x).subs = s.subs := rfl
@[simp] theorem State.setTile_svcs (s : State) (n : Nat) (x : Tile) : (s.setTile n x).svcs = s.svcs := rfl
@[simp] theorem State.setTile_portBkt (s : State) (n : Nat) (x : Tile) : (s.setTile n x).portBkt = s.portBkt := rfl
@[simp] theorem State.setTile_eths (s : State) (n : Nat) (x : Tile) : (s.setTile n x).eths = s.eths := rfl
@[simp] theorem State.setTile_ingest (s : State) (n : Nat) (x : Tile) : (s.setTile n x).ingest = s.ingest := rfl
@[simp] theorem State.setTile_chans (s : State) (n : Nat) (x : Tile) : (s.setTile n x).chans = s.chans := rfl
@[simp] theorem State.setTile_dmaReq (s : State) (n : Nat) (x : Tile) : (s.setTile n x).dmaReq = s.dmaReq := rfl
@[simp] theorem State.setTile_cvus (s : State) (n : Nat) (x : Tile) : (s.setTile n x).cvus = s.cvus := rfl
@[simp] theorem State.setTile_arbs (s : State) (n : Nat) (x : Tile) : (s.setTile n x).arbs = s.arbs := rfl
@[simp] theorem State.setTile_hbm (s : State) (n : Nat) (x : Tile) : (s.setTile n x).hbm = s.hbm := rfl
@[simp] theorem State.setTile_mem (s : State) (n : Nat) (x : Tile) : (s.setTile n x).mem = s.mem := rfl
@[simp] theorem State.setTile_side (s : State) (n : Nat) (x : Tile) : (s.setTile n x).side = s.side := rfl
@[simp] theorem State.setTile_lastUnc (s : State) (n : Nat) (x : Tile) : (s.setTile n x).lastUnc = s.lastUnc := rfl
@[simp] theorem State.setTile_sec (s : State) (n : Nat) (x : Tile) : (s.setTile n x).sec = s.sec := rfl
@[simp] theorem State.setTile_lin (s : State) (n : Nat) (x : Tile) : (s.setTile n x).lin = s.lin := rfl
@[simp] theorem State.setTile_pmu (s : State) (n : Nat) (x : Tile) : (s.setTile n x).pmu = s.pmu := rfl
@[simp] theorem State.setTile_outbox (s : State) (n : Nat) (x : Tile) : (s.setTile n x).outbox = s.outbox := rfl
@[simp] theorem State.setTile_freeCtr (s : State) (n : Nat) (x : Tile) : (s.setTile n x).freeCtr = s.freeCtr := rfl
@[simp] theorem State.setTile_tile (s : State) (n : Nat) (x : Tile) (j : Nat) :
    (s.setTile n x).tile j = if j = n then x else s.tile j := tget_tset _ _ _ _

@[simp] theorem State.modTile_pending (s : State) (n : Nat) (f : Tile → Tile) : (s.modTile n f).pending = s.pending := rfl
@[simp] theorem State.modTile_a144 (s : State) (n : Nat) (f : Tile → Tile) : (s.modTile n f).a144 = s.a144 := rfl
@[simp] theorem State.modTile_serial (s : State) (n : Nat) (f : Tile → Tile) : (s.modTile n f).serial = s.serial := rfl
@[simp] theorem State.modTile_now (s : State) (n : Nat) (f : Tile → Tile) : (s.modTile n f).now = s.now := rfl
@[simp] theorem State.modTile_regs (s : State) (n : Nat) (f : Tile → Tile) : (s.modTile n f).regs = s.regs := rfl
@[simp] theorem State.modTile_pat (s : State) (n : Nat) (f : Tile → Tile) : (s.modTile n f).pat = s.pat := rfl
@[simp] theorem State.modTile_ldr (s : State) (n : Nat) (f : Tile → Tile) : (s.modTile n f).ldr = s.ldr := rfl
@[simp] theorem State.modTile_pwr (s : State) (n : Nat) (f : Tile → Tile) : (s.modTile n f).pwr = s.pwr := rfl
@[simp] theorem State.modTile_flt (s : State) (n : Nat) (f : Tile → Tile) : (s.modTile n f).flt = s.flt := rfl
@[simp] theorem State.modTile_lnt (s : State) (n : Nat) (f : Tile → Tile) : (s.modTile n f).lnt = s.lnt := rfl
@[simp] theorem State.modTile_hif (s : State) (n : Nat) (f : Tile → Tile) : (s.modTile n f).hif = s.hif := rfl
@[simp] theorem State.modTile_sessions (s : State) (n : Nat) (f : Tile → Tile) : (s.modTile n f).sessions = s.sessions := rfl
@[simp] theorem State.modTile_admitted (s : State) (n : Nat) (f : Tile → Tile) : (s.modTile n f).admitted = s.admitted := rfl
@[simp] theorem State.modTile_resetting (s : State) (n : Nat) (f : Tile → Tile) : (s.modTile n f).resetting = s.resetting := rfl
@[simp] theorem State.modTile_pages (s : State) (n : Nat) (f : Tile → Tile) : (s.modTile n f).pages = s.pages := rfl
@[simp] theorem State.modTile_lastDfree (s : State) (n : Nat) (f : Tile → Tile) : (s.modTile n f).lastDfree = s.lastDfree := rfl
@[simp] theorem State.modTile_lowArmed (s : State) (n : Nat) (f : Tile → Tile) : (s.modTile n f).lowArmed = s.lowArmed := rfl
@[simp] theorem State.modTile_subs (s : State) (n : Nat) (f : Tile → Tile) : (s.modTile n f).subs = s.subs := rfl
@[simp] theorem State.modTile_svcs (s : State) (n : Nat) (f : Tile → Tile) : (s.modTile n f).svcs = s.svcs := rfl
@[simp] theorem State.modTile_portBkt (s : State) (n : Nat) (f : Tile → Tile) : (s.modTile n f).portBkt = s.portBkt := rfl
@[simp] theorem State.modTile_eths (s : State) (n : Nat) (f : Tile → Tile) : (s.modTile n f).eths = s.eths := rfl
@[simp] theorem State.modTile_ingest (s : State) (n : Nat) (f : Tile → Tile) : (s.modTile n f).ingest = s.ingest := rfl
@[simp] theorem State.modTile_chans (s : State) (n : Nat) (f : Tile → Tile) : (s.modTile n f).chans = s.chans := rfl
@[simp] theorem State.modTile_dmaReq (s : State) (n : Nat) (f : Tile → Tile) : (s.modTile n f).dmaReq = s.dmaReq := rfl
@[simp] theorem State.modTile_cvus (s : State) (n : Nat) (f : Tile → Tile) : (s.modTile n f).cvus = s.cvus := rfl
@[simp] theorem State.modTile_arbs (s : State) (n : Nat) (f : Tile → Tile) : (s.modTile n f).arbs = s.arbs := rfl
@[simp] theorem State.modTile_hbm (s : State) (n : Nat) (f : Tile → Tile) : (s.modTile n f).hbm = s.hbm := rfl
@[simp] theorem State.modTile_mem (s : State) (n : Nat) (f : Tile → Tile) : (s.modTile n f).mem = s.mem := rfl
@[simp] theorem State.modTile_side (s : State) (n : Nat) (f : Tile → Tile) : (s.modTile n f).side = s.side := rfl
@[simp] theorem State.modTile_lastUnc (s : State) (n : Nat) (f : Tile → Tile) : (s.modTile n f).lastUnc = s.lastUnc := rfl
@[simp] theorem State.modTile_sec (s : State) (n : Nat) (f : Tile → Tile) : (s.modTile n f).sec = s.sec := rfl
@[simp] theorem State.modTile_lin (s : State) (n : Nat) (f : Tile → Tile) : (s.modTile n f).lin = s.lin := rfl
@[simp] theorem State.modTile_pmu (s : State) (n : Nat) (f : Tile → Tile) : (s.modTile n f).pmu = s.pmu := rfl
@[simp] theorem State.modTile_outbox (s : State) (n : Nat) (f : Tile → Tile) : (s.modTile n f).outbox = s.outbox := rfl
@[simp] theorem State.modTile_freeCtr (s : State) (n : Nat) (f : Tile → Tile) : (s.modTile n f).freeCtr = s.freeCtr := rfl

@[simp] theorem State.setQuad_pending (s : State) (q : Nat) (x : Quad) : (s.setQuad q x).pending = s.pending := rfl
@[simp] theorem State.setQuad_a144 (s : State) (q : Nat) (x : Quad) : (s.setQuad q x).a144 = s.a144 := rfl
@[simp] theorem State.setQuad_serial (s : State) (q : Nat) (x : Quad) : (s.setQuad q x).serial = s.serial := rfl
@[simp] theorem State.setQuad_now (s : State) (q : Nat) (x : Quad) : (s.setQuad q x).now = s.now := rfl
@[simp] theorem State.setQuad_regs (s : State) (q : Nat) (x : Quad) : (s.setQuad q x).regs = s.regs := rfl
@[simp] theorem State.setQuad_pat (s : State) (q : Nat) (x : Quad) : (s.setQuad q x).pat = s.pat := rfl
@[simp] theorem State.setQuad_ldr (s : State) (q : Nat) (x : Quad) : (s.setQuad q x).ldr = s.ldr := rfl
@[simp] theorem State.setQuad_flt (s : State) (q : Nat) (x : Quad) : (s.setQuad q x).flt = s.flt := rfl
@[simp] theorem State.setQuad_lnt (s : State) (q : Nat) (x : Quad) : (s.setQuad q x).lnt = s.lnt := rfl
@[simp] theorem State.setQuad_hif (s : State) (q : Nat) (x : Quad) : (s.setQuad q x).hif = s.hif := rfl
@[simp] theorem State.setQuad_sessions (s : State) (q : Nat) (x : Quad) : (s.setQuad q x).sessions = s.sessions := rfl
@[simp] theorem State.setQuad_tiles (s : State) (q : Nat) (x : Quad) : (s.setQuad q x).tiles = s.tiles := rfl
@[simp] theorem State.setQuad_admitted (s : State) (q : Nat) (x : Quad) : (s.setQuad q x).admitted = s.admitted := rfl
@[simp] theorem State.setQuad_resetting (s : State) (q : Nat) (x : Quad) : (s.setQuad q x).resetting = s.resetting := rfl
@[simp] theorem State.setQuad_pages (s : State) (q : Nat) (x : Quad) : (s.setQuad q x).pages = s.pages := rfl
@[simp] theorem State.setQuad_lastDfree (s : State) (q : Nat) (x : Quad) : (s.setQuad q x).lastDfree = s.lastDfree := rfl
@[simp] theorem State.setQuad_lowArmed (s : State) (q : Nat) (x : Quad) : (s.setQuad q x).lowArmed = s.lowArmed := rfl
@[simp] theorem State.setQuad_subs (s : State) (q : Nat) (x : Quad) : (s.setQuad q x).subs = s.subs := rfl
@[simp] theorem State.setQuad_svcs (s : State) (q : Nat) (x : Quad) : (s.setQuad q x).svcs = s.svcs := rfl
@[simp] theorem State.setQuad_portBkt (s : State) (q : Nat) (x : Quad) : (s.setQuad q x).portBkt = s.portBkt := rfl
@[simp] theorem State.setQuad_eths (s : State) (q : Nat) (x : Quad) : (s.setQuad q x).eths = s.eths := rfl
@[simp] theorem State.setQuad_ingest (s : State) (q : Nat) (x : Quad) : (s.setQuad q x).ingest = s.ingest := rfl
@[simp] theorem State.setQuad_chans (s : State) (q : Nat) (x : Quad) : (s.setQuad q x).chans = s.chans := rfl
@[simp] theorem State.setQuad_dmaReq (s : State) (q : Nat) (x : Quad) : (s.setQuad q x).dmaReq = s.dmaReq := rfl
@[simp] theorem State.setQuad_cvus (s : State) (q : Nat) (x : Quad) : (s.setQuad q x).cvus = s.cvus := rfl
@[simp] theorem State.setQuad_arbs (s : State) (q : Nat) (x : Quad) : (s.setQuad q x).arbs = s.arbs := rfl
@[simp] theorem State.setQuad_hbm (s : State) (q : Nat) (x : Quad) : (s.setQuad q x).hbm = s.hbm := rfl
@[simp] theorem State.setQuad_mem (s : State) (q : Nat) (x : Quad) : (s.setQuad q x).mem = s.mem := rfl
@[simp] theorem State.setQuad_side (s : State) (q : Nat) (x : Quad) : (s.setQuad q x).side = s.side := rfl
@[simp] theorem State.setQuad_lastUnc (s : State) (q : Nat) (x : Quad) : (s.setQuad q x).lastUnc = s.lastUnc := rfl
@[simp] theorem State.setQuad_sec (s : State) (q : Nat) (x : Quad) : (s.setQuad q x).sec = s.sec := rfl
@[simp] theorem State.setQuad_lin (s : State) (q : Nat) (x : Quad) : (s.setQuad q x).lin = s.lin := rfl
@[simp] theorem State.setQuad_pmu (s : State) (q : Nat) (x : Quad) : (s.setQuad q x).pmu = s.pmu := rfl
@[simp] theorem State.setQuad_outbox (s : State) (q : Nat) (x : Quad) : (s.setQuad q x).outbox = s.outbox := rfl
@[simp] theorem State.setQuad_freeCtr (s : State) (q : Nat) (x : Quad) : (s.setQuad q x).freeCtr = s.freeCtr := rfl
@[simp] theorem State.setQuad_quad (s : State) (q : Nat) (x : Quad) (j : Nat) :
    (s.setQuad q x).quad j = if j = q then x else s.quad j := tget_tset _ _ _ _

@[simp] theorem State.setDom_pending (s : State) (d : Nat) (x : Dom) : (s.setDom d x).pending = s.pending := rfl
@[simp] theorem State.setDom_a144 (s : State) (d : Nat) (x : Dom) : (s.setDom d x).a144 = s.a144 := rfl
@[simp] theorem State.setDom_serial (s : State) (d : Nat) (x : Dom) : (s.setDom d x).serial = s.serial := rfl
@[simp] theorem State.setDom_now (s : State) (d : Nat) (x : Dom) : (s.setDom d x).now = s.now := rfl
@[simp] theorem State.setDom_regs (s : State) (d : Nat) (x : Dom) : (s.setDom d x).regs = s.regs := rfl
@[simp] theorem State.setDom_pat (s : State) (d : Nat) (x : Dom) : (s.setDom d x).pat = s.pat := rfl
@[simp] theorem State.setDom_ldr (s : State) (d : Nat) (x : Dom) : (s.setDom d x).ldr = s.ldr := rfl
@[simp] theorem State.setDom_flt (s : State) (d : Nat) (x : Dom) : (s.setDom d x).flt = s.flt := rfl
@[simp] theorem State.setDom_lnt (s : State) (d : Nat) (x : Dom) : (s.setDom d x).lnt = s.lnt := rfl
@[simp] theorem State.setDom_hif (s : State) (d : Nat) (x : Dom) : (s.setDom d x).hif = s.hif := rfl
@[simp] theorem State.setDom_sessions (s : State) (d : Nat) (x : Dom) : (s.setDom d x).sessions = s.sessions := rfl
@[simp] theorem State.setDom_tiles (s : State) (d : Nat) (x : Dom) : (s.setDom d x).tiles = s.tiles := rfl
@[simp] theorem State.setDom_admitted (s : State) (d : Nat) (x : Dom) : (s.setDom d x).admitted = s.admitted := rfl
@[simp] theorem State.setDom_resetting (s : State) (d : Nat) (x : Dom) : (s.setDom d x).resetting = s.resetting := rfl
@[simp] theorem State.setDom_pages (s : State) (d : Nat) (x : Dom) : (s.setDom d x).pages = s.pages := rfl
@[simp] theorem State.setDom_lastDfree (s : State) (d : Nat) (x : Dom) : (s.setDom d x).lastDfree = s.lastDfree := rfl
@[simp] theorem State.setDom_lowArmed (s : State) (d : Nat) (x : Dom) : (s.setDom d x).lowArmed = s.lowArmed := rfl
@[simp] theorem State.setDom_subs (s : State) (d : Nat) (x : Dom) : (s.setDom d x).subs = s.subs := rfl
@[simp] theorem State.setDom_svcs (s : State) (d : Nat) (x : Dom) : (s.setDom d x).svcs = s.svcs := rfl
@[simp] theorem State.setDom_portBkt (s : State) (d : Nat) (x : Dom) : (s.setDom d x).portBkt = s.portBkt := rfl
@[simp] theorem State.setDom_eths (s : State) (d : Nat) (x : Dom) : (s.setDom d x).eths = s.eths := rfl
@[simp] theorem State.setDom_ingest (s : State) (d : Nat) (x : Dom) : (s.setDom d x).ingest = s.ingest := rfl
@[simp] theorem State.setDom_chans (s : State) (d : Nat) (x : Dom) : (s.setDom d x).chans = s.chans := rfl
@[simp] theorem State.setDom_dmaReq (s : State) (d : Nat) (x : Dom) : (s.setDom d x).dmaReq = s.dmaReq := rfl
@[simp] theorem State.setDom_cvus (s : State) (d : Nat) (x : Dom) : (s.setDom d x).cvus = s.cvus := rfl
@[simp] theorem State.setDom_arbs (s : State) (d : Nat) (x : Dom) : (s.setDom d x).arbs = s.arbs := rfl
@[simp] theorem State.setDom_hbm (s : State) (d : Nat) (x : Dom) : (s.setDom d x).hbm = s.hbm := rfl
@[simp] theorem State.setDom_mem (s : State) (d : Nat) (x : Dom) : (s.setDom d x).mem = s.mem := rfl
@[simp] theorem State.setDom_side (s : State) (d : Nat) (x : Dom) : (s.setDom d x).side = s.side := rfl
@[simp] theorem State.setDom_lastUnc (s : State) (d : Nat) (x : Dom) : (s.setDom d x).lastUnc = s.lastUnc := rfl
@[simp] theorem State.setDom_sec (s : State) (d : Nat) (x : Dom) : (s.setDom d x).sec = s.sec := rfl
@[simp] theorem State.setDom_lin (s : State) (d : Nat) (x : Dom) : (s.setDom d x).lin = s.lin := rfl
@[simp] theorem State.setDom_pmu (s : State) (d : Nat) (x : Dom) : (s.setDom d x).pmu = s.pmu := rfl
@[simp] theorem State.setDom_outbox (s : State) (d : Nat) (x : Dom) : (s.setDom d x).outbox = s.outbox := rfl
@[simp] theorem State.setDom_freeCtr (s : State) (d : Nat) (x : Dom) : (s.setDom d x).freeCtr = s.freeCtr := rfl
@[simp] theorem State.setDom_dom (s : State) (d : Nat) (x : Dom) (j : Nat) :
    (s.setDom d x).dom j = if j = d then x else s.dom j := tget_tset _ _ _ _

@[simp] theorem State.setStack_pending (s : State) (n : Nat) (x : Stack) : (s.setStack n x).pending = s.pending := rfl
@[simp] theorem State.setStack_a144 (s : State) (n : Nat) (x : Stack) : (s.setStack n x).a144 = s.a144 := rfl
@[simp] theorem State.setStack_serial (s : State) (n : Nat) (x : Stack) : (s.setStack n x).serial = s.serial := rfl
@[simp] theorem State.setStack_now (s : State) (n : Nat) (x : Stack) : (s.setStack n x).now = s.now := rfl
@[simp] theorem State.setStack_regs (s : State) (n : Nat) (x : Stack) : (s.setStack n x).regs = s.regs := rfl
@[simp] theorem State.setStack_pat (s : State) (n : Nat) (x : Stack) : (s.setStack n x).pat = s.pat := rfl
@[simp] theorem State.setStack_ldr (s : State) (n : Nat) (x : Stack) : (s.setStack n x).ldr = s.ldr := rfl
@[simp] theorem State.setStack_pwr (s : State) (n : Nat) (x : Stack) : (s.setStack n x).pwr = s.pwr := rfl
@[simp] theorem State.setStack_flt (s : State) (n : Nat) (x : Stack) : (s.setStack n x).flt = s.flt := rfl
@[simp] theorem State.setStack_lnt (s : State) (n : Nat) (x : Stack) : (s.setStack n x).lnt = s.lnt := rfl
@[simp] theorem State.setStack_hif (s : State) (n : Nat) (x : Stack) : (s.setStack n x).hif = s.hif := rfl
@[simp] theorem State.setStack_sessions (s : State) (n : Nat) (x : Stack) : (s.setStack n x).sessions = s.sessions := rfl
@[simp] theorem State.setStack_tiles (s : State) (n : Nat) (x : Stack) : (s.setStack n x).tiles = s.tiles := rfl
@[simp] theorem State.setStack_admitted (s : State) (n : Nat) (x : Stack) : (s.setStack n x).admitted = s.admitted := rfl
@[simp] theorem State.setStack_resetting (s : State) (n : Nat) (x : Stack) : (s.setStack n x).resetting = s.resetting := rfl
@[simp] theorem State.setStack_pages (s : State) (n : Nat) (x : Stack) : (s.setStack n x).pages = s.pages := rfl
@[simp] theorem State.setStack_lastDfree (s : State) (n : Nat) (x : Stack) : (s.setStack n x).lastDfree = s.lastDfree := rfl
@[simp] theorem State.setStack_lowArmed (s : State) (n : Nat) (x : Stack) : (s.setStack n x).lowArmed = s.lowArmed := rfl
@[simp] theorem State.setStack_subs (s : State) (n : Nat) (x : Stack) : (s.setStack n x).subs = s.subs := rfl
@[simp] theorem State.setStack_svcs (s : State) (n : Nat) (x : Stack) : (s.setStack n x).svcs = s.svcs := rfl
@[simp] theorem State.setStack_portBkt (s : State) (n : Nat) (x : Stack) : (s.setStack n x).portBkt = s.portBkt := rfl
@[simp] theorem State.setStack_eths (s : State) (n : Nat) (x : Stack) : (s.setStack n x).eths = s.eths := rfl
@[simp] theorem State.setStack_ingest (s : State) (n : Nat) (x : Stack) : (s.setStack n x).ingest = s.ingest := rfl
@[simp] theorem State.setStack_chans (s : State) (n : Nat) (x : Stack) : (s.setStack n x).chans = s.chans := rfl
@[simp] theorem State.setStack_dmaReq (s : State) (n : Nat) (x : Stack) : (s.setStack n x).dmaReq = s.dmaReq := rfl
@[simp] theorem State.setStack_cvus (s : State) (n : Nat) (x : Stack) : (s.setStack n x).cvus = s.cvus := rfl
@[simp] theorem State.setStack_arbs (s : State) (n : Nat) (x : Stack) : (s.setStack n x).arbs = s.arbs := rfl
@[simp] theorem State.setStack_mem (s : State) (n : Nat) (x : Stack) : (s.setStack n x).mem = s.mem := rfl
@[simp] theorem State.setStack_side (s : State) (n : Nat) (x : Stack) : (s.setStack n x).side = s.side := rfl
@[simp] theorem State.setStack_lastUnc (s : State) (n : Nat) (x : Stack) : (s.setStack n x).lastUnc = s.lastUnc := rfl
@[simp] theorem State.setStack_sec (s : State) (n : Nat) (x : Stack) : (s.setStack n x).sec = s.sec := rfl
@[simp] theorem State.setStack_lin (s : State) (n : Nat) (x : Stack) : (s.setStack n x).lin = s.lin := rfl
@[simp] theorem State.setStack_pmu (s : State) (n : Nat) (x : Stack) : (s.setStack n x).pmu = s.pmu := rfl
@[simp] theorem State.setStack_outbox (s : State) (n : Nat) (x : Stack) : (s.setStack n x).outbox = s.outbox := rfl
@[simp] theorem State.setStack_freeCtr (s : State) (n : Nat) (x : Stack) : (s.setStack n x).freeCtr = s.freeCtr := rfl
@[simp] theorem State.setStack_stack (s : State) (n : Nat) (x : Stack) (j : Nat) :
    (s.setStack n x).stack j = if j = n then x else s.stack j := tget_tset _ _ _ _

@[simp] theorem State.setFn_pending (s : State) (n : Nat) (x : Func) : (s.setFn n x).pending = s.pending := rfl
@[simp] theorem State.setFn_a144 (s : State) (n : Nat) (x : Func) : (s.setFn n x).a144 = s.a144 := rfl
@[simp] theorem State.setFn_serial (s : State) (n : Nat) (x : Func) : (s.setFn n x).serial = s.serial := rfl
@[simp] theorem State.setFn_now (s : State) (n : Nat) (x : Func) : (s.setFn n x).now = s.now := rfl
@[simp] theorem State.setFn_regs (s : State) (n : Nat) (x : Func) : (s.setFn n x).regs = s.regs := rfl
@[simp] theorem State.setFn_pat (s : State) (n : Nat) (x : Func) : (s.setFn n x).pat = s.pat := rfl
@[simp] theorem State.setFn_ldr (s : State) (n : Nat) (x : Func) : (s.setFn n x).ldr = s.ldr := rfl
@[simp] theorem State.setFn_pwr (s : State) (n : Nat) (x : Func) : (s.setFn n x).pwr = s.pwr := rfl
@[simp] theorem State.setFn_flt (s : State) (n : Nat) (x : Func) : (s.setFn n x).flt = s.flt := rfl
@[simp] theorem State.setFn_lnt (s : State) (n : Nat) (x : Func) : (s.setFn n x).lnt = s.lnt := rfl
@[simp] theorem State.setFn_sessions (s : State) (n : Nat) (x : Func) : (s.setFn n x).sessions = s.sessions := rfl
@[simp] theorem State.setFn_tiles (s : State) (n : Nat) (x : Func) : (s.setFn n x).tiles = s.tiles := rfl
@[simp] theorem State.setFn_admitted (s : State) (n : Nat) (x : Func) : (s.setFn n x).admitted = s.admitted := rfl
@[simp] theorem State.setFn_resetting (s : State) (n : Nat) (x : Func) : (s.setFn n x).resetting = s.resetting := rfl
@[simp] theorem State.setFn_pages (s : State) (n : Nat) (x : Func) : (s.setFn n x).pages = s.pages := rfl
@[simp] theorem State.setFn_lastDfree (s : State) (n : Nat) (x : Func) : (s.setFn n x).lastDfree = s.lastDfree := rfl
@[simp] theorem State.setFn_lowArmed (s : State) (n : Nat) (x : Func) : (s.setFn n x).lowArmed = s.lowArmed := rfl
@[simp] theorem State.setFn_subs (s : State) (n : Nat) (x : Func) : (s.setFn n x).subs = s.subs := rfl
@[simp] theorem State.setFn_svcs (s : State) (n : Nat) (x : Func) : (s.setFn n x).svcs = s.svcs := rfl
@[simp] theorem State.setFn_portBkt (s : State) (n : Nat) (x : Func) : (s.setFn n x).portBkt = s.portBkt := rfl
@[simp] theorem State.setFn_eths (s : State) (n : Nat) (x : Func) : (s.setFn n x).eths = s.eths := rfl
@[simp] theorem State.setFn_ingest (s : State) (n : Nat) (x : Func) : (s.setFn n x).ingest = s.ingest := rfl
@[simp] theorem State.setFn_chans (s : State) (n : Nat) (x : Func) : (s.setFn n x).chans = s.chans := rfl
@[simp] theorem State.setFn_dmaReq (s : State) (n : Nat) (x : Func) : (s.setFn n x).dmaReq = s.dmaReq := rfl
@[simp] theorem State.setFn_cvus (s : State) (n : Nat) (x : Func) : (s.setFn n x).cvus = s.cvus := rfl
@[simp] theorem State.setFn_arbs (s : State) (n : Nat) (x : Func) : (s.setFn n x).arbs = s.arbs := rfl
@[simp] theorem State.setFn_hbm (s : State) (n : Nat) (x : Func) : (s.setFn n x).hbm = s.hbm := rfl
@[simp] theorem State.setFn_mem (s : State) (n : Nat) (x : Func) : (s.setFn n x).mem = s.mem := rfl
@[simp] theorem State.setFn_side (s : State) (n : Nat) (x : Func) : (s.setFn n x).side = s.side := rfl
@[simp] theorem State.setFn_lastUnc (s : State) (n : Nat) (x : Func) : (s.setFn n x).lastUnc = s.lastUnc := rfl
@[simp] theorem State.setFn_sec (s : State) (n : Nat) (x : Func) : (s.setFn n x).sec = s.sec := rfl
@[simp] theorem State.setFn_lin (s : State) (n : Nat) (x : Func) : (s.setFn n x).lin = s.lin := rfl
@[simp] theorem State.setFn_pmu (s : State) (n : Nat) (x : Func) : (s.setFn n x).pmu = s.pmu := rfl
@[simp] theorem State.setFn_outbox (s : State) (n : Nat) (x : Func) : (s.setFn n x).outbox = s.outbox := rfl
@[simp] theorem State.setFn_freeCtr (s : State) (n : Nat) (x : Func) : (s.setFn n x).freeCtr = s.freeCtr := rfl
@[simp] theorem State.setFn_fn (s : State) (n : Nat) (x : Func) (j : Nat) :
    (s.setFn n x).fn j = if j = n then x else s.fn j := tget_tset _ _ _ _

@[simp] theorem State.setSub_pending (s : State) (n : Nat) (x : Sub) : (s.setSub n x).pending = s.pending := rfl
@[simp] theorem State.setSub_a144 (s : State) (n : Nat) (x : Sub) : (s.setSub n x).a144 = s.a144 := rfl
@[simp] theorem State.setSub_serial (s : State) (n : Nat) (x : Sub) : (s.setSub n x).serial = s.serial := rfl
@[simp] theorem State.setSub_now (s : State) (n : Nat) (x : Sub) : (s.setSub n x).now = s.now := rfl
@[simp] theorem State.setSub_regs (s : State) (n : Nat) (x : Sub) : (s.setSub n x).regs = s.regs := rfl
@[simp] theorem State.setSub_pat (s : State) (n : Nat) (x : Sub) : (s.setSub n x).pat = s.pat := rfl
@[simp] theorem State.setSub_ldr (s : State) (n : Nat) (x : Sub) : (s.setSub n x).ldr = s.ldr := rfl
@[simp] theorem State.setSub_pwr (s : State) (n : Nat) (x : Sub) : (s.setSub n x).pwr = s.pwr := rfl
@[simp] theorem State.setSub_flt (s : State) (n : Nat) (x : Sub) : (s.setSub n x).flt = s.flt := rfl
@[simp] theorem State.setSub_lnt (s : State) (n : Nat) (x : Sub) : (s.setSub n x).lnt = s.lnt := rfl
@[simp] theorem State.setSub_hif (s : State) (n : Nat) (x : Sub) : (s.setSub n x).hif = s.hif := rfl
@[simp] theorem State.setSub_sessions (s : State) (n : Nat) (x : Sub) : (s.setSub n x).sessions = s.sessions := rfl
@[simp] theorem State.setSub_tiles (s : State) (n : Nat) (x : Sub) : (s.setSub n x).tiles = s.tiles := rfl
@[simp] theorem State.setSub_admitted (s : State) (n : Nat) (x : Sub) : (s.setSub n x).admitted = s.admitted := rfl
@[simp] theorem State.setSub_resetting (s : State) (n : Nat) (x : Sub) : (s.setSub n x).resetting = s.resetting := rfl
@[simp] theorem State.setSub_pages (s : State) (n : Nat) (x : Sub) : (s.setSub n x).pages = s.pages := rfl
@[simp] theorem State.setSub_lastDfree (s : State) (n : Nat) (x : Sub) : (s.setSub n x).lastDfree = s.lastDfree := rfl
@[simp] theorem State.setSub_lowArmed (s : State) (n : Nat) (x : Sub) : (s.setSub n x).lowArmed = s.lowArmed := rfl
@[simp] theorem State.setSub_svcs (s : State) (n : Nat) (x : Sub) : (s.setSub n x).svcs = s.svcs := rfl
@[simp] theorem State.setSub_portBkt (s : State) (n : Nat) (x : Sub) : (s.setSub n x).portBkt = s.portBkt := rfl
@[simp] theorem State.setSub_eths (s : State) (n : Nat) (x : Sub) : (s.setSub n x).eths = s.eths := rfl
@[simp] theorem State.setSub_ingest (s : State) (n : Nat) (x : Sub) : (s.setSub n x).ingest = s.ingest := rfl
@[simp] theorem State.setSub_chans (s : State) (n : Nat) (x : Sub) : (s.setSub n x).chans = s.chans := rfl
@[simp] theorem State.setSub_dmaReq (s : State) (n : Nat) (x : Sub) : (s.setSub n x).dmaReq = s.dmaReq := rfl
@[simp] theorem State.setSub_cvus (s : State) (n : Nat) (x : Sub) : (s.setSub n x).cvus = s.cvus := rfl
@[simp] theorem State.setSub_arbs (s : State) (n : Nat) (x : Sub) : (s.setSub n x).arbs = s.arbs := rfl
@[simp] theorem State.setSub_hbm (s : State) (n : Nat) (x : Sub) : (s.setSub n x).hbm = s.hbm := rfl
@[simp] theorem State.setSub_mem (s : State) (n : Nat) (x : Sub) : (s.setSub n x).mem = s.mem := rfl
@[simp] theorem State.setSub_side (s : State) (n : Nat) (x : Sub) : (s.setSub n x).side = s.side := rfl
@[simp] theorem State.setSub_lastUnc (s : State) (n : Nat) (x : Sub) : (s.setSub n x).lastUnc = s.lastUnc := rfl
@[simp] theorem State.setSub_sec (s : State) (n : Nat) (x : Sub) : (s.setSub n x).sec = s.sec := rfl
@[simp] theorem State.setSub_lin (s : State) (n : Nat) (x : Sub) : (s.setSub n x).lin = s.lin := rfl
@[simp] theorem State.setSub_pmu (s : State) (n : Nat) (x : Sub) : (s.setSub n x).pmu = s.pmu := rfl
@[simp] theorem State.setSub_outbox (s : State) (n : Nat) (x : Sub) : (s.setSub n x).outbox = s.outbox := rfl
@[simp] theorem State.setSub_freeCtr (s : State) (n : Nat) (x : Sub) : (s.setSub n x).freeCtr = s.freeCtr := rfl
@[simp] theorem State.setSub_sub (s : State) (n : Nat) (x : Sub) (j : Nat) :
    (s.setSub n x).sub j = if j = n then x else s.sub j := tget_tset _ _ _ _

@[simp] theorem State.setSvc_pending (s : State) (n : Nat) (x : Svc) : (s.setSvc n x).pending = s.pending := rfl
@[simp] theorem State.setSvc_a144 (s : State) (n : Nat) (x : Svc) : (s.setSvc n x).a144 = s.a144 := rfl
@[simp] theorem State.setSvc_serial (s : State) (n : Nat) (x : Svc) : (s.setSvc n x).serial = s.serial := rfl
@[simp] theorem State.setSvc_now (s : State) (n : Nat) (x : Svc) : (s.setSvc n x).now = s.now := rfl
@[simp] theorem State.setSvc_regs (s : State) (n : Nat) (x : Svc) : (s.setSvc n x).regs = s.regs := rfl
@[simp] theorem State.setSvc_pat (s : State) (n : Nat) (x : Svc) : (s.setSvc n x).pat = s.pat := rfl
@[simp] theorem State.setSvc_ldr (s : State) (n : Nat) (x : Svc) : (s.setSvc n x).ldr = s.ldr := rfl
@[simp] theorem State.setSvc_pwr (s : State) (n : Nat) (x : Svc) : (s.setSvc n x).pwr = s.pwr := rfl
@[simp] theorem State.setSvc_flt (s : State) (n : Nat) (x : Svc) : (s.setSvc n x).flt = s.flt := rfl
@[simp] theorem State.setSvc_lnt (s : State) (n : Nat) (x : Svc) : (s.setSvc n x).lnt = s.lnt := rfl
@[simp] theorem State.setSvc_hif (s : State) (n : Nat) (x : Svc) : (s.setSvc n x).hif = s.hif := rfl
@[simp] theorem State.setSvc_sessions (s : State) (n : Nat) (x : Svc) : (s.setSvc n x).sessions = s.sessions := rfl
@[simp] theorem State.setSvc_tiles (s : State) (n : Nat) (x : Svc) : (s.setSvc n x).tiles = s.tiles := rfl
@[simp] theorem State.setSvc_admitted (s : State) (n : Nat) (x : Svc) : (s.setSvc n x).admitted = s.admitted := rfl
@[simp] theorem State.setSvc_resetting (s : State) (n : Nat) (x : Svc) : (s.setSvc n x).resetting = s.resetting := rfl
@[simp] theorem State.setSvc_pages (s : State) (n : Nat) (x : Svc) : (s.setSvc n x).pages = s.pages := rfl
@[simp] theorem State.setSvc_lastDfree (s : State) (n : Nat) (x : Svc) : (s.setSvc n x).lastDfree = s.lastDfree := rfl
@[simp] theorem State.setSvc_lowArmed (s : State) (n : Nat) (x : Svc) : (s.setSvc n x).lowArmed = s.lowArmed := rfl
@[simp] theorem State.setSvc_subs (s : State) (n : Nat) (x : Svc) : (s.setSvc n x).subs = s.subs := rfl
@[simp] theorem State.setSvc_portBkt (s : State) (n : Nat) (x : Svc) : (s.setSvc n x).portBkt = s.portBkt := rfl
@[simp] theorem State.setSvc_eths (s : State) (n : Nat) (x : Svc) : (s.setSvc n x).eths = s.eths := rfl
@[simp] theorem State.setSvc_ingest (s : State) (n : Nat) (x : Svc) : (s.setSvc n x).ingest = s.ingest := rfl
@[simp] theorem State.setSvc_chans (s : State) (n : Nat) (x : Svc) : (s.setSvc n x).chans = s.chans := rfl
@[simp] theorem State.setSvc_dmaReq (s : State) (n : Nat) (x : Svc) : (s.setSvc n x).dmaReq = s.dmaReq := rfl
@[simp] theorem State.setSvc_cvus (s : State) (n : Nat) (x : Svc) : (s.setSvc n x).cvus = s.cvus := rfl
@[simp] theorem State.setSvc_arbs (s : State) (n : Nat) (x : Svc) : (s.setSvc n x).arbs = s.arbs := rfl
@[simp] theorem State.setSvc_hbm (s : State) (n : Nat) (x : Svc) : (s.setSvc n x).hbm = s.hbm := rfl
@[simp] theorem State.setSvc_mem (s : State) (n : Nat) (x : Svc) : (s.setSvc n x).mem = s.mem := rfl
@[simp] theorem State.setSvc_side (s : State) (n : Nat) (x : Svc) : (s.setSvc n x).side = s.side := rfl
@[simp] theorem State.setSvc_lastUnc (s : State) (n : Nat) (x : Svc) : (s.setSvc n x).lastUnc = s.lastUnc := rfl
@[simp] theorem State.setSvc_sec (s : State) (n : Nat) (x : Svc) : (s.setSvc n x).sec = s.sec := rfl
@[simp] theorem State.setSvc_lin (s : State) (n : Nat) (x : Svc) : (s.setSvc n x).lin = s.lin := rfl
@[simp] theorem State.setSvc_pmu (s : State) (n : Nat) (x : Svc) : (s.setSvc n x).pmu = s.pmu := rfl
@[simp] theorem State.setSvc_outbox (s : State) (n : Nat) (x : Svc) : (s.setSvc n x).outbox = s.outbox := rfl
@[simp] theorem State.setSvc_freeCtr (s : State) (n : Nat) (x : Svc) : (s.setSvc n x).freeCtr = s.freeCtr := rfl
@[simp] theorem State.setSvc_svc (s : State) (n : Nat) (x : Svc) (j : Nat) :
    (s.setSvc n x).svc j = if j = n then x else s.svc j := tget_tset _ _ _ _

@[simp] theorem State.setEth_pending (s : State) (n : Nat) (x : Eth) : (s.setEth n x).pending = s.pending := rfl
@[simp] theorem State.setEth_a144 (s : State) (n : Nat) (x : Eth) : (s.setEth n x).a144 = s.a144 := rfl
@[simp] theorem State.setEth_serial (s : State) (n : Nat) (x : Eth) : (s.setEth n x).serial = s.serial := rfl
@[simp] theorem State.setEth_now (s : State) (n : Nat) (x : Eth) : (s.setEth n x).now = s.now := rfl
@[simp] theorem State.setEth_regs (s : State) (n : Nat) (x : Eth) : (s.setEth n x).regs = s.regs := rfl
@[simp] theorem State.setEth_pat (s : State) (n : Nat) (x : Eth) : (s.setEth n x).pat = s.pat := rfl
@[simp] theorem State.setEth_ldr (s : State) (n : Nat) (x : Eth) : (s.setEth n x).ldr = s.ldr := rfl
@[simp] theorem State.setEth_pwr (s : State) (n : Nat) (x : Eth) : (s.setEth n x).pwr = s.pwr := rfl
@[simp] theorem State.setEth_flt (s : State) (n : Nat) (x : Eth) : (s.setEth n x).flt = s.flt := rfl
@[simp] theorem State.setEth_lnt (s : State) (n : Nat) (x : Eth) : (s.setEth n x).lnt = s.lnt := rfl
@[simp] theorem State.setEth_hif (s : State) (n : Nat) (x : Eth) : (s.setEth n x).hif = s.hif := rfl
@[simp] theorem State.setEth_sessions (s : State) (n : Nat) (x : Eth) : (s.setEth n x).sessions = s.sessions := rfl
@[simp] theorem State.setEth_tiles (s : State) (n : Nat) (x : Eth) : (s.setEth n x).tiles = s.tiles := rfl
@[simp] theorem State.setEth_admitted (s : State) (n : Nat) (x : Eth) : (s.setEth n x).admitted = s.admitted := rfl
@[simp] theorem State.setEth_resetting (s : State) (n : Nat) (x : Eth) : (s.setEth n x).resetting = s.resetting := rfl
@[simp] theorem State.setEth_pages (s : State) (n : Nat) (x : Eth) : (s.setEth n x).pages = s.pages := rfl
@[simp] theorem State.setEth_lastDfree (s : State) (n : Nat) (x : Eth) : (s.setEth n x).lastDfree = s.lastDfree := rfl
@[simp] theorem State.setEth_lowArmed (s : State) (n : Nat) (x : Eth) : (s.setEth n x).lowArmed = s.lowArmed := rfl
@[simp] theorem State.setEth_subs (s : State) (n : Nat) (x : Eth) : (s.setEth n x).subs = s.subs := rfl
@[simp] theorem State.setEth_svcs (s : State) (n : Nat) (x : Eth) : (s.setEth n x).svcs = s.svcs := rfl
@[simp] theorem State.setEth_portBkt (s : State) (n : Nat) (x : Eth) : (s.setEth n x).portBkt = s.portBkt := rfl
@[simp] theorem State.setEth_ingest (s : State) (n : Nat) (x : Eth) : (s.setEth n x).ingest = s.ingest := rfl
@[simp] theorem State.setEth_chans (s : State) (n : Nat) (x : Eth) : (s.setEth n x).chans = s.chans := rfl
@[simp] theorem State.setEth_dmaReq (s : State) (n : Nat) (x : Eth) : (s.setEth n x).dmaReq = s.dmaReq := rfl
@[simp] theorem State.setEth_cvus (s : State) (n : Nat) (x : Eth) : (s.setEth n x).cvus = s.cvus := rfl
@[simp] theorem State.setEth_arbs (s : State) (n : Nat) (x : Eth) : (s.setEth n x).arbs = s.arbs := rfl
@[simp] theorem State.setEth_hbm (s : State) (n : Nat) (x : Eth) : (s.setEth n x).hbm = s.hbm := rfl
@[simp] theorem State.setEth_mem (s : State) (n : Nat) (x : Eth) : (s.setEth n x).mem = s.mem := rfl
@[simp] theorem State.setEth_side (s : State) (n : Nat) (x : Eth) : (s.setEth n x).side = s.side := rfl
@[simp] theorem State.setEth_lastUnc (s : State) (n : Nat) (x : Eth) : (s.setEth n x).lastUnc = s.lastUnc := rfl
@[simp] theorem State.setEth_sec (s : State) (n : Nat) (x : Eth) : (s.setEth n x).sec = s.sec := rfl
@[simp] theorem State.setEth_lin (s : State) (n : Nat) (x : Eth) : (s.setEth n x).lin = s.lin := rfl
@[simp] theorem State.setEth_pmu (s : State) (n : Nat) (x : Eth) : (s.setEth n x).pmu = s.pmu := rfl
@[simp] theorem State.setEth_outbox (s : State) (n : Nat) (x : Eth) : (s.setEth n x).outbox = s.outbox := rfl
@[simp] theorem State.setEth_freeCtr (s : State) (n : Nat) (x : Eth) : (s.setEth n x).freeCtr = s.freeCtr := rfl
@[simp] theorem State.setEth_eth (s : State) (n : Nat) (x : Eth) (j : Nat) :
    (s.setEth n x).eth j = if j = n then x else s.eth j := tget_tset _ _ _ _

@[simp] theorem State.setChan_pending (s : State) (n : Nat) (x : Chan) : (s.setChan n x).pending = s.pending := rfl
@[simp] theorem State.setChan_a144 (s : State) (n : Nat) (x : Chan) : (s.setChan n x).a144 = s.a144 := rfl
@[simp] theorem State.setChan_serial (s : State) (n : Nat) (x : Chan) : (s.setChan n x).serial = s.serial := rfl
@[simp] theorem State.setChan_now (s : State) (n : Nat) (x : Chan) : (s.setChan n x).now = s.now := rfl
@[simp] theorem State.setChan_regs (s : State) (n : Nat) (x : Chan) : (s.setChan n x).regs = s.regs := rfl
@[simp] theorem State.setChan_pat (s : State) (n : Nat) (x : Chan) : (s.setChan n x).pat = s.pat := rfl
@[simp] theorem State.setChan_ldr (s : State) (n : Nat) (x : Chan) : (s.setChan n x).ldr = s.ldr := rfl
@[simp] theorem State.setChan_pwr (s : State) (n : Nat) (x : Chan) : (s.setChan n x).pwr = s.pwr := rfl
@[simp] theorem State.setChan_flt (s : State) (n : Nat) (x : Chan) : (s.setChan n x).flt = s.flt := rfl
@[simp] theorem State.setChan_lnt (s : State) (n : Nat) (x : Chan) : (s.setChan n x).lnt = s.lnt := rfl
@[simp] theorem State.setChan_hif (s : State) (n : Nat) (x : Chan) : (s.setChan n x).hif = s.hif := rfl
@[simp] theorem State.setChan_sessions (s : State) (n : Nat) (x : Chan) : (s.setChan n x).sessions = s.sessions := rfl
@[simp] theorem State.setChan_tiles (s : State) (n : Nat) (x : Chan) : (s.setChan n x).tiles = s.tiles := rfl
@[simp] theorem State.setChan_admitted (s : State) (n : Nat) (x : Chan) : (s.setChan n x).admitted = s.admitted := rfl
@[simp] theorem State.setChan_resetting (s : State) (n : Nat) (x : Chan) : (s.setChan n x).resetting = s.resetting := rfl
@[simp] theorem State.setChan_pages (s : State) (n : Nat) (x : Chan) : (s.setChan n x).pages = s.pages := rfl
@[simp] theorem State.setChan_lastDfree (s : State) (n : Nat) (x : Chan) : (s.setChan n x).lastDfree = s.lastDfree := rfl
@[simp] theorem State.setChan_lowArmed (s : State) (n : Nat) (x : Chan) : (s.setChan n x).lowArmed = s.lowArmed := rfl
@[simp] theorem State.setChan_subs (s : State) (n : Nat) (x : Chan) : (s.setChan n x).subs = s.subs := rfl
@[simp] theorem State.setChan_svcs (s : State) (n : Nat) (x : Chan) : (s.setChan n x).svcs = s.svcs := rfl
@[simp] theorem State.setChan_portBkt (s : State) (n : Nat) (x : Chan) : (s.setChan n x).portBkt = s.portBkt := rfl
@[simp] theorem State.setChan_eths (s : State) (n : Nat) (x : Chan) : (s.setChan n x).eths = s.eths := rfl
@[simp] theorem State.setChan_ingest (s : State) (n : Nat) (x : Chan) : (s.setChan n x).ingest = s.ingest := rfl
@[simp] theorem State.setChan_dmaReq (s : State) (n : Nat) (x : Chan) : (s.setChan n x).dmaReq = s.dmaReq := rfl
@[simp] theorem State.setChan_cvus (s : State) (n : Nat) (x : Chan) : (s.setChan n x).cvus = s.cvus := rfl
@[simp] theorem State.setChan_arbs (s : State) (n : Nat) (x : Chan) : (s.setChan n x).arbs = s.arbs := rfl
@[simp] theorem State.setChan_hbm (s : State) (n : Nat) (x : Chan) : (s.setChan n x).hbm = s.hbm := rfl
@[simp] theorem State.setChan_mem (s : State) (n : Nat) (x : Chan) : (s.setChan n x).mem = s.mem := rfl
@[simp] theorem State.setChan_side (s : State) (n : Nat) (x : Chan) : (s.setChan n x).side = s.side := rfl
@[simp] theorem State.setChan_lastUnc (s : State) (n : Nat) (x : Chan) : (s.setChan n x).lastUnc = s.lastUnc := rfl
@[simp] theorem State.setChan_sec (s : State) (n : Nat) (x : Chan) : (s.setChan n x).sec = s.sec := rfl
@[simp] theorem State.setChan_lin (s : State) (n : Nat) (x : Chan) : (s.setChan n x).lin = s.lin := rfl
@[simp] theorem State.setChan_pmu (s : State) (n : Nat) (x : Chan) : (s.setChan n x).pmu = s.pmu := rfl
@[simp] theorem State.setChan_outbox (s : State) (n : Nat) (x : Chan) : (s.setChan n x).outbox = s.outbox := rfl
@[simp] theorem State.setChan_freeCtr (s : State) (n : Nat) (x : Chan) : (s.setChan n x).freeCtr = s.freeCtr := rfl
@[simp] theorem State.setChan_chan (s : State) (n : Nat) (x : Chan) (j : Nat) :
    (s.setChan n x).chan j = if j = n then x else s.chan j := tget_tset _ _ _ _

@[simp] theorem State.setPage_pending (s : State) (n : Nat) (x : HPage) : (s.setPage n x).pending = s.pending := rfl
@[simp] theorem State.setPage_a144 (s : State) (n : Nat) (x : HPage) : (s.setPage n x).a144 = s.a144 := rfl
@[simp] theorem State.setPage_serial (s : State) (n : Nat) (x : HPage) : (s.setPage n x).serial = s.serial := rfl
@[simp] theorem State.setPage_now (s : State) (n : Nat) (x : HPage) : (s.setPage n x).now = s.now := rfl
@[simp] theorem State.setPage_regs (s : State) (n : Nat) (x : HPage) : (s.setPage n x).regs = s.regs := rfl
@[simp] theorem State.setPage_pat (s : State) (n : Nat) (x : HPage) : (s.setPage n x).pat = s.pat := rfl
@[simp] theorem State.setPage_ldr (s : State) (n : Nat) (x : HPage) : (s.setPage n x).ldr = s.ldr := rfl
@[simp] theorem State.setPage_pwr (s : State) (n : Nat) (x : HPage) : (s.setPage n x).pwr = s.pwr := rfl
@[simp] theorem State.setPage_flt (s : State) (n : Nat) (x : HPage) : (s.setPage n x).flt = s.flt := rfl
@[simp] theorem State.setPage_lnt (s : State) (n : Nat) (x : HPage) : (s.setPage n x).lnt = s.lnt := rfl
@[simp] theorem State.setPage_hif (s : State) (n : Nat) (x : HPage) : (s.setPage n x).hif = s.hif := rfl
@[simp] theorem State.setPage_sessions (s : State) (n : Nat) (x : HPage) : (s.setPage n x).sessions = s.sessions := rfl
@[simp] theorem State.setPage_tiles (s : State) (n : Nat) (x : HPage) : (s.setPage n x).tiles = s.tiles := rfl
@[simp] theorem State.setPage_admitted (s : State) (n : Nat) (x : HPage) : (s.setPage n x).admitted = s.admitted := rfl
@[simp] theorem State.setPage_resetting (s : State) (n : Nat) (x : HPage) : (s.setPage n x).resetting = s.resetting := rfl
@[simp] theorem State.setPage_lastDfree (s : State) (n : Nat) (x : HPage) : (s.setPage n x).lastDfree = s.lastDfree := rfl
@[simp] theorem State.setPage_lowArmed (s : State) (n : Nat) (x : HPage) : (s.setPage n x).lowArmed = s.lowArmed := rfl
@[simp] theorem State.setPage_subs (s : State) (n : Nat) (x : HPage) : (s.setPage n x).subs = s.subs := rfl
@[simp] theorem State.setPage_svcs (s : State) (n : Nat) (x : HPage) : (s.setPage n x).svcs = s.svcs := rfl
@[simp] theorem State.setPage_portBkt (s : State) (n : Nat) (x : HPage) : (s.setPage n x).portBkt = s.portBkt := rfl
@[simp] theorem State.setPage_eths (s : State) (n : Nat) (x : HPage) : (s.setPage n x).eths = s.eths := rfl
@[simp] theorem State.setPage_ingest (s : State) (n : Nat) (x : HPage) : (s.setPage n x).ingest = s.ingest := rfl
@[simp] theorem State.setPage_chans (s : State) (n : Nat) (x : HPage) : (s.setPage n x).chans = s.chans := rfl
@[simp] theorem State.setPage_dmaReq (s : State) (n : Nat) (x : HPage) : (s.setPage n x).dmaReq = s.dmaReq := rfl
@[simp] theorem State.setPage_cvus (s : State) (n : Nat) (x : HPage) : (s.setPage n x).cvus = s.cvus := rfl
@[simp] theorem State.setPage_arbs (s : State) (n : Nat) (x : HPage) : (s.setPage n x).arbs = s.arbs := rfl
@[simp] theorem State.setPage_hbm (s : State) (n : Nat) (x : HPage) : (s.setPage n x).hbm = s.hbm := rfl
@[simp] theorem State.setPage_mem (s : State) (n : Nat) (x : HPage) : (s.setPage n x).mem = s.mem := rfl
@[simp] theorem State.setPage_side (s : State) (n : Nat) (x : HPage) : (s.setPage n x).side = s.side := rfl
@[simp] theorem State.setPage_lastUnc (s : State) (n : Nat) (x : HPage) : (s.setPage n x).lastUnc = s.lastUnc := rfl
@[simp] theorem State.setPage_sec (s : State) (n : Nat) (x : HPage) : (s.setPage n x).sec = s.sec := rfl
@[simp] theorem State.setPage_lin (s : State) (n : Nat) (x : HPage) : (s.setPage n x).lin = s.lin := rfl
@[simp] theorem State.setPage_pmu (s : State) (n : Nat) (x : HPage) : (s.setPage n x).pmu = s.pmu := rfl
@[simp] theorem State.setPage_outbox (s : State) (n : Nat) (x : HPage) : (s.setPage n x).outbox = s.outbox := rfl
@[simp] theorem State.setPage_freeCtr (s : State) (n : Nat) (x : HPage) : (s.setPage n x).freeCtr = s.freeCtr := rfl
@[simp] theorem State.setPage_page (s : State) (n : Nat) (x : HPage) (j : Nat) :
    (s.setPage n x).page j = if j = n then x else s.page j := tget_tset _ _ _ _

@[simp] theorem State.setCvu_pending (s : State) (n : Nat) (x : Cvu) : (s.setCvu n x).pending = s.pending := rfl
@[simp] theorem State.setCvu_a144 (s : State) (n : Nat) (x : Cvu) : (s.setCvu n x).a144 = s.a144 := rfl
@[simp] theorem State.setCvu_serial (s : State) (n : Nat) (x : Cvu) : (s.setCvu n x).serial = s.serial := rfl
@[simp] theorem State.setCvu_now (s : State) (n : Nat) (x : Cvu) : (s.setCvu n x).now = s.now := rfl
@[simp] theorem State.setCvu_regs (s : State) (n : Nat) (x : Cvu) : (s.setCvu n x).regs = s.regs := rfl
@[simp] theorem State.setCvu_pat (s : State) (n : Nat) (x : Cvu) : (s.setCvu n x).pat = s.pat := rfl
@[simp] theorem State.setCvu_ldr (s : State) (n : Nat) (x : Cvu) : (s.setCvu n x).ldr = s.ldr := rfl
@[simp] theorem State.setCvu_pwr (s : State) (n : Nat) (x : Cvu) : (s.setCvu n x).pwr = s.pwr := rfl
@[simp] theorem State.setCvu_flt (s : State) (n : Nat) (x : Cvu) : (s.setCvu n x).flt = s.flt := rfl
@[simp] theorem State.setCvu_lnt (s : State) (n : Nat) (x : Cvu) : (s.setCvu n x).lnt = s.lnt := rfl
@[simp] theorem State.setCvu_hif (s : State) (n : Nat) (x : Cvu) : (s.setCvu n x).hif = s.hif := rfl
@[simp] theorem State.setCvu_sessions (s : State) (n : Nat) (x : Cvu) : (s.setCvu n x).sessions = s.sessions := rfl
@[simp] theorem State.setCvu_tiles (s : State) (n : Nat) (x : Cvu) : (s.setCvu n x).tiles = s.tiles := rfl
@[simp] theorem State.setCvu_admitted (s : State) (n : Nat) (x : Cvu) : (s.setCvu n x).admitted = s.admitted := rfl
@[simp] theorem State.setCvu_resetting (s : State) (n : Nat) (x : Cvu) : (s.setCvu n x).resetting = s.resetting := rfl
@[simp] theorem State.setCvu_pages (s : State) (n : Nat) (x : Cvu) : (s.setCvu n x).pages = s.pages := rfl
@[simp] theorem State.setCvu_lastDfree (s : State) (n : Nat) (x : Cvu) : (s.setCvu n x).lastDfree = s.lastDfree := rfl
@[simp] theorem State.setCvu_lowArmed (s : State) (n : Nat) (x : Cvu) : (s.setCvu n x).lowArmed = s.lowArmed := rfl
@[simp] theorem State.setCvu_subs (s : State) (n : Nat) (x : Cvu) : (s.setCvu n x).subs = s.subs := rfl
@[simp] theorem State.setCvu_svcs (s : State) (n : Nat) (x : Cvu) : (s.setCvu n x).svcs = s.svcs := rfl
@[simp] theorem State.setCvu_portBkt (s : State) (n : Nat) (x : Cvu) : (s.setCvu n x).portBkt = s.portBkt := rfl
@[simp] theorem State.setCvu_eths (s : State) (n : Nat) (x : Cvu) : (s.setCvu n x).eths = s.eths := rfl
@[simp] theorem State.setCvu_ingest (s : State) (n : Nat) (x : Cvu) : (s.setCvu n x).ingest = s.ingest := rfl
@[simp] theorem State.setCvu_chans (s : State) (n : Nat) (x : Cvu) : (s.setCvu n x).chans = s.chans := rfl
@[simp] theorem State.setCvu_dmaReq (s : State) (n : Nat) (x : Cvu) : (s.setCvu n x).dmaReq = s.dmaReq := rfl
@[simp] theorem State.setCvu_arbs (s : State) (n : Nat) (x : Cvu) : (s.setCvu n x).arbs = s.arbs := rfl
@[simp] theorem State.setCvu_hbm (s : State) (n : Nat) (x : Cvu) : (s.setCvu n x).hbm = s.hbm := rfl
@[simp] theorem State.setCvu_mem (s : State) (n : Nat) (x : Cvu) : (s.setCvu n x).mem = s.mem := rfl
@[simp] theorem State.setCvu_side (s : State) (n : Nat) (x : Cvu) : (s.setCvu n x).side = s.side := rfl
@[simp] theorem State.setCvu_lastUnc (s : State) (n : Nat) (x : Cvu) : (s.setCvu n x).lastUnc = s.lastUnc := rfl
@[simp] theorem State.setCvu_sec (s : State) (n : Nat) (x : Cvu) : (s.setCvu n x).sec = s.sec := rfl
@[simp] theorem State.setCvu_lin (s : State) (n : Nat) (x : Cvu) : (s.setCvu n x).lin = s.lin := rfl
@[simp] theorem State.setCvu_pmu (s : State) (n : Nat) (x : Cvu) : (s.setCvu n x).pmu = s.pmu := rfl
@[simp] theorem State.setCvu_outbox (s : State) (n : Nat) (x : Cvu) : (s.setCvu n x).outbox = s.outbox := rfl
@[simp] theorem State.setCvu_freeCtr (s : State) (n : Nat) (x : Cvu) : (s.setCvu n x).freeCtr = s.freeCtr := rfl
@[simp] theorem State.setCvu_cvu (s : State) (n : Nat) (x : Cvu) (j : Nat) :
    (s.setCvu n x).cvu j = if j = n then x else s.cvu j := tget_tset _ _ _ _

@[simp] theorem State.setFlow_pending (s : State) (n : Nat) (x : Ingest) : (s.setFlow n x).pending = s.pending := rfl
@[simp] theorem State.setFlow_a144 (s : State) (n : Nat) (x : Ingest) : (s.setFlow n x).a144 = s.a144 := rfl
@[simp] theorem State.setFlow_serial (s : State) (n : Nat) (x : Ingest) : (s.setFlow n x).serial = s.serial := rfl
@[simp] theorem State.setFlow_now (s : State) (n : Nat) (x : Ingest) : (s.setFlow n x).now = s.now := rfl
@[simp] theorem State.setFlow_regs (s : State) (n : Nat) (x : Ingest) : (s.setFlow n x).regs = s.regs := rfl
@[simp] theorem State.setFlow_pat (s : State) (n : Nat) (x : Ingest) : (s.setFlow n x).pat = s.pat := rfl
@[simp] theorem State.setFlow_ldr (s : State) (n : Nat) (x : Ingest) : (s.setFlow n x).ldr = s.ldr := rfl
@[simp] theorem State.setFlow_pwr (s : State) (n : Nat) (x : Ingest) : (s.setFlow n x).pwr = s.pwr := rfl
@[simp] theorem State.setFlow_flt (s : State) (n : Nat) (x : Ingest) : (s.setFlow n x).flt = s.flt := rfl
@[simp] theorem State.setFlow_lnt (s : State) (n : Nat) (x : Ingest) : (s.setFlow n x).lnt = s.lnt := rfl
@[simp] theorem State.setFlow_hif (s : State) (n : Nat) (x : Ingest) : (s.setFlow n x).hif = s.hif := rfl
@[simp] theorem State.setFlow_sessions (s : State) (n : Nat) (x : Ingest) : (s.setFlow n x).sessions = s.sessions := rfl
@[simp] theorem State.setFlow_tiles (s : State) (n : Nat) (x : Ingest) : (s.setFlow n x).tiles = s.tiles := rfl
@[simp] theorem State.setFlow_admitted (s : State) (n : Nat) (x : Ingest) : (s.setFlow n x).admitted = s.admitted := rfl
@[simp] theorem State.setFlow_resetting (s : State) (n : Nat) (x : Ingest) : (s.setFlow n x).resetting = s.resetting := rfl
@[simp] theorem State.setFlow_pages (s : State) (n : Nat) (x : Ingest) : (s.setFlow n x).pages = s.pages := rfl
@[simp] theorem State.setFlow_lastDfree (s : State) (n : Nat) (x : Ingest) : (s.setFlow n x).lastDfree = s.lastDfree := rfl
@[simp] theorem State.setFlow_lowArmed (s : State) (n : Nat) (x : Ingest) : (s.setFlow n x).lowArmed = s.lowArmed := rfl
@[simp] theorem State.setFlow_subs (s : State) (n : Nat) (x : Ingest) : (s.setFlow n x).subs = s.subs := rfl
@[simp] theorem State.setFlow_svcs (s : State) (n : Nat) (x : Ingest) : (s.setFlow n x).svcs = s.svcs := rfl
@[simp] theorem State.setFlow_portBkt (s : State) (n : Nat) (x : Ingest) : (s.setFlow n x).portBkt = s.portBkt := rfl
@[simp] theorem State.setFlow_eths (s : State) (n : Nat) (x : Ingest) : (s.setFlow n x).eths = s.eths := rfl
@[simp] theorem State.setFlow_chans (s : State) (n : Nat) (x : Ingest) : (s.setFlow n x).chans = s.chans := rfl
@[simp] theorem State.setFlow_dmaReq (s : State) (n : Nat) (x : Ingest) : (s.setFlow n x).dmaReq = s.dmaReq := rfl
@[simp] theorem State.setFlow_cvus (s : State) (n : Nat) (x : Ingest) : (s.setFlow n x).cvus = s.cvus := rfl
@[simp] theorem State.setFlow_arbs (s : State) (n : Nat) (x : Ingest) : (s.setFlow n x).arbs = s.arbs := rfl
@[simp] theorem State.setFlow_hbm (s : State) (n : Nat) (x : Ingest) : (s.setFlow n x).hbm = s.hbm := rfl
@[simp] theorem State.setFlow_mem (s : State) (n : Nat) (x : Ingest) : (s.setFlow n x).mem = s.mem := rfl
@[simp] theorem State.setFlow_side (s : State) (n : Nat) (x : Ingest) : (s.setFlow n x).side = s.side := rfl
@[simp] theorem State.setFlow_lastUnc (s : State) (n : Nat) (x : Ingest) : (s.setFlow n x).lastUnc = s.lastUnc := rfl
@[simp] theorem State.setFlow_sec (s : State) (n : Nat) (x : Ingest) : (s.setFlow n x).sec = s.sec := rfl
@[simp] theorem State.setFlow_lin (s : State) (n : Nat) (x : Ingest) : (s.setFlow n x).lin = s.lin := rfl
@[simp] theorem State.setFlow_pmu (s : State) (n : Nat) (x : Ingest) : (s.setFlow n x).pmu = s.pmu := rfl
@[simp] theorem State.setFlow_outbox (s : State) (n : Nat) (x : Ingest) : (s.setFlow n x).outbox = s.outbox := rfl
@[simp] theorem State.setFlow_freeCtr (s : State) (n : Nat) (x : Ingest) : (s.setFlow n x).freeCtr = s.freeCtr := rfl
@[simp] theorem State.setFlow_flow (s : State) (n : Nat) (x : Ingest) (j : Nat) :
    (s.setFlow n x).flow j = if j = n then x else s.flow j := tget_tset _ _ _ _

@[simp] theorem State.modLin_pending (s : State) (f : Line → Line) : (s.modLin f).pending = s.pending := rfl
@[simp] theorem State.modLin_a144 (s : State) (f : Line → Line) : (s.modLin f).a144 = s.a144 := rfl
@[simp] theorem State.modLin_serial (s : State) (f : Line → Line) : (s.modLin f).serial = s.serial := rfl
@[simp] theorem State.modLin_now (s : State) (f : Line → Line) : (s.modLin f).now = s.now := rfl
@[simp] theorem State.modLin_regs (s : State) (f : Line → Line) : (s.modLin f).regs = s.regs := rfl
@[simp] theorem State.modLin_pat (s : State) (f : Line → Line) : (s.modLin f).pat = s.pat := rfl
@[simp] theorem State.modLin_ldr (s : State) (f : Line → Line) : (s.modLin f).ldr = s.ldr := rfl
@[simp] theorem State.modLin_pwr (s : State) (f : Line → Line) : (s.modLin f).pwr = s.pwr := rfl
@[simp] theorem State.modLin_flt (s : State) (f : Line → Line) : (s.modLin f).flt = s.flt := rfl
@[simp] theorem State.modLin_lnt (s : State) (f : Line → Line) : (s.modLin f).lnt = s.lnt := rfl
@[simp] theorem State.modLin_hif (s : State) (f : Line → Line) : (s.modLin f).hif = s.hif := rfl
@[simp] theorem State.modLin_sessions (s : State) (f : Line → Line) : (s.modLin f).sessions = s.sessions := rfl
@[simp] theorem State.modLin_tiles (s : State) (f : Line → Line) : (s.modLin f).tiles = s.tiles := rfl
@[simp] theorem State.modLin_admitted (s : State) (f : Line → Line) : (s.modLin f).admitted = s.admitted := rfl
@[simp] theorem State.modLin_resetting (s : State) (f : Line → Line) : (s.modLin f).resetting = s.resetting := rfl
@[simp] theorem State.modLin_pages (s : State) (f : Line → Line) : (s.modLin f).pages = s.pages := rfl
@[simp] theorem State.modLin_lastDfree (s : State) (f : Line → Line) : (s.modLin f).lastDfree = s.lastDfree := rfl
@[simp] theorem State.modLin_lowArmed (s : State) (f : Line → Line) : (s.modLin f).lowArmed = s.lowArmed := rfl
@[simp] theorem State.modLin_subs (s : State) (f : Line → Line) : (s.modLin f).subs = s.subs := rfl
@[simp] theorem State.modLin_svcs (s : State) (f : Line → Line) : (s.modLin f).svcs = s.svcs := rfl
@[simp] theorem State.modLin_portBkt (s : State) (f : Line → Line) : (s.modLin f).portBkt = s.portBkt := rfl
@[simp] theorem State.modLin_eths (s : State) (f : Line → Line) : (s.modLin f).eths = s.eths := rfl
@[simp] theorem State.modLin_ingest (s : State) (f : Line → Line) : (s.modLin f).ingest = s.ingest := rfl
@[simp] theorem State.modLin_chans (s : State) (f : Line → Line) : (s.modLin f).chans = s.chans := rfl
@[simp] theorem State.modLin_dmaReq (s : State) (f : Line → Line) : (s.modLin f).dmaReq = s.dmaReq := rfl
@[simp] theorem State.modLin_cvus (s : State) (f : Line → Line) : (s.modLin f).cvus = s.cvus := rfl
@[simp] theorem State.modLin_arbs (s : State) (f : Line → Line) : (s.modLin f).arbs = s.arbs := rfl
@[simp] theorem State.modLin_hbm (s : State) (f : Line → Line) : (s.modLin f).hbm = s.hbm := rfl
@[simp] theorem State.modLin_mem (s : State) (f : Line → Line) : (s.modLin f).mem = s.mem := rfl
@[simp] theorem State.modLin_side (s : State) (f : Line → Line) : (s.modLin f).side = s.side := rfl
@[simp] theorem State.modLin_lastUnc (s : State) (f : Line → Line) : (s.modLin f).lastUnc = s.lastUnc := rfl
@[simp] theorem State.modLin_sec (s : State) (f : Line → Line) : (s.modLin f).sec = s.sec := rfl
@[simp] theorem State.modLin_pmu (s : State) (f : Line → Line) : (s.modLin f).pmu = s.pmu := rfl
@[simp] theorem State.modLin_outbox (s : State) (f : Line → Line) : (s.modLin f).outbox = s.outbox := rfl
@[simp] theorem State.modLin_freeCtr (s : State) (f : Line → Line) : (s.modLin f).freeCtr = s.freeCtr := rfl

@[simp] theorem State.setLport_pending (s : State) (p : Nat) (x : LinePortSt) : (s.setLport p x).pending = s.pending := rfl
@[simp] theorem State.setLport_a144 (s : State) (p : Nat) (x : LinePortSt) : (s.setLport p x).a144 = s.a144 := rfl
@[simp] theorem State.setLport_serial (s : State) (p : Nat) (x : LinePortSt) : (s.setLport p x).serial = s.serial := rfl
@[simp] theorem State.setLport_now (s : State) (p : Nat) (x : LinePortSt) : (s.setLport p x).now = s.now := rfl
@[simp] theorem State.setLport_regs (s : State) (p : Nat) (x : LinePortSt) : (s.setLport p x).regs = s.regs := rfl
@[simp] theorem State.setLport_pat (s : State) (p : Nat) (x : LinePortSt) : (s.setLport p x).pat = s.pat := rfl
@[simp] theorem State.setLport_ldr (s : State) (p : Nat) (x : LinePortSt) : (s.setLport p x).ldr = s.ldr := rfl
@[simp] theorem State.setLport_pwr (s : State) (p : Nat) (x : LinePortSt) : (s.setLport p x).pwr = s.pwr := rfl
@[simp] theorem State.setLport_flt (s : State) (p : Nat) (x : LinePortSt) : (s.setLport p x).flt = s.flt := rfl
@[simp] theorem State.setLport_lnt (s : State) (p : Nat) (x : LinePortSt) : (s.setLport p x).lnt = s.lnt := rfl
@[simp] theorem State.setLport_hif (s : State) (p : Nat) (x : LinePortSt) : (s.setLport p x).hif = s.hif := rfl
@[simp] theorem State.setLport_sessions (s : State) (p : Nat) (x : LinePortSt) : (s.setLport p x).sessions = s.sessions := rfl
@[simp] theorem State.setLport_tiles (s : State) (p : Nat) (x : LinePortSt) : (s.setLport p x).tiles = s.tiles := rfl
@[simp] theorem State.setLport_admitted (s : State) (p : Nat) (x : LinePortSt) : (s.setLport p x).admitted = s.admitted := rfl
@[simp] theorem State.setLport_resetting (s : State) (p : Nat) (x : LinePortSt) : (s.setLport p x).resetting = s.resetting := rfl
@[simp] theorem State.setLport_pages (s : State) (p : Nat) (x : LinePortSt) : (s.setLport p x).pages = s.pages := rfl
@[simp] theorem State.setLport_lastDfree (s : State) (p : Nat) (x : LinePortSt) : (s.setLport p x).lastDfree = s.lastDfree := rfl
@[simp] theorem State.setLport_lowArmed (s : State) (p : Nat) (x : LinePortSt) : (s.setLport p x).lowArmed = s.lowArmed := rfl
@[simp] theorem State.setLport_subs (s : State) (p : Nat) (x : LinePortSt) : (s.setLport p x).subs = s.subs := rfl
@[simp] theorem State.setLport_svcs (s : State) (p : Nat) (x : LinePortSt) : (s.setLport p x).svcs = s.svcs := rfl
@[simp] theorem State.setLport_portBkt (s : State) (p : Nat) (x : LinePortSt) : (s.setLport p x).portBkt = s.portBkt := rfl
@[simp] theorem State.setLport_eths (s : State) (p : Nat) (x : LinePortSt) : (s.setLport p x).eths = s.eths := rfl
@[simp] theorem State.setLport_ingest (s : State) (p : Nat) (x : LinePortSt) : (s.setLport p x).ingest = s.ingest := rfl
@[simp] theorem State.setLport_chans (s : State) (p : Nat) (x : LinePortSt) : (s.setLport p x).chans = s.chans := rfl
@[simp] theorem State.setLport_dmaReq (s : State) (p : Nat) (x : LinePortSt) : (s.setLport p x).dmaReq = s.dmaReq := rfl
@[simp] theorem State.setLport_cvus (s : State) (p : Nat) (x : LinePortSt) : (s.setLport p x).cvus = s.cvus := rfl
@[simp] theorem State.setLport_arbs (s : State) (p : Nat) (x : LinePortSt) : (s.setLport p x).arbs = s.arbs := rfl
@[simp] theorem State.setLport_hbm (s : State) (p : Nat) (x : LinePortSt) : (s.setLport p x).hbm = s.hbm := rfl
@[simp] theorem State.setLport_mem (s : State) (p : Nat) (x : LinePortSt) : (s.setLport p x).mem = s.mem := rfl
@[simp] theorem State.setLport_side (s : State) (p : Nat) (x : LinePortSt) : (s.setLport p x).side = s.side := rfl
@[simp] theorem State.setLport_lastUnc (s : State) (p : Nat) (x : LinePortSt) : (s.setLport p x).lastUnc = s.lastUnc := rfl
@[simp] theorem State.setLport_sec (s : State) (p : Nat) (x : LinePortSt) : (s.setLport p x).sec = s.sec := rfl
@[simp] theorem State.setLport_pmu (s : State) (p : Nat) (x : LinePortSt) : (s.setLport p x).pmu = s.pmu := rfl
@[simp] theorem State.setLport_outbox (s : State) (p : Nat) (x : LinePortSt) : (s.setLport p x).outbox = s.outbox := rfl
@[simp] theorem State.setLport_freeCtr (s : State) (p : Nat) (x : LinePortSt) : (s.setLport p x).freeCtr = s.freeCtr := rfl
@[simp] theorem State.setLport_lport (s : State) (p : Nat) (x : LinePortSt) (j : Nat) :
    (s.setLport p x).lport j = if j = p then x else s.lport j := tget_tset _ _ _ _

@[simp] theorem State.setLink_pending (s : State) (w : Word) : (s.setLink w).pending = s.pending := rfl
@[simp] theorem State.setLink_a144 (s : State) (w : Word) : (s.setLink w).a144 = s.a144 := rfl
@[simp] theorem State.setLink_serial (s : State) (w : Word) : (s.setLink w).serial = s.serial := rfl
@[simp] theorem State.setLink_now (s : State) (w : Word) : (s.setLink w).now = s.now := rfl
@[simp] theorem State.setLink_regs (s : State) (w : Word) : (s.setLink w).regs = s.regs := rfl
@[simp] theorem State.setLink_pat (s : State) (w : Word) : (s.setLink w).pat = s.pat := rfl
@[simp] theorem State.setLink_ldr (s : State) (w : Word) : (s.setLink w).ldr = s.ldr := rfl
@[simp] theorem State.setLink_pwr (s : State) (w : Word) : (s.setLink w).pwr = s.pwr := rfl
@[simp] theorem State.setLink_flt (s : State) (w : Word) : (s.setLink w).flt = s.flt := rfl
@[simp] theorem State.setLink_lnt (s : State) (w : Word) : (s.setLink w).lnt = s.lnt := rfl
@[simp] theorem State.setLink_sessions (s : State) (w : Word) : (s.setLink w).sessions = s.sessions := rfl
@[simp] theorem State.setLink_tiles (s : State) (w : Word) : (s.setLink w).tiles = s.tiles := rfl
@[simp] theorem State.setLink_admitted (s : State) (w : Word) : (s.setLink w).admitted = s.admitted := rfl
@[simp] theorem State.setLink_resetting (s : State) (w : Word) : (s.setLink w).resetting = s.resetting := rfl
@[simp] theorem State.setLink_pages (s : State) (w : Word) : (s.setLink w).pages = s.pages := rfl
@[simp] theorem State.setLink_lastDfree (s : State) (w : Word) : (s.setLink w).lastDfree = s.lastDfree := rfl
@[simp] theorem State.setLink_lowArmed (s : State) (w : Word) : (s.setLink w).lowArmed = s.lowArmed := rfl
@[simp] theorem State.setLink_subs (s : State) (w : Word) : (s.setLink w).subs = s.subs := rfl
@[simp] theorem State.setLink_svcs (s : State) (w : Word) : (s.setLink w).svcs = s.svcs := rfl
@[simp] theorem State.setLink_portBkt (s : State) (w : Word) : (s.setLink w).portBkt = s.portBkt := rfl
@[simp] theorem State.setLink_eths (s : State) (w : Word) : (s.setLink w).eths = s.eths := rfl
@[simp] theorem State.setLink_ingest (s : State) (w : Word) : (s.setLink w).ingest = s.ingest := rfl
@[simp] theorem State.setLink_chans (s : State) (w : Word) : (s.setLink w).chans = s.chans := rfl
@[simp] theorem State.setLink_dmaReq (s : State) (w : Word) : (s.setLink w).dmaReq = s.dmaReq := rfl
@[simp] theorem State.setLink_cvus (s : State) (w : Word) : (s.setLink w).cvus = s.cvus := rfl
@[simp] theorem State.setLink_arbs (s : State) (w : Word) : (s.setLink w).arbs = s.arbs := rfl
@[simp] theorem State.setLink_hbm (s : State) (w : Word) : (s.setLink w).hbm = s.hbm := rfl
@[simp] theorem State.setLink_mem (s : State) (w : Word) : (s.setLink w).mem = s.mem := rfl
@[simp] theorem State.setLink_side (s : State) (w : Word) : (s.setLink w).side = s.side := rfl
@[simp] theorem State.setLink_lastUnc (s : State) (w : Word) : (s.setLink w).lastUnc = s.lastUnc := rfl
@[simp] theorem State.setLink_sec (s : State) (w : Word) : (s.setLink w).sec = s.sec := rfl
@[simp] theorem State.setLink_lin (s : State) (w : Word) : (s.setLink w).lin = s.lin := rfl
@[simp] theorem State.setLink_pmu (s : State) (w : Word) : (s.setLink w).pmu = s.pmu := rfl
@[simp] theorem State.setLink_outbox (s : State) (w : Word) : (s.setLink w).outbox = s.outbox := rfl
@[simp] theorem State.setLink_freeCtr (s : State) (w : Word) : (s.setLink w).freeCtr = s.freeCtr := rfl

@[simp] theorem State.setPmu_pending (s : State) (p : Pmu) : (s.setPmu p).pending = s.pending := rfl
@[simp] theorem State.setPmu_a144 (s : State) (p : Pmu) : (s.setPmu p).a144 = s.a144 := rfl
@[simp] theorem State.setPmu_serial (s : State) (p : Pmu) : (s.setPmu p).serial = s.serial := rfl
@[simp] theorem State.setPmu_now (s : State) (p : Pmu) : (s.setPmu p).now = s.now := rfl
@[simp] theorem State.setPmu_regs (s : State) (p : Pmu) : (s.setPmu p).regs = s.regs := rfl
@[simp] theorem State.setPmu_pat (s : State) (p : Pmu) : (s.setPmu p).pat = s.pat := rfl
@[simp] theorem State.setPmu_ldr (s : State) (p : Pmu) : (s.setPmu p).ldr = s.ldr := rfl
@[simp] theorem State.setPmu_pwr (s : State) (p : Pmu) : (s.setPmu p).pwr = s.pwr := rfl
@[simp] theorem State.setPmu_flt (s : State) (p : Pmu) : (s.setPmu p).flt = s.flt := rfl
@[simp] theorem State.setPmu_lnt (s : State) (p : Pmu) : (s.setPmu p).lnt = s.lnt := rfl
@[simp] theorem State.setPmu_hif (s : State) (p : Pmu) : (s.setPmu p).hif = s.hif := rfl
@[simp] theorem State.setPmu_sessions (s : State) (p : Pmu) : (s.setPmu p).sessions = s.sessions := rfl
@[simp] theorem State.setPmu_tiles (s : State) (p : Pmu) : (s.setPmu p).tiles = s.tiles := rfl
@[simp] theorem State.setPmu_admitted (s : State) (p : Pmu) : (s.setPmu p).admitted = s.admitted := rfl
@[simp] theorem State.setPmu_resetting (s : State) (p : Pmu) : (s.setPmu p).resetting = s.resetting := rfl
@[simp] theorem State.setPmu_pages (s : State) (p : Pmu) : (s.setPmu p).pages = s.pages := rfl
@[simp] theorem State.setPmu_lastDfree (s : State) (p : Pmu) : (s.setPmu p).lastDfree = s.lastDfree := rfl
@[simp] theorem State.setPmu_lowArmed (s : State) (p : Pmu) : (s.setPmu p).lowArmed = s.lowArmed := rfl
@[simp] theorem State.setPmu_subs (s : State) (p : Pmu) : (s.setPmu p).subs = s.subs := rfl
@[simp] theorem State.setPmu_svcs (s : State) (p : Pmu) : (s.setPmu p).svcs = s.svcs := rfl
@[simp] theorem State.setPmu_portBkt (s : State) (p : Pmu) : (s.setPmu p).portBkt = s.portBkt := rfl
@[simp] theorem State.setPmu_eths (s : State) (p : Pmu) : (s.setPmu p).eths = s.eths := rfl
@[simp] theorem State.setPmu_ingest (s : State) (p : Pmu) : (s.setPmu p).ingest = s.ingest := rfl
@[simp] theorem State.setPmu_chans (s : State) (p : Pmu) : (s.setPmu p).chans = s.chans := rfl
@[simp] theorem State.setPmu_dmaReq (s : State) (p : Pmu) : (s.setPmu p).dmaReq = s.dmaReq := rfl
@[simp] theorem State.setPmu_cvus (s : State) (p : Pmu) : (s.setPmu p).cvus = s.cvus := rfl
@[simp] theorem State.setPmu_arbs (s : State) (p : Pmu) : (s.setPmu p).arbs = s.arbs := rfl
@[simp] theorem State.setPmu_hbm (s : State) (p : Pmu) : (s.setPmu p).hbm = s.hbm := rfl
@[simp] theorem State.setPmu_mem (s : State) (p : Pmu) : (s.setPmu p).mem = s.mem := rfl
@[simp] theorem State.setPmu_side (s : State) (p : Pmu) : (s.setPmu p).side = s.side := rfl
@[simp] theorem State.setPmu_lastUnc (s : State) (p : Pmu) : (s.setPmu p).lastUnc = s.lastUnc := rfl
@[simp] theorem State.setPmu_sec (s : State) (p : Pmu) : (s.setPmu p).sec = s.sec := rfl
@[simp] theorem State.setPmu_lin (s : State) (p : Pmu) : (s.setPmu p).lin = s.lin := rfl
@[simp] theorem State.setPmu_outbox (s : State) (p : Pmu) : (s.setPmu p).outbox = s.outbox := rfl
@[simp] theorem State.setPmu_freeCtr (s : State) (p : Pmu) : (s.setPmu p).freeCtr = s.freeCtr := rfl

@[simp] theorem State.setPwr_pending (s : State) (p : Power) : (s.setPwr p).pending = s.pending := rfl
@[simp] theorem State.setPwr_a144 (s : State) (p : Power) : (s.setPwr p).a144 = s.a144 := rfl
@[simp] theorem State.setPwr_serial (s : State) (p : Power) : (s.setPwr p).serial = s.serial := rfl
@[simp] theorem State.setPwr_now (s : State) (p : Power) : (s.setPwr p).now = s.now := rfl
@[simp] theorem State.setPwr_regs (s : State) (p : Power) : (s.setPwr p).regs = s.regs := rfl
@[simp] theorem State.setPwr_pat (s : State) (p : Power) : (s.setPwr p).pat = s.pat := rfl
@[simp] theorem State.setPwr_ldr (s : State) (p : Power) : (s.setPwr p).ldr = s.ldr := rfl
@[simp] theorem State.setPwr_flt (s : State) (p : Power) : (s.setPwr p).flt = s.flt := rfl
@[simp] theorem State.setPwr_lnt (s : State) (p : Power) : (s.setPwr p).lnt = s.lnt := rfl
@[simp] theorem State.setPwr_hif (s : State) (p : Power) : (s.setPwr p).hif = s.hif := rfl
@[simp] theorem State.setPwr_sessions (s : State) (p : Power) : (s.setPwr p).sessions = s.sessions := rfl
@[simp] theorem State.setPwr_tiles (s : State) (p : Power) : (s.setPwr p).tiles = s.tiles := rfl
@[simp] theorem State.setPwr_admitted (s : State) (p : Power) : (s.setPwr p).admitted = s.admitted := rfl
@[simp] theorem State.setPwr_resetting (s : State) (p : Power) : (s.setPwr p).resetting = s.resetting := rfl
@[simp] theorem State.setPwr_pages (s : State) (p : Power) : (s.setPwr p).pages = s.pages := rfl
@[simp] theorem State.setPwr_lastDfree (s : State) (p : Power) : (s.setPwr p).lastDfree = s.lastDfree := rfl
@[simp] theorem State.setPwr_lowArmed (s : State) (p : Power) : (s.setPwr p).lowArmed = s.lowArmed := rfl
@[simp] theorem State.setPwr_subs (s : State) (p : Power) : (s.setPwr p).subs = s.subs := rfl
@[simp] theorem State.setPwr_svcs (s : State) (p : Power) : (s.setPwr p).svcs = s.svcs := rfl
@[simp] theorem State.setPwr_portBkt (s : State) (p : Power) : (s.setPwr p).portBkt = s.portBkt := rfl
@[simp] theorem State.setPwr_eths (s : State) (p : Power) : (s.setPwr p).eths = s.eths := rfl
@[simp] theorem State.setPwr_ingest (s : State) (p : Power) : (s.setPwr p).ingest = s.ingest := rfl
@[simp] theorem State.setPwr_chans (s : State) (p : Power) : (s.setPwr p).chans = s.chans := rfl
@[simp] theorem State.setPwr_dmaReq (s : State) (p : Power) : (s.setPwr p).dmaReq = s.dmaReq := rfl
@[simp] theorem State.setPwr_cvus (s : State) (p : Power) : (s.setPwr p).cvus = s.cvus := rfl
@[simp] theorem State.setPwr_arbs (s : State) (p : Power) : (s.setPwr p).arbs = s.arbs := rfl
@[simp] theorem State.setPwr_hbm (s : State) (p : Power) : (s.setPwr p).hbm = s.hbm := rfl
@[simp] theorem State.setPwr_mem (s : State) (p : Power) : (s.setPwr p).mem = s.mem := rfl
@[simp] theorem State.setPwr_side (s : State) (p : Power) : (s.setPwr p).side = s.side := rfl
@[simp] theorem State.setPwr_lastUnc (s : State) (p : Power) : (s.setPwr p).lastUnc = s.lastUnc := rfl
@[simp] theorem State.setPwr_sec (s : State) (p : Power) : (s.setPwr p).sec = s.sec := rfl
@[simp] theorem State.setPwr_lin (s : State) (p : Power) : (s.setPwr p).lin = s.lin := rfl
@[simp] theorem State.setPwr_pmu (s : State) (p : Power) : (s.setPwr p).pmu = s.pmu := rfl
@[simp] theorem State.setPwr_outbox (s : State) (p : Power) : (s.setPwr p).outbox = s.outbox := rfl
@[simp] theorem State.setPwr_freeCtr (s : State) (p : Power) : (s.setPwr p).freeCtr = s.freeCtr := rfl

@[simp] theorem State.setSec_pending (s : State) (x : Sec) : (s.setSec x).pending = s.pending := rfl
@[simp] theorem State.setSec_a144 (s : State) (x : Sec) : (s.setSec x).a144 = s.a144 := rfl
@[simp] theorem State.setSec_serial (s : State) (x : Sec) : (s.setSec x).serial = s.serial := rfl
@[simp] theorem State.setSec_now (s : State) (x : Sec) : (s.setSec x).now = s.now := rfl
@[simp] theorem State.setSec_regs (s : State) (x : Sec) : (s.setSec x).regs = s.regs := rfl
@[simp] theorem State.setSec_pat (s : State) (x : Sec) : (s.setSec x).pat = s.pat := rfl
@[simp] theorem State.setSec_ldr (s : State) (x : Sec) : (s.setSec x).ldr = s.ldr := rfl
@[simp] theorem State.setSec_pwr (s : State) (x : Sec) : (s.setSec x).pwr = s.pwr := rfl
@[simp] theorem State.setSec_flt (s : State) (x : Sec) : (s.setSec x).flt = s.flt := rfl
@[simp] theorem State.setSec_lnt (s : State) (x : Sec) : (s.setSec x).lnt = s.lnt := rfl
@[simp] theorem State.setSec_hif (s : State) (x : Sec) : (s.setSec x).hif = s.hif := rfl
@[simp] theorem State.setSec_sessions (s : State) (x : Sec) : (s.setSec x).sessions = s.sessions := rfl
@[simp] theorem State.setSec_tiles (s : State) (x : Sec) : (s.setSec x).tiles = s.tiles := rfl
@[simp] theorem State.setSec_admitted (s : State) (x : Sec) : (s.setSec x).admitted = s.admitted := rfl
@[simp] theorem State.setSec_resetting (s : State) (x : Sec) : (s.setSec x).resetting = s.resetting := rfl
@[simp] theorem State.setSec_pages (s : State) (x : Sec) : (s.setSec x).pages = s.pages := rfl
@[simp] theorem State.setSec_lastDfree (s : State) (x : Sec) : (s.setSec x).lastDfree = s.lastDfree := rfl
@[simp] theorem State.setSec_lowArmed (s : State) (x : Sec) : (s.setSec x).lowArmed = s.lowArmed := rfl
@[simp] theorem State.setSec_subs (s : State) (x : Sec) : (s.setSec x).subs = s.subs := rfl
@[simp] theorem State.setSec_svcs (s : State) (x : Sec) : (s.setSec x).svcs = s.svcs := rfl
@[simp] theorem State.setSec_portBkt (s : State) (x : Sec) : (s.setSec x).portBkt = s.portBkt := rfl
@[simp] theorem State.setSec_eths (s : State) (x : Sec) : (s.setSec x).eths = s.eths := rfl
@[simp] theorem State.setSec_ingest (s : State) (x : Sec) : (s.setSec x).ingest = s.ingest := rfl
@[simp] theorem State.setSec_chans (s : State) (x : Sec) : (s.setSec x).chans = s.chans := rfl
@[simp] theorem State.setSec_dmaReq (s : State) (x : Sec) : (s.setSec x).dmaReq = s.dmaReq := rfl
@[simp] theorem State.setSec_cvus (s : State) (x : Sec) : (s.setSec x).cvus = s.cvus := rfl
@[simp] theorem State.setSec_arbs (s : State) (x : Sec) : (s.setSec x).arbs = s.arbs := rfl
@[simp] theorem State.setSec_hbm (s : State) (x : Sec) : (s.setSec x).hbm = s.hbm := rfl
@[simp] theorem State.setSec_mem (s : State) (x : Sec) : (s.setSec x).mem = s.mem := rfl
@[simp] theorem State.setSec_side (s : State) (x : Sec) : (s.setSec x).side = s.side := rfl
@[simp] theorem State.setSec_lastUnc (s : State) (x : Sec) : (s.setSec x).lastUnc = s.lastUnc := rfl
@[simp] theorem State.setSec_lin (s : State) (x : Sec) : (s.setSec x).lin = s.lin := rfl
@[simp] theorem State.setSec_pmu (s : State) (x : Sec) : (s.setSec x).pmu = s.pmu := rfl
@[simp] theorem State.setSec_outbox (s : State) (x : Sec) : (s.setSec x).outbox = s.outbox := rfl
@[simp] theorem State.setSec_freeCtr (s : State) (x : Sec) : (s.setSec x).freeCtr = s.freeCtr := rfl

@[simp] theorem State.setByte_pending (s : State) (a : Nat) (v : Byte) : (s.setByte a v).pending = s.pending := rfl
@[simp] theorem State.setByte_a144 (s : State) (a : Nat) (v : Byte) : (s.setByte a v).a144 = s.a144 := rfl
@[simp] theorem State.setByte_serial (s : State) (a : Nat) (v : Byte) : (s.setByte a v).serial = s.serial := rfl
@[simp] theorem State.setByte_now (s : State) (a : Nat) (v : Byte) : (s.setByte a v).now = s.now := rfl
@[simp] theorem State.setByte_regs (s : State) (a : Nat) (v : Byte) : (s.setByte a v).regs = s.regs := rfl
@[simp] theorem State.setByte_pat (s : State) (a : Nat) (v : Byte) : (s.setByte a v).pat = s.pat := rfl
@[simp] theorem State.setByte_ldr (s : State) (a : Nat) (v : Byte) : (s.setByte a v).ldr = s.ldr := rfl
@[simp] theorem State.setByte_pwr (s : State) (a : Nat) (v : Byte) : (s.setByte a v).pwr = s.pwr := rfl
@[simp] theorem State.setByte_flt (s : State) (a : Nat) (v : Byte) : (s.setByte a v).flt = s.flt := rfl
@[simp] theorem State.setByte_lnt (s : State) (a : Nat) (v : Byte) : (s.setByte a v).lnt = s.lnt := rfl
@[simp] theorem State.setByte_hif (s : State) (a : Nat) (v : Byte) : (s.setByte a v).hif = s.hif := rfl
@[simp] theorem State.setByte_sessions (s : State) (a : Nat) (v : Byte) : (s.setByte a v).sessions = s.sessions := rfl
@[simp] theorem State.setByte_tiles (s : State) (a : Nat) (v : Byte) : (s.setByte a v).tiles = s.tiles := rfl
@[simp] theorem State.setByte_admitted (s : State) (a : Nat) (v : Byte) : (s.setByte a v).admitted = s.admitted := rfl
@[simp] theorem State.setByte_resetting (s : State) (a : Nat) (v : Byte) : (s.setByte a v).resetting = s.resetting := rfl
@[simp] theorem State.setByte_pages (s : State) (a : Nat) (v : Byte) : (s.setByte a v).pages = s.pages := rfl
@[simp] theorem State.setByte_lastDfree (s : State) (a : Nat) (v : Byte) : (s.setByte a v).lastDfree = s.lastDfree := rfl
@[simp] theorem State.setByte_lowArmed (s : State) (a : Nat) (v : Byte) : (s.setByte a v).lowArmed = s.lowArmed := rfl
@[simp] theorem State.setByte_subs (s : State) (a : Nat) (v : Byte) : (s.setByte a v).subs = s.subs := rfl
@[simp] theorem State.setByte_svcs (s : State) (a : Nat) (v : Byte) : (s.setByte a v).svcs = s.svcs := rfl
@[simp] theorem State.setByte_portBkt (s : State) (a : Nat) (v : Byte) : (s.setByte a v).portBkt = s.portBkt := rfl
@[simp] theorem State.setByte_eths (s : State) (a : Nat) (v : Byte) : (s.setByte a v).eths = s.eths := rfl
@[simp] theorem State.setByte_ingest (s : State) (a : Nat) (v : Byte) : (s.setByte a v).ingest = s.ingest := rfl
@[simp] theorem State.setByte_chans (s : State) (a : Nat) (v : Byte) : (s.setByte a v).chans = s.chans := rfl
@[simp] theorem State.setByte_dmaReq (s : State) (a : Nat) (v : Byte) : (s.setByte a v).dmaReq = s.dmaReq := rfl
@[simp] theorem State.setByte_cvus (s : State) (a : Nat) (v : Byte) : (s.setByte a v).cvus = s.cvus := rfl
@[simp] theorem State.setByte_arbs (s : State) (a : Nat) (v : Byte) : (s.setByte a v).arbs = s.arbs := rfl
@[simp] theorem State.setByte_hbm (s : State) (a : Nat) (v : Byte) : (s.setByte a v).hbm = s.hbm := rfl
@[simp] theorem State.setByte_side (s : State) (a : Nat) (v : Byte) : (s.setByte a v).side = s.side := rfl
@[simp] theorem State.setByte_lastUnc (s : State) (a : Nat) (v : Byte) : (s.setByte a v).lastUnc = s.lastUnc := rfl
@[simp] theorem State.setByte_sec (s : State) (a : Nat) (v : Byte) : (s.setByte a v).sec = s.sec := rfl
@[simp] theorem State.setByte_lin (s : State) (a : Nat) (v : Byte) : (s.setByte a v).lin = s.lin := rfl
@[simp] theorem State.setByte_pmu (s : State) (a : Nat) (v : Byte) : (s.setByte a v).pmu = s.pmu := rfl
@[simp] theorem State.setByte_outbox (s : State) (a : Nat) (v : Byte) : (s.setByte a v).outbox = s.outbox := rfl
@[simp] theorem State.setByte_freeCtr (s : State) (a : Nat) (v : Byte) : (s.setByte a v).freeCtr = s.freeCtr := rfl

/-- A register reads as the value written to it; every other register is unchanged. -/
@[simp] theorem State.setReg_reg (s : State) (off : Nat) (v : Word) (j : Nat) :
    (s.setReg off v).reg j = if j = off then v else s.reg j := by
  simp only [State.setReg, State.reg]
  by_cases h : j = off
  · subst h; simp
  · simp [h, tget_tset_other _ _ _ _ h]

/-- A count leaves every other register unchanged and saturates its own. -/
@[simp] theorem State.bump_reg (s : State) (off k j : Nat) :
    (s.bump off k).reg j = if j = off then satIncW (s.reg off) k else s.reg j := State.setReg_reg _ _ _ _

/-- A byte reads as written; every other byte is unchanged. -/
@[simp] theorem State.setByte_byte (s : State) (a : Nat) (v : Byte) (b : Nat) :
    (s.setByte a v).byte b = if b = a then v else s.byte b := tget_tset _ _ _ _

end Sys2Proof.Machine
end

