-- ==== Sys2Proof/Laws/Memory.lean ====
section
/-!
SUPPORT. Laws of HBM contents: reads after writes, and for every operation that writes HBM, the timebase or OTP the relation
`Sound` says what it keeps all the same: the queue, what the part is, and the canonical form of memory.
-/
namespace Sys2Proof.Machine

/-- A write of one byte keeps the canonical form of both tables. -/
theorem State.setByte_hbmForm {s : State} (a : Nat) (v : Byte) (h : s.hbmForm = true) : (s.setByte a v).hbmForm = true := by
  simp only [State.hbmForm, Memory.wf, Bool.and_eq_true] at h ⊢
  exact ⟨twf_tset a v h.1, h.2⟩

/-- Bytes outside a write read as before. -/
theorem State.setBytes_byte (s : State) (a : Nat) (bs : List Byte) (j : Nat) (h : j < a ∨ a + bs.length ≤ j) :
    (s.setBytes a bs).byte j = s.byte j := by
  induction bs generalizing s a with
  | nil => rfl
  | cons b t ih =>
    simp only [List.length_cons] at h
    rw [State.setBytes, ih _ _ (by omega), State.setByte_byte, if_neg (by omega)]

/-- Bytes inside a write read as written. -/
theorem State.setBytes_byte_in (s : State) (a : Nat) (bs : List Byte) (i : Nat) (h : i < bs.length) :
    (s.setBytes a bs).byte (a + i) = bs.getD i 0 := by
  induction bs generalizing s a i with
  | nil => simp at h
  | cons b t ih =>
    rw [State.setBytes]
    cases i with
    | zero => rw [State.setBytes_byte _ _ _ _ (Or.inl (by omega))]; simp
    | succ n => rw [show a + (n + 1) = a + 1 + n by omega, ih _ _ _ (by simpa using h)]; simp

/-- Side symbols do not touch data bytes. -/
@[simp] theorem State.setSide_byte (s : State) (l i : Nat) (bs : List Byte) (j : Nat) :
    (s.setSide l i bs).byte j = s.byte j := by
  induction bs generalizing s i with
  | nil => rfl
  | cons b t ih => rw [State.setSide, ih]; rfl

/-- What every operation keeps: the queue, the part, its serial, and the canonical form of HBM contents. -/
structure Sound (s t : State) : Prop where
  pending : t.pending = s.pending
  a144 : t.a144 = s.a144
  serial : t.serial = s.serial
  form : s.hbmForm = true → t.hbmForm = true

theorem Sound.rfl {s : State} : Sound s s := ⟨Eq.refl _, Eq.refl _, Eq.refl _, id⟩

theorem Sound.trans {s t u : State} (h : Sound s t) (k : Sound t u) : Sound s u :=
  ⟨k.pending.trans h.pending, k.a144.trans h.a144, k.serial.trans h.serial, k.form ∘ h.form⟩

/-- An operation with a frame lemma is sound. -/
theorem Sound.ofKept {s t : State} (h : t.kept = s.kept) : Sound s t := by
  simp only [State.kept, Prod.mk.injEq] at h
  obtain ⟨h1, h2, h3, h4, h5, -⟩ := h
  exact ⟨h1, h2, h3, by simp [State.hbmForm, h4, h5]⟩

/-- An operation with a frame lemma after a sound one. -/
theorem Sound.app {s t : State} (f : State → State) (k : ∀ t, (f t).kept = t.kept) (h : Sound s t) : Sound s (f t) :=
  h.trans (.ofKept (k t))

theorem Sound.fold {α : Type} (f : State → α → State) (h : ∀ s a, Sound s (f s a)) (l : List α) (s : State) :
    Sound s (l.foldl f s) := by
  induction l generalizing s with
  | nil => exact .rfl
  | cons a t ih => exact (h s a).trans (ih _)

theorem State.setByte_sound (s : State) (a : Nat) (v : Byte) : Sound s (s.setByte a v) :=
  ⟨rfl, rfl, rfl, s.setByte_hbmForm a v⟩

theorem State.setBytes_sound (s : State) (a : Nat) (bs : List Byte) : Sound s (s.setBytes a bs) := by
  induction bs generalizing s a with
  | nil => exact .rfl
  | cons b t ih => exact (s.setByte_sound a b).trans (ih _ _)

theorem State.setSide_sound (s : State) (l i : Nat) (bs : List Byte) : Sound s (s.setSide l i bs) := by
  induction bs generalizing s i with
  | nil => exact .rfl
  | cons b t ih =>
    refine Sound.trans (t := { s with side := tset 0 (l * 8 + i) b s.side }) ⟨rfl, rfl, rfl, fun h => ?_⟩ (ih _ _)
    simp only [State.hbmForm, Memory.wf, Bool.and_eq_true] at h ⊢
    exact ⟨h.1, twf_tset _ b h.2⟩

theorem State.storeLine_sound (s : State) (a : Nat) (cs : List Byte) : Sound s (s.storeLine a cs) :=
  (s.setBytes_sound _ _).trans (State.setSide_sound _ _ _ _)

theorem State.writeLine_sound (s : State) (a : Nat) (data : List Byte) (label : Word) : Sound s (s.writeLine a data label) :=
  (Sound.ofKept (by simp)).trans (State.storeLine_sound _ _ _)

theorem State.readLine_sound (s : State) (a : Nat) (errs : List (Nat × Byte)) (scrub : Bool) :
    Sound s (s.readLine a errs scrub) := by
  unfold State.readLine
  dsimp only
  split
  · exact .ofKept (by simp)
  · split
    · exact (Sound.ofKept (by simp)).trans (State.storeLine_sound _ _ _)
    · exact .ofKept (by simp)
  · exact .ofKept (by simp)

theorem State.fetchLine_sound (s : State) (a gen : Nat) : Sound s (s.fetchLine a gen).1 := by
  have h : Sound s ((s.access (decodeLine a)).readLine a [] false) :=
    (Sound.ofKept (by simp)).trans (State.readLine_sound _ _ _ _)
  unfold State.fetchLine
  dsimp only
  repeat' first | exact h | split

theorem State.memRequestOp_sound (s : State) (a : Nat) (op : LineOp) (ca : Nat) : Sound s (s.memRequestOp a op ca) := by
  have h (p : LinePos) : Sound s (if ca = 0 then s.access p else (s.access p).bump (chanBase p.stack p.chan + 0x14)) :=
    .ofKept (by split <;> simp)
  unfold State.memRequestOp
  split
  · exact .rfl
  split
  · exact .ofKept (by simp)
  rename_i a _
  by_cases h1 : (s.dom (decodeLine a).stack).st = 1
  · exact .ofKept (by simp [h1])
  by_cases h2 : !s.stackUp (decodeLine a).stack ∨ (s.stack (decodeLine a).stack).chg.isSome
      ∨ (s.stack (decodeLine a).stack).provisional
  · exact .ofKept (by simp only [h1, h2, if_true, if_false])
  by_cases h3 : 2 ≤ ca
  · simp only [h1, h2, h3, if_true, if_false]
    exact .app (·.raiseDev 23) (by simp) (h _)
  simp only [h1, h2, h3, if_false]
  cases op with
  | read errs => exact (h _).trans (State.readLine_sound _ _ _ _)
  | write data label =>
    by_cases h4 : data.length = 64
    · simp only [h4, if_true]; exact (h _).trans (State.writeLine_sound _ _ _ _)
    · simp only [h4, if_false]; exact h _

theorem State.scrubOp_sound (s : State) (k : Nat) (errs : List (Nat × Byte)) : Sound s (s.scrubOp k errs) := by
  have h (x : Stack) (c : Prop) [Decidable c] (p : LinePos) (a : Nat) :
      Sound s (if c then (s.setStack k x).bump 0xF004C else ((s.setStack k x).access p).readLine a errs true) := by
    split
    · exact .ofKept (by simp)
    · exact Sound.trans (.ofKept (by simp)) (State.readLine_sound _ _ _ _)
  unfold State.scrubOp
  dsimp only
  by_cases c : (s.live && s.stackUp k && s.reg 0xF0040 != 0 && (s.stack k).sweep.isNone && (s.stack k).chg.isNone &&
    !(s.stack k).provisional) = true
  · rw [if_pos c]; exact h _ _ _ _
  · rw [if_neg c]; exact .rfl

theorem State.readBeat_sound (s : State) (x : Chan) (d : Desc) (i j : Nat) : Sound s (s.readBeat x d i j).1 := by
  unfold State.readBeat
  split
  · dsimp only
    split
    · exact .ofKept (by simp)
    · exact State.fetchLine_sound _ _ _
  · exact .rfl

theorem State.writeBeat_sound (s : State) (n : Nat) (d : Desc) (i j : Nat) (b : List Byte × Nat × Word) :
    Sound s (s.writeBeat n d i j b) := by
  unfold State.writeBeat
  dsimp only
  split
  · split
    · exact .ofKept (by simp)
    · exact (Sound.ofKept (by simp)).trans (State.writeLine_sound _ _ _ _)
  · exact .ofKept (by simp)

theorem Mover.go_sound (m : Mover) (n : Nat) (x : Chan) (d : Desc) (i j k : Nat) :
    Sound m.s (Mover.beat.go m n x d i j k).s := by
  unfold Mover.beat.go
  dsimp only
  split
  · exact (State.readBeat_sound _ _ _ _ _).trans (State.writeBeat_sound _ _ _ _ _ _)
  · exact State.readBeat_sound _ _ _ _ _

theorem Mover.beat_sound (m : Mover) (n : Nat) (x : Chan) (d : Desc) (e : MoveEnd) (i j : Nat) :
    Sound m.s (m.beat n x d e i j).s := by
  unfold Mover.beat
  dsimp only
  repeat' first | exact .rfl | exact Mover.go_sound _ _ _ _ _ _ _ | split

theorem Mover.fold_sound {α : Type} (f : Mover → α → Mover) (h : ∀ m a, Sound m.s (f m a).s) (l : List α) (m : Mover) :
    Sound m.s (l.foldl f m).s := by
  induction l generalizing m with
  | nil => exact .rfl
  | cons a t ih => exact (h m a).trans (ih _)

theorem State.moveAll_sound (s : State) (n : Nat) (d : Desc) (e : MoveEnd) : Sound s (s.moveAll n d e).s :=
  Mover.fold_sound _ (fun m _ => Mover.fold_sound _ (fun m _ => m.beat_sound _ _ _ _ _ _) _ m) _ { s := s }

theorem State.sendWriteback_sound (s : State) (n : Nat) (b : List Byte) (st done : Nat) :
    Sound s (s.sendWriteback n b st done) := by
  have h (e : Emit) : Sound s (s.emit e) := .ofKept (by simp)
  have k (e : Emit) (a : Nat) (data : List Byte) (l : Word) : Sound s (((s.emit e).access (decodeLine a)).writeLine a data l) :=
    Sound.trans (t := (s.emit e).access (decodeLine a)) (.ofKept (by simp)) (State.writeLine_sound _ _ _ _)
  rw [State.sendWriteback]
  generalize State.physOf _ _ = o
  split
  · cases o with
    | none => exact h _
    | some p => exact k _ _ _ _
  · exact h _

theorem State.descEnd_sound (s : State) (n : Nat) (b : List Byte) (st done : Nat) : Sound s (s.descEnd n b st done) := by
  unfold State.descEnd
  split
  · refine (s.sendWriteback_sound n b st done).trans (.ofKept ?_)
    dsimp only
    split <;> simp
  · exact .ofKept (by simp)

theorem State.descStartOp_sound (s : State) (n : Nat) (b data : List Byte) : Sound s (s.descStartOp n b data) := by
  unfold State.descStartOp
  dsimp only
  generalize (if s.hostChan n = true then (s.chan n).enable && decide ((s.chan n).head ≠ (s.chan n).tail) &&
    (s.chan n).state != 4 else devChan n) = ready
  by_cases h1 : (!s.live || !ready || (s.chan n).desc.isSome || b.length != 64) = true
  · rw [if_pos h1]; exact .rfl
  rw [if_neg h1]
  split
  · exact .ofKept (by simp)
  split
  · exact .ofKept (by simp)
  split
  · exact .app (·.raiseDev 28) (by simp) (.app (·.bump 0xA000C) (by simp) (State.descEnd_sound _ _ _ _ _))
  split
  · exact .ofKept (by simp)
  split
  · exact .rfl
  · exact .ofKept (by simp)

theorem State.writebackOp_sound (s : State) (n : Nat) (e : DmaEnd) : Sound s (s.writebackOp n e) := by
  have h (d : Desc) (m : MoveEnd) (st : Nat) :
      Sound s (((s.moveAll n d m).s.count 6 0 (s.moveAll n d m).beats).descEnd n (s.chan n).raw st (s.moveAll n d m).done) :=
    (Sound.app (·.count 6 0 _) (by simp) (s.moveAll_sound n d m)).trans (State.descEnd_sound _ _ _ _ _)
  have k (d : Desc) (m : MoveEnd) (st st' : Nat) :
      Sound s (if st' = 4 then (((s.moveAll n d m).s.count 6 0 (s.moveAll n d m).beats).descEnd n (s.chan n).raw st
          (s.moveAll n d m).done).raiseDev 17
        else ((s.moveAll n d m).s.count 6 0 (s.moveAll n d m).beats).descEnd n (s.chan n).raw st (s.moveAll n d m).done) := by
    split
    · exact .app (·.raiseDev 17) (by simp) (h _ _ _)
    · exact h _ _ _
  unfold State.writebackOp
  dsimp only
  cases hd : (s.chan n).desc with
  | none => exact .rfl
  | some d =>
    dsimp only
    by_cases c : (s.live && decide (d.lines ≤ (s.chan n).moved) && s.hasMover n) = true
    · rw [if_pos c]; exact k _ _ _ _
    · rw [if_neg c]; exact .rfl

theorem State.stopChan_sound (s : State) (n : Nat) : Sound s (s.stopChan n) := by
  have h (d : Desc) (m : MoveEnd) : Sound s (s.fresh.1.moveAll n d m).s :=
    (Sound.ofKept (by simp)).trans (State.moveAll_sound _ _ _ _)
  unfold State.stopChan
  dsimp only
  split
  · exact .app (·.bump 0xA0010) (by simp) ((Sound.app (·.count 6 0 _) (by simp) (h _ _)).trans (State.descEnd_sound _ _ _ _ _))
  · exact .rfl

theorem State.forceStops_sound (s : State) (k : Nat) : Sound s (s.forceStops k) :=
  Sound.fold _ (fun s n => .app (·.raiseDev 29) (by simp) (s.stopChan_sound n)) _ _

theorem State.dmaCtl_sound (s : State) (n : Nat) (v : Word) : Sound s (s.dmaCtl n v) := by
  unfold State.dmaCtl
  dsimp only
  split
  · exact .app (fun s => s.setChan n { s.chan n with enable := false, stopping := false, order := none, state := 6 }) (by simp)
      (Sound.trans (.ofKept (State.setChan_kept _ _ _)) (State.stopChan_sound _ n))
  · exact .ofKept (by simp)

theorem State.chanWrite_sound (s : State) (n o : Nat) (v : Word) : Sound s (s.chanWrite n o v) := by
  unfold State.chanWrite
  dsimp only
  repeat' first | (refine .ofKept ?_; simp; done) | exact State.dmaCtl_sound _ _ _ | split

theorem State.onChan_sound (s : State) (n o : Nat) (v : Word) : Sound s (s.onChan n o v) := by
  unfold State.onChan
  split
  · exact State.chanWrite_sound _ _ _ _
  · exact .rfl

theorem State.dmaWrite_sound (s : State) (o : Nat) (v : Word) : Sound s (s.dmaWrite o v) := by
  unfold State.dmaWrite
  repeat' first | (refine .ofKept ?_; simp; done) | exact State.chanWrite_sound _ _ _ _ | split

/-- OTP commands of the security engine change neither the queue nor HBM. -/
theorem State.secStart_sound (s : State) (v : Word) : Sound s (s.secStart v) := by
  unfold State.secStart
  repeat' first | (refine .ofKept ?_; simp; done) | split
  · unfold State.secRevoke
    split
    · exact .ofKept (by simp)
    · exact ⟨rfl, rfl, rfl, id⟩
  · exact ⟨rfl, rfl, rfl, id⟩

theorem State.secCommand_sound (s : State) (v : Word) : Sound s (s.secCommand v) := by
  unfold State.secCommand
  dsimp only
  repeat' first | (refine .ofKept ?_; simp [State.setSec]; done) | exact State.secStart_sound _ _ | split

theorem State.secResume_sound (s : State) : Sound s s.secResume := by
  unfold State.secResume
  dsimp only
  split
  · exact (Sound.ofKept (by simp [State.setSec])).trans (State.secStart_sound _ _)
  · exact .rfl

theorem State.secDoneOp_sound (s : State) (blob : List Byte) (nonce : Word) : Sound s (s.secDoneOp blob nonce) := by
  have h (x : Sec) : Sound s (s.setSec x) := ⟨rfl, rfl, rfl, id⟩
  have k (x : Sec) (r : Nat) : Sound s (s.secEnd x r) := h _
  have f (v : Word) : Sound s (s.importFail v) := .app (·.secEvent 1 (secSlot v)) (by simp) (k _ _)
  unfold State.secDoneOp
  cases s.sec.busy with
  | none => exact .rfl
  | some v =>
    dsimp only
    split
    · split
      · exact k _ _
      · exact f _
    split
    · split
      · split
        · exact k _ _
        · exact .app (·.secIgn v) (by simp) (h _)
      · exact k _ _
    split
    · split
      · exact .app (·.secEvent 2 (secSlot v)) (by simp) (k _ _)
      · exact .app (·.secEvent 3 (secSlot v)) (by simp) (k _ _)
    · exact .rfl

theorem State.secWrite_sound (s : State) (o : Nat) (v : Word) : Sound s (s.secWrite o v) := by
  unfold State.secWrite
  repeat' first | (refine .ofKept ?_; simp; done) | exact State.secCommand_sound _ _ | split

theorem State.porReset_sound (s : State) : Sound s s.porReset := ⟨rfl, rfl, rfl, fun _ => rfl⟩

theorem State.coldReset_sound (s : State) (l : Life) : Sound s (s.coldReset l) := ⟨rfl, rfl, rfl, fun _ => rfl⟩

theorem State.warmReset_sound (s : State) : Sound s s.warmReset := ⟨rfl, rfl, rfl, id⟩

theorem State.pwrCmd_sound (s : State) (v : Word) : Sound s (s.pwrCmd v) := by
  unfold State.pwrCmd
  repeat' first
    | (refine .ofKept ?_; simp; done)
    | exact State.warmReset_sound _
    | exact State.coldReset_sound _ _
    | split

theorem State.wakeFrom_sound (s : State) (src : Nat) : Sound s (s.wakeFrom src) := by
  unfold State.wakeFrom
  dsimp only
  split
  · exact .ofKept (by simp)
  · exact State.coldReset_sound _ _
  · exact .rfl

theorem State.perstOp_sound (s : State) : Sound s s.perstOp := by
  unfold State.perstOp
  split
  · exact .rfl
  · exact State.coldReset_sound _ _

theorem State.supplyOp_sound (s : State) (r mv us : Nat) : Sound s (s.supplyOp r mv us) := by
  unfold State.supplyOp
  repeat' first | (refine .ofKept ?_; simp; done) | exact State.porReset_sound _ | split

theorem State.stackCtl_sound (s : State) (k : Nat) (v : Word) : Sound s (s.stackCtl k v) := by
  unfold State.stackCtl
  dsimp only
  repeat' first | (refine .ofKept ?_; simp; done) | split
  exact .app (·.showHeld _) (by simp) (Sound.trans (.ofKept (State.setDom_kept _ _ _)) (State.forceStops_sound _ _))

theorem State.domWrite_sound (s : State) (d : Nat) (v : Word) : Sound s (s.domWrite d v) := by
  unfold State.domWrite
  repeat' first | (refine .ofKept ?_; simp; done) | exact State.stackCtl_sound _ _ _ | split

theorem State.tickTime_sound (s : State) : Sound s s.tickTime := ⟨rfl, rfl, rfl, id⟩

theorem State.tickOp_sound (s : State) : Sound s s.tickOp := by
  unfold State.tickOp
  split
  · exact .rfl
  · dsimp only
    split
    · exact .app (·.freqAll.pegDeferred.sampleDrain) (by simp) s.tickTime_sound
    · exact s.tickTime_sound

theorem State.coreOp_sound (s : State) : Sound s s.coreOp := by
  unfold State.coreOp
  dsimp only
  split
  · exact (Sound.ofKept (by simp)).trans (State.secResume_sound _)
  · exact .rfl

theorem State.pwrWrite_sound (s : State) (o : Nat) (v : Word) : Sound s (s.pwrWrite o v) := by
  unfold State.pwrWrite
  dsimp only
  repeat' first
    | (refine .ofKept ?_; simp; done)
    | exact State.pwrCmd_sound _ _
    | exact State.domWrite_sound _ _ _
    | split

theorem State.blockWrite_sound (s : State) (b o : Nat) (v : Word) : Sound s (s.blockWrite b o v) := by
  unfold State.blockWrite
  split
  all_goals first
    | (refine .ofKept ?_; simp)
    | exact State.pwrWrite_sound _ _ _
    | exact State.secWrite_sound _ _ _
    | exact State.dmaWrite_sound _ _ _

theorem State.pfWrite_sound (s : State) (off : Nat) (v : Word) : Sound s (s.pfWrite off v) := by
  unfold State.pfWrite
  dsimp only
  repeat' first | (refine .ofKept ?_; simp; done) | exact State.blockWrite_sound _ _ _ _ | split

theorem State.busWrite_sound (s : State) (fn off : Nat) (v : Word) : Sound s (s.busWrite fn off v) := by
  unfold State.busWrite
  repeat' first | (refine .ofKept ?_; simp; done) | exact State.pfWrite_sound _ _ _ | split

theorem State.busWords_sound (s : State) (fn off : Nat) (vs : List Word) : Sound s (s.busWords fn off vs) := by
  induction vs generalizing s off with
  | nil => exact .rfl
  | cons v t ih => exact (s.busWrite_sound fn off v).trans (ih _ _)

theorem State.busData_sound (s : State) (fn off : Nat) (d : WData) : Sound s (s.busData fn off d) := by
  unfold State.busData
  repeat' first | (refine .ofKept ?_; simp; done) | exact State.busWords_sound _ _ _ _ | split

end Sys2Proof.Machine
end

