-- ==== Sys2Proof/Laws/Units.lean ====
section
/-!
SUPPORT. The commands that write or read the pages of coded units and the windows of decoded pictures are sound: what the
COMMIT of a unit, its delivery to the host and the read of a packet keep.
-/
namespace Sys2Proof.Machine

theorem State.writeLines_sound (s : State) (pages : List (Nat × Nat)) (k i skip : Nat) (bytes : List Byte) :
    Sound s (s.writeLines pages k i skip bytes) := by
  induction k generalizing s i skip bytes with
  | zero => exact .rfl
  | succ k ih =>
    rw [State.writeLines]
    split
    · exact .rfl
    · dsimp only
      exact ((Sound.ofKept (by simp)).trans (State.writeLine_sound _ _ _ _)).trans (ih _ _ _ _)

theorem State.writeUnit_sound (s : State) (pages : List (Nat × Nat)) (bytes : List Byte) : Sound s (s.writeUnit pages bytes) :=
  State.writeLines_sound _ _ _ _ _ _

theorem State.rewriteUnit_sound (s : State) (pages : List (Nat × Nat)) (at_ : Nat) (bytes : List Byte) :
    Sound s (s.rewriteUnit pages at_ bytes) :=
  State.writeLines_sound _ _ _ _ _ _

theorem State.readLines_sound (s : State) (pages : List (Nat × Nat)) (k i n : Nat) : Sound s (s.readLines pages k i n).1 := by
  induction k generalizing s i n with
  | zero => exact .rfl
  | succ k ih =>
    rw [State.readLines]
    split
    · exact .rfl
    · dsimp only
      split
      · exact State.fetchLine_sound _ _ _
      · exact (State.fetchLine_sound _ _ _).trans (ih _ _ _)

theorem State.readUnit_sound (s : State) (pages : List (Nat × Nat)) (n : Nat) : Sound s (s.readUnit pages n).1 :=
  State.readLines_sound _ _ _ _ _

theorem State.writeDev_sound (s : State) (gen k a : Nat) (bytes : List Byte) : Sound s (s.writeDev gen k a bytes) := by
  induction k generalizing s a bytes with
  | zero => exact .rfl
  | succ k ih =>
    rw [State.writeDev]
    split
    · exact .rfl
    · dsimp only
      refine Sound.trans ?_ (ih _ _ _)
      split
      · exact .rfl
      · exact (Sound.ofKept (by simp)).trans (State.writeLine_sound _ _ _ _)

theorem State.writeWindow_sound (s : State) (c : Tbl Word) (slot gen : Nat) (ls : List (Nat × List Byte)) :
    Sound s (s.writeWindow c slot gen ls) :=
  Sound.fold _ (fun s _ => s.writeDev_sound _ _ _ _) _ _

theorem State.commitRecode_sound (s : State) (u : UnitRef) (p : Pic) (w : WUnit) (r : UnitResult) :
    Sound s (s.commitRecode u p w r) := by
  unfold State.commitRecode
  dsimp only
  refine .app (·.countLate u.ses p) (by simp) (.app (·.modUnit u _) (by simp) ?_)
  exact State.rewriteUnit_sound _ _ _ _

theorem State.commitDec_sound (s : State) (n : Nat) (p : Pic) (r : DecResult) : Sound s (s.commitDec n p r) := by
  unfold State.commitDec
  dsimp only
  refine .app (·.finishDec n p _ r) (by simp) ?_
  exact (Sound.ofKept (s.countLate_kept n p)).trans (State.writeWindow_sound _ _ _ _ _)

theorem State.commitEnc_sound (s : State) (n : Nat) (p : Pic) (ps : List CommitPart) : Sound s (s.commitEnc n p ps) := by
  unfold State.commitEnc
  split
  · exact .rfl
  · rename_i e es
    extract_lets x live g t codec mine last raw sofar filler pkts bytes k pages used s1 gens s2 w0 w p1 p2 x1 x2 s3 s4 q td s5 s6 s7 s8
    have h1 : Sound s s1 := .ofKept (by dsimp only [s1]; split <;> simp)
    have h2 : Sound s s2 := by
      dsimp only [s2]
      split
      · exact h1
      · exact h1.trans (State.writeUnit_sound _ _ _)
    have h5 : s5.kept = s2.kept := by simp [s5, s4, s3]
    have h8 : s8.kept = s2.kept := by
      dsimp only [s8]
      split <;> simp [s7, s6, h5]
    refine h2.trans (.ofKept ?_)
    split
    · simp [h8]
    · split <;> simp [h8]

theorem State.unitCommits_sound (s : State) (u : UnitRef) (p : Pic) (w : WUnit) (r : UnitResult) :
    Sound s (s.unitCommits u p w r) := by
  unfold State.unitCommits
  dsimp only
  split
  · exact s.commitRecode_sound _ _ _ _
  split
  · exact s.commitDec_sound _ _ _
  · exact s.commitEnc_sound _ _ _

theorem State.gangCommits_sound (s : State) (n : Nat) (p : Pic) : Sound s (s.gangCommits n p) := by
  unfold State.gangCommits
  dsimp only
  split
  · exact s.commitDec_sound _ _ _
  · exact s.commitEnc_sound _ _ _

theorem State.gangPart_sound (s : State) (u : UnitRef) (p : Pic) (r : UnitResult) : Sound s (s.gangPart u p r) := by
  unfold State.gangPart
  dsimp only
  split
  · exact (Sound.ofKept (by simp)).trans (State.commitDec_sound _ _ _ _)
  · split
    · split
      · exact (Sound.ofKept (by simp)).trans (State.gangCommits_sound _ _ _)
      · exact .ofKept (by simp)
    · exact .ofKept (by simp)

theorem State.commitParked_sound (s : State) (u : UnitRef) (k : Nat) : Sound s (s.commitParked u k) := by
  induction k generalizing s with
  | zero => exact .rfl
  | succ k ih =>
    rw [State.commitParked]
    split
    · exact .rfl
    split
    · exact .rfl
    dsimp only
    refine Sound.trans ?_ (ih _)
    split
    · exact s.unitCommits_sound _ _ _ _
    · exact .ofKept (by simp)

theorem State.commitUnit_sound (s : State) (t : Nat) (u : UnitRef) (p : Pic) (w : WUnit) (r : UnitResult) :
    Sound s (s.commitUnit t u p w r) := by
  have h : Sound s (s.tileCommits t u r) := .ofKept (by simp)
  have k (z : State) (g : Sound s z) : Sound s (if ((z.latePromotion t).tile t).retireReq then (z.latePromotion t).retireTile t
      else z.latePromotion t).retestAll := by
    refine g.trans (.ofKept ?_)
    split <;> simp
  unfold State.commitUnit
  dsimp only
  refine k _ ?_
  split
  · exact h.trans (State.gangPart_sound _ _ _ _)
  split
  · exact (h.trans (State.unitCommits_sound _ _ _ _ _)).trans (State.commitParked_sound _ _ _)
  · exact h.trans (.ofKept (by simp))

theorem State.commitWord_sound (s : State) (t : Nat) (r : UnitResult) : Sound s (s.commitWord t r) := by
  unfold State.commitWord
  dsimp only
  split
  · exact .rfl
  split
  · exact .ofKept (State.modTile_kept _ _ _)
  split
  · exact .ofKept (by rw [State.trapUnit_kept, State.modTile_kept])
  split
  · exact .ofKept (by rw [State.trapUnit_kept, State.modTile_kept])
  · exact (Sound.ofKept (by rw [State.modTile_kept, State.modTile_kept])).trans (State.commitUnit_sound _ _ _ _ _ _)

/-- A microword issues on a tile: what its effect keeps, the fetch keeps. -/
theorem State.needle_sound (s : State) (t cl : Nat) (f : State → Word → State) (h : ∀ s w, Sound s (f s w)) :
    Sound s (s.needle t cl f) := by
  unfold State.needle
  repeat' first | (refine .ofKept ?_; simp; done) | exact (Sound.ofKept (by simp)).trans (h _ _) | split

theorem State.readParts_sound (s : State) (l : List OutPart) : Sound s (s.readParts l).1 := by
  induction l generalizing s with
  | nil => exact .rfl
  | cons e t ih =>
    rw [State.readParts]
    dsimp only
    split
    · exact s.readUnit_sound _ _
    · exact (s.readUnit_sound _ _).trans (ih _)

theorem State.deliverCopy_sound (s : State) (n : Nat) (o : OutItem) (rest : List OutItem) (bad : Option Nat) :
    Sound s (s.deliverCopy n o rest bad) := by
  unfold State.deliverCopy
  dsimp only
  split
  · exact .rfl
  have k {t : State} (h : t.kept = (s.readParts o.parts).1.kept) : Sound s t := (s.readParts_sound _).trans (.ofKept h)
  · split <;> exact k (by simp)

theorem State.deliveryOp_sound (s : State) (n : Nat) (bad : Option Nat) : Sound s (s.deliveryOp n bad) := by
  unfold State.deliveryOp
  dsimp only
  repeat' first
    | (refine .ofKept ?_; simp; done)
    | exact .app (·.retestAll) (by simp) (s.deliverCopy_sound _ _ _ _)
    | split

theorem State.readPkt_sound (s : State) (q : QUnit) : Sound s (s.readPkt q).1 := by
  unfold State.readPkt
  dsimp only
  split
  · exact .rfl
  · exact s.readLines_sound _ _ _ _

theorem State.handOff_sound (s : State) (p : Nat) (c : Cand) (chk : EgressCheck) : Sound s (s.handOff p c chk) := by
  unfold State.handOff
  dsimp only
  exact (s.readPkt_sound c.q).trans (.ofKept (by simp))

theorem State.selectOp_sound (s : State) (p : Nat) (htx : List Byte) (chk : EgressCheck) : Sound s (s.selectOp p htx chk) := by
  have h (z : State) (g : Sound s z) (c : Cand) : Sound s (z.handOff p c chk).retestAll :=
    .app (·.retestAll) (by simp) (g.trans (z.handOff_sound p c chk))
  unfold State.selectOp
  dsimp only
  split
  · exact .rfl
  split
  · exact h _ .rfl _
  have k : Sound s (if s.passes (.port p) false then s.nonLive p (s.cands p) else (s, none)).1 :=
    .ofKept (by split <;> simp)
  split
  · exact h _ k _
  · split
    · exact k.trans (.ofKept (by simp))
    · exact k

end Sys2Proof.Machine
end

