-- ==== Sys2Proof/WellFormed.lean ====
section
/-!
DEFINITION. Which commands are well formed: numbers of functions, records, tiles, ports, stacks, panels and the like lie in the
ranges of the spec. The machine's meanings are total: an ill-formed command changes nothing, or is ignored as the rule of its
register says.
-/
namespace Sys2Proof

/-- A function (R329): 0 the PF, 1 to 63 a VF. -/
def okFn (fn : Nat) : Bool := decide (fn < 64)

/-- A VF number (R333). -/
def okVf (n : Nat) : Bool := decide (1 ≤ n) && decide (n < 64)

/-- A BAR0 byte offset of function `fn`: 16 MiB for the PF, 1 MiB for a VF (R331). -/
def okOff (fn off : Nat) : Bool := okFn fn && decide (off < if fn = 0 then 0x1000000 else 0x100000)

/-- A session record (R53): 4,096 in the PF's window, 960 aliases in a VF's (Table 17.2). -/
def okRec (fn n : Nat) : Bool := okFn fn && decide (n < if fn = 0 then 4096 else 960)

/-- A session number. -/
def okSes (n : Nat) : Bool := decide (n < 4096)

/-- A tile number (R1). -/
def okTile (t : Nat) : Bool := decide (t < 52)

/-- A stack, quadrant or Ethernet, panel, DMA channel number. -/
def okStack (k : Nat) : Bool := decide (k < 4)
def okQuad (q : Nat) : Bool := decide (q < 4)
def okEth (p : Nat) : Bool := decide (p < 2)
def okPanel (p : Nat) : Bool := decide (p < 16)
def okChan (n : Nat) : Bool := decide (n < 64)

/-- A mangle subscriber (R220). -/
def okSub (n : Nat) : Bool := decide (n < 4096)

/-- A 64-byte descriptor. -/
def okDesc (d : List Byte) : Bool := d.length == 64

/-- A bucket (R223). -/
def BucketId.ok : BucketId → Bool
  | .sub n => okSub n
  | .svc k => decide (k < 256)
  | .port p => decide (p < 4)

/-- A fault event names a class and a unit that the collector encodes (R263). -/
def FaultEv.ok (e : FaultEv) : Bool := decide (e.cls < 64) && decide (e.unit < 64) && okSes e.ses

/-- A frame header's fields fit Table 18.2. -/
def LineHdr.ok (h : LineHdr) : Bool := decide (h.flags < 4) && decide (h.dst < 2 ^ 18) && decide (h.src < 2 ^ 18)
  && decide (h.seq < 65536) && decide (h.hops < 65536)

/-- A clothesline address (R355). -/
def okAddr (a : Nat) : Bool := decide (a < 2 ^ 18)

/-- A command is well formed. -/
def Instr.wf : Instr → Bool
  | .registerWrite fn off d => okOff fn off && (match d with
    | .words vs => !vs.isEmpty
    | _ => true)
  | .ignoredCountClear fn off _ | .counterClear fn off _ => okOff fn off && off % 4 == 0
  | .openSession fn n _ | .configure fn n _ | .start fn n _ | .pause fn n _ | .resume fn n _ | .drain fn n _ | .close fn n _
  | .migrateOut fn n _ | .migrateIn fn n _ | .invalidateRef fn n _ | .forceRecovery fn n _ => okRec fn n
  | .sesLevelWrite fn n _ | .inTailWrite fn n _ | .hintTailWrite fn n _ | .outHeadWrite fn n _ | .ringInRowsWrite fn n _
  | .outBufHeadWrite fn n _ | .decWinRelease fn n _ => okRec fn n
  | .migrationStateCopy n | .migrationComplete n | .migrationTimeout n | .hostUnitDelivery n _ => okSes n
  | .pictureAdmission n a | .deadlinePass n a => okSes n && okDesc a.entry && okDesc a.hint && a.chunks.all okDesc
  | .unitDispatch p _ | .panelResetDone p _ => okPanel p
  | .storeLoadDone ts | .quietWindowClose ts => ts.all okTile
  | .tileIdleOff t | .move t | .issue t | .wait t _ | .branch t _ | .loop t | .commit t _ | .yield t | .trap t _
  | .routineAbandon t | .tileWatchdog t | .tileFault t _ | .selfTestDone t _ | .retire t | .retest t | .budgetStop ⟨t, _, _, _⟩
  | .inboxFlush t _ | .preciseSample t _ _ => okTile t
  | .quadrantPllStop q | .quadrantSleep q | .quadrantStepUp q | .quadrantPllLoss q _ => okQuad q
  | .scrubRead k _ | .freqChangeRequest k _ | .freqChangeDone k | .fullSweep k _ | .marginSweep k _ | .sweepAbort k _
  | .sweepDone k _ | .dsetFlagsWrite k _ | .loadWindow k _ _ | .arbSeedWrite k _ | .stackSleep k | .stackWakeDone k
  | .stackTempReport k _ | .arbiterGrant k _ => okStack k
  | .rowCloseTimeout k c r b => okStack k && decide (c < 16) && decide (r < 4) && decide (b < 16)
  | .bankRefresh k r | .rankPowerDown k r | .rankSelfRefresh k r => okStack k && decide (r < 4)
  | .caParityError k c _ => okStack k && decide (c < 16)
  | .memRequest a op _ => decide (a < 2 ^ 46) && a % 64 == 0 && (match op with
    | .read _ => true
    | .write data _ => data.length == 64)
  | .ethLinkUp p | .ethLinkDown p | .ethFrameReceive p _ | .htxTailWrite p _ | .gateChange p _ | .gateCancel p _
  | .gateListStart p | .gateEntryAdvance p => okEth p
  | .packetSelect p htx _ => decide (p < 4) && (htx.isEmpty || okDesc (htx.take 64))
  | .portShapeWrite p _ => decide (p < 4)
  | .failback n | .unitStale n => okSub n
  | .ingestCloseTimeout k => decide (k < 32)
  | .creditRise b => b.ok
  | .faultEvent evs => !evs.isEmpty && evs.all FaultEv.ok
  | .dmaTailWrite n _ | .burstStart n | .descriptorWriteback n _ | .dmaAbort n _ | .dmaEnable n _ => okChan n
  | .descriptorStart n d _ => okChan n && okDesc d
  | .cvuData8 u _ | .cvuData16 u _ | .cvuData32 u _ | .cvuResultRead u | .cvuStart u _ | .cvuCtlWrite u _ => decide (u < 8)
  | .vfFlr n | .flrComplete n | .vfSessWrite n _ => okVf n
  | .bktEnable fn _ | .bktHeadWrite fn _ | .msixModerationExpiry fn | .msixUnmask fn _ _ _ | .bktMaskWrite fn _
  | .hprHeadWrite fn _ => okFn fn
  | .pendingSourceAssert n _ m => decide (n < 5) && okSes m
  | .pendingSourceDeassert n => decide (n < 5)
  | .peg h a => h.ok && okAddr a
  | .pegReq _ h _ _ | .pegAck _ h _ | .pegNak _ h _ | .timeSync _ h | .timeResp h _ _ | .note _ h _ | .agg _ h _ _ _ => h.ok
  | .migCtl _ h n _ | .migData _ h n _ => h.ok && okSes n
  | .pkt _ h n _ => h.ok && okSub n
  | .linkAck _ q | .linkNak _ q => decide (q < 65536)
  | .domainSleepWrite d _ => decide (d < 8)
  | .supplyExcursion r _ _ => decide (r < 9)
  | .pmuEvtWrite t k _ => match t with
    | none => decide (k < 64)
    | some t => okTile t && decide (k < 8)
  | .thresholdEvent n v => decide (n < 64) && decide (v < 2 ^ 48)
  | .bwWindowBoundary ts => ts.length == 16
  | .pcieLinkUp speed _ _ => decide (1 ≤ speed) && decide (speed ≤ 6)
  | .lineFrameError _ e => match e with
    | .badCrc q => decide (q < 65536)
    | _ => true
  | .timebaseTick | .loadFull | .loadPiece | .abortLoad | .clearPattern | .clearDone | .fetchDone _ | .validationDone
  | .quietWindowOpen | .pressTimeout | .flowLoad _ | .flowCommit _ | .subLoad _ | .subCommit _ | .subFlush _ | .svcLoad _
  | .svcCommit _ | .faultAcknowledge _ _ | .firstClear _ | .faultCfgWrite _ | .faultWindowWrite _ | .faultInject _
  | .lintEntryWrite | .freeze _ | .unfreeze _ | .snap _ | .lintClear _ | .lintSramError | .dmaReqSet _ | .dmaReqClear _
  | .pcieLinkDown | .pfFlr | .vfEnableClear | .hifClaim | .hifEoi _ | .pendEnWrite _ | .timeSyncTimer | .linkAckTimer _
  | .lineLinkDown _ | .lineLinkUp _ | .aggRound | .lineTablePublish | .linPeg _ | .linRequest _ | .linRelease _ | .standby _
  | .standbyEntry | .warm _ | .cold _ | .warmResetDone | .powerOnReset | .perst | .firmwareVerifyDone _ | .bootComplete _
  | .wake | .wakeNEdge | .wakeTimer | .wakeDone _ _ | .tempSample _ _ _ | .tbAdjWrite _ | .tbSlewWrite _ | .tbStepWrite _
  | .ppsInEdge | .ppsOutPulse | .refClockLost | .importKey _ | .clearSlot _ | .provision _ | .revoke _ | .svnCommit _
  | .lockDebug _ | .unlockDebug _ | .pmuClear _ | .pmuThrAck _ _ | .sampleHeadWrite _ | .i2cStatus | .i2cTemp | .i2cVolts
  | .i2cSerial | .i2cTimebase | .resetRelease | .coreReloadDone | .secCommandDone _ _ => true

end Sys2Proof
end

