-- ==== Sys2Proof/Tests/Slice0.lean ====
section
/-!
SUPPORT. Tests on small states: that each check of WellFormed refuses, and for each statement with hypotheses a concrete state
and operands that meet them together, with what the command does there. Expected values come from the rules of spec/.
-/
namespace Sys2Proof.Tests
open Sys2Proof Sys2Proof.Machine
set_option maxRecDepth 20000
set_option Elab.async false

/-- The next state of a command; a stop gives a state that no test expects. -/
def run (c : Instr) (s : State) : State := match exec c s with
  | .next t => t
  | _ => { outbox := [.thermtrip], freeCtr := 99 }

/-- The reset state with a nonce that can be compared. -/
def held : State := { sec := { nonce := 0 } }
/-- In service without a pattern: PRIMED. -/
def up : State := { held with pwr := { life := .up } }
/-- In service with a pattern that uses nothing: WOVEN. -/
def woven : State := { up with pat := { serial := 7 } }

/-- A program of codec 2 for encode and one for decode. -/
def encProg : Prog := { codec := 2, profiles := 15, words := [0xC0000000, 0xE0000000] }
def decProg : Prog := { codec := 2, decode := true, profiles := 15, words := [0xC0000000] }
/-- Panel 0 with tile 0, for every class. -/
def panel0 : Panel :=
  { tiles := 1, classes := 15, effort := 7, ports := 15, maxSes := 16, maxW := 8192, maxH := 8192, progMask := 3, progs := [encProg, decProg] }
/-- A pattern with panel 0 on tile 0, 64 hamper pages, a region and both Ethernet ports. -/
def pat1 : Pattern :=
  { serial := 7, roles := [(0, 0x10)], panels := [(0, panel0)], regions := [(0, { mask := 1, start := 2, count := 1 })]
    lane := [(0, 1), (1, 1)], lines := 7, caps := [(0, 12)], pages := 1000 }
/-- An active tile of panel 0, napping with its program set in its store. -/
def tile0 : Tile := { role := .active, power := .nap, store := [(0, 0xC0000000), (1, 0xE0000000)] }
/-- In service with `pat1`: tile 0 naps at 1.2 GHz. -/
def lib : State :=
  { up with pat := pat1, tiles := [(0, tile0)], pwr := { life := .up, quads := [(0, { pll := true, mhz := 1200 })] } }
/-- Staged values of a 256 by 256 encode session: codec 2 at the unconstrained level, 50 Mbit/s, input, output and buffer rings. -/
def cfg1 : Tbl Word :=
  [(0x040, 0xFF02), (0x044, 0x01000100), (0x104, 50000000), (0x10C, 4000000), (0x204, 0x100000), (0x20C, 20), (0x2C0, 0x10000),
   (0x2C8, 4), (0x2E0, 0x20000), (0x2E8, 4)]
/-- A LIVE session in state `st` with `cfg1` staged and in force. -/
def ses1 (st : Ses) : Session :=
  { st := st, staged := cfg1, force := some ({ staged := cfg1 } : Session).effective }
/-- `lib` with record 5 as given. -/
def at5 (x : Session) : State := { lib with sessions := [(5, x)] }
/-- `n` as `k` bytes, least significant first, and a block padded to `n` bytes. -/
def pad (n : Nat) (l : List Byte) : List Byte := l ++ List.replicate (n - l.length) 0
/-- A program of one microword with its check value (Table 2.5). -/
def imgProg : List Byte :=
  leBytes 1 2 ++ leBytes 1 1 ++ leBytes 2 15 ++ leBytes 4 1 ++ leBytes 4 (crc32c [0, 0, 0, 0xE0]).toNat ++ leBytes 4 0 ++ [0, 0, 0, 0xE0]
/-- A directory entry (Table 2.2). -/
def dirEnt (t off len : Nat) : List Byte := leBytes 4 t ++ leBytes 4 off ++ leBytes 4 len ++ leBytes 4 0
/-- The trailer of R33 for slot 0 with signature (r, s): the base point, whose private key is 1, is the key of slot 0 here. -/
def signedBy (r s : Nat) : List Byte := leBytes 4 0x5349474E ++ leBytes 4 0 ++ leBytes 48 r ++ leBytes 48 s ++ List.replicate 24 0
/-- A trailer whose signature verifies under no key. -/
def noSig : List Byte := signedBy 0 0
/-- A full pattern of serial 9 with no tile in use: one program, one hamper page, quadrant 0 capped at 800 MHz. -/
def fullImg : List Byte :=
  pad 64 (leBytes 4 0x4D565054 ++ leBytes 2 1 ++ [1, 0] ++ leBytes 4 1488 ++ leBytes 4 9 ++ leBytes 4 0 ++ leBytes 2 0 ++ leBytes 2 7) ++
  pad 128 (dirEnt 1 192 256 ++ dirEnt 2 448 512 ++ dirEnt 3 960 20 ++ dirEnt 4 1024 136 ++ dirEnt 5 1216 16 ++ dirEnt 6 1280 16 ++
    dirEnt 7 1344 16) ++
  pad 768 [] ++ pad 64 imgProg ++ pad 192 (pad 128 [] ++ leBytes 8 0x010201) ++ pad 64 [] ++ pad 64 [8] ++ pad 16 [1] ++
  signedBy 0x3c8d87e7988591eb2dd448be08ad12d84ce38a5dd1135c7f3276a3e1fedfaebdbea316ae2134571b86fc45d018afcb56
    0xf3a7c9f5d02fcb0144d3af301a8e20a8da2670c32d4e7bc10316db38417d1db8a73ebbecb697592d62270b26adb4a765
/-- A piece of serial 8 for panel 0 of pattern 7, which leaves the panel empty. -/
def pieceImg : List Byte :=
  pad 64 (leBytes 4 0x4D565054 ++ leBytes 2 1 ++ [2, 0] ++ leBytes 4 704 ++ leBytes 4 8 ++ leBytes 4 7 ++ leBytes 2 1 ++ leBytes 2 3) ++
  pad 64 (dirEnt 2 128 32 ++ dirEnt 3 192 20 ++ dirEnt 8 256 256) ++
  pad 64 [] ++ pad 64 imgProg ++ pad 320 [] ++ noSig
/-- A posted source descriptor (Table 5.2) of two 256-byte planes in host memory with a pts of 90 and the deadline `due`. -/
def srcEnt (due : Nat) : List Byte :=
  leBytes 8 0x100000 ++ leBytes 8 0x200000 ++ leBytes 8 0 ++ leBytes 4 256 ++ leBytes 4 256 ++ leBytes 4 0 ++ leBytes 8 90 ++
    leBytes 8 due ++ leBytes 8 0 ++ leBytes 4 0x80000000
/-- A device of address 65 (a follower on line 1) with every clothesline port up. -/
def lined : State :=
  { lib with lin := { addr := 65, valid := true, ports := [(0, { up := true }), (1, { up := true }), (2, { up := true })] } }
/-- The manager of line 1. -/
def mgr : State := { lined with lin := { lined.lin with addr := 64, ctl := 1 } }
/-- A picture of `cfg1` with one unit that runs on tile 0 for the first time. -/
def pic1 : Pic :=
  { deadline := some 500000000, cfg := (ses1 .running).cfg, cap := 3000000, units := [{ st := .running, attempts := 1 }] }
/-- Session 5 runs `pic1` on tile 0, whose next microword is `w`. -/
def busy (w : Word) (n : Needle := { state := 1 }) : State :=
  { at5 { ses1 .running with pics := [pic1], nextPic := 1, inTail := 2, inHead := 1 } with
    tiles := [(0, { tile0 with power := .run, work := some { ses := 5 }, store := [(0, w)], ndl := n })] }
/-- A microword of a class (Table 14.1). -/
def mw (cl variant a b imm : Nat) : Word := BitVec.ofNat 32 (cl * 2 ^ 29 + variant * 2 ^ 27 + a * 2 ^ 21 + b * 2 ^ 15 + imm)
/-- A DMA descriptor of one 64-byte line with generation 0 (Table 16.2). -/
def desc (src dst flags : Nat) (len : Nat := 64) (req : Nat := 0) : List Byte :=
  leBytes 8 src ++ leBytes 8 dst ++ leBytes 4 0 ++ leBytes 4 0 ++ leBytes 3 len ++ leBytes 1 req ++ leBytes 2 1 ++ leBytes 2 0 ++
    leBytes 8 src ++ leBytes 8 dst ++ leBytes 4 4096 ++ leBytes 4 4096 ++ leBytes 2 0 ++ leBytes 2 0 ++ leBytes 4 flags
/-! ## WellFormed -/

/-- An ill-formed command for each check. -/
theorem test_wf_refuses : ([
    .registerWrite 64 0 (.words [0]), .registerWrite 0 0x1000000 (.words [0]), .registerWrite 1 0x100000 (.words [0]),
    .registerWrite 0 0x14 (.words []), .ignoredCountClear 0 0x31 0, .counterClear 0 0x20019 0, .openSession 0 4096 0,
    .openSession 1 960 0, .inTailWrite 64 0 0, .migrationStateCopy 4096, .pictureAdmission 0 { entry := [0] },
    .unitDispatch 16 [], .storeLoadDone [52], .move 52, .quadrantPllStop 4, .scrubRead 4 [], .rowCloseTimeout 0 16 0 0,
    .rowCloseTimeout 0 0 4 0, .rowCloseTimeout 0 0 0 16, .bankRefresh 0 4, .caParityError 0 16 false,
    .memRequest 1 (.read []) 0, .memRequest (2 ^ 46) (.read []) 0, .memRequest 0 (.write [] 0) 0, .ethLinkUp 2,
    .packetSelect 4 [] .good, .packetSelect 0 [0] .good, .portShapeWrite 4 0, .failback 4096, .ingestCloseTimeout 32] : List Instr).all
      (fun c => !c.wf) = true := by decide

theorem test_wf_refuses_more : ([
    .creditRise (.sub 4096), .creditRise (.svc 256), .creditRise (.port 4), .faultEvent [], .faultEvent [{ cls := 64 }],
    .faultEvent [{ cls := 1, unit := 64 }], .faultEvent [{ cls := 1, ses := 4096 }], .dmaTailWrite 64 0, .descriptorStart 0 [] [],
    .cvuData8 8 0, .vfFlr 0, .vfFlr 64, .bktEnable 64 0, .pendingSourceAssert 5 0 0, .pendingSourceAssert 0 0 4096,
    .pendingSourceDeassert 5, .peg {} (2 ^ 18), .peg { flags := 4 } 0, .peg { dst := 2 ^ 18 } 0, .peg { src := 2 ^ 18 } 0,
    .peg { seq := 65536 } 0, .peg { hops := 65536 } 0, .pegReq .up { seq := 65536 } 0 true, .migData .up {} 4096 [],
    .pkt .up {} 4096 [], .linkAck .up 65536, .domainSleepWrite 8 0, .supplyExcursion 9 0 0, .pmuEvtWrite none 64 0,
    .pmuEvtWrite (some 0) 8 0, .pmuEvtWrite (some 52) 0 0, .thresholdEvent 64 0, .thresholdEvent 0 (2 ^ 48),
    .bwWindowBoundary [], .pcieLinkUp 0 1 true, .pcieLinkUp 7 1 true, .lineFrameError .up (.badCrc 65536)] : List Instr).all
      (fun c => !c.wf) = true := by decide

theorem test_wf_accepts : ([
    .registerWrite 63 0xFFFFC (.words [0]), .openSession 0 4095 0, .openSession 1 959 0, .move 51, .memRequest (2 ^ 46 - 64) (.read []) 0,
    .thresholdEvent 63 (2 ^ 48 - 1), .peg { dst := 2 ^ 18 - 1 } (2 ^ 18 - 1), .vfFlr 63, .timebaseTick, .i2cVolts] : List Instr).all
      Instr.wf = true := by decide

/-! ## The step, registers and the timebase -/

theorem test_step_takes_the_front :
    step { up with pending := [.ppsInEdge, .i2cSerial] } = exec .ppsInEdge { up with pending := [.i2cSerial] } := by rfl

theorem test_step_idle : step up = .next up := by rfl

theorem test_reset_form : State.reset.hbmForm = true ∧ State.reset.live = false ∧ State.reset.mode = .standby := by decide

/-- A line write and a line read keep the canonical form; a command outside `mayWriteHbm` keeps contents. -/
theorem test_contents_kept : mayWriteHbm .ppsInEdge = false ∧ mayWriteHbm (.warm 2) = false ∧
    (run (.warm 2) { up with mem := [(3, 9)], side := [(8, 1)] }).mem = [(3, 9)] ∧ (run (.warm 2) { up with now := 5 }).now = 5 := by
  decide

/-- R374 and Table 19.2: what a power-on reset loses and keeps. -/
theorem test_power_on_reset :
    let s : State := { woven with now := 9, mem := [(1, 2)], regs := [(0x14, 5)], sec := { nonce := 0, counter := 3, otk := true } }
    let t := run .powerOnReset s
    { t with sec := held.sec, freeCtr := 0 } = held ∧ t.sec.counter = 3 ∧ t.sec.otk = true ∧ t.sec.debug = 1 ∧ t.mode = .standby := by decide

theorem test_resets_keep :
    let s : State := { woven with now := 9, mem := [(1, 2)], flt := { aon := 4 }, pwr := { life := .up, frac := 3 } }
    s.live = true ∧ (run (.cold 0) s).now = 9 ∧ (run (.cold 0) s).mem = [] ∧ (run (.cold 0) s).flt.aon = 4 ∧
      (run (.cold 0) s).pwr.life = .boot ∧ (run (.warm 0) s).mem = [(1, 2)] ∧ (run (.warm 0) s).pwr.life = .warm ∧
      (run .pfFlr s).pwr.life = .warm ∧ (run .perst s).pwr.life = .held ∧ (run .perst s).pwr.lastReset = 1 ∧
      run .perst held = held ∧ run .warmResetDone up = up := by decide

theorem test_warm_reset_done :
    let s : State := { held with pwr := { life := .warm }, flt := { aon := 4 } }
    run .warmResetDone s = { s with pwr := { life := .up }, flt := { aon := 4, status := 4 } } := by decide

/-- R12: reserved bits stay zero; R337: two words in address order. -/
theorem test_register_write : up.live = true ∧ run (.registerWrite 0 0x14 (.words [0xFFFFFFFF])) up = { up with regs := [(0x14, 0xFFFFFFFF)] } ∧
    run (.registerWrite 0 0x20000 (.words [0xFFFFFFFE])) up = up ∧ (run (.registerWrite 0 0x20000 (.words [0xFFFFFFFE])) up).reg 0x20000 = 0 ∧
    (run (.registerWrite 0 0x2000C (.words [0xFFFFFFFF])) up).reg 0x2000C = 0xFFF ∧
    (run (.registerWrite 0 0xB000C (.words [0xFFFFFFFF])) up).reg 0xB000C = 0x7FFFF ∧
    (run (.registerWrite 0 0x70008 (.words [1, 2])) up).reg 0x7000C = 2 := by decide

/-- R9, R10: an ignored write leaves count, offset, value and mode (PRIMED, code 1). -/
theorem test_register_ignored :
    let t := run (.registerWrite 0 0x10 (.words [5])) up
    (t.reg 0x30, t.reg 0x34, t.reg 0x38, t.reg 0x3C) = (1, 0x10, 5, up.ignMode) ∧ fld up.ignMode 2 0 = 1 ∧
    (run (.registerWrite 0 0x200000 (.words [5])) { up with a144 := false }).reg 0x34 = 0 ∧
    (run (.registerWrite 0 0x3F8000 (.words [5])) up).reg 0x34 = 0x3F8000 ∧
    (run (.registerWrite 0 0x14 (.short 5)) up).reg 0x34 = 0x14 ∧ (run (.registerWrite 0 0x14 (.poisoned 5)) up).reg 0x30 = 1 ∧
    (run (.registerWrite 1 0x3000 (.words [5])) up).reg (2 ^ 24 + 0x34) = 0x3000 ∧
    run (.registerWrite 0 0x34 (.words [5])) up = up := by decide

theorem test_counter_clears :
    let s : State := { up with regs := [(0x30, 9), (0x20018, 4), (2 ^ 24 + 0x30, 7)], sessions := [(3, { ignored := 5 })] }
    (ignWindow 0x30).1 = 0x30 ∧ s.present 0x30 = true ∧ (run (.ignoredCountClear 0 0x30 1) s).reg 0x30 = 0 ∧
      run (.ignoredCountClear 0 0x400C18 1) s = { s with sessions := [] } ∧
      (run (.ignoredCountClear 1 0x30 1) s).reg (2 ^ 24 + 0x30) = 0 ∧
      run (.counterClear 0 0x20018 1) s = { s with regs := [(0x30, 9), (2 ^ 24 + 0x30, 7)] } := by decide

theorem test_tile_counter_clear :
    let s : State := { up with pwr := { life := .up, quads := [(0, { pll := true })] }, regs := [(0x202010, 4)] }
    0 < s.nTiles ∧ (s.quad (quadOf 0)).pll = true ∧ run (.counterClear 0 0x202010 1) s = { s with regs := [] } := by decide

/-- R381: 50 st a tick, the ADJ fraction carried, a STEP, a stitch of SLEW at the 64th tick. -/
theorem test_timebase_tick : (run .timebaseTick { up with now := 7 }).now = 57 ∧
    (run .timebaseTick { up with pwr := { life := .up, adj := 107374182, frac := 2 ^ 32 - 1 } }).now = 51 ∧
    (run .timebaseTick { up with pwr := { life := .up, step := some (-20) } }).now = 30 ∧
    (run .timebaseTick { up with pwr := { life := .up, slew := -3, slewTicks := 63 } }).now = 49 ∧
    (run .timebaseTick { up with pwr := { life := .up, slew := -3, slewTicks := 63 } }).pwr.slew = -2 ∧
    (run .timebaseTick { up with pwr := { life := .up, slew := -3, slewTicks := 62 } }).now = 50 := by decide

theorem test_timebase_writes :
    run (.tbAdjWrite 107374182) up = { up with pwr := { life := .up, adj := 107374182 } } ∧
    run (.tbAdjWrite 107374183) up = up.ignored 0x70088 107374183 ∧
    (run (.tbSlewWrite 0xFFFFFFFF) up).pwr.slew = -1 ∧ (run (.tbSlewWrite 0xFFFFFFFF) up).readWord 0x7008C = 0xFFFFFFFF ∧ up.anyRunning = false ∧ (run (.tbStepWrite 0) up).pwr.step = some 0 ∧
    run (.tbStepWrite 1) { up with sessions := [(0, { st := .running })] } =
      ({ up with sessions := [(0, { st := .running })] } : State).ignored 0x70094 1 ∧
    (run .ppsInEdge { up with now := 8 }).pwr.ppsIn = 8 ∧
    (run .ppsOutPulse { up with now := 8, pwr := { life := .up, ppsDue := true } }).outbox = [.pps 8] := by decide

/-- R22 to R24 at a line of zeros. -/
theorem test_rebase : rebase (careLabel (List.replicate 64 0) (foldWord 0 0)) (foldWord 0 0) (foldWord 64 1) =
    careLabel (List.replicate 64 0) (foldWord 64 1) := by decide

/-- CRC-32C of the nine digits, the check value that names the code. -/
theorem test_crc32c : crc32c [0x31, 0x32, 0x33, 0x34, 0x35, 0x36, 0x37, 0x38, 0x39] = 0xE3069283 := by decide
/-! ## The pattern loader -/

/-- R41, R48, R52: where Table 2.9 allows a command it starts; PAT_LEN of 0 ends with code 2; elsewhere it is ignored. -/
theorem test_loader_starts :
    let ok : State := { up with regs := [(0x1000C, 256)] }
    let w : State := { woven with regs := [(0x1000C, 67108864)] }
    ok.live = true ∧ ok.mode = .primed ∧ ok.allClosed = true ∧ ok.anyProvisional = false ∧
      run .loadFull ok = { ok with ldr := { busy := true, phase := 1 } } ∧
      run .loadPiece w = { w with ldr := { busy := true, phase := 1, piece := true } } ∧
      run .clearPattern w = { w with ldr := { busy := true, phase := 6, clearing := true } } ∧
      (run .loadFull up).ldr = { reject := 2 } ∧ (run .loadPiece woven).ldr = { reject := 2 } ∧
      run .loadPiece up = up.ignored 0x10000 2 ∧ run .clearPattern up = up.ignored 0x10000 4 ∧
      run .loadFull (at5 (ses1 .running)) = (at5 (ses1 .running)).ignored 0x10000 1 := by decide

/-- R33, R42, R52, R427: ABORT, a failed fetch, a trailer without its form, a slot without the usage, a signature that does not
verify, and one that does. -/
theorem test_loader_fetch :
    let s : State := { up with ldr := { busy := true, phase := 1 }, regs := [(0x1000C, 1488)] }
    let k : State := { s with sec := { s.sec with revoked := 1 } }
    let bad := fullImg.take 1360 ++ noSig
    let bare := fullImg.take 1360 ++ List.replicate 128 0
    (run .abortLoad s).ldr = { reject := 0x11 } ∧ (run (.fetchDone .failed) s).ldr = { reject := 0x12 } ∧
      fullImg.length = (s.reg 0x1000C).toNat ∧ trailerForm bare = false ∧ (run (.fetchDone (.fetched bare)) s).ldr = { reject := 1 } ∧
      trailerForm fullImg = true ∧ s.sec.verifies (trailerSlot fullImg) 1 = true ∧ k.sec.verifies (trailerSlot fullImg) 1 = false ∧
      (run (.fetchDone (.fetched fullImg)) k).ldr = { reject := 4 } ∧ s.sec.signed bad = false ∧
      (run (.fetchDone (.fetched bad)) s).ldr = { reject := 3 } ∧ s.sec.signed fullImg = true := by
  decide +kernel

theorem test_loader_authenticates :
    let s : State := { up with ldr := { busy := true, phase := 1 }, regs := [(0x1000C, 1488)] }
    run (.fetchDone (.fetched fullImg)) s = { s with ldr := { busy := true, phase := 3, image := fullImg } } := by
  decide +kernel

/-- R427: a wrong kind ends validation with code 1; R50: a press that finds no quiet instant ends with 0x0F. -/
theorem test_loader_rejects :
    let s : State := { woven with ldr := { busy := true, phase := 3, piece := true, image := fullImg }, regs := [(0x1000C, 1488)] }
    let p : State := { woven with ldr := { busy := true, phase := 4, pressing := 1 }, regs := [(0x10018, 100)], now := 100 }
    s.checkImage s.ldr.piece (s.reg 0x1000C).toNat s.ldr.image = some 1 ∧ (run .validationDone s).ldr = { reject := 1, piece := true } ∧
      p.ldr.drainAt + (p.reg 0x10018).toNat ≤ p.now ∧ (run .pressTimeout p).ldr = { reject := 0x0F } := by decide +kernel

/-- Table 2.6 step 4 and Table 2.8 step 3 on images built from the tables of chapter 2. -/
theorem test_validation_done :
    let s : State := { up with ldr := { busy := true, phase := 3, image := fullImg }, regs := [(0x1000C, 1488)] }
    let p : State := { woven with ldr := { busy := true, phase := 3, piece := true, image := pieceImg }, regs := [(0x1000C, 704)], now := 5 }
    s.checkImage s.ldr.piece (s.reg 0x1000C).toNat s.ldr.image = none ∧ (run .validationDone s).ldr.phase = 6 ∧
      (run .validationDone s).pat.serial = 0 ∧ (run .validationDone s).pat.pages = 1 ∧ ((run .validationDone s).quad 0).mhz = 800 ∧
      ((run .validationDone s).quad 1).pll = false ∧
      p.checkImage p.ldr.piece (p.reg 0x1000C).toNat p.ldr.image = none ∧ (run .validationDone p).ldr.phase = 4 ∧
      (run .validationDone p).ldr.pressing = 1 ∧ (run .validationDone p).ldr.drainAt = 5 ∧ (run .validationDone p).pat = p.pat := by
  decide +kernel

/-- R43, Table 2.6 steps 5 to 7: with and without a failed store check of a tile in use. -/
theorem test_store_load_done :
    let s : State := { lib with pat := { pat1 with serial := 0 }, ldr := { busy := true, phase := 6, next := pat1 } }
    (run (.storeLoadDone []) s).pat = pat1 ∧ (run (.storeLoadDone [])  s).ldr.reject = 0 ∧ (run (.storeLoadDone [1]) s).pat = pat1 ∧
      (run (.storeLoadDone [0]) s).pat = {} ∧ (run (.storeLoadDone [0]) s).ldr.reject = 0x10 ∧
      ((run (.storeLoadDone [0]) s).tile 0).power = .off ∧ ((run (.storeLoadDone [0]) s).quad 0).pll = false := by decide +kernel

theorem test_clear_done :
    let s : State := { lib with ldr := { busy := true, phase := 6, clearing := true }, tiles := [(0, tile0), (1, { role := .retired })] }
    (run .clearDone s).pat = {} ∧ (run .clearDone s).ldr = {} ∧ ((run .clearDone s).tile 0).role = .unused ∧
      ((run .clearDone s).tile 1).role = .retired ∧ (run .clearDone s).mode = .primed := by decide +kernel

/-- R48, R50: the governed tile takes its new role; the window closes with and without a failed store check. -/
theorem test_quiet_window :
    let s : State := { lib with ldr := { busy := true, phase := 4, pressing := 1, next := { pat1 with serial := 8, roles := [] } } }
    let c : State := { lib with ldr := { busy := true, phase := 5, pressing := 1, next := { pat1 with serial := 8 }, rollback := pat1 } }
    s.panelsBusy s.ldr.pressing = false ∧ governed (tget 0 s.pat.roles 0) s.ldr.pressing = true ∧ (run .quietWindowOpen s).ldr.phase = 5 ∧
      ((run .quietWindowOpen s).tile 0).role = .unused ∧ (run .quietWindowOpen s).pat = pat1 ∧
      (run (.quietWindowClose []) c).pat.serial = 8 ∧ (run (.quietWindowClose []) c).ldr.reject = 0 ∧
      inMask (tget 0 c.ldr.next.roles 0) 1 = true ∧ (run (.quietWindowClose [0]) c).pat.serial = 7 ∧
      (run (.quietWindowClose [0]) c).ldr.reject = 0x10 ∧ (run (.quietWindowClose [0]) c).ldr.busy = false := by decide +kernel

/-! ## Sessions -/

/-- Table 3.3 and Table 3.4: reason 0 out of state, 6 out of mode, 7 for an argument; nothing else changes. -/
theorem test_session_barred :
    let s := at5 (ses1 .ready)
    Reaches s 0 5 5 ∧ Serving s ∧ Ses.ready ∉ tableStates 4 ∧
      run (.pause 0 5 0) s = s.setSes 5 (refusal (s.ses 5) 0 (cmdWord 4 0) 0) ∧
      s.cmdReason 5 3 1 = some 7 ∧ run (.start 0 5 1) s = s.setSes 5 (refusal (s.ses 5) 0 (cmdWord 3 1) 7) ∧
      (run (.openSession 0 5 0) up).ses 5 = refusal {} 0 (cmdWord 1 0) 6 ∧ fld (refusal {} 0 0 6).ignWhy 7 4 = 6 := by
  unfold Reaches Serving; decide +kernel

theorem test_session_barred_in_safe :
    let s : State := { at5 (ses1 .running) with pwr := { lib.pwr with safe := true } }
    s.mode = .safe ∧ run (.pause 0 5 0) s = s.setSes 5 (refusal (s.ses 5) 0 (cmdWord 4 0) 6) ∧ s.cmdReason 5 7 0 = none := by
  decide +kernel

/-- Table 3.3 OPEN of an encode session, and of a LIVE one of a panel whose spare tile 1 is off: the spare is warm after it. -/
theorem test_open :
    let s := at5 { staged := cfg1 }
    let w : State := { lib with
      tiles := [(0, tile0), (1, { role := .spare })], pat := { pat1 with roles := [(0, 0x10), (1, 0x20)] } }
    Reaches s 0 5 5 ∧ Serving s ∧ s.pwr.standbyPend = false ∧ (s.ses 5).st = .closed ∧ s.openOn 0 < (s.panel 0).maxSes ∧
      s.panelBars 5 0 0 = false ∧ s.openGroupOk 5 = true ∧ (s.ses 5).outq = [] ∧ (s.ses 5).pics = [] ∧
      ((run (.openSession 0 5 0) s).ses 5).st = .opened ∧ ((run (.openSession 0 5 0) s).ses 5).foldGen = 1 ∧
      ((run (.openSession 0 5 0) s).ses 5).staged = cfg1 ∧ (run (.openSession 0 5 0) s).tiles = s.tiles ∧ (s.ses 5).cls = clsLive ∧
      w.spares 0 = [1] ∧ (w.tile 1).power = .off ∧ ((run (.openSession 0 5 0) w).tile 1).power ≠ .off := by
  unfold Reaches Serving; decide +kernel

theorem test_migrate_in :
    let s := at5 { staged := cfg1, migrate := 0x00180003 }
    s.cmdReason 5 9 0 = none ∧ Reaches s 0 5 5 ∧ Serving s ∧ s.pwr.standbyPend = false ∧ (s.ses 5).st = .closed ∧
      s.openOn 0 < (s.panel 0).maxSes ∧ s.panelBars 5 0 (s.migClass 5) = false ∧ s.migGroupOk 5 = true ∧
      ((run (.migrateIn 0 5 0) s).ses 5).st = .migrating ∧
      ((run (.migrateIn 0 5 0) s).ses 5).mig = some { peer := 3, peerSes := 6 } ∧
      run (.migrateIn 0 5 0) s = { s with sessions := (run (.migrateIn 0 5 0) s).sessions } := by
  unfold Reaches Serving; decide +kernel

/-- R60, R61: the pending set takes force at once with nothing in flight, and waits in RUNNING. -/
theorem test_configure :
    let s := at5 { st := .opened, staged := cfg1 }
    let r := at5 (ses1 .running)
    let c := (s.ses 5).effective
    let pan := s.panelFor 0
    Reaches s 0 5 5 ∧ Serving s ∧ (s.ses 5).cls ≠ clsDecode ∧ (∀ test ∈ encTests 0 c pan ++ rcTests c ++ meTests c ++ s.outTests c pan ++
        s.ringTests (s.owner 5) c (s.ses 5).lower ++ s.joinTests 5 (s.ses 5) c pan, test.1 = true) ∧ s.groupOk 5 c = true ∧
      s.cmdReason 5 2 0 = none ∧ ((run (.configure 0 5 0) s).ses 5).st = .ready ∧ ((run (.configure 0 5 0) s).ses 5).cfgSeq = 1 ∧
      ((run (.configure 0 5 0) s).ses 5).force = some (s.ses 5).effective ∧ ((run (.configure 0 5 0) s).ses 5).pend = none ∧
      Reaches r 0 5 5 ∧ Serving r ∧ sameRings (r.ses 5).effective (r.ses 5).cfg = true ∧
      r.cmdReason 5 2 0 = none ∧ ((run (.configure 0 5 0) r).ses 5).pend = some (r.ses 5).effective ∧
      ((run (.configure 0 5 0) r).ses 5).st = .running := by
  unfold Reaches Serving; decide +kernel

/-- Staged values of a 256 by 256 DECODE session of codec 2 with two slots of 96 KiB. -/
def decStaged : Tbl Word :=
  [(0x288, 0), (0x2C0, 0x10000), (0x2C8, 4), (0x2E0, 0x20000), (0x2E8, 4), (0x300, 0x12), (0x304, 0x01000100),
   (0x30C, 0x400000), (0x314, 256), (0x318, 0x18000), (0x31C, 2)]
/-- R63: a reversion that waits applies after the pending set, with one more SES_CFG_SEQ. R187: a DECODE session gets dpb + 1
reference buffers. -/
theorem test_configure_more :
    let p := at5 { ses1 .paused with revert := true }
    let d := at5 { st := .opened, cls := clsDecode, staged := decStaged }
    let c := (d.ses 5).effective
    (p.ses 5).pics = [] ∧ ((run (.configure 0 5 0) p).ses 5).cfgSeq = 2 ∧ ((run (.configure 0 5 0) p).ses 5).revert = false ∧
      (∀ test ∈ d.decTests (d.owner 5) c (d.panelFor 0), test.1 = true) ∧ d.groupOk 5 c = true ∧
      ((run (.configure 0 5 0) d).ses 5).st = .ready ∧ ((run (.configure 0 5 0) d).ses 5).dec.buffers = 7 := by
  decide +kernel

theorem test_start : let s := at5 { ses1 .ready with refs := [3], nextPic := 9 }
    Reaches s 0 5 5 ∧ ((run (.start 0 5 0) s).ses 5).st = .running ∧ ((run (.start 0 5 0) s).ses 5).nextPic = 0 ∧
      ((run (.start 0 5 0) s).ses 5).refs = [] ∧ tget 0 ((run (.start 0 5 0) s).ses 5).fold 0x380 = 1 ∧
      tget 0 ((run (.start 0 5 0) s).ses 5).fold 0x3FC = 1 := by unfold Reaches; decide +kernel

theorem test_pause_resume : let s := at5 { ses1 .running with pend := some [(0x050, 1)] }
    ((run (.pause 0 5 0) s).ses 5).st = .paused ∧ ((run (.pause 0 5 0) s).ses 5).force = some [(0x050, 1)] ∧
      ((run (.resume 0 5 0) (at5 (ses1 .paused))).ses 5).st = .running ∧
      ((run (.pause 0 5 0) (at5 { ses1 .running with pics := [{}], pend := some [] })).ses 5).pend = some [] := by decide +kernel

theorem test_drain : let s := at5 { ses1 .running with inTail := 2, inHead := 2, refs := [1] }
    (s.ses 5).inputDone = true ∧ ((run (.drain 0 5 0) s).ses 5).st = .ready ∧ ((run (.drain 0 5 0) s).ses 5).eos = true ∧
      ((run (.drain 0 5 0) (at5 { ses1 .running with inTail := 3, inHead := 2, pics := [{}] })).ses 5).drainTo = some 3 := by decide +kernel

theorem test_close : let s := at5 { ses1 .ready with refs := [1], inTail := 3 }
    s.cmdReason 5 7 0 = none ∧ NotFatal s 21 ∧ ((run (.close 0 5 0) s).ses 5).st = .closed ∧ ((run (.close 0 5 0) s).ses 5).staged = [] ∧
      ((run (.close 0 5 0) s).ses 5).force = none ∧ ((run (.close 0 5 0) s).ses 5).inTail = 0 ∧
      ((run (.close 0 5 0) s).ses 5).foldGen = 1 := by unfold NotFatal; decide +kernel
/-! ## Sessions: migration, references, level, rings -/

theorem test_migrate_out : let s := at5 { ses1 .running with migrate := 0x00180003 }
    s.cmdReason 5 8 0 = none ∧ (s.ses 5).member = false ∧ ((run (.migrateOut 0 5 0) s).ses 5).st = .migrating ∧
      ((run (.migrateOut 0 5 0) s).ses 5).prior = .running ∧
      ((run (.migrateOut 0 5 0) s).ses 5).mig = some { out := true, peer := 3, peerSes := 6 } := by decide +kernel

/-- R68: references numbered 7 or later go; R69: recovery is asked for. -/
theorem test_references : let s := at5 { ses1 .running with refs := [8, 7, 6], ltr := some 5, lastAdm := some 8 }
    s.cmdReason 5 10 7 = none ∧ ((run (.invalidateRef 0 5 7) s).ses 5).refs = [6] ∧ ((run (.invalidateRef 0 5 7) s).ses 5).ltr = some 5 ∧
      ((run (.invalidateRef 0 5 7) s).ses 5).invalN = some 7 ∧ s.cmdReason 5 11 0 = none ∧
      run (.forceRecovery 0 5 0) s = s.setSes 5 { s.ses 5 with recNext := true, recPend := true } := by decide +kernel

/-- R7, R8, R63: the level bit. -/
theorem test_session_level : let s := at5 (ses1 .running)
    let r := at5 { ses1 .ready with level := true, staged := [(0x090, 0x1234)] }
    (run (.sesLevelWrite 0 5 1) s).ses 5 = { (s.ses 5).unlock with level := true } ∧ 0x090 ∈ expertOffsets ∧
      cget ((run (.sesLevelWrite 0 5 1) s).ses 5).staged 0x090 = derived cfg1 0 false 0x090 ∧
      run (.sesLevelWrite 0 5 0) s = s ∧ (r.ses 5).pend = none ∧ ((run (.sesLevelWrite 0 5 0) r).ses 5).cfgSeq = 1 ∧
      ((run (.sesLevelWrite 0 5 0) r).ses 5).force = some (revertCfg (r.ses 5).cfg 0 false) := by decide +kernel

theorem test_session_level_waits : let s := at5 { ses1 .running with level := true }
    let m := at5 { ses1 .migrating with level := true }
    let c := at5 { level := true }
    run (.sesLevelWrite 0 5 0) s = s.setSes 5 { s.ses 5 with level := false, revert := true } ∧
      run (.sesLevelWrite 0 5 0) m = m.setSes 5 (refusal (m.ses 5) 0x14 0 0) ∧ (run (.sesLevelWrite 0 5 0) c).sessions = [] := by decide +kernel

/-- R67 at the ring's end: 16 entries. -/
theorem test_ring_indices : let s := at5 { ses1 .running with inTail := 3, inHead := 3, inStall := true, outTail := 2 }
    let o := at5 { ses1 .opened with inTail := 0 }
    ringSize (s.ses 5).cfg 0x2C0 = 16 ∧ ringBase (s.ses 5).cfg 0x2C0 ≠ 0 ∧
      run (.inTailWrite 0 5 15) s = s.setSes 5 { s.ses 5 with inTail := 15, inStall := false } ∧
      run (.inTailWrite 0 5 16) s = s.setSes 5 (refusal (s.ses 5) 0x2CC 16 1) ∧
      run (.outHeadWrite 0 5 2) s = s.setSes 5 { s.ses 5 with outHead := 2 } ∧
      run (.inTailWrite 0 5 1) o = o.setSes 5 (refusal (o.ses 5) 0x2CC 1 0) ∧
      run (.hintTailWrite 0 5 1) o = o.setSes 5 (refusal (o.ses 5) 0x2DC 1 0) ∧
      run (.outHeadWrite 0 5 1) o = o.setSes 5 (refusal (o.ses 5) 0x2EC 1 0) := by decide +kernel

theorem test_hint_ring : let s := at5 { ses1 .running with force := some ((0x2D0, 0x30000) :: (0x2D8, 4) :: []) }
    ringBase (s.ses 5).cfg 0x2D0 ≠ 0 ∧ (s.ses 5).hintOwed = 0 ∧
      run (.hintTailWrite 0 5 15) s = s.setSes 5 { s.ses 5 with hintTail := 15 } := by decide +kernel

/-- R97, R169, R184. -/
theorem test_rows_and_buffers : let s := at5 { ses1 .running with dec := { slots := [(2, 3)] } }
    let d := at5 (ses1 .ready)
    (s.ses 5).pics = [] ∧ (s.ses 5).headPic = 0 ∧ (256 : Nat) ≤ cH clsLive (s.ses 5).cfg ∧
      run (.ringInRowsWrite 0 5 256) s = s.setSes 5 { s.ses 5 with rowsReg := 256, rows0 := 256 } ∧
      run (.ringInRowsWrite 0 5 0x10000) s = s.setSes 5 { s.ses 5 with rowsReg := 0x10000 } ∧
      run (.ringInRowsWrite 0 5 1) d = d.setSes 5 (refusal (d.ses 5) 0x2F0 1 0) ∧
      run (.outBufHeadWrite 0 5 0xFFFFF) s = s.setSes 5 { s.ses 5 with bufHead := 0xFFFFF } ∧
      NoneWaits s ∧ run (.decWinRelease 0 5 2) s = s.setSes 5 { s.ses 5 with dec := {} } ∧
      run (.decWinRelease 0 5 3) s = s.setSes 5 (refusal (s.ses 5) 0x328 3 7) := by
  unfold NoneWaits; decide +kernel

/-- A migrating source 5 and its destination 6 on this device. -/
def pair (phase : Nat) : State := { lib with sessions := [
  (5, { ses1 .migrating with prior := .running, mig := some { out := true, peerSes := 6, phase := phase }, foldGen := 9, refs := [4] }),
  (6, { st := .migrating, mig := some { peerSes := 5 } })] }

/-- R70, R71, R73: the rinse with and without a destination that fits, and the completion. -/
theorem test_local_migration :
    ((pair 0).ses 5).source = true ∧ ((pair 0).ses 6).source = false ∧ ((pair 0).ses 5).member = false ∧
      (pair 0).panelTakes 6 0 256 256 = true ∧ (((run (.migrationStateCopy 5) (pair 0)).ses 5).mig.map (·.phase)) = some 1 ∧
      ((run (.migrationComplete 5) (pair 1)).ses 5).st = .closed ∧ ((run (.migrationComplete 5) (pair 1)).ses 5).foldGen = 10 ∧
      ((run (.migrationComplete 5) (pair 1)).ses 6).st = .running ∧ ((run (.migrationComplete 5) (pair 1)).ses 6).foldGen = 11 ∧
      ((run (.migrationComplete 5) (pair 1)).ses 6).refs = [4] ∧ ((run (.migrationComplete 5) (pair 1)).ses 6).migrations = 1 := by
  decide +kernel

theorem test_local_migration_fails :
    let s : State := { pair 0 with pat := { pat1 with panels := [] } }
    s.panelTakes 6 0 256 256 = false ∧ ((run (.migrationStateCopy 5) s).ses 5).st = .running ∧
      ((run (.migrationStateCopy 5) s).ses 5).migFailed = true ∧ ((run (.migrationStateCopy 5) s).ses 5).mig = none := by decide +kernel

/-- R71: 144,144,000 st after the start, at a source and a destination of another device. -/
theorem test_migration_timeout :
    let src := { at5 { ses1 .migrating with prior := .running, mig := some { out := true, peer := 3, peerSes := 6 } } with now := 144144000 }
    let dst := { at5 { st := .migrating, mig := some { peer := 3, phase := 2 } } with now := 144144000 }
    ((run (.migrationTimeout 5) src).ses 5).st = .running ∧ ((run (.migrationTimeout 5) src).ses 5).migFailed = true ∧
      ((run (.migrationTimeout 5) dst).ses 5).st = .closed ∧
      run (.migrationTimeout 5) { src with now := 144143999 } = { src with now := 144143999 } := by decide +kernel

/-- R71, R364 at the receiver of frames from address 3. -/
theorem test_migration_frames :
    let s (g : Mig) : State := { at5 { st := .migrating, prior := .running, mig := some g } with lin := { addr := 1, valid := true, ports := [(0, { up := true })] } }
    let h : LineHdr := { dst := 1, src := 3 }
    let d : Mig := { peer := 3, peerSes := 9, phase := 2, data := [1, 2] }
    InOrder (s {}) (LinePort.code .up) h ∧ (s {}).lin.me 1 = true ∧ (s {}).panelTakes 5 0 256 256 = true ∧
      ((run (.migCtl .up h 5 (.openReq 9 0 0 256 256)) (s { peer := 3, peerSes := 9 })).ses 5).mig = some { peer := 3, peerSes := 9, phase := 2 } ∧
      ((run (.migData .up h 5 [3]) (s d)).ses 5).mig = some { d with data := [1, 2, 3] } ∧
      ((run (.migCtl .up h 5 (.done (crc32c [1, 2]) {})) (s d)).ses 5).mig = some { d with phase := 3 } ∧
      ((run (.migCtl .up h 5 (.done 0 {})) (s d)).ses 5).st = .closed ∧
      ((run (.migCtl .up h 5 .refused) (s { out := true, peer := 3, phase := 1 })).ses 5).st = .running := by unfold InOrder; decide +kernel


/-- R70: a LIVE picture whose deadline has passed leaves a migrating source's ring. -/
theorem test_deadline_pass :
    let s := { at5 { ses1 .migrating with prior := .running, mig := some { out := true, peer := 3 }, inTail := 2, inHead := 1, seen := some { entry := srcEnt 5 } }
               with now := 2000000000 }
    (s.ses 5).inputDone = false ∧ ownerBit (srcEnt 5) = true ∧ (srcDesc (srcEnt 5)).space ≠ 2 ∧
      s.judge 5 (s.encPic 5 { entry := srcEnt 5 } none) true = .drop 2 ∧
      (((s.encPic 5 { entry := srcEnt 5 } none).deadline.map fun d => decide (d ≤ s.now)) = some true) ∧ hasHintRing (s.ses 5).cfg = false ∧
      ((run (.deadlinePass 5 { entry := srcEnt 5 }) s).ses 5).inHead = 2 ∧ ((run (.deadlinePass 5 { entry := srcEnt 5 }) s).ses 5).dropped = 1 := by
  decide +kernel
/-! ## The clothesline -/

/-- R357 with frame 3 and 4 in the replay buffer. -/
theorem test_link_ack_nak :
    let f : LFrame := { type := 6 }
    let x : LinePortSt := { up := true, txSeq := 5, replay := [(3, f), (4, f)] }
    let s (x : LinePortSt) : State := { lib with lin := { ports := [(1, x)] } }
    ((run (.linkAck .down 3) (s x)).lport 1).replay = [(4, f)] ∧ ((run (.linkNak .down 4) (s x)).lport 1) = { x with replay := [(4, f)], replays := 1 } ∧
      (run (.linkNak .down 4) (s x)).outbox = [.line 1 4 f] ∧ (run (.linkNak .down 4) (s x)).reg 0x90084 = 1 ∧
      ((run (.linkNak .down 3) (s { x with replays := 7 })).lport 1).replays = 8 ∧
      ((run (.linkNak .down 3) (s { x with replays := 8 })).lport 1).up = false ∧
      (run (.linkAckTimer .down) (s { x with unacked := 2, rxSeq := 0 })).outbox = [.linkCtl 1 false 65535] ∧
      run (.linkAckTimer .down) (s x) = s x := by decide +kernel

theorem test_line_frame_errors :
    (run (.lineFrameError .up (.badCrc 3)) lined).outbox = [.linkCtl 0 true 3] ∧ ((run (.lineFrameError .up .unknownType) lined).lport 0).rxSeq = 1 ∧
      (run (.lineFrameError .up .unknownType) lined).reg 0x90080 = 1 ∧
      run (.note .up { seq := 1, dst := 65 } 5) lined = lined ∧ run (.pegReq .down { seq := 1 } 5 true) lined = lined := by decide +kernel

/-- R357, R361, R363, R366: links go down and come up. -/
theorem test_line_link_changes :
    let d : State := { lib with lin := { ports := [], ctl := 1 }, serial := 77 }
    (run (.lineLinkDown .up) { lined with lin := { lined.lin with locked := true, good := 8 } }).lin.locked = false ∧
      (run (.lineLinkDown .up) lined).flt.status.getLsbD 27 = true ∧ ((run (.lineLinkDown .up) lined).lport 0).lost = true ∧
      (d.lport 0).up = false ∧ nbit d.pat.lines 0 = true ∧ d.lin.head = false ∧
      (run (.lineLinkUp .up) d).outbox = [.line 0 0 { type := 2, info := [77, 1] }] := by decide +kernel

/-- R359 to R361. -/
theorem test_pegging :
    let n : State := { lined with lin := { lined.lin with valid := false, addr := 0 } }
    InOrder n 0 {} ∧ n.lin.manager = (193 % 64 == 0) ∧ (run (.peg {} 193) n).lin.addr = 193 ∧ (run (.peg {} 193) n).lin.valid = true ∧
      (run (.peg {} 192) n).lin.valid = false ∧ (run (.peg {} 193) lined).lin.addr = 65 ∧
      ({ n with sessions := [(5, { st := .migrating })] } : State).migrating = true ∧
      (run (.peg {} 193) { n with sessions := [(5, { st := .migrating })] }).lin.pegDue = some 193 ∧
      mgr.lin.manager = true ∧ mgr.lin.assign false 99 = some 65 ∧ tget 0 (run (.pegReq .down {} 99 false) mgr).lin.table 1 = 99 ∧
      (run (.pegReq .down {} 99 false) n).lin.reqDue = [(1, 99, false)] ∧
      tget 0 (run (.pegAck .down { src := 66, dst := 64 } 98) mgr).lin.table 2 = 98 ∧
      (run (.pegNak .up { src := 65, dst := 70 } true) { lined with lin := { lined.lin with reach := [70] } }).lin.reach = [] := by
  unfold InOrder; decide +kernel

/-- R362, R363: t1 = 100, t2 = 220, t3 = 230, t4 = 140 give offset 105 and delay 15. -/
theorem test_time_over_the_line :
    let s : State := { lined with now := 140, lin := { lined.lin with t1 := some 100 } }
    let far : State := { lined with now := 140, lin := { lined.lin with t1 := some 100 } }
    lined.lin.follows = true ∧ (run (.timeSync .down { src := 66 }) { lined with now := 9 }).outbox =
      [.line 1 0 { type := 0x11, dst := 66, src := 65, info := [9, 9] }] ∧ (run .timeSyncTimer lined).lin.t1 = some 0 ∧
      (run (.timeResp {} 220 230) s).lin.offset = 105 ∧ (run (.timeResp {} 220 230) s).lin.delay = 15 ∧
      (run (.timeResp {} 220 230) s).pwr.slew = 105 ∧ (run (.timeResp {} 122 122) s).lin.good = 1 ∧
      (run (.timeResp {} 122 122) { s with lin := { s.lin with good := 7 } }).lin.locked = true ∧
      (run (.timeResp {} 144265 144265) far).pwr.step = some 144145 := by decide +kernel

/-- R366, R369: a notice; a packet into a ring of 16 entries and into none. -/
theorem test_notes_and_packets :
    let r : State := { lined with regs := [(0x90064, 0x1000), (0x90068, 4)] }
    let h : LineHdr := { src := 70, dst := 65 }
    InOrder lined 0 h ∧ lined.lin.me 65 = true ∧ nbit (run (.note .up h 5) lined).hif.pend 2 = true ∧ (run (.note .up h 5) lined).reg 0x30288 = 1 ∧
      r.rxEntries = 16 ∧ (run (.pkt .up h 3 [7]) r).lin.rxTail = 1 ∧
      (run (.pkt .up h 3 [7]) r).outbox.contains (.lineRx 0 ([1, 0, 0, 0, 70, 0, 0, 0, 3, 0, 0, 0, 0, 0, 0, 0]) [7]) = true ∧
      lined.rxEntries = 0 ∧ (run (.pkt .up h 3 [7]) lined).reg 0x90080 = 1 := by unfold InOrder; decide +kernel

/-- R367, R368 at the boundary of a period of 1000 st. -/
theorem test_status_rounds :
    let m : State := { mgr with regs := [(0x90018, 1000)], now := 2500, lin := { mgr.lin with round := 2000, pubLine := false } }
    let h : LineHdr := { src := 66, dst := 64 }
    InOrder m 1 h ∧ m.lin.me 64 = true ∧ lineIdx 66 = lineIdx 64 ∧
      tget {} (run (.agg .down h 2000 0 { devices := 1 }) m).lin.reports 2 = { devices := 1 } ∧
      (run .aggRound { m with now := 3001 }).lin.round = 3000 ∧ (run .lineTablePublish m).lin.pubLine = true ∧
      tget 0 (run .lineTablePublish m).lin.tables 0 = 1 ∧ tget 0 (run .lineTablePublish m).lin.tables 0xFFC = 1 ∧
      run .lineTablePublish { m with lin := { m.lin with pubLine := true } } = { m with lin := { m.lin with pubLine := true } } := by
  unfold InOrder; decide +kernel

/-- R359, R361, R370: LIN_CMD. -/
theorem test_lin_commands :
    let hd : State := { mgr with lin := { mgr.lin with ctl := 3, addr := 9, table := [(2, 5)] } }
    hd.lin.head = true ∧ (run (.linPeg 0) hd).lin.addr = 0 ∧ run (.linPeg 0) lined = lined.ignored 0x9001C 1 ∧
      run (.linRequest 0) { lib with lin := {} } = { lib with lin := {} } ∧
      (run (.linRequest 0) lined).outbox = [.line 0 0 { type := 2, src := 65, info := [0, 0] }] ∧
      (run (.linRelease 8) { mgr with lin := { mgr.lin with table := [(2, 5)] } }).lin.table = [] ∧
      run (.linRelease 0) mgr = mgr.ignored 0x9001C 3 ∧ run (.linRelease 8) lined = lined.ignored 0x9001C 11 ∧
      run (.linRelease 8) { mgr with lin := { mgr.lin with reach := [66] } } =
        ({ mgr with lin := { mgr.lin with reach := [66] } } : State).ignored 0x9001C 11 := by decide +kernel
/-! ## Admission, dispatch and the needle -/

/-- R66, R78, R94, R95: a clear owner bit stalls, a wrong stride drops with reason 4, a good picture is admitted with 4 bands. -/
theorem test_admission : let s := at5 { ses1 .running with inTail := 1 }
    let a : AdmitIn := { entry := srcEnt 500000000 }
    let bad : AdmitIn := { entry := (srcEnt 500000000).set 0x18 0 |>.set 0x19 0 }
    s.mayAdmit 5 = true ∧ (s.ses 5).inputDone = false ∧ s.judge 5 (s.encPic 5 a none) false = .accept false ∧
      run (.pictureAdmission 5 { entry := pad 64 [] }) s = s.setSes 5 { s.ses 5 with inStall := true } ∧
      ((run (.pictureAdmission 5 bad) s).ses 5).dropped = 1 ∧ (run (.pictureAdmission 5 bad) s).reg 0x2001C = 1 ∧
      ((run (.pictureAdmission 5 bad) s).ses 5).inHead = 1 ∧ ((run (.pictureAdmission 5 a) s).ses 5).pics.map (·.units.length) = [4] ∧
      (run (.pictureAdmission 5 a) s).reg 0x20018 = 1 ∧ ((run (.pictureAdmission 5 a) s).ses 5).inHead = 1 ∧
      run (.pictureAdmission 5 a) (at5 (ses1 .ready)) = at5 (ses1 .ready) := by decide +kernel

/-- R94: a space-2 descriptor of which no ingest picture has begun is kept and looked at again. -/
theorem test_admission_of_ingest :
    let s := at5 { ses1 .running with inTail := 1, force := some ((0x048, 6) :: cfg1) }
    let a : AdmitIn := { entry := pad 0x24 [] ++ leBytes 8 90 ++ leBytes 8 500000000 ++ leBytes 8 0 ++ leBytes 4 0x80000002 }
    let p := s.encPic 5 a none
    s.mayAdmit 5 = true ∧ a.entry.length = 64 ∧ ownerBit a.entry = true ∧ (s.ses 5).lookaheadOk a = true ∧ (srcDesc a.entry).space = 2 ∧
      s.ingestNext 5 = none ∧ s.srcOk (s.owner 5) 0 (fld (cget p.cfg 0x048) 3 0) (cW 0 p.cfg) (cH 0 p.cfg) (srcDesc a.entry) = true ∧
      run (.pictureAdmission 5 a) s = s.setSes 5 { s.ses 5 with seen := some a } := by decide +kernel

/-- R102: a NEAR session with a lookahead of one waits for the entry after its picture, but not while it drains. -/
theorem test_lookahead :
    let c : Tbl Word := (0x058, 0x01010000) :: cfg1
    let s (st : Ses) (k : Nat) : State := at5 { ses1 st with cls := clsNear, inTail := k, staged := c, force := some ({ staged := c } : Session).effective }
    let a : AdmitIn := { entry := srcEnt 500000000 }
    (s .running 1).mayAdmit 5 = true ∧ ((s .running 1).ses 5).lookaheadOk a = false ∧ run (.pictureAdmission 5 a) (s .running 1) = s .running 1 ∧
      ((s .running 2).ses 5).lookaheadOk a = true ∧ ((s .running 2).ses 5).lookaheadOk { a with aheadOwned := false } = false ∧
      ((s .draining 1).ses 5).lookaheadOk a = true ∧ ((at5 (ses1 .running)).ses 5).lookaheadOk a = true := by decide +kernel

/-- R79: too few pages for the reservation. -/
theorem test_admission_waits : let s := { at5 { ses1 .running with inTail := 1 } with pat := { pat1 with pages := 34 } }
    let a : AdmitIn := { entry := srcEnt 500000000 }
    s.judge 5 (s.encPic 5 a none) false = .waitPages ∧ ((run (.pictureAdmission 5 a) s).ses 5).seen = some a ∧
      (run (.pictureAdmission 5 a) s).reg 0xB0010 = 1 ∧ ((run (.pictureAdmission 5 a) s).ses 5).pics = [] := by decide +kernel

/-- A running DECODE session of `k` slots, and a chunk that ends an access unit. -/
def dec5 (d : Dec) : State :=
  at5 { st := .running, cls := clsDecode, inTail := 1, dec := d
        force := some [(0x2C0, 0x10000), (0x2C8, 4), (0x2E0, 0x20000), (0x2E8, 4), (0x300, 0x12), (0x304, 0x01000100), (0x31C, 2)] }
def chunk : List Byte := pad 8 (leBytes 8 0x100000) ++ leBytes 4 100 ++ leBytes 8 90 ++ pad 40 [] ++ leBytes 4 0x80000004

theorem test_admission_decode :
    let s := dec5 {}
    let f := dec5 { slots := [(0, 1), (1, 3)] }
    let a : AdmitIn := { chunks := [chunk] }
    chunk.length = 64 ∧ s.mayAdmit 5 = true ∧ (s.ses 5).inputDone = false ∧ (s.ses 5).accessUnit a.chunks = some [chunk] ∧
      s.judge 5 (s.decPic 5 [chunk] []) false = .accept false ∧ (s.ses 5).freeSlot (s.decPic 5 [chunk] []).cfg = some 0 ∧
      ((run (.pictureAdmission 5 a) s).ses 5).pics.map (·.num) = [0] ∧ ((run (.pictureAdmission 5 a) s).ses 5).dec.slots = [(0, 1)] ∧
      ((run (.pictureAdmission 5 a) s).ses 5).inHead = 1 ∧ f.judge 5 (f.decPic 5 [chunk] []) false = .waitSlot ∧
      ((run (.pictureAdmission 5 a) f).ses 5).dec.slotWaits = 1 ∧ ((run (.pictureAdmission 5 a) f).ses 5).dec.slotWait = true := by
  decide +kernel

/-- R83, R84, R87: the one ready unit starts on the napping tile. -/
theorem test_dispatch :
    let s := at5 { ses1 .running with pics := [{ pic1 with units := [{ st := .ready }] }] }
    let r := (s.readyUnits 0).foldr insReady []
    s.work = true ∧ r.map (·.ref) = [{ ses := 5 }] ∧ r.map s.choose = [some [0]] ∧ (s.unitOf { ses := 5 }).isSome = true ∧
      ((run (.unitDispatch 0 []) s).tile 0).work = some { ses := 5 } ∧ ((run (.unitDispatch 0 []) s).tile 0).power = .run ∧
      ((run (.unitDispatch 0 []) s).unitOf { ses := 5 }).map (fun e => (e.2.st, e.2.attempts)) = some (.running, 1) ∧
      run (.unitDispatch 1 []) s = s := by decide +kernel

/-- R87, R376 at the reset values of SCH_IDLE_OFF and SCH_IDLE_PLL. -/
theorem test_idle_off :
    let s : State := { lib with now := (lib.reg 0x20004).toNat }
    let q : State := { lib with now := (lib.reg 0x20008).toNat, tiles := [(0, { tile0 with power := .off })] }
    (s.tile 0).since + (s.reg 0x20004).toNat ≤ s.now ∧ ((run (.tileIdleOff 0) s).tile 0).power = .off ∧ run (.tileIdleOff 0) lib = lib ∧
      s.pressNeeds 0 = false ∧ q.pressNeedsQuad 0 = false ∧
      (let w : State := { s with ldr := { busy := true, phase := 5, pressing := 1, next := pat1 } }
       w.pressNeeds 0 = true ∧ run (.tileIdleOff 0) w = w) ∧
      ((run (.quadrantPllStop 0) q).quad 0).pll = false ∧ (∀ t, t < q.nTiles → quadOf t = 0 → (q.tile t).power = .off) ∧
      run (.quadrantPllStop 0) s = s := by decide +kernel

/-- Table 14.1: the words that act on the needle. -/
theorem test_needle_words :
    let s (cl v a b imm : Nat) (g : Tbl Word := []) : State := busy (mw cl v a b imm) { state := 1, gpr := g }
    let n (c : Instr) (s : State) : Needle := ((run c s).tile 0).ndl
    (s 0 0 1 2 3).fetches 0 = true ∧ ((s 0 0 1 2 3).tile 0).wordAt 0 = some (mw 0 0 1 2 3) ∧ (n (.move 0) (s 0 0 1 2 3)).pc = 1 ∧
      (n (.issue 0) (s 1 0 3 2 9 [(2, 77)])).issued = [(3, (9, 77))] ∧ (n (.wait 0 true) (s 2 0 0 0 0)).pc = 1 ∧
      (n (.wait 0 false) (s 2 0 0 0 0)).state = 2 ∧ (n (.wait 0 false) (s 2 0 0 0 0)).pc = 0 ∧ (n (.branch 0 true) (s 3 0 0 0 40)).pc = 40 ∧
      (n (.loop 0) (s 4 0 6 0 40)).pc = 41 ∧ (n (.loop 0) (s 4 0 6 0 40 [(6, 2)])).loops = [(1, 40, 2)] ∧
      run (.move 0) (s 1 0 0 0 0) = s 1 0 0 0 0 ∧ run (.commit 0 {}) (s 0 0 0 0 0) = s 0 0 0 0 0 := by decide +kernel

/-- What a tile made of a unit of one row of one CTU: 800 bits in a slice of 100 bytes. -/
def made : UnitResult := { rows := [[{ bits := 800, tb := 8 }]], pkts := [{ hdr := [2, 1], body := List.replicate 98 0xFF }] }

/-- R62, R242, R277: the commit of the last unit ends the picture. -/
theorem test_commit :
    let s := busy (mw 5 0 0 0 0)
    let x := s.ses 5
    (s.unitOf { ses := 5 }) = some (pic1, { st := .running, attempts := 1 }) ∧ mayCommit x.cls pic1 { st := .running, attempts := 1 } = true ∧
      s.checkUnit { ses := 5 } pic1 { st := .running, attempts := 1 } made = 0 ∧ ((run (.commit 0 made) s).tile 0).ndl.committed = true ∧
      ((run (.commit 0 made) s).ses 5).pictures = 1 ∧ ((run (.commit 0 made) s).ses 5).pics = [] ∧ (run (.commit 0 made) s).reg 0x202010 = 1 := by
  decide +kernel

/-- The worked example of Rate Control: the QPs of picture 40, and row 15, whose first CTU turns threadbare. -/
theorem test_rate_example :
    let c : Tbl Word := [(0x040, 0x12), (0x044, 0x04380780), (0x048, 0x20), (0x054, 64), (0x100, 8), (0x120, 0x00280A), (0x140, 0x4002)]
    let p : Pic := { cfg := c, weights := List.replicate 16 23680 ++ [20720], target := 350000 * second, cap := 600000, q0 := 34
                     units := (List.range 17).map fun i => { idx := i } }
    let a (bits : List Nat) (qps : List Int) : Acc := { total := bits.sum, rowBits := bits, rowQps := qps }
    let r3 := [20000, 20000, 20000]
    let r7 := r3 ++ [44000, 36500, 35000, 34000]
    let r15 : Acc := a (r7 ++ [44800, 46900, 48600, 49700, 50300, 50100, 49400, 48400]) ([34, 34, 34, 34, 36, 38] ++ List.replicate 9 40)
    let u := codeUnit clsLive { p with acc := r15 } { idx := 15 } { hdrBits := 248, rows := [List.replicate 30 { bits := 1690, tb := 5 }] }
    nextQp clsLive p 3 (a r3 [34, 34, 34]) = 34 ∧ nextQp clsLive p 4 (a (r7.take 4) [34, 34, 34, 34]) = 36 ∧
      nextQp clsLive p 7 (a r7 [34, 34, 34, 34, 36, 38, 40]) = 40 ∧ u.total = 598098 ∧ u.tb = some (15, 0) ∧ u.capHit = true ∧
      u.tbRows = 1 := by decide +kernel

/-- R101, R114, R118, R123, R125: a static block takes ZERO, an element grid of 8 pixels puts a hint of 10 pixels on the first block,
and the picture's hints give the global vector. -/
theorem test_motion :
    let row := List.replicate 2 (some { x := 40, y := 0, aux := 0 })
    let p : Pic := { pic1 with num := 1, refs := [0], hint := some { fmt := 12, lines := [row, row] }, statics := [0, 1] }
    let s := ((busy (mw 5 0 0 0 0)).setSes 5 { (busy 0).ses 5 with pics := [p] }).modTile 0 fun t => { t with work := some { ses := 5, pic := 1 } }
    let m := ((run (.commit 0 { made with motion := [{}, { bx := 1, inter := false, size := 32 }] }) s).ses 5).me
    (blockOf p 256 256 0 0).whole = some { x := 160, y := 0, conf := 0, ui := false, disocc := false } ∧ (blockOf p 256 256 1 0).whole = none ∧
      p.hintMedian 256 256 = some (160, 0) ∧ m.coloc = [(0, { inter := true }), (1, { size := 32 })] ∧ m.glob = some (160, 0) ∧
      m.clamped = 0 ∧ m.hintless = false := by decide +kernel

/-- The worked example of Motion Search: the hints of the block at (832, 352), its candidate list, and a predictor out of its window. -/
theorem test_candidates :
    let el (x y : BitVec 16) (aux : Byte) : HintElem := { x := x, y := y, aux := aux }
    let b : MotionBlock := { bx := 52, by_ := 22, preds := [some (148, -4), some (300, -8)] }
    let a := el 0x48C0 0xB400 12
    let at_ (l : List HintElem) : List (Option HintElem) := List.replicate 208 none ++ l.map some
    let plane := List.replicate 88 [] ++ [at_ [a, a, a, a], at_ [el 0x48D0 0xB400 13, el 0x48C0 0xB800 11, a, a],
      at_ [el 0x4600 0 9, el 0x4600 0 9, el 0 0 0x1C, el 0 0 0x1C], at_ [el 0x4600 0 9, el 0x4600 0 9, el 0x48C0 0xB400 10, el 0x48D0 0xB400 12]]
    let c : Tbl Word := [(0x040, 2), (0x180, 0xF0574321), (0x184, 0x208), (0x188, 0x10000), (0x18C, 0x321903A4)]
    let p : Pic := { num := 10, refs := [9, 8], cfg := c, hint := some { fmt := 9, jx := 2, aux := true, lines := plane } }
    let e : SearchEnv := {
      p := p, w := 1920, h := 1080, dists := refDists p, glob := some (150, -4)
      coloc := [(blockIdx 52 22, { inter := true, x := 144, y := -4 })] }
    let f : Tbl ColVec := [(blockIdx 51 22, { inter := true, x := 148, y := -4 }), (blockIdx 52 21, { inter := true, x := 152, y := -2 }),
      (blockIdx 53 21, { inter := true, x := 160, y := -6 })]
    let hs := blockOf p 1920 1080 52 22
    let r := candList e f [(150, -4)] b hs
    hs.parts.map (fun a => a.2.2.map fun q => (q.x, q.y, q.conf)) = [some (150, -4, 11), some (150, -4, 12), some (94, 0, 9), some (150, -4, 10)] ∧
      hs.whole.map (fun q => (q.x, q.y, q.conf)) = some (150, -4, 10) ∧ hs.parts.any (·.1) = false ∧
      windowOf p [(150, -4)] 1 = ((-248, 264), (-128, 128)) ∧ (windowOf p [(150, -4)] 2).1 = (-240, 272) ∧
      r.1.map (fun q => (q.ref, q.x, q.y)) = [(0, 9, 0), (1, 19, -1), (0, 10, 0), (1, 19, 0), (1, 20, -1), (0, 6, 0), (1, 18, -1), (0, 0, 0)] ∧
      r.2 = 0 ∧ (candList e f [(150, -4)] { b with preds := [some (265 * 16, 0)] } hs).2 = 1 := by decide +kernel

/-- R62, R144: a band parks behind an earlier one, takes effect with it, and commits alone where only a later one has not. -/
theorem test_commit_bands :
    let p : Pic := { pic1 with units := [{ st := .ready }, { idx := 1, st := .running, attempts := 1 }] }
    let q : Pic := { pic1 with units := [{ st := .running, attempts := 1 }, { idx := 1, st := .ready }] }
    let o : Pic := { pic1 with units := [{ st := .running, attempts := 1 }, { idx := 1, st := .parked, result := some made }] }
    let s := (busy (mw 5 0 0 0 0)).setSes 5 { (busy 0).ses 5 with pics := [p] } |>.modTile 0 fun t => { t with work := some { ses := 5, idx := 1 } }
    let b := (busy (mw 5 0 0 0 0)).setSes 5 { (busy 0).ses 5 with pics := [o] }
    let t := (busy (mw 5 0 0 0 0)).setSes 5 { (busy 0).ses 5 with pics := [q] }
    s.fetches 0 = true ∧ s.checkUnit { ses := 5, idx := 1 } p { idx := 1, st := .running, attempts := 1 } made = 0 ∧
      mayCommit clsLive p { idx := 1, st := .running, attempts := 1 } = false ∧ ((run (.commit 0 made) s).tile 0).ndl.committed = true ∧
      ((run (.commit 0 made) s).unitOf { ses := 5, idx := 1 }).map (·.2.st) = some .parked ∧ ((run (.commit 0 made) s).ses 5).pictures = 0 ∧
      ((run (.commit 0 made) b).ses 5).pictures = 1 ∧ ((run (.commit 0 made) t).ses 5).pictures = 0 ∧
      ((run (.commit 0 made) t).unitOf { ses := 5 }).map (·.2.st) = some .committed := by decide +kernel

/-- R86: a gang part waits for the other. R174, R177: the one unit of an access unit, without a picture, ends it. -/
theorem test_commit_gang_and_decode :
    let w : WUnit := { st := .running, attempts := 1 }
    let p : Pic := { pic1 with gang := 2, units := [w, { idx := 1, st := .running, tile := 1 }] }
    let g := (busy (mw 5 0 0 0 0)).setSes 5 { (busy 0).ses 5 with cls := clsNear, pics := [p] }
    let d := (busy (mw 5 0 0 0 0)).setSes 5 { (dec5 { slots := [(0, 1)] }).ses 5 with pics := [{ cfg := ((dec5 {}).ses 5).cfg, units := [w] }] }
    let r : UnitResult := { dec := { hasPicture := false } }
    NoneWaits g ∧ (g.tile 0).retireReq = false ∧ (g.tile 0).role = .active ∧ g.checkUnit { ses := 5 } p w made = 0 ∧
      ((run (.commit 0 made) g).unitOf { ses := 5 }).map (·.2.st) = some .parked ∧ ((run (.commit 0 made) g).ses 5).pictures = 0 ∧
      NoneWaits d ∧ (d.unitOf { ses := 5 }).map (·.2) = some w ∧ d.checkUnit { ses := 5 } { units := [w] } w r = 0 ∧
      ((run (.commit 0 r) d).ses 5).pics = [] ∧ ((run (.commit 0 r) d).ses 5).pictures = 1 := by
  unfold NoneWaits; decide +kernel

/-- R247, R276, R277: a failed check, TRAP, YIELD before COMMIT and a fetch outside the stores. -/
theorem test_trap_and_yield :
    let bad : UnitResult := { made with parseOk := false }
    let out : State := busy 0 { state := 1, pc := 0x5000 }
    let fails (c : Instr) (s : State) : Bool := decide (((run c s).tile 0).work = none ∧ ((run c s).tile 0).role = .selfTest ∧
      (run c s).reg 0x202018 = 1 ∧ (run c s).flt.status.getLsbD 8 = true ∧
      ((run c s).unitOf { ses := 5 }).map (fun e => (e.2.st, e.2.replay, e.2.failedOn)) = some (.ready, true, [0]))
    (1 : Nat) < fld ((busy 0).reg 0xF0000) 2 0 ∧ fails (.commit 0 bad) (busy (mw 5 0 0 0 0)) ∧ fails (.trap 0 {}) (busy (mw 7 0 0 0 1)) ∧
      fails (.yield 0) (busy (mw 6 0 0 0 0)) ∧ (out.tile 0).wordAt 0x5000 = none ∧ fails (.trap 0 {}) out ∧
      ((run (.yield 0) (busy (mw 6 0 0 0 0) { state := 1, committed := true })).tile 0).power = .nap := by decide +kernel

/-- R281, R282: causes 1, 3 and 4; R248: a parity error and the watchdog. -/
theorem test_routine_ends :
    let s (c : Nat) : State := (busy 0 { state := 1, shown := 9 }).modTile 0 fun t => { t with abandon := 2 ^ c }
    let u (c : Instr) (s : State) := ((run c s).unitOf { ses := 5 }).map fun e => (e.2.st, e.2.replay, e.2.attempts)
    ((run (.routineAbandon 0) (s 1)).tile 0).ndl.lastAbandon = 0x10009 ∧ u (.routineAbandon 0) (s 1) = some (.ready, false, 1) ∧
      u (.routineAbandon 0) (s 3) = some (.ready, true, 1) ∧ ((run (.routineAbandon 0) (s 3)).ses 5).patchMoves = 1 ∧
      u (.routineAbandon 0) (s 4) = some (.ready, false, 0) ∧ u (.tileFault 0 .storeParity) (busy 0) = some (.ready, true, 1) ∧
      (run (.tileFault 0 .storeParity) (busy 0)).flt.status.getLsbD 9 = true ∧ (run (.tileFault 0 .windowWord) (busy 0)).flt.status.getLsbD 10 = true ∧
      (run (.tileWatchdog 0) (busy 0)).flt.status.getLsbD 11 = true ∧ ((run (.tileWatchdog 0) (busy 0)).tile 0).role = .selfTest := by
  decide +kernel

/-- R51: a parity error on the tile that a press loads rolls the press back. -/
theorem test_fault_while_loading :
    let s : State := { busy 0 with ldr := { busy := true, phase := 5, pressing := 1, next := pat1 } }
    inMask (tget 0 s.ldr.next.roles 0) s.ldr.pressing = true ∧ (s.tile 0).role = .active ∧ (run (.tileFault 0 .storeParity) s).ldr.busy = false ∧
      (run (.tileFault 0 .storeParity) s).ldr.reject = 0x10 ∧ (run (.tileFault 0 .storeParity) s).pat = pat1 ∧
      (run (.tileWatchdog 0) s).flt.status.getLsbD 11 = true := by decide +kernel

/-- R252, R254, R255: self-test, RETIRE of one of two tiles, RETEST. -/
theorem test_tile_repair :
    let s (t : Tile) : State := { lib with tiles := [(0, t), (1, tile0)] }
    let st : Tile := { role := .selfTest, back := .active, power := .run }
    let two : State := { s tile0 with pat := { pat1 with roles := [(0, 0x10), (1, 0x10)], panels := [(0, { panel0 with tiles := 2 })] } }
    ((run (.selfTestDone 0 .pass) (s st)).tile 0).role = .active ∧ ((run (.selfTestDone 0 .pass) (s st)).tile 0).result = 1 ∧
      ((run (.selfTestDone 0 .memoryFail) (s st)).tile 0).role = .retired ∧ (run (.selfTestDone 0 .memoryFail) (s st)).reg 0xF0024 = 1 ∧
      two.retireOk 0 = true ∧ ((run (.retire 0) two).tile 0).role = .retired ∧ (run (.retire 0) two).reg 0xF0028 = 1 ∧
      (at5 (ses1 .ready)).retireOk 0 = false ∧ run (.retire 0) (at5 (ses1 .ready)) = (at5 (ses1 .ready)).ignored 0xF0008 0x100 ∧
      ((run (.retest 0) (s { role := .retired, strikes := 3 })).tile 0).role = .selfTest ∧ run (.retest 0) lib = lib.ignored 0xF0008 0x200 ∧
      run (.retest 52) lib = lib.ignored 0xF0008 0x234 := by decide +kernel

theorem test_retire_of_a_busy_tile :
    let s : State := { busy 0 with tiles := (busy 0).tiles ++ [(1, tile0)] }
    s.retireOk 0 = true ∧ run (.retire 0) s = s.setTile 0 { s.tile 0 with retireReq := true } := by decide +kernel

/-- R185, R267. -/
theorem test_panel_reset_and_budget :
    let s : State := { lib with resetting := 1 }
    let d : State := (busy 0).setSes 5 { (busy 0).ses 5 with cls := clsDecode }
    nbit s.resetting 0 = true ∧ s.inFlight 0 = false ∧ s.serving 0 = [0] ∧ (run (.panelResetDone 0 []) s).resetting = 0 ∧
      ((run (.panelResetDone 0 []) s).tile 0).store = tblOf panel0.words ∧ ((run (.panelResetDone 0 [0]) s).tile 0).role = .retired ∧
      d.cyclesSince 0 0 = 0 ∧ run (.budgetStop ⟨0, 98304, 1, 1⟩) d = d ∧
      (((run (.budgetStop ⟨0, 98304, 1, 1⟩) { d with now := 2 ^ 40 }).unitOf { ses := 5 }).map (·.2.budget)) = some true := by decide +kernel

/-- A unit of one packet of 96 bytes behind its slot, delivered from its page. -/
def slotted : List Byte := beBytes 4 96 ++ List.replicate 96 7
def slottedItem : OutItem := { parts := [{ bytes := 100, packets := 1, pages := [(0, 1)] }], copy := true }
def delivering (fill tail head : Nat) : State :=
  (at5 { ses1 .running with outq := [slottedItem], bufFill := fill, outTail := tail, bufHead := head }).writeUnit [(0, 1)] slotted

/-- R169: what a delivery reads. -/
theorem test_delivery_reads :
    let r := (delivering 0 0 0).readParts slottedItem.parts
    slottedItem.bytes = 100 ∧ r.2 = .ok slotted ∧ (r.1 == { delivering 0 0 0 with hbm := r.1.hbm, pmu := r.1.pmu }) = true := by decide +kernel

/-- R66, R169, R170: Annex B form has a start code for the slot. A full ring or buffer holds the delivery. -/
theorem test_host_unit_delivery :
    let r := run (.hostUnitDelivery 5 none) (delivering 0 0 0)
    bufSize (ses1 .running).cfg = 2 ^ 20 ∧ [(r.ses 5).bufFill, (r.ses 5).outTail] = [100, 1] ∧
      (delivering 0 0 0).beingRecoded 5 slottedItem = false ∧ ((delivering 0 15 0).ses 5).outFull = true ∧
      run (.hostUnitDelivery 5 none) (delivering 0 15 0) = delivering 0 15 0 ∧
      run (.hostUnitDelivery 5 none) (delivering 0 0 100) = delivering 0 0 100 := by decide +kernel

/-- R169: the buffer wraps to offset 0 with flag 64 where the unit would be split. -/
theorem test_delivery_wraps :
    let r := run (.hostUnitDelivery 5 none) (delivering (2 ^ 20 - 99) 0 500)
    (r.outbox.drop (r.outbox.length - 2)) =
      [.unitData 5 0 ([0, 0, 0, 1] ++ List.replicate 96 7), .record 5 0 (encRecord slottedItem 0 (slottedItem.flags + 64))] := by decide +kernel

/-- R171: a page whose label fails sends its unit back. R183: a decoded picture's copy goes before its record. -/
theorem test_host_unit_delivery_more :
    let o : OutItem := { parts := [{ bytes := 100, packets := 1, pages := [(0, 1)] }], copy := true }
    let w : WUnit := { st := .committed, bytes := 100, own := 100, pages := [(0, 1)], attempts := 1 }
    let s : State := at5 { ses1 .running with outq := [o], kept := [{ pic1 with units := [w] }] }
    let t := run (.hostUnitDelivery 5 (some 0)) s
    let q : OutItem := { copy := true, dec := some { slot := 1 } }
    let d := at5 { (dec5 { slots := [(1, 2)] }).ses 5 with outq := [q] }
    NoneWaits s ∧ NotFatal s 17 ∧ (s.unitOf { ses := 5 }).map (fun e => (e.2.recoded, e.2.recode)) = some (false, false) ∧
      t.flt.status.getLsbD 17 = true ∧ (t.ses 5).outq = [o] ∧ (t.unitOf { ses := 5 }).map (fun e => (e.2.st, e.2.recode)) = some (.ready, true) ∧
      NoneWaits d ∧ d.beingRecoded 5 q = false ∧ tget 0 ((run (.hostUnitDelivery 5 none) d).ses 5).dec.slots 1 = 3 ∧
      (run (.hostUnitDelivery 5 none) d).outbox.length = 2 := by
  unfold NoneWaits NotFatal; decide +kernel
/-! ## The mangle -/

/-- Both Ethernet ports up, with written latencies. -/
def ethUp : State := { lib with eths := [(0, { link := true, lat := some 0 }), (1, { link := true, lat := some 0 })] }

/-- R200, R217, R218, R219. -/
theorem test_eth_links :
    let f : Sub := { hasFlow := true, flow := pad 64 (pad 0x26 [] ++ [0, 1]), flowNext := pad 64 (pad 0x26 [] ++ [0, 1]) }
    let s : State := { ethUp with subs := [(3, f)] }
    let m : State := { ethUp with subs := [(3, { f with moved := true })], regs := [(0xE8000, 4)] }
    lib.laneMode 0 ≠ 0 ∧ ((run (.ethLinkUp 0) lib).eth 0).link = true ∧ ((run (.ethLinkUp 0) lib).eth 1).link = false ∧
      ((run (.ethLinkDown 0) s).eth 0).link = false ∧ (run (.ethLinkDown 0) s).flt.status.getLsbD 26 = true ∧ 3 ∈ s.flowsOf 0 ∧
      flBackup (s.sub 3).entry = 1 ∧ ((run (.ethLinkDown 0) s).sub 3).moved = true ∧ run (.ethLinkDown 0) lib = lib ∧
      m.subPort 3 = 0 ∧ (m.reg (ethBase 0)).getLsbD 2 = true ∧ ((run (.failback 3) { m with now := 2 ^ 40 }).sub 3).moved = false ∧
      run (.failback 3) s = s := by decide +kernel

theorem test_htx_tail :
    let s : State := { lib with regs := [(0xE804C, 0x1000), (0xE8050, 4)] }
    s.ethRing 0 0x48 = 16 ∧ run (.htxTailWrite 0 15) s = s.setReg 0xE8054 15 ∧ run (.htxTailWrite 0 16) s = s.ignored 0xE8054 16 := by
  decide +kernel

/-- A frame from the address 5: destination, type, `n` bytes of data and its FCS. -/
def frameOf (dst type n : Nat) (data : List Byte) (sum : Nat) : List Byte :=
  beBytes 6 dst ++ beBytes 6 5 ++ beBytes 2 type ++ pad n data ++ leBytes 4 sum

/-- R201, R202: the counters of a port are frames, FCS errors, drops, PAUSE, punts; a ring of 16 punt entries. Each FCS is the CRC-32 of
IEEE 802.3, computed outside the model. -/
theorem test_eth_receive :
    let s : State := { ethUp with regs := [(0xE8000, 2), (0xE8024, 1500), (0xE8034, 0x1000), (0xE8038, 4)] }
    let g := frameOf 0xFFFFFFFFFFFF 0x88B5 46 [] 0xd44ffed6
    let c (f : List Byte) : List Nat := (upto 5).map fun i => ((run (.ethFrameReceive 0 f) s).reg (ethCnt 0 i)).toNat
    c (frameOf 0xFFFFFFFFFFFF 0x88B5 46 [] 0) = [1, 1, 0, 0, 0] ∧ c (frameOf 0xFFFFFFFFFFFF 0x88B5 45 [] 0xfba44445) = [1, 0, 1, 0, 0] ∧
      c (frameOf 0xFFFFFFFFFFFF 0x88B5 1505 [] 0x92fadc9f) = [1, 0, 1, 0, 0] ∧ c (frameOf 5 0x88B5 46 [] 0x38909c91) = [1, 0, 1, 0, 0] ∧
      c (frameOf 0x0180C2000001 0x8808 46 [0, 1] 0xd505f2ba) = [1, 0, 0, 1, 0] ∧ (readFrame g).fcsOk = true ∧
      s.macOk 0 (readFrame g).dstMac.toNat = true ∧ s.ethRing 0 0x30 = 16 ∧
      c (frameOf 0xFFFFFFFFFFFF 0x88B5 1504 [] 0x273874ea) = [1, 0, 0, 0, 1] ∧
      ((run (.ethFrameReceive 0 g) s).eth 0).puntTail = 1 := by decide +kernel

/-- An ingest entry for session 5: address 10.0.0.1, UDP port 5000, payload type 96, 4:2:2 of 8 bits. -/
def inEntry : List Byte := pad 64 (pad 16 [10, 0, 0, 1] ++ leBytes 2 5000 ++ [96, 1] ++ leBytes 4 0 ++ leBytes 2 5 ++ [0, 8])

/-- An ST 2110-20 packet (R205) to that flow over IPv4 and UDP: sequence number 9, timestamp 90, 512 bytes of row 0 that say 7. -/
def videoFrame (marker : Nat) (sum : Nat) : List Byte :=
  frameOf 0xFFFFFFFFFFFF 0x0800 0
    ([0x45, 0, 0x02, 0x30, 0, 0, 0x40, 0, 64, 17, 0x24, 0xbb, 10, 0, 0, 2, 10, 0, 0, 1] ++
      beBytes 2 4000 ++ beBytes 2 5000 ++ beBytes 2 540 ++ [0, 0] ++
      [0x80, BitVec.ofNat 8 (128 * marker + 96)] ++ beBytes 2 9 ++ beBytes 4 90 ++ beBytes 4 0 ++
      beBytes 2 0 ++ beBytes 2 512 ++ beBytes 2 0 ++ beBytes 2 0 ++ List.replicate 512 7) sum

/-- R204 to R206: the first packet opens a picture, whose marker closes it; the time limit closes one without. -/
theorem test_ingest :
    let s : State := { at5 (ses1 .running) with eths := ethUp.eths, ingest := [(2, { entry := inEntry })], regs := [(0xE8024, 1500)] }
    let f := readFrame (videoFrame 1 0x21412019)
    let t := run (.ethFrameReceive 0 (videoFrame 1 0x21412019)) s
    let u := run (.ethFrameReceive 0 (videoFrame 0 0x28903e20)) s
    f.fcsOk = true ∧ f.ipBad = false ∧ f.udpBad = false ∧ f.secondTag = false ∧ f.isPause = false ∧ f.length = 578 ∧ s.macOk 0 f.dstMac.toNat = true ∧
      (s.ingest.find? fun e => flowMatch e.2.entry 0 f).map (·.1) = some 2 ∧ inSes inEntry = 5 ∧ inDepth inEntry = 8 ∧
      f.srdOverrun = false ∧ f.srd = [(0, 0, List.replicate 512 7)] ∧ pgroup (inSampling inEntry) = (4, 2) ∧
      (t.flow 2).pics.map (fun q => (q.rtpTs, q.closed, q.firstSeq)) = [(90, true, 9)] ∧ (t.flow 2).high = 9 ∧
      (t.flow 2).pics.map (fun q => tget [] q.rows 0) = [List.replicate 512 (some 7)] ∧
      (u.flow 2).pics.map (·.closed) = [false] ∧
      ((run (.ingestCloseTimeout 2) { u with now := 2 ^ 40 }).flow 2).pics.map (·.closed) = [true] ∧
      ((run (.ingestCloseTimeout 2) u).flow 2).pics.map (·.closed) = [false] := by
  decide +kernel

/-- R208, Table 10.5: a tagged UDP packet of 20 bytes over IPv4 with its checksums, built outside the model. -/
theorem test_egress_frame :
    let e : List Byte := pad 64 (beBytes 6 0x02AABBCCDDEE ++ leBytes 2 0xB005 ++ [2, 46, 64, 96] ++ pad 16 [10, 0, 0, 9] ++ leBytes 2 4000 ++
      leBytes 2 5004)
    ethFrame e (beBytes 6 0x02000000000A) (ipPart e [10, 0, 0, 2] ((List.range 20).map fun i => BitVec.ofNat 8 (i + 1)) 0x1234 0) =
      beBytes 70 0x02aabbccddee02000000000a81006005080045b8003012344000401113c70a0000020a0000090fa0138c001c64110102030405060708090a0b0c0d0e0f101112131472a52486 := by
  decide +kernel

/-- R219, R226, R233, R241. -/
theorem test_mangle_tables :
    let s : State := { lib with regs := [(0xE1010, 0x80050003), (0xE1014, 100), (0xE1018, 0x100), (0xE2018, 0x200), (0xEA040, 5)] }
    let t := run (.subCommit 7) s
    (run (.flowLoad 0) { s with subs := [(0, { flowNext := [9] })] }).reg 0xEA040 = 9 ∧
      ((run (.flowCommit 7) s).sub 7).hasFlow = true ∧ (run (.flowCommit 0x1007) s).flow 7 = { entry := s.flowData } ∧
      s.ingestBusy 7 s.flowData = false ∧ run (.flowCommit 0x1020) s = s.ignored 0xEA000 0x5020 ∧
      run (.flowLoad 0x1020) s = s.ignored 0xEA000 0x3020 ∧ shapeLegal 0x80050003 100 = true ∧ s.subPort 7 = 0 ∧
      tget 0 (t.sub 7).d 0 = 0x80050003 ∧ (t.sub 7).bucket.c = 0 ∧ tget 0 (t.sub 7).d 2 = 0x100 ∧
      (run (.subLoad 7) t).reg 0xE1014 = 100 ∧ shapeLegal 3 0 = false ∧
      (let q : State := { s with regs := [(0xE1010, 3)] }; run (.subCommit 7) q = q.ignored 0xE1000 0x4007) ∧
      ((run (.subFlush 7) { s with subs := [(7, { queue := [{}, {}] })] }).sub 7).queue = [] ∧
      (run (.subFlush 7) { s with subs := [(7, { queue := [{}, {}] })] }).reg 0xE010C = 2 := by decide +kernel

theorem test_services_and_ports :
    let s : State := { lib with regs := [(0xE2010, 0xA0050003), (0xE2014, 100), (0xE2018, 0x200)] }
    (run (.svcLoad 9) s).reg 0xE2018 = 0x100 ∧ shapeLegal 0xA0050003 100 = true ∧ ((run (.svcCommit 9) s).svc 9).d0 = 0x80050003 ∧
      ((run (.svcCommit 9) s).svc 9).bucket.c = 5 ∧ (run (.portShapeWrite 1 0x80050003) s).reg 0xE3010 = 0x80050003 ∧
      ((run (.portShapeWrite 1 0x80050003) s).bucket (.port 1)).c = 5 ∧ (run (.portShapeWrite 1 0) s).reg 0xE3010 = 0 ∧
      run (.portShapeWrite 1 3) s = s.ignored 0xE3010 3 ∧
      (let q : State := { s with regs := [(0xE2010, 3), (0xE2018, 0x100)] }; run (.svcCommit 9) q = q.ignored 0xE2000 0x4009) := by decide +kernel

/-- R236 to R238: base 0, cycle 3000, two entries of 1000 and 1500 st. -/
theorem test_gates :
    let s : State := { lib with now := 7000, regs := [(0xE814C, 3000), (0xE8150, 2), (0xE8400, 1000 * 256 + 1), (0xE8404, 1500 * 256 + 2)] }
    let g : Gate := { pending := true, pendOn := true, chg := 7000 }
    let on : Gate := { on := true, oper := [(0, 1000 * 256 + 1), (1, 1500 * 256 + 2)], operLen := 2, operCycle := 3000, entryAt := 6000, cycleAt := 6000 }
    s.gateLegal 0 = true ∧ (run (.gateChange 0 3) s).gate 0 = { pending := true, pendOn := true, chg := 9000 } ∧ lib.gateLegal 0 = false ∧
      run (.gateChange 0 3) lib = lib.ignored 0xE8140 3 ∧ (run (.gateCancel 0 4) (s.setGate 0 g)).gate 0 = { g with pending := false } ∧
      (run (.gateListStart 0) (s.setGate 0 g)).gate 0 = { on with chg := 7000, entryAt := 7000, cycleAt := 7000, pendOn := true } ∧
      ((run (.gateListStart 0) (s.setGate 0 { on with pending := true, chg := 7000 })).gate 0).on = false ∧
      run (.registerWrite 0 0xE857C (.words [5])) (s.setGate 0 g) = (s.setGate 0 g).ignored 0xE857C 5 ∧
      run (.registerWrite 0 0xE9150 (.words [5])) (s.setGate 1 g) = (s.setGate 1 g).ignored 0xE9150 5 ∧
      run (.gateListStart 0) (s.setGate 0 { g with chg := 7001 }) = s.setGate 0 { g with chg := 7001 } ∧
      (run (.gateEntryAdvance 0) (s.setGate 0 on)).gate 0 = { on with entry := 1, entryAt := 7000 } ∧
      (run (.gateEntryAdvance 0) ({ s with now := 9000 }.setGate 0 { on with entry := 1, entryAt := 7000 })).gate 0 =
        { on with entryAt := 9000, cycleAt := 9000 } ∧
      run (.gateEntryAdvance 0) ({ s with now := 6999 }.setGate 0 on) = { s with now := 6999 }.setGate 0 on := by decide +kernel

/-- R223 to R227, R209: one live packet in hand, a unit of 96 bytes behind its slot in hamper page 0; then a stale unit. -/
def live1 (port : Nat) : State := ({ ethUp with
  now := 50
  subs := [(3, { d := [(0, 0x80050003), (1, 10), (2, BitVec.ofNat 32 (0x100 + 64 * port)), (3, 20)], bucket := { c := 2 }, seq := 41, hasFlow := true
                 flow := pad 64 [], flowNext := pad 64 [], queue := [{
                   ses := 5, live := true, commit := 40, pts := 160160, codec := 2, slots := [0], pages := [(0, 1)]
                   pkts := [{ bytes := 96, cover := 100, form := .whole [96] }] }] })]
  svcs := [(64 * port, { d0 := 0xC0000000 })] } : State).writeUnit [(0, 1)] (beBytes 4 96 ++ List.replicate 96 7)

/-- What an RTP hand-off says beside its frame. -/
def rtpHead : Emit → List Nat
  | .rtp p n seq ts m k _ _ _ => [p, n, seq, ts, b2n m, k]
  | _ => []

theorem test_mangle_traffic :
    let s := live1 0
    let c := (s.cands 0)
    let r := s.readPkt ((s.sub 3).queue.headD {})
    c.map (fun c => (c.sub, c.svc, c.isLive)) = [(3, 0, true)] ∧ (s.shape (.port 0)).has = false ∧ NoneWaits s ∧
      r.1 = { s with hbm := r.1.hbm, pmu := r.1.pmu } ∧ r.2 = some (beBytes 4 96 ++ List.replicate 96 7) ∧
      payload 2 false false (.whole [96]) (r.2.getD []) = List.replicate 96 7 ∧
      ((s.sub 3).switches ((s.sub 3).queue.headD {})) = false ∧
      (run (.packetSelect 0 [] .good) s).outbox.map rtpHead = [[0, 3, 41, 10, 0, 96]] ∧
      ((run (.packetSelect 0 [] .good) s).sub 3).queue = [] ∧
      ((run (.packetSelect 0 [] .good) s).sub 3).seq = 42 ∧ ((run (.packetSelect 0 [] .good) s).bucket (.sub 3)).c = 1 := by
  unfold NoneWaits; decide +kernel

theorem test_credit_and_stale :
    let s := live1 0
    (run (.creditRise (.sub 3)) s).bucket (.sub 3) = { c := 3, a := 140, at_ := 50 } ∧ run (.creditRise (.svc 9)) s = s ∧
      (run (.unitStale 3) s).sub 3 = s.sub 3 ∧ ((run (.unitStale 3) { s with now := 60 }).sub 3).queue = [] ∧
      (run (.unitStale 3) { s with now := 60 }).reg 0xE0108 = 1 ∧ run (.unitStale 4) s = s := by
  decide +kernel

/-- R209: the header of that packet. -/
theorem test_rtp_header :
    rtpHdr (pad 64 (pad 11 [] ++ [96] ++ pad 20 [] ++ leBytes 4 0x01020304)) 41 10 true = [0x80, 0xE0, 0, 41, 0, 0, 0, 10, 1, 2, 3, 4] := by decide

/-- R216, R343: the host packet ring, whose bytes carry a start code for the slot, and a host frame where nothing is queued. -/
theorem test_mangle_host :
    let s : State := { live1 2 with hif := { fns := [(0, { hprLo := 0x1000, hprSize := 4 })] } }
    let h : State := { ethUp with regs := [(0xE804C, 0x1000), (0xE8050, 4), (0xE8054, 1)] }
    let d : List Byte := leBytes 8 0x1000 ++ leBytes 2 60 ++ leBytes 2 0 ++ pad 48 [] ++ leBytes 4 0x80000000
    let f := beBytes 6 0xFFFFFFFFFFFF ++ beBytes 6 5 ++ beBytes 2 0x88B5 ++ pad 46 []
    let c := (s.cands 2).headD { sub := 0, svc := 0, q := {}, isLive := false }
    (s.cands 2).map (·.sub) = [3] ∧ (s.fn 0).hprEntries = 16 ∧ ((run (.packetSelect 2 [] .good) s).fn 0).hprTail = 1 ∧
      (run (.packetSelect 2 [] .good) s).outbox.contains
        (.hpr 0 0 (pad 2048 (hprHeader (s.sub 3) c ++ [0, 0, 0, 1] ++ List.replicate 96 7))) = true ∧
      ((run (.packetSelect 2 [] .good) s).sub 3).queue = [] ∧ ((run (.packetSelect 2 [] .good) s).bucket (.sub 3)).c = 1 ∧
      h.cands 0 = [] ∧ h.ethRing 0 0x48 = 16 ∧ d.length = 64 ∧ ownerBit d = true ∧
      (run (.packetSelect 0 (d ++ f) .good) h).outbox = [.hostFrame 0 0 none (f ++ leBytes 4 0xd44ffed6), .htxDone 0 0 0] ∧
      ((run (.packetSelect 0 (d ++ f) .good) h).eth 0).htxHead = 1 ∧
      run (.packetSelect 0 d .good) ethUp = ethUp := by decide +kernel
/-! ## Faults and lint -/

/-- R263 to R266: class 17 of the device, class 9 of tile 0, an absent tile. -/
theorem test_fault_event :
    let e : FaultEv := { cls := 17, detail := 5 }
    let t := run (.faultEvent [e]) { lib with now := 30 }
    lib.unitOk 17 0 = true ∧ fld (lib.fltCfg 17) 2 0 < 3 ∧ t.flt.status = BitVec.ofNat 64 (2 ^ 17) ∧ t.flt.firstTime = 30 ∧ t.flt.firstDetail = 5 ∧
      fld t.flt.firstWord 7 0 = 17 ∧ t.flt.firstWord.getLsbD 31 = true ∧ (t.fltUnit 17 0).unacked = true ∧
      lib.unitOk 9 52 = false ∧ run (.faultEvent [{ cls := 9, unit := 52 }]) lib = lib := by decide +kernel

/-- R266, R267, R268: levels 3 of a tile and a panel and 4 of the device. -/
theorem test_fault_levels :
    let s (k v : Nat) : State := { lib with flt := { cfg := [(k, BitVec.ofNat 32 v)] } }
    scopeOf 9 = .tile ∧ ((run (.faultEvent [{ cls := 9 }]) (s 9 0xFF1B)).tile 0).role = .retired ∧ scopeOf 32 = .panel ∧
      (run (.faultEvent [{ cls := 32 }]) (s 32 0xFF1B)).resetting = 1 ∧ scopeOf 17 = .device ∧
      (run (.faultEvent [{ cls := 17 }]) (s 17 0xFF24)).pwr.safe = true ∧ (run (.faultEvent [{ cls := 17 }]) (s 17 0xFF24)).mode = .safe := by
  decide +kernel

/-- R264, R269. -/
theorem test_fault_registers :
    let s : State := { lib with flt := { status := 0x20000, firstWord := 0x80000111, units := [(17 * 64, { cnt := 2, unacked := true })], winLo := some 9 }, regs := [(0x40018, 17)] }
    s.fltSel = 17 ∧ (run (.faultAcknowledge false 0x20000) s).flt.status = 0 ∧ ((run (.faultAcknowledge false 0x20000) s).fltUnit 17 0).unacked = false ∧
      (run (.firstClear 0x80000000) s).flt.firstWord = 0x111 ∧ run (.firstClear 1) s = s ∧ cfgLegal 17 0x112 = true ∧
      (run (.faultCfgWrite 0x112) s).fltCfg 17 = 0x112 ∧ ((run (.faultCfgWrite 0x112) s).fltUnit 17 0).cnt = 0 ∧ cfgLegal 17 0x12 = false ∧
      run (.faultCfgWrite 0x12) s = s.ignored 0x4001C 0x12 ∧ (run (.faultWindowWrite 1) s).fltWin 17 = 2 ^ 32 + 9 ∧
      run (.faultInject 0x80000011) s = run (.faultEvent [{ cls := 17 }]) s ∧ run (.faultInject 0x11) s = s.ignored 0x4002C 0x11 ∧
      scopeOf 63 = .reserved ∧ run (.faultWindowWrite 0) { s with regs := [(0x40018, 63)] } =
        ({ s with regs := [(0x40018, 63)] } : State).ignored 0x40024 0 := by decide +kernel

/-- R270 to R274: an entry of set 0, whose first address reads CTL_SCRATCH. -/
theorem test_lint :
    let g : LintTrig := { trig := 0x5009, time := 8, set := 0 }
    let s : State := { lib with regs := [(0x14, 77), (0x50100, 0x14)], lnt := { queue := [g], seq := 0xFFFFFFFF, next := 1023 } }
    let z (l : Lint) : State := { lib with lnt := l }
    (tget {} (run .lintEntryWrite s).lnt.sram 1023).vals.headD 0 = 77 ∧ (tget {} (run .lintEntryWrite s).lnt.sram 1023).seq = 1 ∧
      (tget {} (run .lintEntryWrite s).lnt.sram 1023).trig = 0x5009 ∧ (run .lintEntryWrite s).lnt.next = 0 ∧ run .lintEntryWrite lib = lib ∧
      (run .lintEntryWrite (z { queue := [{ g with fatal := true }] })).lnt.frozen = true ∧
      (run (.freeze 1) s).lnt.frozen = true ∧ (run (.freeze 1) s).reg 0x50008 = 1 ∧ (run (.unfreeze 2) (z { frozen := true })).lnt.frozen = false ∧
      (run (.snap 4) lib).lnt.queue = [{ trig := 0x7F000080 }] ∧ (run (.snap 4) (z { frozen := true })).reg 0x50008 = 1 ∧
      (tget {} (run (.lintClear 8) (z { frozen := true, sram := [(3, { trig := 5, seq := 2 })] })).lnt.sram 3) = { trig := 5 } ∧
      run (.lintClear 8) lib = lib.ignored 0x50000 8 ∧ run (.freeze 3) lib = lib.ignored 0x50000 3 := by decide +kernel

theorem test_lint_pocket :
    let s : State := { lib with now := 6, lnt := { seq := 4 } }
    let f : State := { lib with pwr := { lib.pwr with safe := true } }
    (run .lintSramError s).lnt.pocket = true ∧ (run .lintSramError s).lnt.pnext = 1 ∧ (tget {} (run .lintSramError s).lnt.pocketE 0).seq = 5 ∧
      (run .lintSramError s).flt.status.getLsbD 30 = true ∧ nbit (run .lintSramError s).hif.pend 3 = true ∧
      run (.unfreeze 2) f = f.ignored 0x50000 2 := by decide +kernel

/-! ## Memory -/

/-- R22, R256, R295: a line of region 0 at device address 0x100000000000, the unit 2 of stack 0. -/
def line0 : Nat := 0x100000000000
def data0 : List Byte := (upto 64).map fun i => BitVec.ofNat 8 (i + 1)
def wrote : State := run (.memRequest line0 (.write data0 0x11223344) 0) lib

theorem test_memory_write :
    lib.lineOf line0 = some (2 * 2 ^ 28) ∧ lib.stackUp 0 = true ∧ (lib.stack 0).provisional = false ∧ wrote.byte (2 ^ 29 + 63) = 64 ∧
      wrote.sideAt (2 ^ 23) 0 = 0x44 ∧ wrote.hbmForm = true ∧ rsDecode (wrote.codeword (2 ^ 29)) = .clean := by decide +kernel

/-- R257 on a line of zeros, whose check symbols are zeros: no error, one and two symbols corrected, three lost; a read outside every region counts. -/
theorem test_memory_read :
    (run (.memRequest line0 (.read []) 0) lib).mem = lib.mem ∧
      (run (.memRequest line0 (.read [(3, 9)]) 0) lib).reg 0xF0044 = 1 ∧ (run (.memRequest line0 (.read [(3, 9)]) 0) lib).mem = lib.mem ∧
      (run (.memRequest line0 (.read [(3, 9)]) 0) lib).flt.status.getLsbD 22 = true ∧
      (run (.memRequest line0 (.read [(3, 9), (70, 1)]) 0) lib).mem = lib.mem ∧
      rsDecode (rsFlip (lib.codeword (2 ^ 29)) [(0, 1), (1, 1), (2, 7)]) = .lost ∧
      (run (.memRequest line0 (.read [(0, 1), (1, 1), (2, 7)]) 0) lib).lastUnc = uncRecord (2 ^ 29) false ∧
      (run (.memRequest line0 (.read []) 2) lib).flt.status.getLsbD 23 = true ∧ lib.lineOf (line0 + 2 ^ 28) = none ∧
      (run (.memRequest (line0 + 2 ^ 28) (.read []) 0) lib).reg 0x10002C = 1 := by decide +kernel

theorem test_memory_sleeping :
    let s : State := lib.setDom 0 { st := 1, sleep := true }
    (s.dom (decodeLine (2 ^ 29)).stack).st = 1 ∧ run (.memRequest line0 (.read []) 0) s = s.setDom 0 { st := 4 } := by decide +kernel

/-- R258: the last line of a stack, and lines of a rank in power-down. -/
theorem test_scrub :
    let s (p pd : Nat) : State := { lib with regs := [(0xF0040, 1)], hbm := [(0, { scrubPos := p, pd := pd })] }
    ((run (.scrubRead 0 []) (s 603979775 0)).stack 0).scrubPos = 0 ∧ ((run (.scrubRead 0 []) (s 5 0)).stack 0).scrubPos = 6 ∧
      (run (.scrubRead 0 []) (s 5 1)).reg 0xF004C = 1 ∧ (run (.scrubRead 0 [(3, 9)]) (s 5 0)).flt.status.getLsbD 22 = true ∧
      (run (.scrubRead 0 [(0, 1), (1, 1), (2, 7)]) (s 5 0)).lastUnc = uncRecord 320 true := by decide +kernel

/-- R296 to R298: rows of rank 1 bank 2 and of rank 0. -/
theorem test_ranks :
    let c : LineChan := { banks := [(3, { open_ := some 5 }), (18, { open_ := some 7, counter := 1 })] }
    let s (r : Tbl Word) : State := { lib with hbm := [(0, { chans := [(0, c)] })], regs := r }
    let b (t : State) (k : Nat) : Option Nat := (tget {} ((t.stack 0).chan 0).banks k).open_
    b (run (.rowCloseTimeout 0 0 1 2) (s [(0x10000C, 0x100)])) 18 = none ∧ b (run (.rowCloseTimeout 0 0 1 2) (s [(0x10000C, 0x100)])) 3 = some 5 ∧
      run (.rowCloseTimeout 0 0 1 2) (s [(0x10000C, 0x101)]) = s [(0x10000C, 0x101)] ∧ (run (.bankRefresh 0 0) (s [])).stack 0 = { chans := [(0, c)], nextBank := [(0, 1)] } ∧
      b (run (.bankRefresh 0 0) { s [] with hbm := [(0, { chans := [(0, c)], nextBank := [(0, 3)] })] }) 3 = none ∧
      ((run (.rankPowerDown 0 1) (s [(0x100008, 1)])).stack 0).pd = 2 ∧ b (run (.rankPowerDown 0 1) (s [(0x100008, 1)])) 18 = none ∧
      (s []).rankBusy 0 1 = false ∧ ((run (.rankSelfRefresh 0 1) (s [(0x100008, 0x10000)])).stack 0).sr = 2 ∧
      (run (.caParityError 0 4 false) (s [])).reg 0x114014 = 1 ∧ (run (.caParityError 0 4 true) (s [])).flt.status.getLsbD 23 = true := by
  decide +kernel

theorem test_rank_in_use :
    let s : State := { at5 (ses1 .running) with regs := [(0x100008, 0x10000)] }
    s.rankBusy 0 0 = true ∧ run (.rankSelfRefresh 0 0) s = s := by decide +kernel

/-- R297: the bands of a temperature. -/
theorem test_bands :
    let thr := lib.reg 0x100014
    let b (t : Nat) : Nat := ((run (.stackTempReport 0 t) lib).stack 0).band
    b 0 = 0 ∧ b (fld thr 15 8) = 2 ∧ ((run (.stackTempReport 0 (fld thr 15 8)) lib).stack 0).temp = fld thr 15 8 ∧
      (((run (.stackTempReport 0 (fld thr 15 8)) lib).stack 0).chan 0).bandDue = true ∧ fld thr 15 8 < 256 := by decide +kernel

/-- R302: a load above half on an unvalidated set. -/
theorem test_load_window :
    run (.loadWindow 0 [50] []) lib = lib.setStack 0 { lib.stack 0 with load := 50 } ∧ (lib.stack 0).inUseOk 0 = false ∧
      (((run (.loadWindow 0 [51] []) lib).stack 0).chan 0).warned = true ∧ (run (.loadWindow 0 [127] []) lib).flt.status.getLsbD 24 = true := by
  decide +kernel

/-- Every delay set valid. -/
def trained : Stack := { dflags := (upto 144).map fun i => (i, 1) }

/-- R303 in WOVEN and PRIMED. -/
theorem test_frequency :
    let s (x : Stack) : State := { lib with hbm := [(0, x)] }
    trained.rateValid 2 = true ∧ ((run (.freqChangeRequest 0 2) (s trained)).stack 0).chg = some (2, false) ∧
      ((run (.freqChangeRequest 0 2) (s trained)).stack 0).sr = 15 ∧ run (.freqChangeRequest 0 3) lib = lib.ignored 0x100004 3 ∧
      run (.freqChangeRequest 0 2) lib = lib.ignored 0x100004 2 ∧
      ((run (.freqChangeRequest 0 2) (s { trained with sweep := some {} })).stack 0).fpend = some (2, false) ∧
      ((run (.freqChangeRequest 0 34) { s {} with pat := {} }).stack 0).chg = some (2, true) ∧
      ((run (.freqChangeDone 0) (s { trained with chg := some (2, false), sr := 15 })).stack 0).rate = 2 ∧
      (run (.freqChangeDone 0) (s { trained with chg := some (2, false), sr := 15 })).reg 0x100028 = 1 ∧
      (((run (.freqChangeDone 0) (s { chg := some (2, true) })).stack 0).chan 7).provisional = true := by decide +kernel

/-- R299 to R301. -/
theorem test_sweeps :
    let w : Sweep := { chan := 15, band := 2 }
    let s (x : Stack) : State := { lib with hbm := [(0, x)] }
    let lanes : List (Nat × Nat × Nat) := (upto 72).map fun i => (i, 1, 2)
    ((run (.fullSweep 0 0xF1) lib).stack 0).sweep = some { chan := 15 } ∧ ((run (.marginSweep 0 0x640102) lib).stack 0).sweep = some { margin := true, all := true, inject := 100 } ∧
      run (.fullSweep 0 1) (s { sweep := some w }) = (s { sweep := some w }).ignored 0x100020 1 ∧
      ((run (.sweepAbort 0 3) (s { sweep := some w })).stack 0).trainSt.toNat / 32 % 4 = 3 ∧ run (.sweepAbort 0 3) lib = lib ∧
      ((run (.sweepDone 0 { pass := true, lanes := lanes }) (s { sweep := some w })).stack 0).setValid 15 0 2 = true ∧
      tget 0 ((run (.sweepDone 0 { pass := true, lanes := lanes }) (s { sweep := some w })).stack 0).dset (setNo 15 0 2 * 128 + 71) = 0x020147 ∧
      (((run (.sweepDone 0 { pass := true, achieved := 80 }) (s { sweep := some { w with margin := true } })).stack 0).chan 15).lastMargin = some (0, 0, true, 80) := by
  decide +kernel

theorem test_dset_flags :
    let s (x : Stack) : State := { lib with regs := [(0x100040, 0x10)], hbm := [(0, x)] }
    let m : Stack := { chans := [(0, { lastMargin := some (1, 0, true, 70) })] }
    selSet ((s {}).reg 0x100040) = (0, 1, 0) ∧ (s {}).stack 0 = {} ∧ (s {}).stackUp 0 = true ∧ (({} : Stack).inUse 0 1 0) = false ∧
      tget 0 ((run (.dsetFlagsWrite 0 1) (s {})).stack 0).dflags (setNo 0 1 0) = 1 ∧ run (.dsetFlagsWrite 0 3) (s {}) = (s {}).ignored 0x100048 3 ∧
      m.mayValidate 0 1 0 = true ∧ tget 0 ((run (.dsetFlagsWrite 0 3) (s m)).stack 0).dflags (setNo 0 1 0) = 3 := by decide +kernel
/-! ## DMA, arbiter, check-value units -/

/-- Channel 56 runs a ring of 16 entries with one posted. -/
def ring (x : Chan) : State := { lib with chans := [(56, x)] }
def chan1 : Chan := { enable := true, size := 4, tail := 1, baseLo := 0x1000 }

/-- R67, R308, R317: the writes of a channel's registers. -/
theorem test_dma_ring :
    let d := parseDesc (desc 0 line0 0x80000004)
    let s := ring chan1
    s.hostChan 56 = true ∧ run (.dmaTailWrite 56 15) s = ring { chan1 with tail := 15 } ∧ run (.dmaTailWrite 56 16) s = s.ignored 0xA1E10 16 ∧
      run (.dmaEnable 56 5) (ring { size := 4 }) = ring { size := 4, enable := true, live := true } ∧
      run (.dmaEnable 56 1) lib = lib.ignored 0xA1E00 1 ∧ (run (.dmaEnable 56 0) s).chan 56 = { chan1 with enable := false, state := 6 } ∧
      ((run (.dmaEnable 56 0) (ring { chan1 with desc := some d })).chan 56).stopping = true ∧ (run (.dmaAbort 56 2) s).chan 56 = { chan1 with enable := false, state := 6 } ∧
      ((run (.dmaAbort 56 2) (ring { chan1 with desc := some d, raw := desc 0 line0 0x80000004 })).chan 56).last = 3 ∧
      (run (.dmaAbort 56 2) (ring { chan1 with desc := some d, raw := desc 0 line0 0x80000004 })).reg 0xA0010 = 1 ∧
      lib.hostChan 55 = false ∧ run (.dmaTailWrite 55 1) lib = lib.ignored 0xA1DD0 1 := by decide +kernel

theorem test_dma_requests :
    run (.dmaReqSet 0xFFFF8001) lib = { lib with dmaReq := 0x8001 } ∧ run (.dmaReqClear 1) { lib with dmaReq := 0x8001 } = { lib with dmaReq := 0x8000 } ∧
      ((run (.inboxFlush 0 1) { lib with tiles := [(0, { tile0 with inbox := [1, 2], midItem := true })] }).tile 0).inbox = [] ∧
      (run (.inboxFlush 0 1) { lib with tiles := [(0, { tile0 with inbox := [1, 2] })] }).reg 0x20010C = 2 ∧
      run (.inboxFlush 52 1) lib = lib.ignored 0x3A0100 1 ∧
      ((run (.inboxFlush 0 1) ((busy 0).modTile 0 fun t => { t with inbox := [1] })).unitOf { ses := 5 }).map (fun e => (e.2.st, e.2.replay)) =
        some (.ready, true) := by decide +kernel

/-- R308, R310, R314, R318. -/
theorem test_dma_start :
    let s := ring chan1
    let good := desc 0x2000 line0 0x80000004
    good.length = 64 ∧ s.descOk false good = true ∧ s.powerWait (parseDesc good) = false ∧
      (run (.descriptorStart 56 (desc 0x2000 line0 4) data0) s).chan 56 = { chan1 with state := 4 } ∧
      s.descOk false (desc 0x2000 line0 0x80000004 0) = false ∧ ((run (.descriptorStart 56 (desc 0x2000 line0 0x80000004 0) []) s).chan 56).last = 2 ∧
      (run (.descriptorStart 56 (desc 0x2000 line0 0x80000004 0) []) s).flt.status.getLsbD 28 = true ∧
      ((run (.descriptorStart 56 good data0) s).chan 56).moved = 1 ∧
      ((run (.descriptorStart 56 (desc 0x2000 line0 0x80000004 64 16) data0) s).chan 56).state = 3 ∧
      ((run (.descriptorStart 56 (desc 0x2000 line0 0x80000004 64 16) data0) { s with dmaReq := 0x8000 }).chan 56).state = 1 ∧
      (s.setDom 0 { st := 1 }).powerWait (parseDesc good) = true ∧ ((run (.descriptorStart 56 good data0) (s.setDom 0 { st := 1 })).chan 56).state = 5 ∧
      ((run (.descriptorStart 56 good data0) (s.setDom 0 { st := 1 })).dom 0).st = 4 := by decide +kernel

/-- R312, R313: while C62 uses eight movers, four BULK channels hold the rest; a fifth waits for one, and takes it as C62 ends. -/
theorem test_dma_movers :
    let good := desc 0x2000 line0 0x80000004
    let held (k : Nat) : Nat × Chan := (40 + k, { order := some k })
    let s (c62 : Chan) : State := { lib with chans := (upto 4).map held ++ [(56, chan1), (62, c62)] }
    (s { order := some 4 }).bulkMovers = 4 ∧ (s { order := some 4 }).hasMover 56 = false ∧ (s { order := some 4 }).hasMover 43 = true ∧
      run (.descriptorStart 56 good data0) (s { order := some 4 }) = (s { order := some 4 }).setChan 56 { chan1 with state := 2, order := some 5 } ∧
      (s {}).hasMover 56 = true ∧ ((run (.descriptorStart 56 good data0) (s {})).chan 56).state = 1 ∧
      ((run (.descriptorStart 56 good data0) (s {})).chan 56).order = some 4 := by decide +kernel

/-- R311, R315, R316: a line from the host and back, and a failed label. -/
theorem test_dma_write_back :
    let d (src dst flags : Nat) : Chan := { chan1 with desc := some (parseDesc (desc src dst flags)), raw := desc src dst flags, moved := 1, data := data0 }
    let s := ring (d 0x2000 line0 0x80000004)
    let t := run (.descriptorWriteback 56 .good) s
    let u : State := { t with chans := [(56, { d line0 0x3000 0x80000001 with data := [] })], outbox := [] }
    s.physOf line0 = some (2 ^ 29) ∧ (t.chan 56).last = 1 ∧ (t.chan 56).head = 1 ∧ t.byte (2 ^ 29 + 63) = 64 ∧
      rsDecode (u.codeword (2 ^ 29)) = .clean ∧ (run (.descriptorWriteback 56 .good) u).outbox.contains (.dmaData 56 0x3000 data0) = true ∧
      ((run (.descriptorWriteback 56 .good) u).chan 56).last = 1 ∧ ((run (.descriptorWriteback 56 (.labelFail 0)) u).chan 56).last = 4 ∧
      (run (.descriptorWriteback 56 (.labelFail 0)) u).flt.status.getLsbD 17 = true := by decide +kernel

theorem test_burst_start :
    let d := { parseDesc (desc 0x2000 line0 0x80000004 64 1) with lines := 5, burst := 2 }
    let s : State := ring { chan1 with desc := some d, moved := 4 }
    ((run (.burstStart 56) { s with dmaReq := 1 }).chan 56).moved = 5 ∧ ((run (.burstStart 56) s).chan 56).state = 3 := by decide +kernel

/-- R322 to R324: one ticket holder, no tickets, a floor at the sixteenth grant. -/
theorem test_lottery :
    let s (r : Tbl Word) (a : Arb) : State := { lib with arbs := [(0, a)], regs := r }
    let none' : Tbl Word := (upto 16).map fun i => (0xD0000 + 4 * i, 0)
    (run (.arbiterGrant 0 4) (s [(0xD0008, 9)] {})).reg 0xD0088 = 1 ∧ ((run (.arbiterGrant 0 4) (s [(0xD0008, 9)] {})).arb 0).count = 1 ∧
      ((run (.arbiterGrant 0 6) (s none' {})).arb 0).lastRr = 1 ∧
      ((run (.arbiterGrant 0 6) (s [(0xD0008, 0x101)] { count := 15 })).arb 0).lastFloor = 2 ∧ run (.arbiterGrant 0 0) lib = lib ∧
      ((run (.arbSeedWrite 0 0x80000005) lib).arb 0).lfsr = 5 ∧ (run (.registerWrite 0 0xD003C (.words [0xFFFFFFFF])) lib).reg 0xD003C = 0x1FF ∧ run (.arbSeedWrite 0 0x80000000) lib = lib.ignored 0xD0040 0x80000000 := by
  decide +kernel

/-- R325: the digits 1 to 9 in writes of 32, 16 and 8 bits give the CRC-32C check value; R326. -/
theorem test_check_value_unit :
    let a := run (.cvuData32 3 0x34333231) lib
    let b := run (.cvuData32 3 0x38373635) a
    let c := run (.cvuData8 3 0x39) b
    (a.cvu 3).bytes = 4 ∧ ((run (.cvuResultRead 3) c).cvu 3).result = 0xE3069283 ∧ ((run (.cvuData16 3 0x3231) lib).cvu 3).bytes = 2 ∧
      ((run (.cvuStart 3 0x320) c).cvu 3) = {} ∧ (run (.cvuCtlWrite 3 0x320) lib) = lib ∧
      run (.cvuCtlWrite 3 0x310) c = c.ignored 0xC00C0 0x310 ∧ run (.cvuStart 3 0) lib = lib.ignored 0xC00C0 0x8000 ∧
      ((run (.cvuCtlWrite 3 0x4320) lib).cvu 3).ctl = 0x4320 := by decide +kernel

/-! ## The host port -/

/-- R329, R330, R333, R335, R344. -/
theorem test_host_link :
    let s : State := { lib with hif := { link := mkWord [(0, 6), (4, 16), (9, 1), (10, 1)], fns := [(1, { hprLo := 5, mask := 3 })] } }
    let a : State := { busy 0 with regs := [(0x31010, 0x00080000)], sessions := [(5, { (busy 0).ses 5 with cls := clsArchive })] }
    run (.pcieLinkUp 6 16 true) lib = { lib with hif := { link := mkWord [(0, 6), (4, 16), (9, 1), (10, 1)] } } ∧
      (run .pcieLinkDown s).hif.link = 0 ∧ (run .pcieLinkDown s).flt.status.getLsbD 1 = true ∧ run .pcieLinkDown lib = lib ∧
      (run (.vfFlr 1) s).hif.flr = [1] ∧ ((run (.vfFlr 1) s).fn 1).hprLo = 0 ∧ 63 ∈ (run .vfEnableClear s).hif.flr ∧
      a.owner 5 = 1 ∧ nbit ((run (.vfFlr 1) a).tile 0).abandon 5 = true := by decide +kernel

theorem test_flr_complete :
    let s : State := { at5 (ses1 .ready) with regs := [(0x31010, 0x00010005), (2 ^ 24 + 0x30, 3)], hif := { flr := [1], fns := [(1, { mask := 3 })] } }
    let e : State := { lib with regs := [(2 ^ 24 + 0x30, 3)], hif := { flr := [1], fns := [(1, { mask := 3 })] } }
    s.vfSessions 1 = [5] ∧ s.unitsLeft 5 = false ∧ ((run (.flrComplete 1) s).ses 5).st = .closed ∧ (run (.flrComplete 1) s).hif.flr = [] ∧
      e.vfSessions 1 = [] ∧ run (.flrComplete 1) e = lib := by decide +kernel

theorem test_vf_sessions :
    let s : State := { lib with regs := [(0x31020, 0x00080008)] }
    run (.vfSessWrite 1 0x03C00C40) lib = lib.setReg 0x31010 0x03C00C40 ∧ run (.vfSessWrite 1 0x03C10000) lib = lib.ignored 0x31010 0x03C10000 ∧
      run (.vfSessWrite 1 0x00010008) s = s.ignored 0x31010 0x00010008 ∧ run (.vfSessWrite 1 0x00080000) s = s.setReg 0x31010 0x00080000 := by
  decide +kernel

/-- R344 to R349 with a basket of 64 records. -/
theorem test_baskets :
    let s (f : Func) : State := { lib with hif := { fns := [(2, f)] }, now := 100 }
    let on : Func := { enable := true, size := 6, phase := true, armed := true, msixEn := true, vecMask := false }
    let g (c : Instr) (f : Func) : Func := (run c (s f)).fn 2
    g (.bktEnable 2 1) { size := 6 } = { enable := true, size := 6, phase := true, armed := true } ∧ run (.bktEnable 2 1) lib = lib.ignFn 2 0x100 1 ∧
      g (.bktEnable 2 0) { on with hold := [{ count := 2 }] } = { on with enable := false, armed := false, lost := 2 } ∧
      g (.bktHeadWrite 2 5) { on with tail := 5, armed := false } = { on with tail := 5, head := 5 } ∧
      (run (.bktHeadWrite 2 4) (s { on with tail := 5, armed := false })).outbox = [.msix 2] ∧
      g (.bktHeadWrite 2 1) { on with tail := 63, hold := [{ src := 3 }] } = { on with tail := 0, head := 1, phase := false, armed := false, lastMsg := some 100 } ∧
      run (.bktHeadWrite 2 6) (s { on with tail := 5 }) = (s { on with tail := 5 }).ignFn 2 0x110 6 ∧
      (run (.msixModerationExpiry 2) (s { on with msgDue := true, lastMsg := some 90, mod := 10 })).outbox = [.msix 2] ∧
      (g (.msixModerationExpiry 2) { on with msgDue := true, fnMask := true }).pba = true ∧
      run (.msixModerationExpiry 2) (s { on with msgDue := true, lastMsg := some 91, mod := 10 }) = s { on with msgDue := true, lastMsg := some 91, mod := 10 } ∧
      (run (.msixUnmask 2 true false false) (s { on with vecMask := true, pba := true })).outbox = [.msix 2] ∧
      g (.msixUnmask 2 true true false) { on with pba := true } = { on with pba := true, fnMask := true } ∧ (g (.bktMaskWrite 2 0xFF) on).mask = 127 := by
  decide +kernel

theorem test_hpr_head :
    let s : State := { lib with hif := { fns := [(0, { hprLo := 1, hprSize := 4 })] } }
    (s.fn 0).hprEntries = 16 ∧ ((run (.hprHeadWrite 0 15) s).fn 0).hprHead = 15 ∧ run (.hprHeadWrite 0 16) s = s.ignFn 0 0x14C 16 := by
  decide +kernel

/-- R351, R352. -/
theorem test_pending :
    let s (h : Hif) : State := { lib with hif := h }
    (run (.pendingSourceAssert 4 7 0) lib).hif.pend = 16 ∧ (run (.pendingSourceAssert 4 7 0) lib).reg 0x30290 = 1 ∧
      (run (.pendingSourceAssert 1 7 0) (s { inService := 2 })).hif.pend = 0 ∧ run (.pendingSourceAssert 1 7 0) (s { asserted := 2 }) = s { asserted := 2 } ∧
      (run (.pendingSourceDeassert 1) (s { asserted := 2, pend := 2 })).hif.pend = 0 ∧ run (.pendingSourceDeassert 1) (s { asserted := 2, inService := 2 }) = s { inService := 2 } ∧
      run (.pendingSourceDeassert 0) lib = lib ∧ (run .hifClaim (s { pend := 18, pendEn := 16 })).hif.pend = 2 ∧
      (run .hifClaim (s { pend := 18 })).hif.inService = 2 ∧ run .hifClaim lib = lib ∧
      (run (.hifEoi 1) (s { inService := 2, asserted := 2 })).hif.pend = 2 ∧ (run (.hifEoi 1) (s { inService := 2 })).hif.inService = 0 ∧
      run (.hifEoi 1) lib = lib.ignored 0x3020C 1 ∧ (run (.pendEnWrite 0xFFFFFFFF) lib).hif.pendEn = 31 := by decide +kernel
/-! ## Power, security, counters -/

/-- A firmware image of version 4 (R387), a patch image of serial 3 with one redirect (Table 14.2, AES-256-GCM under the reset patch
key) and a debug certificate for serial number 0 and nonce 9 (R397). Signatures and ciphertext were made outside the model. -/
def fwImg : List Byte :=
  pad 64 (leBytes 4 0x4D564657 ++ leBytes 2 1 ++ leBytes 2 0 ++ leBytes 4 192 ++ leBytes 4 4) ++
  signedBy 0xe149725fa78d379d9b557aa3b4c3d087201f461a6785e1cebc6a6540ae01becf4161fca8e9abac5699a26519741f3b1b
    0xd9ff320ed39f806fb8b0cef60ad84180ff4afcff988a67ea137a693deea87320a07672db45f0e6c32a61f8c3aa3c0046
def patchImg : List Byte :=
  pad 32 (leBytes 4 0x4D564E50 ++ leBytes 2 1 ++ leBytes 2 0 ++ leBytes 4 256 ++ leBytes 4 3 ++ leBytes 2 1) ++
  beBytes 28 0x0102030405060708090a0b0cbd0dfe7be7895d961b6ce20546551d8a ++ leBytes 4 0 ++
  beBytes 64 0x3d44d7222679758a835db658fb82749ee3970ebcfcac306e0a30c28394fa98966be7297f4362e6e8fac2802296b49d190836df2c658a8f2b8f918eebb11f053e ++
  signedBy 0x4a1eaa904ed7ce163c8b341103a6dd5b3e839a5eb0f3161960d93760f40e80697a095e6c7bc5c5a8c9f511f94f2339c4
    0x6b8adc4a7856d351980c25703c3fe5003ba92d66a8dff8beee1f6b6b89d9259ea107ac25cca98526fccbbe9d9399e23f
def certImg : List Byte :=
  pad 64 (leBytes 4 0x4D564442 ++ leBytes 8 0 ++ leBytes 4 9) ++
  signedBy 0x57ba8dfbf4e74511023f92a4a5b8cab12aaa9461349faa5080b0f411622803b50fcaaadac5dbf8b8470c7e33f58afbad
    0xe0f9d6434c5e82f69e7730543608648dc001d7da03220d78292027ced28ae150f5ca533b276944f7944b365c1b998065

/-- R371, R388, R416. -/
theorem test_boot :
    let s (l : Life) : State := { held with pwr := { life := l } }
    let good : FirmwareIn := { image := fwImg }
    run .resetRelease held = s .boot ∧ run .resetRelease up = up ∧ (s .boot).sec.verifies (trailerSlot fwImg) 0 = true ∧ fwForm fwImg = true ∧
      (run (.firmwareVerifyDone good) (s .boot)).pwr.life = .train ∧ (run (.firmwareVerifyDone good) (s .boot)).sec.svn = 4 ∧
      (run (.firmwareVerifyDone { image := fwImg.drop 64 }) (s .boot)).sec.boot = 3 ∧
      (run (.firmwareVerifyDone { image := fwImg.take 64 ++ noSig }) (s .boot)).sec.boot = 1 := by decide +kernel

/-- R388, R389, R423: a version below the counter; the board record. -/
theorem test_boot_version :
    let s (l : Life) : State := { held with pwr := { life := l } }
    let good : FirmwareIn := { image := fwImg }
    let old : State := { s .boot with sec := { nonce := 0, counter := 5 } }
    (run (.firmwareVerifyDone good) old).sec.boot = 2 ∧ (run (.firmwareVerifyDone good) old).pwr.life = .rejected ∧
      (run (.firmwareVerifyDone good) old).pwr.subsys = 0x0A911F5C ∧
      (run (.firmwareVerifyDone { good with board := 0x00020001 }) (s .boot)).pwr.subsys = 0x00020001 ∧
      run (.firmwareVerifyDone good) up = up ∧ run (.bootComplete .noImage) up = up := by decide +kernel

/-- R375: stack 0 passed at rates 1 and 2, the others at none. -/
theorem test_boot_complete :
    let x : Stack := { dflags := (upto 144).filterMap fun i => if i / 3 % 3 = 0 then none else some (i, 1) }
    let s : State := { held with pwr := { life := .train }, hbm := [(0, x)] }
    let a : State := { s with hbm := (upto 4).map fun k => (k, x) }
    (s.stack 0).passed = [1, 2] ∧ (s.stack 1).passed = [] ∧ ((run (.bootComplete .noImage) a).stack 0).rate = 1 ∧
      (run (.bootComplete .noImage) a).pwr.life = .up ∧ ((run (.bootComplete .noImage) s).stack 1).fenced = true ∧
      (run (.bootComplete .noImage) s).flt.status.getLsbD 7 = true ∧ a.sec.readPatch fwImg = none ∧
      (run (.bootComplete (.image fwImg)) a).flt.status.getLsbD 6 = true := by decide +kernel

/-- R285, R286, Table 14.3: the patch image is decrypted and held. -/
theorem test_boot_patch :
    held.sec.readPatch patchImg = some (3, [{ key := 0, redirects := [(7, 0)], words := [5] }]) := by decide +kernel

/-- R372. -/
theorem test_standby :
    let s : State := { lib with pwr := { lib.pwr with standbyPend := true }, hif := { link := 0x400 }, sec := { nonce := 0, keys := [(3, [1])] } }
    run (.standby 0) lib = { lib with pwr := { lib.pwr with standbyPend := true } } ∧ run (.standby 0) (at5 (ses1 .ready)) = (at5 (ses1 .ready)).ignored 0x70004 1 ∧
      s.testing = [] ∧ (run .standbyEntry s).mode = .standby ∧ (run .standbyEntry s).pat = pat1 ∧ (run .standbyEntry s).sec.keys = [] ∧
      ((run .standbyEntry s).tile 0).power = .off ∧ ((run .standbyEntry s).stack 3).sr = 15 ∧ (run .standbyEntry s).hif.link = 0 := by decide +kernel

/-- R373, R388. -/
theorem test_wake :
    let s : State := { lib with pwr := { life := .standby } }
    let r : State := { held with pwr := { life := .rejected } }
    let w (load : Bool) (k : List (List Byte)) : State := { lib with pwr := { life := .waking, wakeLoad := load }, hif := { link := 0x400 }, ldr := { kept := k } }
    (run .wake s).pwr = { life := .waking, lastWake := 0 } ∧ (run .wakeNEdge s).pwr.lastWake = 1 ∧ s.wakeDue = false ∧
      ({ s with regs := [(0x70008, 5)], now := 5 } : State).wakeDue = true ∧ (run .wakeTimer { s with regs := [(0x70008, 5)], now := 5 }).pwr.lastWake = 2 ∧
      (run .wake r).pwr.life = .boot ∧ (run .wakeNEdge r).pwr.life = .boot ∧ run .wakeTimer s = s ∧ run .wake lib = lib ∧
      (run (.wakeDone false false) (w false [])).pwr.life = .up ∧ (run (.wakeDone false true) (w true [])).ldr.reject = 0x12 ∧
      (w true [fullImg]).ldr.kept.all (w true [fullImg]).keptOk = true ∧ (w true [pad 128 [0, 0, 0, 0, 3]]).ldr.kept.all (w true [pad 128 [0, 0, 0, 0, 3]]).keptOk = false ∧
      (run (.wakeDone true true) (w true [pad 128 [0, 0, 0, 0, 3]])).ldr.reject = 0x04 ∧ (run (.wakeDone true false) (w true [fullImg])).ldr.reject = 0x10 ∧
      (run (.wakeDone true true) (w true [fullImg])).pat = pat1 := by decide +kernel

/-- R377, R378. -/
theorem test_stack_sleep :
    let d (x : Dom) : State := lib.setDom 0 x
    let live : State := at5 (ses1 .running)
    lib.stackBars 0 = false ∧ live.stackBars 0 = true ∧ run (.domainSleepWrite 0 1) live = live.ignored 0x70010 1 ∧
      (run (.domainSleepWrite 0 1) lib).dom 0 = { sleep := true, st := (lib.stackHeld 0).1, holder := (lib.stackHeld 0).2 } ∧
      (run (.domainSleepWrite 0 0) (d { sleep := true, st := 2 })) = lib ∧ (lib.stackHeld 0).1 = 0 ∧
      (run (.stackSleep 0) (d { sleep := true })).dom 0 = { sleep := true, st := 1 } ∧ ((run (.stackSleep 0) (d { sleep := true })).stack 0).sr = 15 ∧
      run (.stackSleep 0) lib = lib ∧ run (.stackWakeDone 0) (d { st := 4 }) = lib ∧ run (.stackWakeDone 0) lib = lib := by decide +kernel

/-- R319: a forced sleep stops the channel that moves on the stack. -/
theorem test_forced_sleep :
    let c : Chan := { enable := true, size := 4, tail := 1, desc := some (parseDesc (desc 0x2000 0x100000000000 0x80000004)) }
    let s : State := { lib with chans := [(56, c)] }
    s.movingOn 0 = [56] ∧ ((run (.domainSleepWrite 0 3) s).chan 56).desc = none ∧ (run (.domainSleepWrite 0 3) s).flt.status.getLsbD 29 = true := by
  decide +kernel

theorem test_quadrant_sleep :
    let s : State := lib.setDom 4 { sleep := true }
    let b : State := { lib with a144 := false }
    lib.quadBars 0 = false ∧ (at5 (ses1 .running)).quadBars 0 = true ∧ ((run (.domainSleepWrite 4 1) lib).tile 0).power = .off ∧
      run (.domainSleepWrite 4 1) (at5 (ses1 .running)) = (at5 (ses1 .running)).ignored 0x70020 1 ∧ run (.domainSleepWrite 4 0) s = lib ∧
      ((run (.quadrantSleep 0) { s with tiles := [] }).quad 0).pll = false ∧ run (.quadrantSleep 0) lib = lib ∧
      run (.domainSleepWrite 2 1) b = b.ignored 0x70018 1 ∧ run (.domainSleepWrite 6 1) b = b.ignored 0x70028 1 := by decide +kernel

/-- R379, R380 at the temperatures where they change. -/
theorem test_thermal :
    (run (.tempSample 96 96 96) { lib with hif := { asserted := 2, pend := 2 } }).hif.pend = 0 ∧ ((run (.tempSample 96 96 96) lib).quad 0).coolAt = some 0 ∧
      ((run (.tempSample 105 20 20) lib).quad 0).mhz = 400 ∧ nbit (run (.tempSample 105 20 20) lib).hif.pend 1 = true ∧
      (run (.tempSample 114 20 20) lib).flt.status.getLsbD 25 = true ∧ (run (.tempSample 115 20 20) lib).pwr.tripped = true ∧
      (run (.tempSample 115 20 20) lib).flt.status.getLsbD 4 = true ∧ (run (.tempSample 115 20 20) lib).flt.status.getLsbD 25 = true ∧
      fld (run (.tempSample 115 20 20) lib).flt.firstWord 7 0 = 4 ∧ ((run (.tempSample 115 20 20) lib).tile 0).power = .off := by decide +kernel

theorem test_clocks :
    let s (m : Nat) : State := { lib with now := 14414400, pwr := { life := .up, quads := [(0, { pll := true, mhz := m, coolAt := some 0 })] } }
    ((run (.quadrantStepUp 0) (s 400)).quad 0).mhz = 500 ∧ ((run (.quadrantStepUp 0) (s 1150)).quad 0).mhz = 1200 ∧ run (.quadrantStepUp 0) (s 1200) = s 1200 ∧
      ((run (.quadrantPllLoss 0 true) lib).quad 0).pll = false ∧ ((run (.quadrantPllLoss 0 true) lib).tile 0).store = [] ∧
      (run (.quadrantPllLoss 0 false) lib).flt.status.getLsbD 13 = true ∧ (run .refClockLost lib).flt.status.getLsbD 2 = true := by decide +kernel

/-- R417, R421 at a rail's limits. -/
theorem test_supplies :
    let n := (railNominal[0]?).getD 0
    (railNominal[0]?).isSome = true ∧ (run (.supplyExcursion 0 (85 * n / 100 - 1) 0) lib).pwr.life = .held ∧
      (run (.supplyExcursion 0 (85 * n / 100 + 1) 3) lib).flt.status.getLsbD 3 = true ∧ run (.supplyExcursion 0 n 9) lib = lib ∧
      run (.supplyExcursion 1 0 9) lib = lib := by decide +kernel

/-- R385, R386, R389 to R392, R397, R398: how the commands start. -/
theorem test_security_commands :
    let r : State := { lib with sec := { nonce := 0, reloading := true } }
    let u : State := { lib with pwr := { lib.pwr with safe := true } }
    (run (.importKey 0x301) { lib with regs := [(0x80010, 40)] }).sec.busy = some 0x301 ∧ (run (.importKey 0x301) { lib with regs := [(0x80010, 40)] }).sec.len = 40 ∧
      run (.importKey 1) u = u.ignored 0x80004 1 ∧ (run (.importKey 0x301) r).sec.waiting = some 0x301 ∧ (run (.clearSlot 0x302) r).sec.waiting = some 0x302 ∧
      (run (.clearSlot 0x302) { lib with sec := { nonce := 0, keys := [(3, [1]), (4, [2])] } }).sec.keys = [(4, [2])] ∧ run (.clearSlot 2) u = u.ignored 0x80004 2 ∧
      (run (.provision 0x13) up).sec.busy = some 0x13 ∧ run (.provision 3) up = up.ignored 0x80004 3 ∧ run (.provision 0x13) lib = lib.ignored 0x80004 0x13 ∧
      (run (.revoke 0x74) lib).sec.revoked = 128 ∧ run (.revoke 4) lib = lib.ignored 0x80004 4 ∧
      (run (.svnCommit 5) { lib with sec := { nonce := 0, svn := 6, counter := 2 } }).sec.counter = 6 ∧ (run (.unlockDebug 7) lib).sec.busy = some 7 := by
  decide +kernel

theorem test_security_states :
    let d (k : Nat) : State := { lib with sec := { nonce := 0, debug := k } }
    let b : State := { lib with sec := { nonce := 0, busy := some 1 } }
    (run (.lockDebug 6) (d 0)).sec.debug = 1 ∧ (run (.lockDebug 6) (d 1)).sec.debug = 3 ∧ run (.lockDebug 6) (d 3) = (d 3).ignored 0x80004 6 ∧
      run (.unlockDebug 7) (d 3) = (d 3).ignored 0x80004 7 ∧ run (.importKey 1) b = b.ignored 0x80004 1 ∧ run (.svnCommit 5) b = b.ignored 0x80004 5 := by
  decide +kernel

/-- RFC 3394 wraps, made outside the model: of a key, a salt and zeros under an OTK of ones, and of that OTK under the reset patch key. -/
def wrapped : List Byte := beBytes 40 0x78b655ec6046429e2c09e3bb94cf57c9b5edc254473ab75ba8460cfc35fd4a9966102058312ed033
def wrappedOtk : List Byte := beBytes 40 0x0b0888a8bd2f1e98eb5e39cf70b16bd2c1bd43fd9ede7719ef2bcda14b1e4dc652157a55bf21b088
def secRuns (v : Word) : State :=
  { lib with sec := { nonce := 9, busy := some v, otk := true, otkKey := List.replicate 32 1, len := 40 } }

/-- RFC 3394. -/
theorem test_unwraps :
    unwrap (secRuns 0).sec.otkKey (wrapped.take 40) =
      some ((upto 28).map (fun i => BitVec.ofNat 8 (i + 1)) ++ [0, 0, 0, 0]) := by decide +kernel
theorem test_unwraps_not : unwrap (secRuns 0).sec.otkKey (wrappedOtk.take 40) = none := by decide +kernel
theorem test_unwraps_otk : lib.sec.patchKey = List.replicate 32 0 ∧ unwrap (List.replicate 32 0) wrappedOtk = some (List.replicate 32 1) := by
  decide +kernel

/-- R391: an import ends. -/
theorem test_import_ends :
    (run (.secCommandDone wrapped 1) (secRuns 0x301)).sec.keys = [(3, (upto 28).map fun i => BitVec.ofNat 8 (i + 1))] := by decide +kernel

/-- R391: it fails. -/
theorem test_import_fails :
    let r := run (.secCommandDone wrappedOtk 1) (secRuns 0x301)
    [r.sec.result, b2n (nbit r.hif.pend 4)] = [2, 1] := by decide +kernel

/-- R386: provisioning of the OTK ends. -/
theorem test_provision_ends :
    let n : State := { lib with sec := { nonce := 9, busy := some 0x83 } }
    (run (.secCommandDone wrappedOtk 1) n).sec.otkKey = List.replicate 32 1 := by decide +kernel

/-- R386: it fails; a verification key is written; no command runs. -/
theorem test_provision_more :
    let n : State := { lib with sec := { nonce := 9, busy := some 0x83 } }
    let r := run (.secCommandDone wrapped 1) n
    let key : List Byte := pad 49 [2] ++ [5]
    [b2n r.sec.otk, (r.reg 0x80034).toNat] = [0, 4] ∧ tget 0 (run (.secCommandDone key 1) (secRuns 0x13)).sec.vk 1 = 21 ∧
      tget [] (run (.secCommandDone key 1) (secRuns 0x13)).sec.vkKey 1 = pad 49 [2] ∧ run (.secCommandDone [] 1) lib = lib := by decide +kernel

/-- R397: the certificate that names the serial number and the nonce, and the same under another nonce. -/
theorem test_unlock :
    let s (n : Word) : State := { lib with sec := { nonce := n, busy := some 7, debug := 1, keys := [(3, [1])] } }
    (s 9).sec.verifies (trailerSlot certImg) 3 = true ∧ trailerForm certImg = true ∧
      (run (.secCommandDone certImg 1) (s 9)).sec = { nonce := 1, debug := 2, otkOff := true, result := 1 } ∧
      (run (.secCommandDone certImg 1) (s 8)).sec.debug = 1 ∧ (run (.secCommandDone certImg 1) (s 8)).sec.result = 2 := by decide +kernel

theorem test_core_reload :
    let s (w : Option Word) : State := { lib with sec := { nonce := 0, reloading := true, waiting := w }, regs := [(0x80010, 40)] }
    (run .coreReloadDone (s none)).sec.reloading = false ∧ (run .coreReloadDone (s (some 0x301))).sec.busy = some 0x301 ∧ run .coreReloadDone lib = lib := by
  decide +kernel

/-- R399 to R408; PMU_EVT5 with 0x0008_2007 is the worked value of the chapter. -/
theorem test_pmu :
    let s (p : Pmu) (r : Tbl Word) : State := { lib with pmu := p, regs := r }
    (run (.pmuClear 3) (s { cnt := [(5, 9), (64, 8)], ovf := [(5, true)] } [])).pmu = { cnt := [(64, 8)] } ∧ evtLegal false false 0x00082007 = true ∧
      run (.pmuEvtWrite none 5 0x00082007) lib = lib.setReg 0x60114 0x00082007 ∧ run (.pmuEvtWrite none 5 0) lib = lib.ignored 0x60114 0 ∧
      evtLegal true true 0x45 = true ∧ run (.pmuEvtWrite (some 0) 7 0x45) lib = lib.setReg 0x20405C 0x45 ∧
      run (.pmuThrAck false 4) (s { thr := 12 } []) = s { thr := 8 } [] ∧ run (.sampleHeadWrite 2) (s { tail := 2 } []) = s { tail := 2, head := 2 } [] ∧
      run (.sampleHeadWrite 3) (s { tail := 2 } []) = (s { tail := 2 } []).ignored 0x60610 3 ∧ run (.thresholdEvent 5 9) lib = lib := by decide +kernel

theorem test_pmu_threshold_and_windows :
    let s : State := { lib with regs := [(0x60000, 1), (0x60400, 7), (0x60700, 1000)], now := 2500, pmu := { bwAt := 1000 } }
    let w (k : Nat) : Pmu := (run (.bwWindowBoundary (List.replicate 16 k)) s).pmu
    s.pmuLimit 0 = 7 ∧ (run (.thresholdEvent 0 7) s).pmu.thr = 1 ∧ tget 0 (run (.thresholdEvent 0 7) s).pmu.cnt 0 = 7 ∧
      (w 3).bwAt = 2000 ∧ (w 3).bwStart = 1000 ∧ (w 3).bwGen = 1 ∧ tget 0 (w 3).bw 15 = 3 ∧
      (run (.bwWindowBoundary []) { s with pmu := { bwAt := 1000, bwFresh := true } }).pmu = { bwAt := 2000 } ∧
      run (.bwWindowBoundary []) { s with pmu := { bwAt := 2000 } } = { s with pmu := { bwAt := 2000 } } := by decide +kernel

theorem test_samples :
    let s (q : Nat) : State := { lib with
      regs := [(0x60600, 1), (0x60608, 1)], now := 70, tiles := [(0, { tile0 with sampCnt := 2 ^ 32 })], pmu := { queue := List.replicate q {} } }
    (s 0).samplePeriod 0 ≤ ((s 0).tile 0).sampCnt ∧ (run (.preciseSample 0 1 2) (s 0)).pmu.queue.map (·.d3) = [70] ∧
      ((run (.preciseSample 0 1 2) (s 0)).tile 0).sampCnt = 0 ∧ (run (.preciseSample 0 1 2) (s 64)).reg 0x60618 = 1 ∧
      run (.preciseSample 0 1 2) lib = lib := by decide +kernel

/-- R422, Table 23.8: before boot the device answers too; the last byte is the PEC, at address 0x58. -/
theorem test_i2c :
    (run .i2cSerial { held with serial := 0x0102 }).outbox = [.i2c [2, 1, 0, 0, 0, 0, 0, 0, 64]] ∧ (run .i2cTimebase { held with now := 256 }).outbox = [.i2c [0, 1, 0, 0, 0, 0, 0, 0, 222]] ∧
      (run .i2cStatus up).outbox = [.i2c [1, 0, 0, 0, 100]] ∧
      (run .i2cTemp { up with pwr := { life := .up, temp := [(0, 50), (2, 40)] }, hbm := [(1, { temp := 60 })] }).outbox = [.i2c [50, 0, 40, 0, 60, 0, 0, 151]] ∧
      (run .i2cVolts held).outbox.length = 1 := by decide +kernel
/-! ## Groups, and what every step keeps -/

/-- R65: rank 0 takes its lower rank with it. -/
theorem test_group :
    let s : State := { lib with sessions := [(5, { ses1 .running with group := 0x1001, migrate := 0x00180003 }),
      (6, { ses1 .paused with group := 0x1201 })] }
    (s.ses 5).member = true ∧ (s.ses 5).rank = 0 ∧ 6 ∈ s.members 5 ∧ s.cmdReason 5 8 0 = none ∧
      ((run (.drain 0 5 0) s).ses 6).st = .ready ∧ ((run (.migrateOut 0 5 0) s).ses 5).st = .migrating ∧
      ((run (.migrateOut 0 5 0) s).ses 6).st = .migrating := by decide +kernel

/-- A line write as a step keeps the canonical form; a one-time-programmable bit stays. -/
theorem test_step_keeps :
    let s : State := { lib with pending := [.memRequest line0 (.write data0 0) 0, .revoke 0x74] }
    let t : State := match step s with
      | .next t => t
      | _ => {}
    s.hbmForm = true ∧ t.hbmForm = true ∧ t.mem ≠ [] ∧ t.pending = [.revoke 0x74] ∧
      nbit (run (.revoke 0x74) { lib with sec := { nonce := 0, revoked := 2 } }).sec.revoked 1 = true := by decide +kernel

/-- R419: the array holds 155 signal balls, 1,578 supply balls and 2,891 VSS balls. -/
theorem test_balls :
    let all := (upto 68).flatMap fun r => (upto 68).map fun c => ballAt (r + 1) (c + 1)
    let supply (b : Ball) : Bool := match b with
      | .rail _ => true
      | _ => false
    (all.filter supply).length = 1578 ∧ (all.filter (· == .vss)).length = 2891 ∧ all.length = 4624 := by decide +kernel

end Sys2Proof.Tests
end

section
/-!
SUPPORT. The operations that write HBM keep everything else that `State.kept` lists.
-/
namespace Sys2Proof.Machine

/-- What `State.kept` lists beside HBM contents: an operation that writes HBM keeps it all the same. -/
def beside {α β γ μ σ ρ : Type} (k : α × β × γ × μ × σ × ρ) : α × β × γ × ρ := (k.1, k.2.1, k.2.2.1, k.2.2.2.2.2)

@[simp] theorem beside_mk {α β γ μ σ ρ : Type} (a : α) (b : β) (c : γ) (m : μ) (d : σ) (r : ρ) :
    beside (a, b, c, m, d, r) = (a, b, c, r) := rfl

@[simp] theorem ite_beside {α β γ μ σ ρ : Type} (c : Prop) [Decidable c] (k l : α × β × γ × μ × σ × ρ) :
    beside (if c then k else l) = if c then beside k else beside l := apply_ite _ _ _ _

theorem foldl_beside {α : Type} (f : State → α → State) (h : ∀ s a, beside (f s a).kept = beside s.kept) (l : List α) (s : State) :
    beside (l.foldl f s).kept = beside s.kept := by
  induction l generalizing s with
  | nil => rfl
  | cons a t ih => rw [List.foldl_cons, ih, h]

@[simp] theorem State.setByte_beside (s : State) (a : Nat) (v : Byte) : beside (s.setByte a v).kept = beside s.kept := rfl

@[simp] theorem State.setBytes_beside (s : State) (a : Nat) (bs : List Byte) : beside (s.setBytes a bs).kept = beside s.kept := by
  induction bs generalizing s a with
  | nil => rfl
  | cons b t ih => rw [State.setBytes, ih, State.setByte_beside]

@[simp] theorem State.setSide_beside (s : State) (l i : Nat) (bs : List Byte) : beside (s.setSide l i bs).kept = beside s.kept := by
  induction bs generalizing s i with
  | nil => rfl
  | cons b t ih => rw [State.setSide, ih]; rfl

@[simp] theorem State.storeLine_beside (s : State) (a : Nat) (cs : List Byte) : beside (s.storeLine a cs).kept = beside s.kept := by
  simp [State.storeLine]

@[simp] theorem State.writeLine_beside (s : State) (a : Nat) (data : List Byte) (label : Word) :
    beside (s.writeLine a data label).kept = beside s.kept := by simp [State.writeLine]

@[simp] theorem State.readLine_beside (s : State) (a : Nat) (errs : List (Nat × Byte)) (scrub : Bool) :
    beside (s.readLine a errs scrub).kept = beside s.kept := by
  unfold State.readLine
  dsimp only
  split <;> simp

@[simp] theorem State.fetchLine_beside (s : State) (a gen : Nat) : beside (s.fetchLine a gen).1.kept = beside s.kept := by
  have h : beside ((s.access (decodeLine a)).readLine a [] false).kept = beside s.kept := by simp
  unfold State.fetchLine
  dsimp only
  repeat' split
  all_goals exact h

@[simp] theorem State.memRequestOp_beside (s : State) (a : Nat) (op : LineOp) (ca : Nat) :
    beside (s.memRequestOp a op ca).kept = beside s.kept := by
  unfold State.memRequestOp
  cases op <;> dsimp only <;> repeat' split
  all_goals simp

@[simp] theorem State.scrubOp_beside (s : State) (k : Nat) (errs : List (Nat × Byte)) :
    beside (s.scrubOp k errs).kept = beside s.kept := by
  unfold State.scrubOp
  simp

@[simp] theorem State.readBeat_beside (s : State) (x : Chan) (d : Desc) (i j : Nat) :
    beside (s.readBeat x d i j).1.kept = beside s.kept := by
  unfold State.readBeat
  dsimp only
  repeat' split
  all_goals simp

@[simp] theorem State.writeBeat_beside (s : State) (n : Nat) (d : Desc) (i j : Nat) (b : List Byte × Nat × Word) :
    beside (s.writeBeat n d i j b).kept = beside s.kept := by
  unfold State.writeBeat
  dsimp only
  repeat' split
  all_goals simp

@[simp] theorem Mover.go_beside (m : Mover) (n : Nat) (x : Chan) (d : Desc) (i j k : Nat) :
    beside (Mover.beat.go m n x d i j k).s.kept = beside m.s.kept := by
  unfold Mover.beat.go
  dsimp only
  split <;> simp

@[simp] theorem Mover.beat_beside (m : Mover) (n : Nat) (x : Chan) (d : Desc) (e : MoveEnd) (i j : Nat) :
    beside (m.beat n x d e i j).s.kept = beside m.s.kept := by
  unfold Mover.beat
  dsimp only
  repeat' split
  all_goals simp

theorem Mover.foldl_beside {α : Type} (f : Mover → α → Mover) (h : ∀ m a, beside (f m a).s.kept = beside m.s.kept) (l : List α)
    (m : Mover) : beside (l.foldl f m).s.kept = beside m.s.kept := by
  induction l generalizing m with
  | nil => rfl
  | cons a t ih => rw [List.foldl_cons, ih, h]

@[simp] theorem State.moveAll_beside (s : State) (n : Nat) (d : Desc) (e : MoveEnd) :
    beside (s.moveAll n d e).s.kept = beside s.kept :=
  Mover.foldl_beside _ (fun m _ => Mover.foldl_beside _ (fun m _ => m.beat_beside _ _ _ _ _ _) _ m) _ { s := s }

@[simp] theorem State.sendWriteback_beside (s : State) (n : Nat) (b : List Byte) (st done : Nat) :
    beside (s.sendWriteback n b st done).kept = beside s.kept := by
  rw [State.sendWriteback]
  generalize State.physOf _ _ = o
  cases o <;> dsimp only <;> split <;> simp

@[simp] theorem State.descEnd_beside (s : State) (n : Nat) (b : List Byte) (st done : Nat) :
    beside (s.descEnd n b st done).kept = beside s.kept := by
  unfold State.descEnd
  simp

@[simp] theorem State.descStartOp_beside (s : State) (n : Nat) (b data : List Byte) :
    beside (s.descStartOp n b data).kept = beside s.kept := by
  unfold State.descStartOp
  simp

@[simp] theorem State.writebackOp_beside (s : State) (n : Nat) (e : DmaEnd) : beside (s.writebackOp n e).kept = beside s.kept := by
  unfold State.writebackOp
  dsimp only
  split <;> simp

@[simp] theorem State.stopChan_beside (s : State) (n : Nat) : beside (s.stopChan n).kept = beside s.kept := by
  unfold State.stopChan
  dsimp only
  split <;> simp

@[simp] theorem State.forceStops_beside (s : State) (k : Nat) : beside (s.forceStops k).kept = beside s.kept :=
  foldl_beside _ (fun s n => by simp) _ _

@[simp] theorem State.dmaCtl_beside (s : State) (n : Nat) (v : Word) : beside (s.dmaCtl n v).kept = beside s.kept := by
  unfold State.dmaCtl
  simp

@[simp] theorem State.chanWrite_beside (s : State) (n o : Nat) (v : Word) : beside (s.chanWrite n o v).kept = beside s.kept := by
  unfold State.chanWrite
  simp

@[simp] theorem State.onChan_beside (s : State) (n o : Nat) (v : Word) : beside (s.onChan n o v).kept = beside s.kept := by
  unfold State.onChan
  simp

@[simp] theorem State.dmaWrite_beside (s : State) (o : Nat) (v : Word) : beside (s.dmaWrite o v).kept = beside s.kept := by
  unfold State.dmaWrite
  simp

@[simp] theorem State.stackCtl_beside (s : State) (k : Nat) (v : Word) : beside (s.stackCtl k v).kept = beside s.kept := by
  unfold State.stackCtl
  simp

@[simp] theorem State.domWrite_beside (s : State) (d : Nat) (v : Word) : beside (s.domWrite d v).kept = beside s.kept := by
  unfold State.domWrite
  simp

@[simp] theorem State.writeLines_beside (s : State) (pages : List (Nat × Nat)) (k i skip : Nat) (bytes : List Byte) :
    beside (s.writeLines pages k i skip bytes).kept = beside s.kept := by
  induction k generalizing s i skip bytes with
  | zero => rfl
  | succ k ih =>
    rw [State.writeLines]
    split
    · rfl
    · simp [ih]

@[simp] theorem State.readLines_beside (s : State) (pages : List (Nat × Nat)) (k i n : Nat) :
    beside (s.readLines pages k i n).1.kept = beside s.kept := by
  induction k generalizing s i n with
  | zero => rfl
  | succ k ih =>
    rw [State.readLines]
    split
    · rfl
    · dsimp only
      split <;> simp [ih]

@[simp] theorem State.writeDev_beside (s : State) (gen k a : Nat) (bytes : List Byte) :
    beside (s.writeDev gen k a bytes).kept = beside s.kept := by
  induction k generalizing s a bytes with
  | zero => rfl
  | succ k ih =>
    rw [State.writeDev]
    split
    · rfl
    · rw [ih]
      split <;> simp

@[simp] theorem State.writeWindow_beside (s : State) (c : Tbl Word) (slot gen : Nat) (ls : List (Nat × List Byte)) :
    beside (s.writeWindow c slot gen ls).kept = beside s.kept :=
  foldl_beside _ (fun s _ => by simp) _ _

@[simp] theorem State.commitRecode_beside (s : State) (u : UnitRef) (p : Pic) (w : WUnit) (r : UnitResult) :
    beside (s.commitRecode u p w r).kept = beside s.kept := by
  simp [State.commitRecode, State.rewriteUnit]

@[simp] theorem State.commitDec_beside (s : State) (n : Nat) (p : Pic) (r : DecResult) :
    beside (s.commitDec n p r).kept = beside s.kept := by
  simp [State.commitDec]

@[simp] theorem State.commitEnc_beside (s : State) (n : Nat) (p : Pic) (ps : List CommitPart) :
    beside (s.commitEnc n p ps).kept = beside s.kept := by
  unfold State.commitEnc
  split
  · rfl
  · simp [State.writeUnit]

@[simp] theorem State.unitCommits_beside (s : State) (u : UnitRef) (p : Pic) (w : WUnit) (r : UnitResult) :
    beside (s.unitCommits u p w r).kept = beside s.kept := by
  simp [State.unitCommits]

@[simp] theorem State.gangCommits_beside (s : State) (n : Nat) (p : Pic) : beside (s.gangCommits n p).kept = beside s.kept := by
  simp [State.gangCommits]

@[simp] theorem State.gangPart_beside (s : State) (u : UnitRef) (p : Pic) (r : UnitResult) :
    beside (s.gangPart u p r).kept = beside s.kept := by
  unfold State.gangPart
  dsimp only
  repeat' split
  all_goals simp

@[simp] theorem State.commitParked_beside (s : State) (u : UnitRef) (k : Nat) :
    beside (s.commitParked u k).kept = beside s.kept := by
  induction k generalizing s with
  | zero => rfl
  | succ k ih =>
    rw [State.commitParked]
    repeat' split
    all_goals simp [ih]

@[simp] theorem State.commitUnit_beside (s : State) (t : Nat) (u : UnitRef) (p : Pic) (w : WUnit) (r : UnitResult) :
    beside (s.commitUnit t u p w r).kept = beside s.kept := by
  simp [State.commitUnit]

@[simp] theorem State.commitWord_beside (s : State) (t : Nat) (r : UnitResult) :
    beside (s.commitWord t r).kept = beside s.kept := by
  unfold State.commitWord
  dsimp only
  repeat' split
  all_goals simp

@[simp] theorem State.needle_beside (s : State) (t cl : Nat) (f : State → Word → State)
    (h : ∀ s w, beside (f s w).kept = beside s.kept) : beside (s.needle t cl f).kept = beside s.kept := by
  unfold State.needle
  dsimp only
  repeat' split
  all_goals simp [h]

@[simp] theorem State.readParts_beside (s : State) (l : List OutPart) : beside (s.readParts l).1.kept = beside s.kept := by
  induction l generalizing s with
  | nil => rfl
  | cons e t ih =>
    rw [State.readParts]
    dsimp only
    split <;> simp [State.readUnit, ih]

@[simp] theorem State.deliverCopy_beside (s : State) (n : Nat) (o : OutItem) (rest : List OutItem) (bad : Option Nat) :
    beside (s.deliverCopy n o rest bad).kept = beside s.kept := by
  unfold State.deliverCopy
  dsimp only
  repeat' split
  all_goals simp

@[simp] theorem State.deliveryOp_beside (s : State) (n : Nat) (bad : Option Nat) :
    beside (s.deliveryOp n bad).kept = beside s.kept := by
  unfold State.deliveryOp
  dsimp only
  repeat' split
  all_goals simp

@[simp] theorem State.readPkt_beside (s : State) (q : QUnit) : beside (s.readPkt q).1.kept = beside s.kept := by
  unfold State.readPkt
  dsimp only
  split <;> simp

@[simp] theorem State.handOff_beside (s : State) (p : Nat) (c : Cand) (chk : EgressCheck) :
    beside (s.handOff p c chk).kept = beside s.kept := by
  simp [State.handOff]

@[simp] theorem State.selectOp_beside (s : State) (p : Nat) (htx : List Byte) (chk : EgressCheck) :
    beside (s.selectOp p htx chk).kept = beside s.kept := by
  unfold State.selectOp
  dsimp only
  repeat' split
  all_goals simp

end Sys2Proof.Machine
end

section
/-!
SUPPORT. The security engine and a warm reset keep HBM contents and the timebase; a BAR0 write and a reset that the timebase
outlives (Table 19.2) keep the timebase.
-/
namespace Sys2Proof.Machine

/-- What `State.kept` lists before OTP: the security engine and a warm reset keep it. -/
def beforeOtp {α β γ μ σ τ ρ : Type} (k : α × β × γ × μ × σ × τ × ρ) : α × β × γ × μ × σ × τ :=
  (k.1, k.2.1, k.2.2.1, k.2.2.2.1, k.2.2.2.2.1, k.2.2.2.2.2.1)

@[simp] theorem beforeOtp_mk {α β γ μ σ τ ρ : Type} (a : α) (b : β) (c : γ) (m : μ) (d : σ) (n : τ) (r : ρ) :
    beforeOtp (a, b, c, m, d, n, r) = (a, b, c, m, d, n) := rfl

@[simp] theorem ite_beforeOtp {α β γ μ σ τ ρ : Type} (c : Prop) [Decidable c] (k l : α × β × γ × μ × σ × τ × ρ) :
    beforeOtp (if c then k else l) = if c then beforeOtp k else beforeOtp l := apply_ite _ _ _ _

@[simp] theorem State.setSec_beforeOtp (s : State) (x : Sec) : beforeOtp (s.setSec x).kept = beforeOtp s.kept := rfl

@[simp] theorem State.secStart_beforeOtp (s : State) (v : Word) : beforeOtp (s.secStart v).kept = beforeOtp s.kept := by
  unfold State.secStart
  simp [State.secRevoke, State.secSvn, State.secOk]

@[simp] theorem State.secCommand_beforeOtp (s : State) (v : Word) : beforeOtp (s.secCommand v).kept = beforeOtp s.kept := by
  simp [State.secCommand]

@[simp] theorem State.secResume_beforeOtp (s : State) : beforeOtp s.secResume.kept = beforeOtp s.kept := by
  unfold State.secResume
  split <;> simp

@[simp] theorem State.secDoneOp_beforeOtp (s : State) (blob : List Byte) (nonce : Word) :
    beforeOtp (s.secDoneOp blob nonce).kept = beforeOtp s.kept := by
  unfold State.secDoneOp
  dsimp only
  repeat' split
  all_goals simp [State.secEnd]

@[simp] theorem State.secWrite_beforeOtp (s : State) (o : Nat) (v : Word) : beforeOtp (s.secWrite o v).kept = beforeOtp s.kept := by
  simp [State.secWrite]

@[simp] theorem State.coreOp_beforeOtp (s : State) : beforeOtp s.coreOp.kept = beforeOtp s.kept := by
  simp [State.coreOp]

@[simp] theorem State.warmReset_beforeOtp (s : State) : beforeOtp s.warmReset.kept = beforeOtp s.kept := rfl

theorem State.whenLive_beforeOtp (s : State) (f : State → State) (h : ∀ s, beforeOtp (f s).kept = beforeOtp s.kept) :
    beforeOtp (s.whenLive f).kept = beforeOtp s.kept := by
  simp [State.whenLive, h]

/-- The low two bits of a PWR_CMD write are the command asked for. -/
theorem fld_pwrAsk (cmd : Nat) (v : Word) (h : cmd < 4) : fld (pwrAsk cmd v) 1 0 = cmd := by
  have low : (pwrAsk cmd v).setWidth 2 = BitVec.ofNat 2 cmd := by
    ext i hi
    interval_cases i <;> simp [pwrAsk, maskW, w32]
  have := congrArg BitVec.toNat low
  simp only [BitVec.toNat_setWidth, BitVec.toNat_ofNat] at this
  simpa [fld, nfld, Nat.mod_eq_of_lt h] using this

/-- A standby request and a warm reset keep HBM contents and the timebase. -/
theorem State.pwrCmd_beforeOtp (s : State) (cmd : Nat) (v : Word) (h : cmd = 1 ∨ cmd = 2) :
    beforeOtp (s.pwrCmd (pwrAsk cmd v)).kept = beforeOtp s.kept := by
  unfold State.pwrCmd
  obtain rfl | rfl := h <;> rw [fld_pwrAsk _ _ (by decide)] <;> simp

theorem now_of_kept {s t : State} (h : t.kept = s.kept) : t.now = s.now := congrArg (·.2.2.2.2.2.1) h

theorem now_of_beside {s t : State} (h : beside t.kept = beside s.kept) : t.now = s.now := congrArg (·.2.2.2.1) h

theorem now_of_beforeOtp {s t : State} (h : beforeOtp t.kept = beforeOtp s.kept) : t.now = s.now := congrArg (·.2.2.2.2.2) h

theorem State.pwrCmd_now (s : State) (v : Word) : (s.pwrCmd v).now = s.now := by
  unfold State.pwrCmd
  split
  · exact now_of_kept (by simp)
  split
  · rfl
  split <;> rfl

theorem State.pwrWrite_now (s : State) (o : Nat) (v : Word) : (s.pwrWrite o v).now = s.now := by
  unfold State.pwrWrite
  split
  · exact s.pwrCmd_now v
  · exact now_of_beside (by simp)

theorem State.blockWrite_now (s : State) (b o : Nat) (v : Word) : (s.blockWrite b o v).now = s.now := by
  unfold State.blockWrite
  split
  case h_8 => exact s.pwrWrite_now o v
  case h_9 => exact now_of_beforeOtp (by simp)
  all_goals exact now_of_beside (by simp)

theorem State.pfWrite_now (s : State) (off : Nat) (v : Word) : (s.pfWrite off v).now = s.now := by
  simp only [State.pfWrite, apply_ite State.now, State.blockWrite_now, State.setReg_now, now_of_kept (State.ignored_kept _ _ _),
    now_of_kept (State.memWrite_kept _ _ _ _), now_of_kept (State.tileWrite_kept _ _ _ _), ite_self]

theorem State.busWrite_now (s : State) (fn off : Nat) (v : Word) : (s.busWrite fn off v).now = s.now := by
  unfold State.busWrite
  split
  · rfl
  split
  · exact now_of_kept (by simp)
  · simp only [apply_ite State.now, State.pfWrite_now, now_of_kept (State.ignored_kept _ _ _),
      now_of_kept (State.vfWrite_kept _ _ _ _), now_of_kept (State.msixWrite_kept _ _ _ _), ite_self]

theorem State.busWords_now (s : State) (fn off : Nat) (vs : List Word) : (s.busWords fn off vs).now = s.now := by
  induction vs generalizing s off with
  | nil => rfl
  | cons v t ih => rw [State.busWords, ih, State.busWrite_now]

theorem State.busData_now (s : State) (fn off : Nat) (d : WData) : (s.busData fn off d).now = s.now := by
  cases d with
  | short v | poisoned v => exact now_of_kept (s.busIgnore_kept fn off v)
  | words vs =>
    simp only [State.busData, apply_ite State.now, State.busWords_now, now_of_kept (State.busIgnore_kept _ _ _ _), ite_self]

theorem State.wakeFrom_now (s : State) (src : Nat) : (s.wakeFrom src).now = s.now := by
  unfold State.wakeFrom
  split
  · exact now_of_kept (by simp)
  · rfl
  · rfl

theorem State.perstOp_now (s : State) : s.perstOp.now = s.now := by
  unfold State.perstOp
  split <;> rfl

theorem State.whenLive_now (s : State) (f : State → State) (h : ∀ s, (f s).now = s.now) : (s.whenLive f).now = s.now := by
  unfold State.whenLive
  split
  · exact h s
  · rfl

end Sys2Proof.Machine
end

section
/-!
SUPPORT. `effect`: every command completes (R9). What it keeps, by the kind of command.
-/
namespace Sys2Proof.Machine

/-- The state in which command `c` leaves `s`. -/
def effect (c : Instr) (s : State) : State :=
  match exec c s with
  | .next t => t
  | _ => s

/-- Every command completes (R9). -/
theorem exec_eq_effect (c : Instr) (s : State) : exec c s = .next (effect c s) := by
  cases c <;> rfl

theorem effect_of_exec {c : Instr} {s t : State} (h : exec c s = .next t) : effect c s = t := by
  simp [effect, h]

theorem answers_of_effect {c : Instr} {s : State} {P : State → Prop} (h : P (effect c s)) : Answers c s P :=
  ⟨_, exec_eq_effect c s, h⟩

/-- The commands that leave HBM alone and may change the timebase or OTP: the tick, the warm reset, and what can start or end a
command of the security engine. -/
def changesKept : Instr → Bool
  | .timebaseTick | .standby _ | .warm _ | .pfFlr | .coreReloadDone | .secCommandDone .. | .importKey _ | .clearSlot _ | .provision _
  | .revoke _ | .svnCommit _ | .lockDebug _ | .unlockDebug _ => true
  | _ => false

theorem effect_kept_of_exec {c : Instr} {s t : State} (e : exec c s = .next t) (h : t.kept = s.kept) :
    (effect c s).kept = s.kept := by rwa [effect_of_exec e]

@[simp] theorem State.tileEvtWrite_kept (s : State) (t k : Nat) (v : Word) : (s.tileEvtWrite t k v).kept = s.kept := by
  simp [State.tileEvtWrite]

/-- One frame lemma per command. -/
theorem effect_kept (c : Instr) (s : State) (write : mayWriteHbm c = false) (change : changesKept c = false) :
    (effect c s).kept = s.kept := by
  cases c
  case registerWrite | counterClear | ignoredCountClear | memRequest | scrubRead | dmaTailWrite | descriptorStart
    | descriptorWriteback | dmaAbort | dmaEnable | domainSleepWrite | powerOnReset | perst | cold | commit | hostUnitDelivery
    | packetSelect | wake | wakeNEdge | wakeTimer | supplyExcursion => cases write
  case timebaseTick | standby | warm | pfFlr | coreReloadDone | secCommandDone | importKey | clearSlot | provision | revoke
    | svnCommit | lockDebug | unlockDebug => cases change
  case pmuEvtWrite tile k v => cases tile <;> exact effect_kept_of_exec rfl (by simp)
  all_goals exact effect_kept_of_exec rfl (by simp)

/-- A command that neither writes HBM nor ticks changes nothing of `State.kept` but OTP. -/
theorem effect_beforeOtp (c : Instr) (s : State) (write : mayWriteHbm c = false) (tick : c ≠ .timebaseTick) :
    beforeOtp (effect c s).kept = beforeOtp s.kept := by
  by_cases change : changesKept c = true
  · have secCmd (w : Word) : beforeOtp (s.whenLive (·.secCommand w)).kept = beforeOtp s.kept :=
      s.whenLive_beforeOtp _ fun s => s.secCommand_beforeOtp w
    cases c
    case importKey v | clearSlot v | provision v | revoke v | svnCommit v | lockDebug v | unlockDebug v => exact secCmd _
    case secCommandDone blob nonce => exact s.whenLive_beforeOtp _ fun s => s.secDoneOp_beforeOtp blob nonce
    case coreReloadDone => exact s.coreOp_beforeOtp
    case standby v => exact s.whenLive_beforeOtp _ fun s => s.pwrCmd_beforeOtp 1 v (.inl rfl)
    case warm v => exact s.whenLive_beforeOtp _ fun s => s.pwrCmd_beforeOtp 2 v (.inr rfl)
    case pfFlr => exact s.whenLive_beforeOtp _ State.warmReset_beforeOtp
    case timebaseTick => exact absurd rfl tick
    all_goals cases change
  · rw [effect_kept c s write (Bool.eq_false_of_not_eq_true change)]

/-- The tick moves the timebase and leaves HBM contents. -/
theorem tickOp_contents (s : State) : s.tickOp.mem = s.mem ∧ s.tickOp.side = s.side := by
  have h (t : State) (ht : t.kept = s.tickTime.kept) : t.mem = s.mem ∧ t.side = s.side :=
    ⟨congrArg (·.2.2.2.1) ht, congrArg (·.2.2.2.2.1) ht⟩
  unfold State.tickOp
  split
  · exact ⟨rfl, rfl⟩
  · exact h _ (by dsimp only; split <;> simp)

/-- A command that cannot write HBM leaves its contents. -/
theorem effect_contents (c : Instr) (s : State) (h : mayWriteHbm c = false) :
    (effect c s).mem = s.mem ∧ (effect c s).side = s.side := by
  by_cases tick : c = .timebaseTick
  · subst tick; exact tickOp_contents s
  · have k := effect_beforeOtp c s h tick
    exact ⟨congrArg (·.2.2.2.1) k, congrArg (·.2.2.2.2.1) k⟩

/-- The timebase moves at its tick and at a power-on reset alone (R374, R381, R417). -/
theorem effect_now (c : Instr) (s : State) (tick : c ≠ .timebaseTick) (por : c ≠ .powerOnReset)
    (supply : ∀ r mv us, c ≠ .supplyExcursion r mv us) : (effect c s).now = s.now := by
  by_cases write : mayWriteHbm c = true
  · cases c
    case registerWrite fn off d => exact s.busData_now fn off d
    case ignoredCountClear fn off v | counterClear fn off v =>
      exact (apply_ite State.now _ _ _).trans (by rw [s.busWrite_now fn off v, ite_self])
    case memRequest a op ca => exact now_of_beside (s.memRequestOp_beside a op ca)
    case scrubRead k errs => exact now_of_beside (s.scrubOp_beside k errs)
    case dmaTailWrite n v | dmaAbort n v | dmaEnable n v => exact now_of_beside (s.onChan_beside n _ _)
    case descriptorStart n b data => exact now_of_beside (s.descStartOp_beside n b data)
    case descriptorWriteback n e => exact now_of_beside (s.writebackOp_beside n e)
    case domainSleepWrite d v => exact s.whenLive_now _ fun s => now_of_beside (s.domWrite_beside d v)
    case powerOnReset => exact absurd rfl por
    case supplyExcursion r mv us => exact absurd rfl (supply r mv us)
    case perst => exact s.perstOp_now
    case cold v => exact s.whenLive_now _ fun s => s.pwrCmd_now _
    case commit t r => exact now_of_beside (s.needle_beside _ _ _ fun s _ => s.commitWord_beside _ _)
    case hostUnitDelivery n bad => exact now_of_beside (s.deliveryOp_beside n bad)
    case packetSelect p htx chk => exact now_of_beside (s.selectOp_beside p htx chk)
    case wake | wakeNEdge => exact s.wakeFrom_now _
    case wakeTimer => exact (apply_ite State.now _ _ _).trans (by rw [s.wakeFrom_now, ite_self])
    all_goals cases write
  · exact now_of_beforeOtp (effect_beforeOtp c s (Bool.eq_false_of_not_eq_true write) tick)

/-- What changes OTP alone is sound. -/
theorem Sound.ofBeforeOtp {s t : State} (h : beforeOtp t.kept = beforeOtp s.kept) : Sound s t := by
  simp only [State.kept, beforeOtp_mk, Prod.mk.injEq] at h
  obtain ⟨pending, a144, serial, mem, side, -⟩ := h
  exact ⟨pending, a144, serial, by simp [State.hbmForm, mem, side]⟩

theorem State.whenLive_sound (s : State) (f : State → State) (h : ∀ s, Sound s (f s)) : Sound s (s.whenLive f) := by
  unfold State.whenLive
  split
  · exact h s
  · exact .rfl

theorem Sound.ite {s t : State} (p : Prop) [Decidable p] (h : Sound s t) : Sound s (if p then t else s) := by
  split
  · exact h
  · exact .rfl

/-- What every command keeps: the queue, the part, and the canonical form of HBM contents. -/
theorem effect_sound (c : Instr) (s : State) : Sound s (effect c s) := by
  by_cases write : mayWriteHbm c = true
  · cases c
    case registerWrite fn off d => exact s.busData_sound fn off d
    case ignoredCountClear fn off v | counterClear fn off v => exact .ite _ (s.busWrite_sound fn off v)
    case memRequest a op ca => exact s.memRequestOp_sound a op ca
    case scrubRead k errs => exact s.scrubOp_sound k errs
    case dmaTailWrite n v | dmaAbort n v | dmaEnable n v => exact s.onChan_sound n _ _
    case descriptorStart n b data => exact s.descStartOp_sound n b data
    case descriptorWriteback n e => exact s.writebackOp_sound n e
    case domainSleepWrite d v => exact s.whenLive_sound _ fun s => s.domWrite_sound d v
    case powerOnReset => exact s.porReset_sound
    case supplyExcursion r mv us => exact s.supplyOp_sound r mv us
    case perst => exact s.perstOp_sound
    case cold v => exact s.whenLive_sound _ fun s => s.pwrCmd_sound _
    case commit t r => exact s.needle_sound _ _ _ fun s _ => s.commitWord_sound _ _
    case hostUnitDelivery n bad => exact s.deliveryOp_sound n bad
    case packetSelect p htx chk => exact s.selectOp_sound p htx chk
    case wake | wakeNEdge => exact s.wakeFrom_sound _
    case wakeTimer => exact .ite _ (s.wakeFrom_sound _)
    all_goals cases write
  · by_cases tick : c = .timebaseTick
    · subst tick; exact s.tickOp_sound
    · exact .ofBeforeOtp (effect_beforeOtp c s (Bool.eq_false_of_not_eq_true write) tick)

end Sys2Proof.Machine
end

section
/-!
The statements about every command: O1, O4, O5.
-/
namespace Sys2Proof.Machine

/-- Settles O1, by the definition of a step on each shape of the queue. -/
theorem stepTakesTheFrontCommand : Obligations.StepTakesTheFrontCommand := by
  constructor
  · intro s c rest h
    rw [step, h]
  · intro s h
    rw [step, h]

/-- Settles O4: every command completes, and what it does is sound. -/
theorem commandsKeepQueueAndPart : Obligations.CommandsKeepQueueAndPart := fun c s =>
  have ⟨pending, a144, serial, form⟩ := effect_sound c s
  answers_of_effect ⟨pending, a144, serial, form⟩

/-- Settles O5: what a command keeps of `State.kept`, by its kind. -/
theorem contentsAndTimeKept : Obligations.ContentsAndTimeKept := by
  constructor
  · intro c s t h e
    obtain ⟨hmem, hside⟩ := effect_contents c s h
    rw [effect_of_exec e] at hmem hside
    exact ⟨fun a => by simp only [State.byte, hmem], fun line i => by simp only [State.sideAt, hside]⟩
  · intro c s t tick por supply e
    rw [← effect_of_exec e]
    exact effect_now c s tick por supply

end Sys2Proof.Machine
end

section
/-!
O14: what R57 and R429 refuse (Tables 3.3, 3.4), and how a session command reaches its record (R333).
-/
namespace Sys2Proof.Machine

/-- An access through a function that reaches session `k` acts on that session (R333). -/
theorem State.onSes_of_reaches {s : State} {fn n k : Nat} (h : Reaches s fn n k) (off : Nat) (v : Word) (f : State → Nat → State) :
    s.onSes fn n off v f = f s k := by
  obtain ⟨live, flr, ses⟩ := h
  have reached : (!s.live || (fn != 0 && s.hif.flr.contains fn)) = false := by
    rcases flr with rfl | flr <;> simp_all
  simp only [State.onSes, reached, ses, Bool.false_eq_true, if_false]

/-- An ignored write of a session record is its refusal (R10). -/
theorem State.ignoredSes_eq (s : State) (n off : Nat) (v : Word) (reason : Nat) (h : off < 0x400) :
    s.ignoredSes n off v reason = s.setSes n (refusal (s.ses n) off v reason) := by
  simp [State.ignoredSes, refusal, w32, Nat.mod_eq_of_lt h]

/-- The fields of the word that a session command writes to SES_CMD. -/
theorem toNat_cmdWord {cmd : Nat} (h : cmd < 256) (arg : BitVec 24) : (cmdWord cmd arg).toNat = cmd + 256 * arg.toNat := by
  have lt := arg.isLt
  have join : 2 ^ 8 * arg.toNat + cmd = 2 ^ 8 * arg.toNat ||| cmd := Nat.two_pow_add_eq_or_of_lt h _
  calc (cmdWord cmd arg).toNat = cmd * 2 ^ 0 % 2 ^ 32 ||| (arg.toNat * 2 ^ 8 % 2 ^ 32 ||| 0) := rfl
    _ = cmd ||| 2 ^ 8 * arg.toNat := by
      rw [Nat.mod_eq_of_lt (by omega), Nat.mod_eq_of_lt (by omega), Nat.or_zero, pow_zero, mul_one, mul_comm arg.toNat]
    _ = cmd + 256 * arg.toNat := by rw [Nat.or_comm, ← join]; omega

theorem fld_cmdWord {cmd : Nat} (h : cmd < 16) (arg : BitVec 24) :
    fld (cmdWord cmd arg) 3 0 = cmd ∧ fld (cmdWord cmd arg) 31 8 = arg.toNat := by
  have lt := arg.isLt
  rw [fld, fld, toNat_cmdWord (by omega)]
  constructor <;> simp only [nfld] <;> omega

/-- Every entry of Table 3.3 is a write of its code to SES_CMD. -/
theorem sessionCommands_spec {p : Nat × (Nat → Nat → BitVec 24 → Instr)} (h : p ∈ sessionCommands) :
    1 ≤ p.1 ∧ p.1 ≤ 11 ∧ ∀ fn n arg s, exec (p.2 fn n arg) s = .next (s.cmdVia fn n p.1 arg) := by
  simp only [sessionCommands, List.mem_cons, List.not_mem_nil, or_false] at h
  rcases h with rfl | rfl | rfl | rfl | rfl | rfl | rfl | rfl | rfl | rfl | rfl <;>
    exact ⟨by decide, by decide, fun _ _ _ _ => rfl⟩

/-- A command that R429 refuses is recorded in its session. -/
theorem State.cmdVia_refused {s : State} {fn n k cmd reason : Nat} {arg : BitVec 24} (h : Reaches s fn n k) (lo : 1 ≤ cmd)
    (hi : cmd ≤ 11) (why : s.cmdReason k cmd arg.toNat = some reason) :
    s.cmdVia fn n cmd arg = s.setSes k (refusal (s.ses k) 0 (cmdWord cmd arg) reason) := by
  obtain ⟨code, argument⟩ := fld_cmdWord (by omega : cmd < 16) arg
  rw [State.cmdVia, State.onSes_of_reaches h, State.sesCmd]
  simp only [code, argument, why]
  rw [if_neg (by omega), State.ignoredSes_eq _ _ _ _ _ (by decide)]

theorem Serving.safe {s : State} (h : Serving s) : s.pwr.safe = false := by
  unfold Serving State.mode at h
  by_contra safe
  revert h
  split <;> simp_all

theorem Serving.modeBars {s : State} (h : Serving s) (pend : s.pwr.standbyPend = false) (cmd : Nat) : s.modeBars cmd = false := by
  unfold State.modeBars
  rcases h with h | h | h <;> simp [h, pend]

/-- Out of SAFE a state admits a command only where Table 3.3 shows an entry. -/
theorem State.mem_tableStates_of_admits {s : State} (safe : s.pwr.safe = false) {cmd : Nat} (lo : 1 ≤ cmd) (hi : cmd ≤ 11) (st : Ses) :
    s.stateAdmits cmd st = true → st ∈ tableStates cmd := by
  have only : s.stateAdmits cmd st = State.stateAdmits { pwr := { safe := s.pwr.safe } } cmd st := rfl
  rw [only, safe]
  interval_cases cmd <;> cases st <;> decide

theorem State.cmdReason_of_modeBars {s : State} {n cmd arg : Nat} (h : s.modeBars cmd = true) : s.cmdReason n cmd arg = some 6 := by
  simp [State.cmdReason, h, firstFail]

theorem State.cmdReason_of_state {s : State} {n cmd arg : Nat} (h : s.modeBars cmd = false)
    (st : s.stateAdmits cmd (s.ses n).st = false) : s.cmdReason n cmd arg = some 0 := by
  simp [State.cmdReason, h, st, firstFail]

/-- Settles O14: the reason of R429 decides, and Tables 3.3 and 3.4 give it. -/
theorem sessionCommandsBarred : Obligations.SessionCommandsBarred := by
  constructor
  · intro s fn n k arg reason p hp reach why
    obtain ⟨lo, hi, run⟩ := sessionCommands_spec hp
    rw [run, State.cmdVia_refused reach lo hi why]
  · intro s fn n k arg p hp reach
    obtain ⟨lo, hi, run⟩ := sessionCommands_spec hp
    constructor
    · intro serving pend st
      have admits : s.stateAdmits p.1 (s.ses k).st = false :=
        Bool.eq_false_of_not_eq_true fun a => st (State.mem_tableStates_of_admits serving.safe lo hi _ a)
      rw [run, State.cmdVia_refused reach lo hi (State.cmdReason_of_state (serving.modeBars pend _) admits)]
    · intro mode
      have bars : s.modeBars p.1 = true := by
        rcases mode with m | m | ⟨m, ne⟩ <;> simp [State.modeBars, *]
      rw [run, State.cmdVia_refused reach lo hi (State.cmdReason_of_modeBars bars)]

end Sys2Proof.Machine
end

section
/-!
SUPPORT. A configuration takes force (R61), a waiting set and a waiting reversion apply (R63): what they change in a record and
what they leave.
-/
namespace Sys2Proof.Machine

/-- `t` differs from `s` in the record of session `n` and in subscribers alone. -/
structure InRecord (n : Nat) (s t : State) : Prop where
  frame : t = { s with sessions := t.sessions, subs := t.subs }
  others : OtherSessions s t (· = n)

theorem InRecord.rfl {n : Nat} {s : State} : InRecord n s s := ⟨Eq.refl _, fun _ _ => Eq.refl _⟩

theorem InRecord.trans {n : Nat} {s t u : State} (h : InRecord n s t) (k : InRecord n t u) : InRecord n s u :=
  ⟨k.frame.trans (by rw [h.frame]), fun m hm => (k.others m hm).trans (h.others m hm)⟩

theorem State.setSes_inRecord (s : State) (n : Nat) (x : Session) : InRecord n s (s.setSes n x) :=
  ⟨rfl, fun m hm => by simp [hm]⟩

/-- Beyond that, the record itself differs in its derived buckets alone (R234). -/
structure Repaced (n : Nat) (s t : State) : Prop extends InRecord n s t where
  record : ∃ p, t.ses n = { s.ses n with pace := p }

theorem Repaced.rfl {n : Nat} {s : State} : Repaced n s s := ⟨.rfl, _, Eq.refl _⟩

theorem Repaced.trans {n : Nat} {s t u : State} (h : Repaced n s t) (k : Repaced n t u) : Repaced n s u := by
  obtain ⟨p, hp⟩ := h.record
  obtain ⟨q, hq⟩ := k.record
  exact ⟨h.toInRecord.trans k.toInRecord, q, by rw [hq, hp]⟩

theorem Repaced.foldl {α : Type} {n : Nat} (f : State → α → State) (h : ∀ s a, Repaced n s (f s a)) (l : List α) (s : State) :
    Repaced n s (l.foldl f s) := by
  induction l generalizing s with
  | nil => exact .rfl
  | cons a t ih => exact (h s a).trans (ih _)

theorem State.setPace_repaced (s : State) (n : Nat) (f : Session → Tbl Word) :
    Repaced n s (s.modSes n fun x => { x with pace := f x }) :=
  ⟨s.setSes_inRecord n _, f (s.ses n), by simp [State.modSes]⟩

theorem State.paceSub_repaced (s : State) (n sub period : Nat) (rd : Nat × Nat) : Repaced n s (s.paceSub sub period rd) :=
  ⟨⟨rfl, fun _ _ => rfl⟩, _, rfl⟩

theorem State.derivePace_repaced (s : State) (n : Nat) (c : Tbl Word) : Repaced n s (s.derivePace n c) := by
  unfold State.derivePace
  dsimp only
  split
  · exact .rfl
  · refine (s.setPace_repaced n fun _ => []).trans (.foldl _ (fun s e => ?_) _ _)
    split
    · exact (s.paceSub_repaced n _ _ _).trans (State.setPace_repaced _ _ _)
    · exact .rfl

theorem State.takeForce_eq (s : State) (n : Nat) (c : Tbl Word) :
    ∃ rc, s.takeForce n c = (s.setSes n { s.ses n with force := some c, rc := rc }).derivePace n c := ⟨_, rfl⟩

/-- A configuration takes force (R61): nothing changes but the record, in the set in force, the rate-control state and the
derived buckets, and subscribers. -/
theorem State.takeForce_spec (s : State) (n : Nat) (c : Tbl Word) :
    InRecord n s (s.takeForce n c) ∧ ∃ rc p, (s.takeForce n c).ses n = { s.ses n with force := some c, rc := rc, pace := p } := by
  obtain ⟨rc, eq⟩ := s.takeForce_eq n c
  have paced := State.derivePace_repaced (s.setSes n { s.ses n with force := some c, rc := rc }) n c
  obtain ⟨p, record⟩ := paced.record
  rw [eq]
  exact ⟨(s.setSes_inRecord n _).trans paced.toInRecord, rc, p, by simp [record]⟩

/-- Beyond `InRecord`, the level bit stays. -/
structure LevelKept (n : Nat) (s t : State) : Prop extends InRecord n s t where
  level : (t.ses n).level = (s.ses n).level

theorem LevelKept.rfl {n : Nat} {s : State} : LevelKept n s s := ⟨.rfl, Eq.refl _⟩

theorem LevelKept.trans {n : Nat} {s t u : State} (h : LevelKept n s t) (k : LevelKept n t u) : LevelKept n s u :=
  ⟨h.toInRecord.trans k.toInRecord, k.level.trans h.level⟩

theorem State.setSes_levelKept (s : State) (n : Nat) (x : Session) (h : x.level = (s.ses n).level) : LevelKept n s (s.setSes n x) :=
  ⟨s.setSes_inRecord n x, by simp [h]⟩

theorem State.takeForce_levelKept (s : State) (n : Nat) (c : Tbl Word) : LevelKept n s (s.takeForce n c) := by
  obtain ⟨within, rc, p, record⟩ := s.takeForce_spec n c
  exact ⟨within, by rw [record]⟩

/-- A waiting set and a waiting reversion apply (R61, R63). -/
theorem State.applyPending_levelKept (s : State) (n : Nat) : LevelKept n s (s.applyPending n) := by
  unfold State.applyPending
  extract_lets x s1 y
  have pend : LevelKept n s s1 := by
    dsimp only [s1]
    split
    · refine .trans ?_ (State.takeForce_levelKept _ n _)
      exact s.setSes_levelKept n _ rfl
    · exact .rfl
  refine pend.trans ?_
  split
  · split
    · refine .trans ?_ (State.takeForce_levelKept _ n _)
      exact s1.setSes_levelKept n _ rfl
    · exact s1.setSes_levelKept n _ rfl
  · exact .rfl

/-- A reversion alone takes force with one more SES_CFG_SEQ (R63). -/
theorem State.applyPending_revert (s : State) (n : Nat) (c : Tbl Word) (pend : (s.ses n).pend = none)
    (revert : (s.ses n).revert = true) (force : (s.ses n).force = some c) :
    ((s.applyPending n).ses n).cfgSeq = (s.ses n).cfgSeq + 1 ∧ ((s.applyPending n).ses n).revert = false ∧
      ((s.applyPending n).ses n).force = some (revertCfg c (s.ses n).cls (s.ses n).lower) := by
  let y : Session := { s.ses n with revert := false, cfgSeq := (s.ses n).cfgSeq + 1, forceSeq := (s.ses n).cfgSeq + 1 }
  have eq : s.applyPending n = (s.setSes n y).takeForce n (revertCfg c (s.ses n).cls (s.ses n).lower) := by
    simp [State.applyPending, pend, revert, force, y]
  obtain ⟨-, rc, p, record⟩ := (s.setSes n y).takeForce_spec n (revertCfg c (s.ses n).cls (s.ses n).lower)
  rw [eq, record, State.setSes_ses, if_pos rfl]
  exact ⟨rfl, rfl, rfl⟩

theorem InRecord.tiles {n : Nat} {s t : State} (h : InRecord n s t) : t.tiles = s.tiles := (congrArg State.tiles h.frame :)

theorem InRecord.regs {n : Nat} {s t : State} (h : InRecord n s t) : t.regs = s.regs := (congrArg State.regs h.frame :)

theorem State.applyCalm_levelKept (s : State) (n : Nat) : LevelKept n s (s.applyCalm n) := by
  unfold State.applyCalm
  split
  · exact s.applyPending_levelKept n
  · exact .rfl

end Sys2Proof.Machine
end

section
/-!
O19: SES_LEVEL (R63).
-/
namespace Sys2Proof.Machine

/-- The record as the level bit falls outside CLOSED, with the reversion that waits (R63). -/
def Session.reverting (x : Session) : Session := { x with level := false, revert := true }

/-- Clearing the level bit (R63). -/
theorem State.sesLevel_clear {s : State} {n : Nat} {v : Word} (mig : (s.ses n).st ≠ .migrating) (clear : v.getLsbD 0 = false)
    (level : (s.ses n).level = true) :
    s.sesLevel n v = if (s.ses n).st = .closed then s.setSes n { s.ses n with level := false }
      else (s.setSes n (s.ses n).reverting).applyCalm n := by
  have low : bit v 0 = false := clear
  simp only [State.sesLevel, mig, low, level, if_false, Bool.false_eq_true]
  rfl

/-- What a fold of field writes leaves in a configuration: at the offsets written the value written, elsewhere as before. -/
theorem cget_foldl_cset (f : Nat → Word) (l : List Nat) (c : Tbl Word) (off : Nat) :
    cget (l.foldl (fun c o => cset c o (f o)) c) off = if off ∈ l then f off else cget c off := by
  induction l generalizing c with
  | nil => rfl
  | cons o t ih =>
    rw [List.foldl_cons, ih]
    by_cases here : off = o
    · subst here; simp [cget, cset]
    · simp [here, cget, cset, tget_tset_other _ _ _ _ here]

theorem unlock_staged (x : Session) (off : Nat) :
    cget x.unlock.staged off = if off ∈ expertOffsets then x.stagedAt off else cget x.staged off :=
  cget_foldl_cset _ _ _ _

/-- Below the level bit an Expert register is staged at its derived value (R7). -/
theorem stagedAt_derived {x : Session} {off : Nat} (h : off ∈ expertOffsets) (level : x.level = false) :
    x.stagedAt off = derived x.staged x.cls x.lower off := by
  simp [Session.stagedAt, isExpert, h, level]

/-- Settles O19, by the branch of SES_LEVEL that the state and the bit written select. -/
theorem sessionLevel : Obligations.SessionLevel := by
  intro s fn n k v reach
  have run : exec (.sesLevelWrite fn n v) s = .next (s.sesLevel k v) := congrArg _ (State.onSes_of_reaches reach _ _ _)
  simp only [Answers, run, Host.Outcome.next.injEq, exists_eq_left']
  refine ⟨fun st => ?_, fun st set level => ?_, fun st clear level => ?_, fun st same => ?_⟩
  · rw [State.sesLevel, if_pos st, State.ignoredSes_eq _ _ _ _ _ (by decide)]
  · have eq : s.sesLevel k v = s.setSes k { (s.ses k).unlock with revert := false } := by
      have high : bit v 0 = true := set
      simp only [State.sesLevel, st, high, level, if_false, if_true, Bool.true_eq_false]
    rw [eq]
    refine ⟨rfl, (s.setSes_inRecord k _).others, by simp [Session.unlock], fun off h => ?_, fun off h => ?_⟩
    · simp [unlock_staged, h, stagedAt_derived h level]
    · simp [unlock_staged, h]
  · rw [State.sesLevel_clear st clear level]
    by_cases closed : (s.ses k).st = .closed
    · rw [if_pos closed]
      exact ⟨by simp, (s.setSes_inRecord k _).others, rfl, rfl, fun _ => rfl, fun running => by simp [closed] at running,
        fun ready => by simp [closed] at ready⟩
    · rw [if_neg closed]
      have own : (s.setSes k (s.ses k).reverting).ses k = (s.ses k).reverting := by simp
      have calm := (s.setSes k (s.ses k).reverting).applyCalm_levelKept k
      have within := (s.setSes_inRecord k _).trans calm.toInRecord
      refine ⟨by rw [calm.level, own]; rfl, within.others, within.tiles, within.regs, (absurd · closed), fun running => ?_,
        fun ready pend c force => ?_⟩
      · rw [State.applyCalm, own, if_neg (by simp [Session.calm, Session.reverting, running])]
        rfl
      · rw [State.applyCalm, own, if_pos (by simp [Session.calm, Session.reverting, ready])]
        have := State.applyPending_revert (s.setSes k (s.ses k).reverting) k c
        rw [own] at this
        exact this pend rfl force
  · have stays : bit v 0 = (s.ses k).level := same
    simp only [State.sesLevel, st, stays, if_false, if_true]

end Sys2Proof.Machine
end

section
/-!
SUPPORT. Word writes through BAR0 (R331): which rule of `pfWrite` or `vfWrite` a word meets.
-/
namespace Sys2Proof.Machine

/-- A write of a plain register changes that register alone. -/
theorem State.setReg_spec (s : State) (off : Nat) (v : Word) :
    s.setReg off v = { s with regs := (s.setReg off v).regs } ∧ (s.setReg off v).reg off = v ∧ RegsKept s (s.setReg off v) [off] :=
  ⟨rfl, by simp, fun o h => by simp_all⟩

/-- Changes to plain registers alone add up to one. -/
theorem onlyRegs_trans {s t u : State} (h : t = { s with regs := t.regs }) (k : u = { t with regs := u.regs }) :
    u = { s with regs := u.regs } := k.trans (by rw [h])

theorem State.noteIgn_frame (s : State) (base off : Nat) (v : Word) :
    s.noteIgn base off v = { s with regs := (s.noteIgn base off v).regs } := by
  unfold State.noteIgn
  exact onlyRegs_trans (onlyRegs_trans (onlyRegs_trans (State.setReg_spec _ _ _).1 (State.setReg_spec _ _ _).1)
    (State.setReg_spec _ _ _).1) (State.setReg_spec _ _ _).1

/-- An ignored write changes the ignore count and the last-ignored record of its window alone (R10, R426). -/
theorem State.noteIgn_spec (s : State) (base off : Nat) (v : Word) :
    let t := s.noteIgn base off v
    t = { s with regs := t.regs } ∧ (t.reg base).toNat = min 0xFFFF ((s.reg base).toNat + 1) ∧
      t.reg (base + 4) = BitVec.ofNat 32 off ∧ t.reg (base + 8) = v ∧ t.reg (base + 12) = s.ignMode ∧
      RegsKept s t [base, base + 4, base + 8, base + 12] := by
  refine ⟨s.noteIgn_frame base off v, ?_, ?_, ?_, ?_, fun o h => ?_⟩
  · have below : min 0xFFFF ((s.reg base).toNat + 1) < 2 ^ 32 := by omega
    simp [State.noteIgn, w32, BitVec.toNat_ofNat]
  · simp [State.noteIgn, w32]
  · simp [State.noteIgn]
  · simp only [State.noteIgn, State.setReg_reg, if_true]
    rfl
  · simp only [List.mem_cons, List.not_mem_nil, or_false, not_or] at h
    simp [State.noteIgn, h]

theorem State.reached_pf {s : State} (live : s.live = true) : s.reached 0 = true := by simp [State.reached, live]

theorem State.reached_vf {s : State} {fn : Nat} (live : s.live = true) (hi : fn < 64) (flr : s.hif.flr.contains fn = false) :
    s.reached fn = true := by
  simp only [State.reached, live, hi, flr, decide_true, Bool.and_false, Bool.not_false, Bool.and_true]

theorem sesSlot_pf {off : Nat} (h : off < 0x400000) : sesSlot 0 off = none := by
  rw [sesSlot, if_pos rfl, if_neg (by omega)]

theorem sesSlot_vf {fn off : Nat} (lo : 1 ≤ fn) (h : off < 0x10000) : sesSlot fn off = none := by
  rw [sesSlot, if_neg (by omega), if_neg (by omega)]

/-- A word of the PF below the session records. -/
theorem State.busWrite_pf {s : State} (live : s.live = true) {off : Nat} (h : off < 0x400000) (v : Word) :
    s.busWrite 0 off v = s.pfWrite off v := by
  simp [State.busWrite, State.reached_pf live, sesSlot_pf h, h]

/-- A word of a VF below its session aliases. -/
theorem State.busWrite_vf {s : State} {fn off : Nat} (live : s.live = true) (lo : 1 ≤ fn) (hi : fn < 64)
    (flr : s.hif.flr.contains fn = false) (h : off < 0x10000) (v : Word) : s.busWrite fn off v = s.vfWrite fn off v := by
  have pos : fn ≠ 0 := by omega
  simp [State.busWrite, State.reached_vf live hi flr, sesSlot_vf lo h, pos]

/-- A write of one aligned word. -/
theorem exec_registerWrite_word (s : State) (fn : Nat) {off : Nat} (v : Word) (h : off % 4 = 0) :
    exec (.registerWrite fn off (.words [v])) s = .next (s.busWrite fn off v) := by
  show Host.Outcome.next (s.busData fn off (.words [v])) = _
  simp [State.busData, h, State.busWords]

/-- A word of a block of Table 22.2 that is no ignore count, no last-ignored record and not the arbiter of a stopped stack. -/
theorem State.pfWrite_block (s : State) {off : Nat} (v : Word) (h : off < 0x100000) (arb : off < 0xD0000 ∨ 0xD0400 ≤ off)
    (ign : off < (ignWindow off).1 ∨ (ignWindow off).1 + 12 < off) :
    s.pfWrite off v = s.blockWrite (off / 0x10000) (off % 0x10000) v := by
  have present : s.present off = true := by rw [State.present, if_pos h]
  have runs : s.stopped off = false := by rw [State.stopped, if_neg (by omega), if_neg (by omega), if_neg (by omega)]
  simp only [State.pfWrite, present, runs, Bool.not_true, Bool.false_eq_true, if_false]
  rw [if_neg (by omega), if_neg (by omega), if_pos h]

/-- An ignored write of a window that the part lacks is recorded at CTL with the full offset (R410). -/
theorem State.pfWrite_absent {s : State} {off : Nat} (v : Word) (h : s.present off = false) :
    s.pfWrite off v = s.noteIgn 0x30 off v := by
  simp [State.pfWrite, h, State.ignored]

theorem ignWindow_ctl {off : Nat} (h : off < 0x10000) : ignWindow off = (0x30, off) := by
  simp [ignWindow, Nat.div_eq_of_lt h, Nat.mod_eq_of_lt h, show off < 0x100000 by omega]

theorem State.present_block (s : State) {off : Nat} (h : off < 0x100000) : s.present off = true := by rw [State.present, if_pos h]

theorem State.ignored_ctl (s : State) {off : Nat} (v : Word) (h : off < 0x10000) : s.ignored off v = s.noteIgn 0x30 off v := by
  simp [State.ignored, s.present_block (show off < 0x100000 by omega), ignWindow_ctl h]

/-- A word of the CTL block that is not writable (R413). -/
theorem State.pfWrite_ctl (s : State) {off : Nat} (v : Word) (h : off < 0x10000) (scratch : off ≠ 0x14)
    (ign : off < 0x30 ∨ 0x3C < off) : s.pfWrite off v = s.noteIgn 0x30 off v := by
  rw [s.pfWrite_block v (by omega) (by omega) (by rw [ignWindow_ctl h]; omega), Nat.div_eq_of_lt h, Nat.mod_eq_of_lt h]
  show s.ctlWrite off v = _
  rw [State.ctlWrite, if_neg scratch, s.ignored_ctl v h]

/-- The words of a last-ignored record take no write (R426). -/
theorem State.pfWrite_record (s : State) {off : Nat} (v : Word) (lo : 0x34 ≤ off) (hi : off ≤ 0x3C) : s.pfWrite off v = s := by
  simp only [State.pfWrite, s.present_block (show off < 0x100000 by omega), ignWindow_ctl (show off < 0x10000 by omega),
    Bool.not_true, Bool.false_eq_true, if_false]
  rw [if_neg (by omega), if_pos (by omega)]

/-- A word of a VF's own window past its registers (Table 17.2). -/
theorem State.vfWrite_ignored (s : State) (vf : Nat) {off : Nat} (v : Word) (h : 0x3000 ≤ off) :
    s.vfWrite vf off v = s.noteIgn (vf * 2 ^ 24 + 0x30) off v := by
  rw [State.vfWrite, if_neg (by omega), if_neg (by omega), if_neg (by omega), if_neg (by omega), if_neg (by omega), State.ignoredVf]

end Sys2Proof.Machine
end

section
/-!
O7: register writes that take effect, and those that are ignored (R337, R426).
-/
namespace Sys2Proof.Machine

/-- What the statements say of an ignored write recorded at CTL. -/
def NotedAtCtl (s : State) (off : Nat) (v : Word) (t : State) : Prop :=
  t = { s with regs := t.regs } ∧ (t.reg 0x30).toNat = min 0xFFFF ((s.reg 0x30).toNat + 1) ∧
    t.reg 0x34 = BitVec.ofNat 32 off ∧ t.reg 0x38 = v ∧ t.reg 0x3C = s.ignMode ∧ RegsKept s t [0x30, 0x34, 0x38, 0x3C]

theorem State.noteIgn_ctl (s : State) (off : Nat) (v : Word) : NotedAtCtl s off v (s.noteIgn 0x30 off v) := s.noteIgn_spec 0x30 off v

/-- A short or poisoned word of the CTL block outside its last-ignored record is ignored (R330, R337, R426). -/
theorem State.busIgnore_ctl {s : State} (live : s.live = true) {off : Nat} (h : off < 0x10000) (free : ¬ (0x34 ≤ off ∧ off < 0x40))
    (v : Word) : s.busIgnore 0 off v = s.noteIgn 0x30 off v := by
  have outside : (s.present off && decide ((ignWindow off).1 + 4 ≤ off) && decide (off < (ignWindow off).1 + 16)) = false := by
    rw [ignWindow_ctl h, Bool.and_assoc, ← Bool.decide_and, decide_eq_false free, Bool.and_false]
  simp [State.busIgnore, State.reached_pf live, sesSlot_pf (show off < 0x400000 by omega), outside, s.ignored_ctl v h]

/-- An aligned 8-byte write below the session records writes its two words in address order (R337). -/
theorem exec_registerWrite_pair {s : State} (live : s.live = true) {off : Nat} (v w : Word) (h : off % 8 = 0)
    (below : off + 4 < 0x400000) (liveNext : (s.pfWrite off v).live = true) :
    exec (.registerWrite 0 off (.words [v, w])) s = .next ((s.pfWrite off v).pfWrite (off + 4) w) := by
  show Host.Outcome.next (s.busData 0 off (.words [v, w])) = _
  have aligned : off % 4 = 0 := by omega
  simp [State.busData, h, aligned, State.busWords, State.busWrite_pf live (show off < 0x400000 by omega),
    State.busWrite_pf liveNext below]

/-- Settles O7, by the rule of the window that each word meets. -/
theorem registerWrites : Obligations.RegisterWrites := by
  constructor
  · intro s v w live
    have plain (off : Nat) (x : Word) (aligned : off % 4 = 0) (below : off < 0x400000) (write : s.pfWrite off v = s.setReg off x) :
        Answers (.registerWrite 0 off (.words [v])) s fun t =>
          t = { s with regs := t.regs } ∧ t.reg off = x ∧ RegsKept s t [off] := by
      refine ⟨_, exec_registerWrite_word s 0 v aligned, ?_⟩
      rw [State.busWrite_pf live below, write]
      exact s.setReg_spec off x
    refine ⟨?_, ?_, ?_, ?_, ?_⟩
    · refine plain 0x14 v (by decide) (by decide) ?_
      rw [s.pfWrite_block v (by decide) (by decide) (by decide)]
      rfl
    · refine plain 0x20000 (v &&& 1) (by decide) (by decide) ?_
      rw [s.pfWrite_block v (by decide) (by decide) (by decide)]
      rfl
    · refine plain 0x2000C (v &&& 0xFFF) (by decide) (by decide) ?_
      rw [s.pfWrite_block v (by decide) (by decide) (by decide)]
      rfl
    · refine plain 0xB000C (v &&& 0x7FFFF) (by decide) (by decide) ?_
      rw [s.pfWrite_block v (by decide) (by decide) (by decide)]
      rfl
    · have lo (s : State) (v : Word) : s.pfWrite 0x70008 v = s.setReg 0x70008 v := by
        rw [s.pfWrite_block v (by decide) (by decide) (by decide)]
        rfl
      have hi (s : State) (v : Word) : s.pfWrite 0x7000C v = s.setReg 0x7000C v := by
        rw [s.pfWrite_block v (by decide) (by decide) (by decide)]
        rfl
      refine ⟨_, exec_registerWrite_pair live v w (by decide) (by decide) (by rw [lo]; exact live), ?_⟩
      rw [lo, hi]
      exact ⟨rfl, by simp, by simp, fun o h => by simp_all⟩
  · intro s off fn v live aligned
    refine ⟨?_, ?_, ?_⟩
    · rintro d (⟨below, scratch, free, rfl⟩ | ⟨absent, below, rfl⟩ | ⟨below, free, rfl | rfl⟩)
      · refine ⟨_, exec_registerWrite_word s 0 v aligned, ?_⟩
        rw [State.busWrite_pf live (by omega), s.pfWrite_ctl v below scratch (by omega)]
        exact s.noteIgn_ctl off v
      · have lacks : s.present off = false := by
          rw [State.present, if_neg (by omega), if_neg (by omega), if_pos (by omega)]
          simp only [decide_eq_false_iff_not]
          omega
        refine ⟨_, exec_registerWrite_word s 0 v aligned, ?_⟩
        rw [State.busWrite_pf live (by omega), State.pfWrite_absent v lacks]
        exact s.noteIgn_ctl off v
      all_goals
        refine ⟨_, rfl, ?_⟩
        rw [State.busData, State.busIgnore_ctl live below free]
        exact s.noteIgn_ctl off v
    · intro lo hi flr low below
      refine ⟨_, exec_registerWrite_word s fn v aligned, ?_⟩
      rw [State.busWrite_vf live lo hi flr (by omega), s.vfWrite_ignored fn v low]
      obtain ⟨frame, count, offset, value, mode, -⟩ := s.noteIgn_spec (fn * 2 ^ 24 + 0x30) off v
      exact ⟨frame, count, offset, value, mode⟩
    · intro lo hi
      rw [exec_registerWrite_word s 0 v aligned, State.busWrite_pf live (by omega), s.pfWrite_record v lo (by omega)]

end Sys2Proof.Machine
end

section
/-!
O8: the writes that clear a count.
-/
namespace Sys2Proof.Machine

theorem exec_ignoredCountClear {fn off : Nat} (s : State) (v : Word) (h : isIgnCount fn off = true) :
    exec (.ignoredCountClear fn off v) s = .next (s.busWrite fn off v) := congrArg Host.Outcome.next (if_pos h)

theorem exec_counterClear {off : Nat} {s : State} (live : s.live = true) (v : Word) (h : isCounter 0 off = true)
    (below : off < 0x400000) : exec (.counterClear 0 off v) s = .next (s.pfWrite off v) := by
  rw [← State.busWrite_pf live below]
  exact congrArg Host.Outcome.next (if_pos h)

/-- The ignore count of a PF window that the part has. -/
theorem State.pfWrite_ignCount {s : State} {off : Nat} (v : Word) (present : s.present off = true) (h : (ignWindow off).1 = off) :
    s.pfWrite off v = s.setReg off 0 := by
  simp [State.pfWrite, present, h]

/-- The record that a word of the PF's session window lies in (R53). -/
theorem sesSlot_record {n o : Nat} (hn : n < 4096) (ho : o < 0x400) : sesSlot 0 (0x400000 + 0x400 * n + o) = some (n, o) := by
  rw [sesSlot, if_pos rfl, if_pos (by omega)]
  congr 2 <;> omega

/-- The ignore count of a session record (R10). -/
theorem State.busWrite_sesIgnored {s : State} (live : s.live = true) {n : Nat} (hn : n < 4096) (v : Word) :
    s.busWrite 0 (0x400000 + 0x400 * n + 0x18) v = s.setSes n { s.ses n with ignored := 0 } := by
  have reach : Reaches s 0 n n := ⟨live, .inl rfl, by simp [State.sesOf, hn]⟩
  simp only [State.busWrite, State.reached_pf live, sesSlot_record hn (show 0x18 < 0x400 by decide), Bool.not_true,
    Bool.false_eq_true, if_false]
  rw [State.onSes_of_reaches reach]
  rfl

theorem State.nTiles_le (s : State) : s.nTiles ≤ 52 := by
  unfold State.nTiles
  split <;> decide

/-- The windows of a tile that the part has and whose quadrant runs (R2, R338): a word that is no ignore count and not in a
last-ignored record. -/
theorem State.pfWrite_tile {s : State} {tile o : Nat} (has : tile < s.nTiles) (runs : (s.quad (quadOf tile)).pll = true)
    (ho : o < 0x8000) (ign : o % 0x2000 < 0x30 ∨ 0x3C < o % 0x2000) (v : Word) :
    s.pfWrite (0x200000 + 0x8000 * tile + o) v = s.tileWrite tile o v := by
  have few := s.nTiles_le
  have number : (0x200000 + 0x8000 * tile + o - 0x200000) / 0x8000 = tile := by omega
  have offset : (0x200000 + 0x8000 * tile + o) % 0x8000 = o := by omega
  have present : s.present (0x200000 + 0x8000 * tile + o) = true := by
    rw [State.present, if_neg (by omega), if_neg (by omega), if_pos (by omega), number, decide_eq_true has]
  have running : s.stopped (0x200000 + 0x8000 * tile + o) = false := by
    rw [State.stopped, if_neg (by omega), if_pos (by omega), number, runs, Bool.not_true]
  have window : (ignWindow (0x200000 + 0x8000 * tile + o)).1 = (0x200000 + 0x8000 * tile + o) / 0x2000 * 0x2000 + 0x30 := by
    rw [ignWindow, if_neg (by omega), if_neg (by omega), if_pos (by omega)]
  simp only [State.pfWrite, present, running, window, Bool.not_true, Bool.false_eq_true, if_false]
  rw [if_neg (by omega), if_neg (by omega), if_neg (by omega), if_neg (by omega), number, offset]

/-- The counters of SCH, HMP and DEP. -/
theorem State.pfWrite_blockCounter (s : State) (v : Word) : ∀ off ∈ [0x20018, 0x2001C, 0x20020, 0x20024, 0xB0010, 0xB0014, 0xB0018,
    0xF0010, 0xF0014, 0xF0018, 0xF001C, 0xF0020, 0xF0024, 0xF0028, 0xF002C], s.pfWrite off v = s.setReg off 0 := by
  intro off h
  simp only [List.mem_cons, List.not_mem_nil, or_false] at h
  rcases h with rfl | rfl | rfl | rfl | rfl | rfl | rfl | rfl | rfl | rfl | rfl | rfl | rfl | rfl | rfl <;>
    rw [s.pfWrite_block v (by decide) (by decide) (by decide)] <;> rfl

/-- Settles O8, by the rule of the window that each count stands in. -/
theorem counterClears : Obligations.CounterClears := by
  constructor
  · intro s v live
    refine ⟨fun off below ign present => ?_, fun n hn => ?_, fun fn lo hi flr => ?_⟩
    · have count : isIgnCount 0 off = true := by simp [isIgnCount, sesSlot_pf below, below, ign]
      refine ⟨_, exec_ignoredCountClear s v count, ?_⟩
      rw [State.busWrite_pf live below, State.pfWrite_ignCount v present ign]
      exact s.setReg_spec off 0
    · have count : isIgnCount 0 (0x400000 + 0x400 * n + 0x18) = true := by
        simp [isIgnCount, sesSlot_record hn (show 0x18 < 0x400 by decide)]
      rw [exec_ignoredCountClear s v count, State.busWrite_sesIgnored live hn]
    · have pos : fn ≠ 0 := by omega
      have count : isIgnCount fn 0x30 = true := by simp [isIgnCount, sesSlot_vf lo, pos]
      refine ⟨_, exec_ignoredCountClear s v count, ?_⟩
      rw [State.busWrite_vf live lo hi flr (by decide), State.vfWrite, if_pos rfl]
      exact s.setReg_spec _ 0
  · intro s v live
    constructor
    · intro off h
      have counter : isCounter 0 off = true ∧ off < 0x400000 := by
        revert off
        decide
      refine ⟨_, exec_counterClear live v counter.1 counter.2, ?_⟩
      rw [s.pfWrite_blockCounter v off h]
      exact s.setReg_spec off 0
    · intro tile has runs o h
      have few := s.nTiles_le
      have range : o < 0x8000 ∧ (o % 0x2000 < 0x30 ∨ 0x3C < o % 0x2000) ∧ [0x108, 0x10C, 0x2010, 0x2014, 0x2018].contains o = true ∧
          (o = 0x108 ∨ o = 0x10C ∨ (0x2010 ≤ o ∧ o ≤ 0x2018)) ∧ o ≠ 0x100 := by
        revert o
        decide
      obtain ⟨below, free, listed, named, other⟩ := range
      have counter : isCounter 0 (0x200000 + 0x8000 * tile + o) = true := by
        have offset : (0x200000 + 0x8000 * tile + o) % 0x8000 = o := by omega
        simp only [isCounter, offset, listed]
        rw [if_neg (by decide), if_neg (by omega), if_neg (by omega), if_pos (by omega)]
      refine ⟨_, exec_counterClear live v counter (by omega), ?_⟩
      rw [State.pfWrite_tile has runs below free, State.tileWrite, if_neg other, if_pos named]
      exact s.setReg_spec _ 0

end Sys2Proof.Machine
end

section
/-!
SUPPORT. The CRC steps of R22 are linear in register and byte; little-endian bytes.
-/
namespace Sys2Proof.Machine

/-- One bit step, the same for both values of the bit that leaves. -/
theorem crcBit_eq (p c : BitVec 32) : crcBit p c = (c >>> 1) ^^^ (if c.getLsbD 0 then p else 0#32) := by
  unfold crcBit
  split <;> simp

theorem crcBit_xor (p c d : BitVec 32) : crcBit p (c ^^^ d) = crcBit p c ^^^ crcBit p d := by
  have leaving (x y : Bool) : (if (x ^^ y) then p else 0#32) = (if x then p else 0#32) ^^^ (if y then p else 0#32) := by
    cases x <;> cases y <;> simp
  rw [crcBit_eq, crcBit_eq p c, crcBit_eq p d, BitVec.getLsbD_xor, BitVec.ushiftRight_xor_distrib, leaving]
  ac_rfl

theorem crcByte_xor (c d : BitVec 32) (a b : Byte) : crcByte (c ^^^ d) (a ^^^ b) = crcByte c a ^^^ crcByte d b := by
  have inputs : c ^^^ d ^^^ (a ^^^ b).setWidth 32 = (c ^^^ a.setWidth 32) ^^^ (d ^^^ b.setWidth 32) := by
    rw [BitVec.setWidth_xor]
    ac_rfl
  simp only [crcByte, inputs, crcBit_xor]

@[simp] theorem length_leBytes (n v : Nat) : (leBytes n v).length = n := by
  induction n generalizing v with
  | zero => rfl
  | succ n ih => rw [leBytes, List.length_cons, ih]

theorem leBytes_eq_map (n v : Nat) : leBytes n v = (List.range n).map fun i => BitVec.ofNat 8 (v / 256 ^ i) := by
  induction n generalizing v with
  | zero => rfl
  | succ n ih =>
    rw [leBytes, ih, List.range_succ_eq_map, List.map_cons, List.map_map, pow_zero, Nat.div_one]
    congr 1
    refine List.map_congr_left fun i _ => ?_
    rw [Function.comp_apply, Nat.div_div_eq_div_mul, pow_succ']

end Sys2Proof.Machine
end

section
/-!
O10: a check value is affine in its bytes, so a label moves to another fold word without its data (R22, R23, R24).
-/
namespace Sys2Proof.Machine

/-- The bytes of two strings of one length, exclusive-or'd in place. -/
def xorBytes (as bs : List Byte) : List Byte := List.zipWith (· ^^^ ·) as bs

theorem length_xorBytes {as bs : List Byte} (len : as.length = bs.length) : (xorBytes as bs).length = as.length := by
  simp [xorBytes, len]

theorem xorBytes_append {as bs : List Byte} (len : as.length = bs.length) (as' bs' : List Byte) :
    xorBytes (as ++ as') (bs ++ bs') = xorBytes as bs ++ xorBytes as' bs' := List.zipWith_append len

theorem xorBytes_zeros (as : List Byte) : xorBytes as (List.replicate as.length 0) = as := by
  induction as with
  | nil => rfl
  | cons a as ih =>
    rw [List.length_cons, List.replicate_succ, xorBytes, List.zipWith_cons_cons]
    exact congrArg₂ _ BitVec.xor_zero ih

theorem leBytes_xor (n a b : Nat) : leBytes n (a ^^^ b) = xorBytes (leBytes n a) (leBytes n b) := by
  induction n generalizing a b with
  | zero => rfl
  | succ n ih =>
    have rest : (a ^^^ b) / 256 = a / 256 ^^^ b / 256 := Nat.xor_div_two_pow (n := 8)
    rw [leBytes, rest, ih, BitVec.ofNat_xor]
    rfl

/-- The register after the bytes of two strings of one length, exclusive-or'd, is the two registers exclusive-or'd. -/
theorem foldl_crcByte_xor {as bs : List Byte} (len : as.length = bs.length) (c d : BitVec 32) :
    (xorBytes as bs).foldl crcByte (c ^^^ d) = as.foldl crcByte c ^^^ bs.foldl crcByte d := by
  induction as generalizing bs c d with
  | nil => rw [List.eq_nil_of_length_eq_zero len.symm]; rfl
  | cons a as ih =>
    obtain ⟨b, bs, rfl⟩ := List.exists_cons_of_length_eq_add_one len.symm
    rw [List.foldl_cons, List.foldl_cons, ← ih (Nat.succ.inj len), ← crcByte_xor]
    rfl

/-- The three initial values leave one, and so do the three final ones. -/
theorem crc32c_xor_xor {as bs cs : List Byte} (hb : as.length = bs.length) (hc : as.length = cs.length) :
    crc32c (xorBytes (xorBytes as bs) cs) = crc32c as ^^^ crc32c bs ^^^ crc32c cs := by
  have fed := foldl_crcByte_xor ((length_xorBytes hb).trans hc) (0xFFFFFFFF ^^^ 0xFFFFFFFF) 0xFFFFFFFF
  rw [foldl_crcByte_xor hb, BitVec.xor_self, BitVec.zero_xor] at fed
  simp only [crc32c, fed]
  grind

/-- Rebasing works for any two fold words, those of R23 among them. -/
theorem rebase_careLabel {data : List Byte} (len : data.length = 64) (old new : Nat) :
    rebase (careLabel data old) old new = careLabel data new := by
  have zeros : xorBytes data (List.replicate 64 0) = data := len ▸ xorBytes_zeros data
  have fold : old ^^^ (old ^^^ new) ^^^ 0 = new := by rw [Nat.xor_zero, Nat.xor_xor_cancel_left]
  have line : xorBytes (xorBytes (data ++ leBytes 8 old) (List.replicate 64 0 ++ leBytes 8 (old ^^^ new)))
      (List.replicate 64 0 ++ leBytes 8 0) = data ++ leBytes 8 new := by
    rw [xorBytes_append (by simp [len]), zeros, xorBytes_append (by simp [len]), zeros, ← leBytes_xor, ← leBytes_xor, fold]
  rw [careLabel, rebase, ← crc32c_xor_xor (by simp [len]) (by simp [len]), line, careLabel]

/-- Settles O10, by the check value being affine in its bytes. -/
theorem rebaseGivesTheNewLabel : Obligations.RebaseGivesTheNewLabel := by
  intro data oldAddr oldGen newAddr newGen len
  exact rebase_careLabel len (foldWord oldAddr oldGen) (foldWord newAddr newGen)

end Sys2Proof.Machine
end

section
/-!
O49: a check-value unit holds the bits of the label's register in the opposite order, so that shifting the one left is shifting the
other right (R22, R325).
-/
namespace Sys2Proof.Machine

/-- A bit alone in a word, at 0. -/
def bitWord (b : Bool) : BitVec 32 := (BitVec.ofBool b).setWidth 32

@[simp] theorem getLsbD_bitWord (b : Bool) (i : Nat) : (bitWord b).getLsbD i = (decide (i = 0) && b) := by
  rw [bitWord, BitVec.getLsbD_setWidth, BitVec.getLsbD_ofBool]
  cases i <;> simp

/-- One bit into the label's register. -/
def crcFeed (p c : BitVec 32) (b : Bool) : BitVec 32 := crcBit p (c ^^^ bitWord b)

/-- With no bit set at 0 a step only shifts. -/
theorem crcBit_of_even {p d : BitVec 32} (even : d.getLsbD 0 = false) : crcBit p d = d >>> 1 := by
  rw [crcBit, even, if_neg Bool.false_ne_true]

/-- The bits of `d` may be added at once or each as it comes to bit 0. -/
theorem crcBit_xor_word (p c d : BitVec 32) : crcBit p (c ^^^ d) = crcFeed p c (d.getLsbD 0) ^^^ d >>> 1 := by
  have parts : c ^^^ d = (c ^^^ bitWord (d.getLsbD 0)) ^^^ (d ^^^ bitWord (d.getLsbD 0)) := by
    rw [BitVec.xor_comm d, BitVec.xor_assoc, ← BitVec.xor_assoc _ _ d, BitVec.xor_self, BitVec.zero_xor]
  have even : (d ^^^ bitWord (d.getLsbD 0)).getLsbD 0 = false := by
    rw [BitVec.getLsbD_xor, getLsbD_bitWord]
    simp
  have rest : (d ^^^ bitWord (d.getLsbD 0)) >>> 1 = d >>> 1 := BitVec.eq_of_getLsbD_eq fun i _ => by simp
  rw [parts, crcBit_xor, crcBit_of_even even, rest, crcFeed]

theorem iterate_crcBit_xor_word (p c d : BitVec 32) (n : Nat) :
    (crcBit p)^[n] (c ^^^ d) = (List.range n).foldl (fun r i => crcFeed p r (d.getLsbD i)) c ^^^ d >>> n := by
  induction n with
  | zero => rfl
  | succ n ih =>
    rw [Function.iterate_succ_apply', ih, crcBit_xor_word, List.range_succ, List.foldl_append, BitVec.getLsbD_ushiftRight,
      ← BitVec.shiftRight_add]
    rfl

theorem crcByte_eq_foldl (c : BitVec 32) (b : Byte) :
    crcByte c b = (List.range 8).foldl (fun r i => crcFeed 0x82F63B78 r (b.getLsbD i)) c := by
  have gone : b.setWidth 32 >>> 8 = 0#32 := by
    ext i hi
    simp
  have bits := iterate_crcBit_xor_word 0x82F63B78 c (b.setWidth 32) 8
  rw [gone, BitVec.xor_zero] at bits
  refine bits.trans (List.foldl_ext _ _ _ fun r i hi => ?_)
  rw [BitVec.getLsbD_setWidth, decide_eq_true (by rw [List.mem_range] at hi; omega), Bool.true_and]

theorem reverse_eq {a b : BitVec 32} (bits : ∀ i < 32, a.getMsbD i = b.getLsbD i) : a.reverse = b :=
  BitVec.eq_of_getLsbD_eq fun i h => a.getLsbD_reverse.trans (bits i h)

/-- The register of a 32-bit check-value unit for the reflected register `c`. -/
def cvuReg (c : BitVec 32) : Dword := c.reverse.setWidth 64

theorem getLsbD_cvuReg (c : BitVec 32) (i : Nat) : (cvuReg c).getLsbD i = (decide (i < 32) && c.getLsbD (31 - i)) := by
  rw [cvuReg, BitVec.getLsbD_setWidth, BitVec.getLsbD_reverse, BitVec.getMsbD]
  by_cases h : i < 32
  · rw [decide_eq_true (show i < 64 by omega), Bool.true_and]
  · simp [h]

theorem Cvu.getLsbD_cut {x : Cvu} (w : x.width ≤ 64) (v : Dword) (i : Nat) :
    (x.cut v).getLsbD i = (decide (i < x.width) && v.getLsbD i) := by
  rw [Cvu.cut, BitVec.getLsbD_ofNat, Nat.testBit_mod_two_pow, BitVec.testBit_toNat]
  by_cases h : i < x.width
  · rw [decide_eq_true (show i < 64 by omega), Bool.true_and]
  · simp [h]

/-- A left shift of the one register is a right shift of the other; the bit fed in leaves with the shift. -/
theorem getLsbD_cvuReg_shiftLeft (c : BitVec 32) (b : Bool) {i : Nat} (low : i < 32) :
    (cvuReg c <<< 1).getLsbD i = ((c ^^^ bitWord b) >>> 1).getLsbD (31 - i) := by
  rw [BitVec.getLsbD_shiftLeft, BitVec.getLsbD_ushiftRight, BitVec.getLsbD_xor, getLsbD_cvuReg]
  cases i with
  | zero => simp
  | succ i =>
    rw [show 1 + (31 - (i + 1)) = 31 - i by omega]
    simp [show i < 32 by omega, show i + 1 < 64 by omega, show 31 - i ≠ 0 by omega]

/-- R325's bit step on the reversed register is the reflected step with the polynomial reversed. -/
theorem Cvu.bitStep_cvuReg {x : Cvu} (w : x.width = 32) (c : BitVec 32) (b : Bool) :
    x.bitStep (cvuReg c) b = cvuReg (crcFeed (x.poly.setWidth 32).reverse c b) := by
  have top : ((cvuReg c).getLsbD 31 != b) = (c ^^^ bitWord b).getLsbD 0 := by
    rw [getLsbD_cvuReg, BitVec.getLsbD_xor, getLsbD_bitWord]
    simp
  refine BitVec.eq_of_getLsbD_eq fun i _ => ?_
  rw [Cvu.bitStep, w, top, getLsbD_cvuReg, crcFeed, crcBit_eq, Cvu.getLsbD_cut (by omega), w]
  by_cases low : i < 32
  · have poly : (x.cut x.poly).getLsbD i = (x.poly.setWidth 32).reverse.getLsbD (31 - i) := by
      rw [Cvu.getLsbD_cut (by omega), w, BitVec.getLsbD_reverse, BitVec.getMsbD, BitVec.getLsbD_setWidth,
        show 32 - 1 - (31 - i) = i by omega, decide_eq_true low, decide_eq_true (by omega : 31 - i < 32)]
      rfl
    generalize (c ^^^ bitWord b).getLsbD 0 = out
    rw [BitVec.getLsbD_xor, BitVec.getLsbD_xor, getLsbD_cvuReg_shiftLeft c b low]
    cases out with
    | false => simp
    | true => simp only [if_true, poly]
  · rw [decide_eq_false low, Bool.false_and, Bool.false_and]

theorem revBits_succ (v : Dword) (w : Nat) : revBits v (w + 1) = (revBits v w <<< 1) ||| (if v.getLsbD w then 1 else 0) := by
  simp only [revBits, upto, List.range_succ, List.foldl_append, List.foldl_cons, List.foldl_nil]

theorem getLsbD_revBits (v : Dword) (w i : Nat) (small : i < 64) :
    (revBits v w).getLsbD i = (decide (i < w) && v.getLsbD (w - 1 - i)) := by
  induction w generalizing i with
  | zero => simp [revBits, upto]
  | succ w ih =>
    rw [revBits_succ]
    cases i with
    | zero => cases h : v.getLsbD w <;> simp [h]
    | succ i =>
      have high : (if v.getLsbD w then (1 : Dword) else 0).getLsbD (i + 1) = false := by
        split <;> simp
      rw [BitVec.getLsbD_or, BitVec.getLsbD_shiftLeft, high, Nat.add_sub_cancel, ih i (by omega)]
      simp [small, show w - 1 - i = w - (i + 1) by omega]

/-- One byte, for a unit as R22's check value wants it: 32 bits, refin, the polynomial 0x1EDC_6F41. -/
theorem Cvu.byteStep_cvuReg {x : Cvu} (w : x.width = 32) (refin : bit x.ctl 8 = true) (poly : x.poly = 0x1EDC6F41)
    (c : BitVec 32) (b : Byte) : x.byteStep (cvuReg c) b = cvuReg (crcByte c b) := by
  have reversed : (x.poly.setWidth 32).reverse = 0x82F63B78 := by
    rw [poly]
    exact reverse_eq (by decide)
  simp only [Cvu.byteStep, refin, if_true]
  rw [crcByte_eq_foldl, ← List.foldl_hom cvuReg fun r i => ?_]
  · rfl
  · rw [Cvu.bitStep_cvuReg w, reversed]

/-- With refout the unit turns its register back, so that what is left is the final XOR. -/
theorem Cvu.finish_cvuReg {x : Cvu} (w : x.width = 32) (refout : bit x.ctl 9 = true) (c : BitVec 32) :
    x.finish (cvuReg c) = (c ^^^ x.xor.setWidth 32).setWidth 64 := by
  refine BitVec.eq_of_getLsbD_eq fun i small => ?_
  have back : (revBits (cvuReg c) 32).getLsbD i = (decide (i < 32) && c.getLsbD i) := by
    rw [getLsbD_revBits _ _ _ small, getLsbD_cvuReg]
    by_cases low : i < 32
    · rw [decide_eq_true low, decide_eq_true (by omega : 32 - 1 - i < 32), show 31 - (32 - 1 - i) = i by omega]
      rfl
    · simp [low]
  rw [Cvu.finish, if_pos refout, w, Cvu.getLsbD_cut (by omega), w, BitVec.getLsbD_xor, back, Cvu.getLsbD_cut (by omega), w]
  by_cases low : i < 32
  · simp [low, small]
  · simp [low, c.getLsbD_of_ge i (by omega)]

/-- At its reset settings the unit computes CRC-32C. -/
theorem Cvu.reset_computes_crc32c (bytes : List Byte) :
    let x : Cvu := {}
    x.finish (bytes.foldl x.byteStep (x.cut x.init)) = (crc32c bytes).setWidth 64 := by
  intro x
  have width : x.width = 32 := by decide
  have start : x.cut x.init = cvuReg 0xFFFFFFFF := by
    rw [cvuReg, reverse_eq (b := 0xFFFFFFFF) (by decide)]
    decide
  have fed : bytes.foldl x.byteStep (cvuReg 0xFFFFFFFF) = cvuReg (bytes.foldl crcByte 0xFFFFFFFF) :=
    List.foldl_hom cvuReg (Cvu.byteStep_cvuReg width (by decide) rfl)
  rw [start, fed, Cvu.finish_cvuReg width (by decide)]
  rfl

/-- Settles O49, by the unit's register being the label's with its bits in the opposite order. -/
theorem cvuComputesTheLabelCrc : Obligations.CvuComputesTheLabelCrc := by
  unfold Obligations.CvuComputesTheLabelCrc
  intro x crc
  refine ⟨rfl, rfl, rfl, rfl, Cvu.reset_computes_crc32c, fun data fold _ => ?_⟩
  rw [← leBytes_eq_map]
  exact Cvu.reset_computes_crc32c (data ++ leBytes 8 fold)

end Sys2Proof.Machine
end

section
/-!
SUPPORT. An event that the device posts to a basket changes the host port and what is sent, and nothing else (R345 to R349).
-/
namespace Sys2Proof.Machine

/-- `t` differs from `s` in the host port and in what has been sent alone. -/
def Posted (s t : State) : Prop := t = { s with hif := t.hif, outbox := t.outbox }

theorem Posted.rfl {s : State} : Posted s s := Eq.refl _

theorem Posted.trans {s t u : State} (h : Posted s t) (k : Posted t u) : Posted s u := Eq.trans k (by rw [h])

theorem State.setFn_posted (s : State) (fn : Nat) (f : Func) : Posted s (s.setFn fn f) := Eq.refl _

theorem State.emit_posted (s : State) (e : Emit) : Posted s (s.emit e) := by
  unfold State.emit
  split
  · exact .rfl
  · exact Eq.refl _

theorem State.message_posted (s : State) (fn : Nat) : Posted s (s.message fn) := by
  unfold State.message
  extract_lets f wait
  split
  · exact s.setFn_posted fn _
  split
  · exact (s.setFn_posted fn _).trans (State.emit_posted _ _)
  · exact s.setFn_posted fn _

theorem State.writeRec_posted (s : State) (fn : Nat) (r : BktRec) : Posted s (s.writeRec fn r) := by
  have written (f : Func) (e : Emit) : Posted s ((s.emit e).setFn fn f) := (s.emit_posted e).trans (State.setFn_posted _ fn f)
  unfold State.writeRec
  dsimp only
  split
  · exact (written _ _).trans (State.message_posted _ fn)
  · exact written _ _

theorem State.post_posted (s : State) (fn : Nat) (grp : Option Nat) (r : BktRec) : Posted s (s.post fn grp r) := by
  unfold State.post
  extract_lets f masked
  split
  · exact s.setFn_posted fn _
  split
  · exact s.setFn_posted fn _
  split
  · exact s.writeRec_posted fn r
  split
  · exact s.setFn_posted fn _
  split <;> exact s.setFn_posted fn _

end Sys2Proof.Machine
end

section
/-!
O11: the loader's commands, and how it ends without effect (R41 to R52, R427, R428).
-/
namespace Sys2Proof.Machine

/-- The loader ends (R44): its status changes, and the done event is posted. -/
theorem State.loaderEnd_ends (s : State) (code : Nat) : LoadEnds s (s.loaderEnd code) code := by
  have posted : Posted _ (s.loaderEnd code) := State.post_posted _ 0 (some 1) _
  exact posted

/-- PAT_LEN is legal (R32). -/
theorem legalLen_iff (v : Word) : legalLen v = true ↔ 256 ≤ v.toNat ∧ v.toNat ≤ 67108864 := by
  simp [legalLen]

/-- A legal PAT_LEN starts the fetch (R41). -/
theorem State.loadStart_legal {s : State} (h : 256 ≤ (s.reg 0x1000C).toNat ∧ (s.reg 0x1000C).toNat ≤ 67108864) (piece : Bool) :
    s.loadStart piece =
      { s with ldr := { s.ldr with busy := true, phase := 1, piece := piece, clearing := false, image := [] } } :=
  if_pos ((legalLen_iff _).2 h)

/-- An illegal one ends the load before any fetch (R427 step 1). -/
theorem State.loadStart_illegal {s : State} (h : ¬ (256 ≤ (s.reg 0x1000C).toNat ∧ (s.reg 0x1000C).toNat ≤ 67108864)) (piece : Bool) :
    s.loadStart piece = s.loaderEnd 2 := if_neg fun legal => h ((legalLen_iff _).1 legal)

/-- LOAD_FULL by Table 2.9 and R303. -/
theorem State.loadFullOp_eq (s : State) (v : Word) : s.loadFullOp v =
    if (s.mode = .primed ∨ s.mode = .woven) ∧ s.allClosed = true ∧ (s.ldr.busy = false ∧ s.pwr.standbyPend = false) ∧
      s.anyProvisional = false then s.loadStart false else s.ignored 0x10000 v := by
  simp [State.loadFullOp, and_assoc]

/-- LOAD_PIECE by Table 2.9. -/
theorem State.loadPieceOp_eq (s : State) (v : Word) : s.loadPieceOp v =
    if (s.mode = .woven ∨ s.mode = .running) ∧ s.ldr.busy = false ∧ s.pwr.standbyPend = false then s.loadStart true
    else s.ignored 0x10000 v := by
  simp [State.loadPieceOp, and_assoc]

/-- CLEAR by Table 2.9. -/
theorem State.clearOp_eq (s : State) (v : Word) : s.clearOp v =
    if s.mode = .woven ∧ s.allClosed = true ∧ s.ldr.busy = false ∧ s.pwr.standbyPend = false then
      { s with ldr := { s.ldr with busy := true, phase := 6, clearing := true, piece := false } }
    else s.ignored 0x10000 v := by
  simp [State.clearOp, and_assoc]

theorem State.abortOp_accepted {s : State} (busy : s.ldr.busy = true) (h5 : s.ldr.phase ≠ 5) (h6 : s.ldr.phase ≠ 6) (v : Word) :
    s.abortOp v = s.loaderEnd 0x11 := by
  simp [State.abortOp, busy, h5, h6]

/-- The fetch of phase 1 ends while no reload of the control cores holds it (Table 12.5). -/
theorem State.fetchDoneOp_failed {s : State} (busy : s.ldr.busy = true) (phase : s.ldr.phase = 1) (ready : s.sec.reloading = false) :
    s.fetchDoneOp .failed = s.loaderEnd 0x12 := by
  simp [State.fetchDoneOp, busy, phase, ready]

theorem State.fetchDoneOp_rejected {s : State} (busy : s.ldr.busy = true) (phase : s.ldr.phase = 1) (ready : s.sec.reloading = false)
    {im : List Byte} (len : im.length = (s.reg 0x1000C).toNat) {code : Nat} (auth : s.authCode im = some code) :
    s.fetchDoneOp (.fetched im) = s.loaderEnd code := by
  simp [State.fetchDoneOp, busy, phase, ready, len, auth]

theorem State.fetchDoneOp_accepted {s : State} (busy : s.ldr.busy = true) (phase : s.ldr.phase = 1) (ready : s.sec.reloading = false)
    {im : List Byte} (len : im.length = (s.reg 0x1000C).toNat) (auth : s.authCode im = none) :
    s.fetchDoneOp (.fetched im) = { s with ldr := { s.ldr with phase := 3, image := im } } := by
  simp [State.fetchDoneOp, busy, phase, ready, len, auth]

/-- Step 3 of R427: the trailer's form, its slot, its signature, in this order. -/
theorem State.authCode_eq (s : State) (im : List Byte) : s.authCode im =
    if trailerForm im = false then some 1
    else if s.sec.verifies (trailerSlot im) 1 = false then some 4
    else if s.sec.signed im = false then some 3
    else none := by
  unfold State.authCode trailerForm
  generalize (leAt (trailer im) 0 4 == 0x5349474E) = magic
  generalize zerosAt (trailer im) 104 24 = zeros
  generalize s.sec.verifies (trailerSlot im) 1 = slot
  generalize s.sec.signed im = signature
  revert magic zeros slot signature
  decide

/-- Validation ends with its first failing code (R427). -/
theorem State.validationDoneOp_failed {s : State} (busy : s.ldr.busy = true) (phase : s.ldr.phase = 3)
    (ready : s.sec.reloading = false) {code : Nat}
    (fails : s.checkImage s.ldr.piece (s.reg 0x1000C).toNat s.ldr.image = some code) :
    s.validationDoneOp = s.loaderEnd code := by
  simp [State.validationDoneOp, busy, phase, ready, fails]

theorem State.pressTimeoutOp_due {s : State} (busy : s.ldr.busy = true) (phase : s.ldr.phase = 4)
    (due : s.ldr.drainAt + (s.reg 0x10018).toNat ≤ s.now) : s.pressTimeoutOp = s.loaderEnd 0x0F := by
  simp [State.pressTimeoutOp, busy, phase, due]

/-- A command whose effect is the loader's end. -/
theorem answers_loadEnds {c : Instr} {s t : State} {code : Nat} (run : exec c s = .next t) (ends : t = s.loaderEnd code) :
    Answers c s fun t => LoadEnds s t code :=
  ⟨t, run, ends ▸ s.loaderEnd_ends code⟩

/-- A write of PAT_CMD to a device that answers. -/
theorem exec_loaderCommands {s : State} (live : s.live = true) :
    exec .loadFull s = .next (s.loadFullOp 1) ∧ exec .loadPiece s = .next (s.loadPieceOp 2) ∧
      exec .abortLoad s = .next (s.abortOp 3) ∧ exec .clearPattern s = .next (s.clearOp 4) :=
  ⟨congrArg Host.Outcome.next (if_pos live), congrArg Host.Outcome.next (if_pos live), congrArg Host.Outcome.next (if_pos live),
    congrArg Host.Outcome.next (if_pos live)⟩

/-- Settles O11, by the branch that each command takes. -/
theorem loaderStartsAndRejects : Obligations.LoaderStartsAndRejects := by
  constructor
  · intro s live idle full piece clear len legal
    obtain ⟨runFull, runPiece, -, runClear⟩ := exec_loaderCommands live
    have startFull (ok : full) : s.loadFullOp 1 = s.loadStart false := (s.loadFullOp_eq 1).trans (if_pos ok)
    have startPiece (ok : piece) : s.loadPieceOp 2 = s.loadStart true := (s.loadPieceOp_eq 2).trans (if_pos ok)
    refine ⟨fun ok fits => ?_, fun ok fits => ?_, fun ok => ?_, fun ok unfit => ?_, fun ok unfit => ?_, fun no => ?_, fun no => ?_,
      fun no => ?_⟩
    · rw [runFull, startFull ok, State.loadStart_legal fits]
    · rw [runPiece, startPiece ok, State.loadStart_legal fits]
    · rw [runClear, State.clearOp_eq, if_pos ok]
    · exact answers_loadEnds runFull ((startFull ok).trans (State.loadStart_illegal unfit false))
    · exact answers_loadEnds runPiece ((startPiece ok).trans (State.loadStart_illegal unfit true))
    · rw [runFull, State.loadFullOp_eq, if_neg no]
    · rw [runPiece, State.loadPieceOp_eq, if_neg no]
    · rw [runClear, State.clearOp_eq, if_neg no]
  · intro s busy
    refine ⟨fun live h5 h6 => ?_, fun phase ready => ⟨?_, fun im len => ?_⟩, fun phase ready code fails => ?_, fun phase due => ?_⟩
    · exact answers_loadEnds (exec_loaderCommands live).2.2.1 (State.abortOp_accepted busy h5 h6 3)
    · exact answers_loadEnds rfl (State.fetchDoneOp_failed busy phase ready)
    · intro slotOk
      have rejected {code : Nat} (auth : s.authCode im = some code) :
          Answers (.fetchDone (.fetched im)) s fun t => LoadEnds s t code :=
        answers_loadEnds rfl (State.fetchDoneOp_rejected busy phase ready len auth)
      refine ⟨fun form => rejected ?_, fun form slot => rejected ?_, fun form slot sig => rejected ?_,
        fun form slot sig => congrArg Host.Outcome.next (State.fetchDoneOp_accepted busy phase ready len ?_)⟩ <;>
        simp_all [slotOk, State.authCode_eq]
    · exact answers_loadEnds rfl (State.validationDoneOp_failed busy phase ready fails)
    · exact answers_loadEnds rfl (State.pressTimeoutOp_due busy phase due)

end Sys2Proof.Machine
end

section
/-!
SUPPORT. What raising a device fault leaves alone (R263 to R268): patterns, DMA channels, sleep requests, the tiles in their roles and
work, the sessions in their pictures. SAFE asks the tiles to abandon their work and has the sessions migrate; it takes none away.
-/
namespace Sys2Proof.Machine

/-- What no step of a fold changes, the fold does not change. -/
theorem foldl_keeps {α β : Type} (p : State → β) (f : State → α → State) (h : ∀ s a, p (f s a) = p s) (l : List α) (s : State) :
    p (l.foldl f s) = p s := by
  induction l generalizing s with
  | nil => rfl
  | cons a t ih => exact (ih (f s a)).trans (h s a)

/-- A tile's place: its role, the unit that it runs, its last abandonment. -/
def Tile.post (x : Tile) : Role × Option UnitRef × Word := (x.role, x.work, x.ndl.lastAbandon)

/-- A session's units of work, and the moves counted of them. -/
def Session.units (x : Session) : List Pic × List Pic × Nat := (x.pics, x.kept, x.patchMoves)

/-- What raising a device fault leaves alone, and FLT_STATUS. -/
structure Still where
  pat : Pattern
  chans : Tbl Chan
  doms : Tbl Dom
  status : BitVec 64
  posts : Nat → Role × Option UnitRef × Word
  units : Nat → List Pic × List Pic × Nat

def State.still (s : State) : Still where
  pat := s.pat
  chans := s.chans
  doms := s.pwr.doms
  status := s.flt.status
  posts k := (s.tile k).post
  units n := (s.ses n).units

theorem Posted.still {s t : State} (h : Posted s t) : t.still = s.still := by rw [h]; rfl

theorem State.setTile_still {s : State} {k : Nat} {x : Tile} (h : x.post = (s.tile k).post) : (s.setTile k x).still = s.still := by
  have posts : (fun j => ((s.setTile k x).tile j).post) = fun j => (s.tile j).post := by
    funext j
    rw [State.setTile_tile]
    split
    next e => rw [h, e]
    next => rfl
  exact congrArg (fun f => { s.still with posts := f }) posts

theorem State.setSes_still {s : State} {n : Nat} {x : Session} (h : x.units = (s.ses n).units) : (s.setSes n x).still = s.still := by
  have units : (fun j => ((s.setSes n x).ses j).units) = fun j => (s.ses j).units := by
    funext j
    rw [State.setSes_ses]
    split
    next e => rw [h, e]
    next => rfl
  exact congrArg (fun f => { s.still with units := f }) units

theorem State.bump_still (s : State) (off k : Nat) : (s.bump off k).still = s.still := rfl

theorem State.assertSrc_still (s : State) (n : Nat) (detail : Word) (ses : Nat) : (s.assertSrc n detail ses).still = s.still := by
  unfold State.assertSrc
  extract_lets s1 old i hif s2
  split
  · rfl
  split
  · exact (State.post_posted s2 _ _ _).still
  · rfl

theorem State.txFrame_still (s : State) (p : Nat) (f : LFrame) : (s.txFrame p f).still = s.still := (State.emit_posted _ _).still

theorem State.sendFrame_still (s : State) (p : Nat) (f : LFrame) : (s.sendFrame p f).still = s.still := by
  unfold State.sendFrame
  extract_lets x
  split
  · rfl
  split
  · exact s.txFrame_still p f
  · rfl

theorem State.note_still (s : State) (a kind fig : Nat) : (s.note a kind fig).still = s.still := by
  unfold State.note
  extract_lets d mgr go
  have told (s : State) (dst : Nat) : (go s dst).still = s.still := by
    dsimp only [go]
    split
    · exact s.assertSrc_still 2 d 0
    · exact s.sendFrame_still _ _
  split
  · rfl
  split
  · exact told s mgr
  · exact (told _ 0).trans (told s mgr)

theorem State.safeNotice_still (s : State) : s.safeNotice.still = s.still := by
  unfold State.safeNotice
  extract_lets s1
  have moved : s1.still = s.still := s.note_still _ _ _
  split
  · exact moved
  · exact (s1.note_still _ _ _).trans moved

theorem State.publish_still (s : State) (n : Nat) : (s.publish n).still = s.still := by
  unfold State.publish
  extract_lets x g f f'
  exact State.setSes_still rfl

theorem State.toMigrating_still (s : State) (n : Nat) (auto : Bool) : (s.toMigrating n auto).still = s.still := by
  unfold State.toMigrating
  extract_lets x s1
  have entered : s1.still = s.still := State.setSes_still rfl
  exact (s1.publish_still n).trans entered

theorem State.migrateOut_still (s : State) (n : Nat) (auto : Bool) : (s.migrateOut n auto).still = s.still := by
  unfold State.migrateOut
  extract_lets x
  split
  · refine foldl_keeps State.still _ (fun s m => ?_) _ s
    split
    · rfl
    · exact s.toMigrating_still m auto
  · exact s.toMigrating_still n auto

theorem State.askAbandon_still (s : State) (c t : Nat) : (s.askAbandon c t).still = s.still := by
  unfold State.askAbandon
  split
  · exact State.setTile_still rfl
  · rfl

theorem State.enterSafe_still (s : State) : s.enterSafe.still = s.still := by
  unfold State.enterSafe
  extract_lets pwr ldr s1 s2 l lin s3 s4
  have asked : s2.still = s.still := foldl_keeps State.still _ (fun s t => s.askAbandon_still 1 t) _ s1
  have sent : s4.still = s.still := (foldl_keeps State.still _ (fun s n => s.migrateOut_still n true) l s3).trans asked
  split
  · exact s4.safeNotice_still.trans sent
  · exact sent

theorem State.reactDev_still (s : State) (e : Settled) : (s.reactDev e).still = s.still := by
  unfold State.reactDev
  split
  · split
    · rfl
    · exact s.enterSafe_still
  split <;> rfl

theorem State.signal_still (s : State) (e : Settled) : (s.signal e).still = s.still := by
  unfold State.signal
  extract_lets cfg
  split
  · exact s.assertSrc_still _ _ _
  · rfl

theorem State.fireSlot_still (s : State) (n : Nat) : (s.fireSlot n).still = s.still := by
  unfold State.fireSlot
  extract_lets w
  split <;> rfl

theorem State.lintPush_still (s : State) (t : LintTrig) : (s.lintPush t).still = s.still := by
  unfold State.lintPush
  split <;> rfl

theorem State.lintFault_still (s : State) (e : Settled) : (s.lintFault e).still = s.still := by
  unfold State.lintFault
  extract_lets slots word mk f s1 lnt s2
  have fired (l : List Nat) (s : State) : (l.foldl (fun s n => (s.lintPush (mk s n)).fireSlot n) s).still = s.still :=
    foldl_keeps State.still _ (fun s n => (State.fireSlot_still _ n).trans (s.lintPush_still _)) l s
  have first : s2.still = s.still := by
    show s1.still = s.still
    dsimp only [s1]
    split
    · exact s.fireSlot_still _
    · rfl
  split
  · exact (fired _ s2).trans first
  · exact fired slots s

theorem State.recordFirst_still (s : State) (e : Settled) : (s.recordFirst e).still = s.still := by
  unfold State.recordFirst
  split <;> rfl

/-- An event latches its class (R264). -/
theorem State.settle_still (s : State) (e : FaultEv) :
    (s.settle e).1.still = { s.still with status := s.flt.status ||| BitVec.ofNat 64 (2 ^ e.cls) } := rfl

/-- A device fault latches its class and leaves the rest alone. -/
theorem State.raiseDev_still (s : State) (k : Nat) (detail : Word) (ses : Nat) :
    (s.raiseDev k detail ses).still = { s.still with status := s.flt.status ||| BitVec.ofNat 64 (2 ^ k) } := by
  unfold State.raiseDev
  extract_lets r e
  calc ((((r.1.recordFirst e).lintFault e).signal e).reactDev e).still
    _ = r.1.still := by rw [State.reactDev_still, State.signal_still, State.lintFault_still, State.recordFirst_still]
    _ = _ := s.settle_still _

end Sys2Proof.Machine
end

section
/-!
SUPPORT. Powering the fabric: what a fold over tiles or quadrants does to one of them, and what it leaves of the rest of the device.
-/
namespace Sys2Proof.Machine

/-- A fold whose steps each write one entry leaves the entries that it does not name. -/
theorem foldl_other {α β : Type} (p : State → α → β) (f : State → α → State) (other : ∀ s a k, k ≠ a → p (f s a) k = p s k)
    {l : List α} {k : α} (away : k ∉ l) (s : State) : p (l.foldl f s) k = p s k := by
  induction l generalizing s with
  | nil => rfl
  | cons a t ih =>
    obtain ⟨ne, rest⟩ := not_or.1 fun h => away (List.mem_cons.2 h)
    exact (ih rest (f s a)).trans (other s a k ne)

/-- An entry that it names is written once, in a state that has it as it was and agrees in all that the steps keep. -/
theorem foldl_at {α β γ : Type} (p : State → α → β) (q : State → γ) (f : State → α → State) (keep : ∀ s a, q (f s a) = q s)
    (other : ∀ s a k, k ≠ a → p (f s a) k = p s k) {l : List α} (once : l.Nodup) {k : α} (mem : k ∈ l) (s : State) :
    ∃ s', q s' = q s ∧ p s' k = p s k ∧ p (l.foldl f s) k = p (f s' k) k := by
  induction l generalizing s with
  | nil => cases mem
  | cons a t ih =>
    obtain ⟨away, once⟩ := List.nodup_cons.1 once
    by_cases here : k = a
    · subst here
      exact ⟨s, rfl, rfl, foldl_other p f other away (f s k)⟩
    · obtain ⟨s', kept, before, after⟩ := ih once (List.mem_of_ne_of_mem here mem) (f s a)
      exact ⟨s', kept.trans (keep s a), before.trans (other s a k here), after⟩

theorem nodup_upto (n : Nat) : (upto n).Nodup := List.nodup_range

theorem mem_upto {n k : Nat} : k ∈ upto n ↔ k < n := List.mem_range

@[simp] theorem State.modTile_tile (s : State) (k : Nat) (f : Tile → Tile) (j : Nat) :
    (s.modTile k f).tile j = if j = k then f (s.tile k) else s.tile j := State.setTile_tile _ _ _ _

theorem State.setQuad_tile (s : State) (q : Nat) (x : Quad) (k : Nat) : (s.setQuad q x).tile k = s.tile k := rfl

@[simp] theorem State.startPll_quad (s : State) (q mhz j : Nat) :
    (s.startPll q mhz).quad j = if j = q then { s.quad q with pll := true, mhz := mhz, stepAt := none, coolAt := none } else s.quad j :=
  State.setQuad_quad _ _ _ _

/-- The device but for its tiles and the clocks of its quadrants. -/
def State.offFabric (s : State) : State := { s with tiles := [], pwr := { s.pwr with quads := [] } }

theorem State.modTile_offFabric (s : State) (k : Nat) (f : Tile → Tile) : (s.modTile k f).offFabric = s.offFabric := rfl

theorem State.setQuad_offFabric (s : State) (q : Nat) (x : Quad) : (s.setQuad q x).offFabric = s.offFabric := rfl

theorem State.loadTile_offFabric (s : State) (pan : Panel) (k : Nat) : (s.loadTile pan k).offFabric = s.offFabric := rfl

theorem State.askAbandon_offFabric (s : State) (c k : Nat) : (s.askAbandon c k).offFabric = s.offFabric := by
  unfold State.askAbandon
  split <;> rfl

/-- Powering the fabric down leaves the rest of the device (R43, R52). -/
theorem State.fabricDown_offFabric (s : State) : s.fabricDown.offFabric = s.offFabric := by
  unfold State.fabricDown
  extract_lets s1
  exact (foldl_keeps State.offFabric _ (fun s q => s.setQuad_offFabric q _) _ s1).trans
    (foldl_keeps State.offFabric _ (fun s t => s.modTile_offFabric t _) _ s)

theorem nQuads_of_offFabric {s t : State} (h : t.offFabric = s.offFabric) : t.nQuads = s.nQuads :=
  (congrArg State.nQuads h :)

/-- A tile of a fabric that is down: off, its stores clear, without work; retired if it was, else without a role. -/
theorem State.fabricDown_tile {s : State} {k : Nat} (h : k < s.nTiles) :
    (s.fabricDown.tile k).power = .off ∧ (s.fabricDown.tile k).store = [] ∧ (s.fabricDown.tile k).patch = [] ∧
      (s.fabricDown.tile k).work = none ∧
      (s.fabricDown.tile k).role = if (s.tile k).role == .retired then .retired else .unused := by
  unfold State.fabricDown
  extract_lets s1
  have clocks : ((upto s1.nQuads).foldl (fun s q => s.setQuad q { s.quad q with pll := false, mhz := 0, stepAt := none }) s1).tile k =
      s1.tile k := foldl_keeps (State.tile · k) _ (fun s q => s.setQuad_tile q _ k) _ s1
  obtain ⟨s', -, before, after⟩ := foldl_at State.tile State.offFabric _ (fun s t => s.modTile_offFabric t _)
    (fun s t k ne => by rw [State.modTile_tile, if_neg ne]) (nodup_upto s.nTiles) (mem_upto.2 h) s
  rw [clocks, after, State.modTile_tile, if_pos rfl, before]
  exact ⟨rfl, rfl, rfl, rfl, rfl⟩

/-- Its quadrants' PLLs have stopped. -/
theorem State.fabricDown_quad {s : State} {q : Nat} (h : q < s.nQuads) : (s.fabricDown.quad q).pll = false := by
  unfold State.fabricDown
  extract_lets s1
  have same : s1.nQuads = s.nQuads := nQuads_of_offFabric (foldl_keeps State.offFabric _ (fun s t => s.modTile_offFabric t _) _ s)
  obtain ⟨s', -, -, after⟩ := foldl_at State.quad State.offFabric (fun s q =>
    s.setQuad q { s.quad q with pll := false, mhz := 0, stepAt := none }) (fun s q => s.setQuad_offFabric q _)
    (fun s q k ne => by rw [State.setQuad_quad, if_neg ne]) (nodup_upto s1.nQuads) (mem_upto.2 (same ▸ h)) s1
  rw [after, State.setQuad_quad, if_pos rfl]

/-- The device but for its Ethernet ports and its clothesline. -/
def State.offPorts (s : State) : State := { s with eths := [], lin := {} }

/-- The ports follow a pattern (R38): nothing else changes. -/
theorem State.setPorts_offPorts (s t : State) : (s.setPorts t).offPorts = t.offPorts := by
  unfold State.setPorts
  extract_lets t1
  show t1.offPorts = t.offPorts
  refine foldl_keeps State.offPorts _ (fun t p => ?_) _ t
  split <;> rfl

theorem State.setPorts_tiles (s t : State) : (s.setPorts t).tiles = t.tiles := (congrArg State.tiles (s.setPorts_offPorts t) :)

theorem State.setPorts_pwr (s t : State) : (s.setPorts t).pwr = t.pwr := (congrArg State.pwr (s.setPorts_offPorts t) :)

theorem State.setPorts_pat (s t : State) : (s.setPorts t).pat = t.pat := (congrArg State.pat (s.setPorts_offPorts t) :)

theorem State.noPattern_eq (s : State) : s.noPattern = s.fabricDown.setPorts { s.fabricDown with pat := {} } := rfl

/-- Without a pattern the fabric is down and the ports are off: the rest of the device stays (R43, R52). -/
theorem State.noPattern_rest (s : State) : s.noPattern.offPorts.offFabric = { s with pat := {} }.offPorts.offFabric := by
  have fabric := s.fabricDown_offFabric
  rw [s.noPattern_eq]
  generalize s.fabricDown = u at *
  exact (congrArg State.offFabric (u.setPorts_offPorts { u with pat := {} })).trans
    (congrArg (fun v : State => { v with pat := {} }.offPorts) fabric)

theorem State.noPattern_tiles (s : State) : s.noPattern.tiles = s.fabricDown.tiles := by
  rw [s.noPattern_eq, State.setPorts_tiles]

theorem State.noPattern_pwr (s : State) : s.noPattern.pwr = s.fabricDown.pwr := by
  rw [s.noPattern_eq, State.setPorts_pwr]

theorem State.noPattern_tile {s : State} {k : Nat} (h : k < s.nTiles) :
    (s.noPattern.tile k).power = .off ∧ (s.noPattern.tile k).store = [] ∧ (s.noPattern.tile k).patch = [] ∧
      (s.noPattern.tile k).work = none ∧
      (s.noPattern.tile k).role = if (s.tile k).role == .retired then .retired else .unused := by
  rw [State.tile, s.noPattern_tiles]
  exact State.fabricDown_tile h

theorem State.noPattern_quad {s : State} {q : Nat} (h : q < s.nQuads) : (s.noPattern.quad q).pll = false := by
  rw [State.quad, s.noPattern_pwr]
  exact State.fabricDown_quad h

/-- One quadrant's clock at step 4 of Table 2.6: its PLL runs at its cap, or not at all where it has none. -/
def State.capPll (pt : Pattern) (s : State) (q : Nat) : State :=
  if tget 0 pt.caps q = 0 then s.setQuad q { s.quad q with pll := false, mhz := 0 } else s.startPll q (tget 0 pt.caps q * 100)

theorem State.capPll_offFabric (pt : Pattern) (s : State) (q : Nat) : (s.capPll pt q).offFabric = s.offFabric := by
  unfold State.capPll
  split <;> rfl

theorem State.capPll_quad (pt : Pattern) (s : State) (q : Nat) :
    (tget 0 pt.caps q = 0 → ((s.capPll pt q).quad q).pll = false ∧ ((s.capPll pt q).quad q).mhz = 0) ∧
      (tget 0 pt.caps q ≠ 0 → ((s.capPll pt q).quad q).pll = true ∧ ((s.capPll pt q).quad q).mhz = tget 0 pt.caps q * 100) := by
  unfold State.capPll
  split <;> simp_all

theorem State.capPll_other (pt : Pattern) (s : State) (q k : Nat) (ne : k ≠ q) : (s.capPll pt q).quad k = s.quad k := by
  unfold State.capPll
  split <;> simp [ne]

/-- Step 4 of Table 2.6: the structure, then the clocks, then the tiles. -/
theorem State.powerFabric_eq (s : State) (pt : Pattern) : ∃ f : State → Nat → Tile → Tile,
    s.powerFabric pt =
      let t := (upto s.nQuads).foldl (State.capPll pt) { s with
        pat := { pt with serial := s.pat.serial, roles := s.pat.roles, lane := s.pat.lane, lines := s.pat.lines } }
      (upto t.nTiles).foldl (fun s k => s.modTile k (f s k)) t := ⟨_, rfl⟩

/-- It brings in the structure but for what step 6 sets, and leaves the device beyond the fabric. -/
theorem State.powerFabric_rest (s : State) (pt : Pattern) :
    (s.powerFabric pt).offFabric = { s with
      pat := { pt with serial := s.pat.serial, roles := s.pat.roles, lane := s.pat.lane, lines := s.pat.lines } }.offFabric := by
  obtain ⟨f, eq⟩ := s.powerFabric_eq pt
  rw [eq]
  extract_lets t
  exact (foldl_keeps State.offFabric _ (fun s k => s.modTile_offFabric k _) _ t).trans
    (foldl_keeps State.offFabric _ (State.capPll_offFabric pt) _ _)

theorem State.powerFabric_quad {s : State} (pt : Pattern) {q : Nat} (h : q < s.nQuads) :
    (tget 0 pt.caps q = 0 → ((s.powerFabric pt).quad q).pll = false ∧ ((s.powerFabric pt).quad q).mhz = 0) ∧
      (tget 0 pt.caps q ≠ 0 → ((s.powerFabric pt).quad q).pll = true ∧ ((s.powerFabric pt).quad q).mhz = tget 0 pt.caps q * 100) := by
  obtain ⟨f, eq⟩ := s.powerFabric_eq pt
  have tiles (l : List Nat) (t : State) : (l.foldl (fun s k => s.modTile k (f s k)) t).pwr = t.pwr :=
    foldl_keeps State.pwr _ (fun s k => s.modTile_pwr k _) l t
  rw [eq, State.quad, tiles]
  obtain ⟨s', -, -, after⟩ := foldl_at State.quad State.nQuads (State.capPll pt) (fun s q => nQuads_of_offFabric (s.capPll_offFabric pt q))
    (State.capPll_other pt) (nodup_upto s.nQuads) (mem_upto.2 h) { s with
      pat := { pt with serial := s.pat.serial, roles := s.pat.roles, lane := s.pat.lane, lines := s.pat.lines } }
  rw [← State.quad, after]
  exact s'.capPll_quad pt q

end Sys2Proof.Machine
end

section
/-!
O12: a validated load or press, the end of a full load, and CLEAR (Tables 2.6 and 2.8, R43, R52).
-/
namespace Sys2Proof.Machine

theorem State.raiseDev_pat (s : State) (k : Nat) (detail : Word) (ses : Nat) : (s.raiseDev k detail ses).pat = s.pat :=
  congrArg Still.pat (s.raiseDev_still k detail ses)

theorem State.askAbandon_pwr (s : State) (c k : Nat) : (s.askAbandon c k).pwr = s.pwr := by
  unfold State.askAbandon
  split <;> rfl

theorem State.checkPatch_pat (s : State) (pt : Pattern) : (s.checkPatch pt).pat = s.pat := by
  unfold State.checkPatch
  split
  · extract_lets sec s1
    exact (State.raiseDev_pat _ 6 _ _).trans (foldl_keeps State.pat _ (fun s t => s.modTile_pat t _) _ s1)
  · rfl

theorem State.loadPanels_pat (s : State) (mask : Nat) : (s.loadPanels mask).pat = s.pat := by
  refine foldl_keeps State.pat _ (fun s t => ?_) _ s
  dsimp only
  split <;> rfl

theorem State.promoteRetired_pat (s : State) (roles : Tbl Word) (mask : Nat) : (s.promoteRetired roles mask).pat = s.pat := by
  refine foldl_keeps State.pat _ (fun s t => ?_) _ s
  dsimp only
  split
  · split <;> rfl
  · rfl

theorem State.freqTry_pat (s : State) (k : Nat) : (s.freqTry k).pat = s.pat := by
  unfold State.freqTry
  extract_lets x
  split
  · split <;> rfl
  · rfl

theorem State.capRates_pat (s : State) : s.capRates.pat = s.pat := by
  refine foldl_keeps State.pat _ (fun s k => ?_) _ s
  dsimp only
  split
  · exact State.freqTry_pat _ k
  · rfl

theorem State.refloor_pat (s : State) (p : Nat) : (s.refloor p).pat = s.pat := by
  unfold State.refloor
  split <;> rfl

/-- VALIDATION_DONE of an image that passes (R427): a piece drains, a full load powers the fabric. -/
theorem State.validationDoneOp_passed {s : State} (busy : s.ldr.busy = true) (phase : s.ldr.phase = 3)
    (ready : s.sec.reloading = false) (passes : s.checkImage s.ldr.piece (s.reg 0x1000C).toNat s.ldr.image = none) :
    (s.ldr.piece = true → s.validationDoneOp = s.pressDrain s.ldr.image (s.imagePattern s.ldr.image)) ∧
    (s.ldr.piece = false → s.validationDoneOp =
      let t := s.powerFabric (s.imagePattern s.ldr.image)
      { t with ldr := { t.ldr with phase := 6, next := s.imagePattern s.ldr.image } }) := by
  constructor <;> intro piece <;> rw [piece] at passes <;> simp [State.validationDoneOp, busy, phase, ready, passes, piece]

/-- The loader as step 3 of Table 2.8 leaves it. -/
def State.draining (s : State) (im : List Byte) (pt : Pattern) : State :=
  { s with ldr := { s.ldr with phase := 4, pressing := imgMask im, next := pt, rollback := s.pat, drainAt := s.now } }

/-- Besides, ARCHIVE work is asked to abandon: neither the device beyond the fabric nor its clocks change. -/
theorem State.pressDrain_rest (s : State) (im : List Byte) (pt : Pattern) :
    (s.pressDrain im pt).offFabric = (s.draining im pt).offFabric ∧ (s.pressDrain im pt).pwr = s.pwr := by
  have step (s : State) (t : Nat) : (match (s.tile t).work with
      | some u => if nbit (imgMask im) (s.unitPanel u) ∧ (s.ses u.ses).cls = clsArchive then s.askAbandon 4 t else s
      | none => s) = s ∨ (match (s.tile t).work with
      | some u => if nbit (imgMask im) (s.unitPanel u) ∧ (s.ses u.ses).cls = clsArchive then s.askAbandon 4 t else s
      | none => s) = s.askAbandon 4 t := by
    split
    · split
      · exact .inr rfl
      · exact .inl rfl
    · exact .inl rfl
  constructor
  · refine foldl_keeps State.offFabric _ (fun s t => ?_) _ (s.draining im pt)
    obtain same | asked := step s t
    · exact congrArg State.offFabric same
    · exact (congrArg State.offFabric asked).trans (s.askAbandon_offFabric 4 t)
  · refine foldl_keeps State.pwr _ (fun s t => ?_) _ (s.draining im pt)
    obtain same | asked := step s t
    · exact congrArg State.pwr same
    · exact (congrArg State.pwr asked).trans (s.askAbandon_pwr 4 t)

/-- A store check of a tile in use fails (R43). -/
def State.storeFails (s : State) (fails : List Nat) : Bool :=
  fails.any fun t => fld (tget 0 s.ldr.next.roles t) 6 4 != 0 && (s.tile t).role != .retired

/-- Steps 5 to 7 of Table 2.6 with the new pattern in force: ports, stores, promotions, rates, floors. -/
def State.tookForce (s : State) : State :=
  (upto 16).foldl State.refloor
    ((((s.setPorts { s with pat := s.ldr.next, ldr := { s.ldr with next := {} } }).checkPatch s.ldr.next).loadPanels 0xFFFF).promoteRetired
      s.ldr.next.roles 0xFFFF).capRates

theorem State.tookForce_pat (s : State) : s.tookForce.pat = s.ldr.next := by
  rw [State.tookForce, foldl_keeps State.pat _ State.refloor_pat, State.capRates_pat, State.promoteRetired_pat, State.loadPanels_pat,
    State.checkPatch_pat, State.setPorts_pat]

/-- STORE_LOAD_DONE of a full load in progress: it is abandoned (R43), or takes force and is kept for a wake (R373). -/
theorem State.storeLoadDoneOp_eq {s : State} (busy : s.ldr.busy = true) (phase : s.ldr.phase = 6) (clearing : s.ldr.clearing = false)
    (piece : s.ldr.piece = false) (fails : List Nat) :
    s.storeLoadDoneOp fails = if s.storeFails fails then s.noPattern.loaderEnd 0x10
      else { s.tookForce with ldr := { s.tookForce.ldr with kept := [s.ldr.image] } }.loaderEnd 0 := by
  have go : (s.ldr.busy && s.ldr.phase == 6 && !s.ldr.clearing && !s.ldr.piece) = true := by simp [busy, phase, clearing, piece]
  rw [State.storeLoadDoneOp, if_pos go]
  rfl

theorem LoadEnds.idle {s t : State} {code : Nat} (h : LoadEnds s t code) :
    t.ldr = { s.ldr with busy := false, phase := 0, pressing := 0, reject := code, image := [] } :=
  (congrArg State.ldr h :)

theorem LoadEnds.status {s t : State} {code : Nat} (h : LoadEnds s t code) :
    t.ldr.busy = false ∧ t.ldr.phase = 0 ∧ t.ldr.pressing = 0 ∧ t.ldr.reject = code := by
  rw [h.idle]
  exact ⟨rfl, rfl, rfl, rfl⟩

theorem LoadEnds.pat {s t : State} {code : Nat} (h : LoadEnds s t code) : t.pat = s.pat := (congrArg State.pat h :)

theorem LoadEnds.sessions {s t : State} {code : Nat} (h : LoadEnds s t code) : t.sessions = s.sessions := (congrArg State.sessions h :)

theorem LoadEnds.regs {s t : State} {code : Nat} (h : LoadEnds s t code) : t.regs = s.regs := (congrArg State.regs h :)

theorem LoadEnds.tile {s t : State} {code : Nat} (h : LoadEnds s t code) (k : Nat) : t.tile k = s.tile k :=
  (congrArg (State.tile · k) h :)

theorem LoadEnds.quad {s t : State} {code : Nat} (h : LoadEnds s t code) (q : Nat) : t.quad q = s.quad q :=
  (congrArg (State.quad · q) h :)

/-- A full load takes force (Table 2.6 steps 5 to 7). -/
theorem State.tookForce_ends {s t : State} (ends : LoadEnds { s.tookForce with ldr := { s.tookForce.ldr with kept := [s.ldr.image] } } t 0) :
    t.ldr.busy = false ∧ t.ldr.phase = 0 ∧ t.pat = s.ldr.next ∧ t.ldr.reject = 0 ∧ t.ldr.kept = [s.ldr.image] := by
  have pat := s.tookForce_pat
  generalize s.tookForce = u at *
  obtain ⟨idle, phase, -, reject⟩ := ends.status
  exact ⟨idle, phase, ends.pat.trans pat, reject, (congrArg Loader.kept ends.idle :)⟩

/-- An abandoned one leaves no pattern and the fabric down (R43). -/
theorem State.noPattern_ends {s t : State} {code : Nat} (ends : LoadEnds s.noPattern t code) :
    t.ldr.busy = false ∧ t.ldr.phase = 0 ∧ t.pat = {} ∧ t.ldr.reject = code ∧ t.sessions = s.sessions ∧
      (∀ k, k < s.nTiles → (t.tile k).power = .off ∧ (t.tile k).store = [] ∧ (t.tile k).work = none) ∧
      ∀ q, q < s.nQuads → (t.quad q).pll = false := by
  have rest := s.noPattern_rest
  have tile {k : Nat} := State.noPattern_tile (s := s) (k := k)
  have quad {q : Nat} := State.noPattern_quad (s := s) (q := q)
  generalize s.noPattern = u at *
  obtain ⟨idle, phase, -, reject⟩ := ends.status
  refine ⟨idle, phase, ends.pat.trans (congrArg State.pat rest :), reject, ends.sessions.trans (congrArg State.sessions rest :),
    fun k small => ?_, fun q small => ?_⟩
  · obtain ⟨power, store, -, work, -⟩ := tile small
    rw [ends.tile]
    exact ⟨power, store, work⟩
  · rw [ends.quad]
    exact quad small

/-- Settles O12, by what each step of the loader leaves of the device beyond the fabric and of the fabric itself. -/
theorem loadsTakeEffect : Obligations.LoadsTakeEffect := by
  refine ⟨fun s busy phase ready passes => ?_, fun s fails busy phase clearing piece => ?_, fun s busy clearing => ?_⟩
  · obtain ⟨press, full⟩ := State.validationDoneOp_passed busy phase ready passes
    cases piece : s.ldr.piece
    · refine ⟨_, congrArg Host.Outcome.next (full piece), ?_⟩
      have rest := s.powerFabric_rest (s.imagePattern s.ldr.image)
      have clocks {q : Nat} := State.powerFabric_quad (s := s) (s.imagePattern s.ldr.image) (q := q)
      generalize s.powerFabric (s.imagePattern s.ldr.image) = t at *
      have ldr : t.ldr = s.ldr := (congrArg State.ldr rest :)
      exact ⟨rfl, (congrArg Loader.busy ldr).trans busy, (congrArg State.sessions rest :), (congrArg State.mem rest :),
        (congrArg State.regs rest :), (congrArg State.sec rest :), fun _ => ⟨rfl, (congrArg State.pat rest :), fun _ => clocks⟩,
        fun no => absurd no (by decide)⟩
    · refine ⟨_, congrArg Host.Outcome.next (press piece), ?_⟩
      obtain ⟨rest, pwr⟩ := s.pressDrain_rest s.ldr.image (s.imagePattern s.ldr.image)
      have ldr := congrArg State.ldr rest
      exact ⟨(congrArg Loader.next ldr :), (congrArg Loader.busy ldr).trans busy, (congrArg State.sessions rest :),
        (congrArg State.mem rest :), (congrArg State.regs rest :), (congrArg State.sec rest :), fun no => absurd no (by decide),
        fun _ => ⟨(congrArg Loader.phase ldr :), (congrArg Loader.pressing ldr :), (congrArg Loader.drainAt ldr :),
          (congrArg State.pat rest :), pwr⟩⟩
  · have kept := s.storeLoadDoneOp_kept fails
    have eq := State.storeLoadDoneOp_eq busy phase clearing piece fails
    intro bad
    refine ⟨_, rfl, ?_⟩
    cases outcome : bad
    · have passed : s.storeFails fails = false := outcome
      rw [passed, if_neg (by decide)] at eq
      obtain ⟨idle, phase, pat, reject, image⟩ := State.tookForce_ends (eq ▸ State.loaderEnd_ends _ 0)
      exact ⟨idle, phase, congrArg (·.2.2.2.1) kept, now_of_kept kept, fun _ => ⟨pat, reject, image⟩, fun no => absurd no (by decide)⟩
    · have failed : s.storeFails fails = true := outcome
      rw [failed, if_pos rfl] at eq
      obtain ⟨idle, phase, pat, reject, down⟩ := State.noPattern_ends (eq ▸ State.loaderEnd_ends _ 0x10)
      exact ⟨idle, phase, congrArg (·.2.2.2.1) kept, now_of_kept kept, fun no => absurd no (by decide), fun _ => ⟨pat, reject, down⟩⟩
  · have go : (s.ldr.busy && s.ldr.clearing) = true := by rw [busy, clearing]; rfl
    refine ⟨_, congrArg Host.Outcome.next (if_pos go), ?_⟩
    have rest := s.noPattern_rest
    have tile {k : Nat} := State.noPattern_tile (s := s) (k := k)
    have quad {q : Nat} := State.noPattern_quad (s := s) (q := q)
    generalize s.noPattern = t at *
    have ldr : t.ldr = s.ldr := (congrArg State.ldr rest :)
    refine ⟨(congrArg State.pat rest :), ?_, (congrArg State.sessions rest :), (congrArg State.regs rest :),
      (congrArg State.hbm rest :), (congrArg State.mem rest :), (congrArg State.hif rest :), (congrArg State.flt rest :),
      fun k small => ?_, fun q => quad, fun live safe pressing => ?_⟩
    · show { t.ldr with busy := false, phase := 0, clearing := false, kept := [] } = _
      rw [ldr]
    · obtain ⟨power, store, patch, -, role⟩ := tile small
      refine ⟨power, store, patch, fun other => role.trans (if_neg ?_), fun retired => role.trans (if_pos ?_)⟩
      · simpa using other
      · simpa using retired
    · have life : t.pwr.life = s.pwr.life := (congrArg (·.pwr.life) rest :)
      have safe' : t.pwr.safe = s.pwr.safe := (congrArg (·.pwr.safe) rest :)
      have serial : t.pat.serial = 0 := (congrArg (·.pat.serial) rest :)
      have up : s.pwr.life = .up := by simp_all [State.live]
      simp [State.mode, life, up, safe', safe, ldr, pressing, serial]

end Sys2Proof.Machine
end

section
/-!
O13: the quiet window of a press (R48, R50).
-/
namespace Sys2Proof.Machine

/-- A tile in service, or without a role, takes the role that a pattern gives it (R255). -/
theorem Tile.withRole_role {x : Tile} (retired : x.role ≠ .retired) (testing : x.role ≠ .selfTest) (w : Word) (now : Nat) :
    (x.withRole w now).role = (roleOf w).1 := by
  unfold Tile.withRole
  extract_lets r
  simp only [beq_iff_eq, retired, testing, if_false]
  split
  next unused => exact unused.symm
  next => rfl

/-- The tiles that the quiet window governs (R39). -/
def State.governedTiles (s : State) : List Nat :=
  (upto s.nTiles).filter fun t => governed (tget 0 s.pat.roles t) s.ldr.pressing

theorem State.mem_governedTiles {s : State} {k : Nat} :
    k ∈ s.governedTiles ↔ k < s.nTiles ∧ governed (tget 0 s.pat.roles k) s.ldr.pressing = true := by
  rw [State.governedTiles, List.mem_filter, mem_upto]

/-- Steps 5 and 6 of Table 2.8 for one tile: its quadrant's PLL runs where it takes a role, and its stores are cleared where it loses one. -/
def State.retask (pt : Pattern) (s : State) (t : Nat) : State :=
  let w := tget 0 pt.roles t
  let s := if fld w 6 4 ≠ 0 ∧ ¬ (s.quad (quadOf t)).pll then s.startPll (quadOf t) (tget 0 pt.caps (quadOf t) * 100) else s
  let r := (s.tile t).role
  let s := s.modTile t fun x => x.withRole w s.now
  if (s.tile t).role == .unused && r != .unused then s.modTile t Tile.cleared else s

theorem State.retask_offFabric (pt : Pattern) (s : State) (t : Nat) : (s.retask pt t).offFabric = s.offFabric := by
  unfold State.retask
  extract_lets w s1 r s2
  have clock : s1.offFabric = s.offFabric := by
    dsimp only [s1]
    split <;> rfl
  have tasked : s2.offFabric = s.offFabric := (s1.modTile_offFabric t _).trans clock
  split
  · exact (s2.modTile_offFabric t _).trans tasked
  · exact tasked

theorem State.retask_other (pt : Pattern) (s : State) (t k : Nat) (ne : k ≠ t) : (s.retask pt t).tile k = s.tile k := by
  unfold State.retask
  extract_lets w s1 r s2
  have clock : s1.tile k = s.tile k := by
    dsimp only [s1]
    split <;> rfl
  split <;> simp [s2, ne, clock]

theorem State.retask_role (pt : Pattern) {s : State} {t : Nat} (retired : (s.tile t).role ≠ .retired)
    (testing : (s.tile t).role ≠ .selfTest) : ((s.retask pt t).tile t).role = (roleOf (tget 0 pt.roles t)).1 := by
  unfold State.retask
  extract_lets w s1 r s2
  have clock : s1.tile t = s.tile t := by
    dsimp only [s1]
    split <;> rfl
  have role : (s2.tile t).role = (roleOf w).1 := by
    rw [State.modTile_tile, if_pos rfl, clock, Tile.withRole_role retired testing]
  split
  · rw [State.modTile_tile, if_pos rfl]
    exact role
  · exact role

/-- QUIET_WINDOW_OPEN at a quiet instant (R48 steps 5 and 6). -/
theorem State.quietOpenOp_eq {s : State} (busy : s.ldr.busy = true) (phase : s.ldr.phase = 4)
    (quiet : s.panelsBusy s.ldr.pressing = false) : ∃ saved, s.quietOpenOp =
      s.governedTiles.foldl (State.retask s.ldr.next) { s with ldr := { s.ldr with phase := 5, rollTiles := saved } } := by
  have go : (s.ldr.busy && s.ldr.phase == 4 && !s.panelsBusy s.ldr.pressing) = true := by simp [busy, phase, quiet]
  exact ⟨_, if_pos go⟩

/-- A press rolls back (R50): the tiles return, and nothing beyond the fabric but the loader. -/
theorem State.rollBack_ends (s : State) (code : Nat) :
    ∃ u : State, u.offFabric = s.offFabric ∧ LoadEnds u (s.rollBack code) code := by
  unfold State.rollBack
  extract_lets mask u1 u2
  refine ⟨u2, ?_, u2.loaderEnd_ends code⟩
  dsimp only [u2]
  split
  · have tiles : u1.offFabric = s.offFabric := foldl_keeps State.offFabric _ (fun s e => s.modTile_offFabric _ _) _ s
    refine (foldl_keeps State.offFabric _ (fun s p => ?_) _ u1).trans tiles
    split
    · exact foldl_keeps State.offFabric _ (fun s t => s.loadTile_offFabric _ t) _ s
    · rfl
  · rfl

/-- Step 7 of Table 2.8 with the piece in force: stores, promotions, floors. -/
def State.pieceInForce (s : State) : State :=
  (upto 16).foldl (fun t p => if nbit s.ldr.pressing p then t.refloor p else t)
    (((({ s with pat := s.ldr.next, ldr := { s.ldr with kept := s.ldr.kept ++ [s.ldr.image] } } : State).checkPatch
      s.ldr.next).loadPanels s.ldr.pressing).promoteRetired s.ldr.next.roles s.ldr.pressing)

theorem State.pieceInForce_pat (s : State) : s.pieceInForce.pat = s.ldr.next := by
  have floors (t : State) (p : Nat) : (if nbit s.ldr.pressing p then t.refloor p else t).pat = t.pat := by
    split
    · exact t.refloor_pat p
    · rfl
  rw [State.pieceInForce, foldl_keeps State.pat _ floors, State.promoteRetired_pat, State.loadPanels_pat, State.checkPatch_pat]

theorem State.quietCloseOp_eq {s : State} (busy : s.ldr.busy = true) (phase : s.ldr.phase = 5) (fails : List Nat) :
    s.quietCloseOp fails =
      if fails.any fun t => inMask (tget 0 s.ldr.next.roles t) s.ldr.pressing then s.rollBack 0x10
      else s.pieceInForce.loaderEnd 0 := by
  have go : (s.ldr.busy && s.ldr.phase == 5) = true := by simp [busy, phase]
  rw [State.quietCloseOp, if_pos go]
  rfl

/-- Settles O13, by what retasking does to each governed tile, and by how a press ends. -/
theorem quietWindow : Obligations.QuietWindow := by
  intro s busy
  refine ⟨fun phase quiet => ?_, fun phase fails => ?_⟩
  · obtain ⟨saved, eq⟩ := State.quietOpenOp_eq busy phase quiet
    refine ⟨_, congrArg Host.Outcome.next eq, ?_⟩
    have rest := foldl_keeps State.offFabric _ (State.retask_offFabric s.ldr.next) s.governedTiles
      { s with ldr := { s.ldr with phase := 5, rollTiles := saved } }
    have ldr := congrArg State.ldr rest
    refine ⟨(congrArg Loader.phase ldr :), (congrArg Loader.busy ldr).trans busy, (congrArg Loader.next ldr :),
      (congrArg State.pat rest :), (congrArg State.sessions rest :), (congrArg State.regs rest :),
      fun k small mine retired testing => ?_, fun k away => ?_⟩
    · obtain ⟨s', -, before, after⟩ := foldl_at State.tile State.offFabric _ (State.retask_offFabric s.ldr.next)
        (State.retask_other s.ldr.next) ((nodup_upto s.nTiles).filter _) (State.mem_governedTiles.2 ⟨small, mine⟩)
        { s with ldr := { s.ldr with phase := 5, rollTiles := saved } }
      have same : s'.tile k = s.tile k := before
      exact (congrArg Tile.role after).trans (State.retask_role s.ldr.next (same ▸ retired) (same ▸ testing))
    · exact foldl_other State.tile _ (State.retask_other s.ldr.next) (fun h => away (State.mem_governedTiles.1 h)) _
  · have kept := s.quietCloseOp_kept fails
    have eq := State.quietCloseOp_eq busy phase fails
    intro bad
    refine ⟨_, rfl, ?_⟩
    cases outcome : bad
    · rw [if_neg (Bool.eq_false_iff.1 outcome)] at eq
      have ends := s.pieceInForce.loaderEnd_ends 0
      rw [← eq] at ends
      obtain ⟨idle, phase, pressing, reject⟩ := ends.status
      exact ⟨idle, phase, pressing, congrArg (·.2.2.2.1) kept, now_of_kept kept,
        fun _ => ⟨ends.pat.trans s.pieceInForce_pat, reject⟩, fun no => absurd no (by decide)⟩
    · rw [if_pos outcome] at eq
      obtain ⟨u, rest, ends⟩ := s.rollBack_ends 0x10
      rw [← eq] at ends
      obtain ⟨idle, phase, pressing, reject⟩ := ends.status
      exact ⟨idle, phase, pressing, congrArg (·.2.2.2.1) kept, now_of_kept kept, fun no => absurd no (by decide),
        fun _ => ⟨ends.pat.trans (congrArg State.pat rest :), reject, ends.sessions.trans (congrArg State.sessions rest :),
          ends.regs.trans (congrArg State.regs rest :)⟩⟩

end Sys2Proof.Machine
end

section
/-!
SUPPORT. Units of work in a session's record: what reads back after a change of one (R75). Performance counters count beside everything
else (R399).
-/
namespace Sys2Proof.Machine

/-- The first entry of a number, after the entries of that number change and keep it. -/
theorem find?_map_update {α : Type} (key : α → Nat) {f : α → α} (keeps : ∀ a, key (f a) = key a) (n : Nat) (l : List α) :
    (l.map fun a => if key a = n then f a else a).find? (fun a => key a == n) = (l.find? fun a => key a == n).map f := by
  induction l with
  | nil => rfl
  | cons a t ih =>
    by_cases here : key a = n
    · simp [here, keeps]
    · simp [here, ih]

theorem Session.modPic_pic? (x : Session) {f : Pic → Pic} (keeps : ∀ p, (f p).num = p.num) (num : Nat) :
    (x.modPic num f).pic? num = (x.pic? num).map f := by
  unfold Session.pic? Session.modPic
  simp only [find?_map_update Pic.num keeps]
  cases x.pics.find? fun p => p.num == num <;> rfl

theorem Pic.modUnit_unit? (p : Pic) {f : WUnit → WUnit} (keeps : ∀ w, (f w).idx = w.idx) (idx : Nat) :
    (p.modUnit idx f).unit? idx = (p.unit? idx).map f := find?_map_update WUnit.idx keeps idx p.units

theorem State.unitOf_eq_some {s : State} {u : UnitRef} {p : Pic} {w : WUnit} :
    s.unitOf u = some (p, w) ↔ (s.ses u.ses).pic? u.pic = some p ∧ p.unit? u.idx = some w := by
  unfold State.unitOf
  constructor
  · intro h
    split at h
    next q found =>
      obtain ⟨v, unit, eq⟩ := Option.map_eq_some_iff.1 h
      cases eq
      exact ⟨found, unit⟩
    next => cases h
  · rintro ⟨pic, unit⟩
    rw [pic]
    simp only [unit, Option.map_some]

/-- A unit is found by the pictures of its session alone. -/
theorem State.unitOf_congr {s t : State} {u : UnitRef} (pics : (t.ses u.ses).pics = (s.ses u.ses).pics)
    (kept : (t.ses u.ses).kept = (s.ses u.ses).kept) : t.unitOf u = s.unitOf u := by
  simp only [State.unitOf, Session.pic?, pics, kept]

@[simp] theorem State.modSes_ses (s : State) (n : Nat) (f : Session → Session) (m : Nat) :
    (s.modSes n f).ses m = if m = n then f (s.ses n) else s.ses m := State.setSes_ses _ _ _ _

/-- A picture that changes keeps its unit where its units are found as before. -/
theorem State.modPic_unitOf {s : State} {u : UnitRef} {p : Pic} {w v : WUnit} (h : s.unitOf u = some (p, w)) {f : Pic → Pic}
    (keeps : ∀ p, (f p).num = p.num) (unit : (f p).unit? u.idx = some v) :
    (s.modSes u.ses fun x => x.modPic u.pic f).unitOf u = some (f p, v) := by
  obtain ⟨pic, -⟩ := State.unitOf_eq_some.1 h
  refine State.unitOf_eq_some.2 ⟨?_, unit⟩
  rw [State.modSes_ses, if_pos rfl, Session.modPic_pic? _ keeps, pic]
  rfl

theorem State.modUnit_unitOf {s : State} {u : UnitRef} {p : Pic} {w : WUnit} (h : s.unitOf u = some (p, w)) {f : WUnit → WUnit}
    (keeps : ∀ w, (f w).idx = w.idx) : (s.modUnit u f).unitOf u = some (p.modUnit u.idx f, f w) := by
  obtain ⟨-, unit⟩ := State.unitOf_eq_some.1 h
  exact State.modPic_unitOf h (fun _ => rfl) (by rw [Pic.modUnit_unit? _ keeps, unit]; rfl)

theorem State.modSes_others (s : State) (n : Nat) (f : Session → Session) : OtherSessions s (s.modSes n f) (· = n) := fun m hm => by
  rw [State.modSes_ses, if_neg hm]

theorem OtherSessions.trans {s t u : State} {p : Nat → Prop} (h : OtherSessions s t p) (k : OtherSessions t u p) :
    OtherSessions s u p := fun m hm => (k m hm).trans (h m hm)

theorem OtherSessions.of_eq {s t : State} (h : t.sessions = s.sessions) (p : Nat → Prop) : OtherSessions s t p := fun m _ => by
  rw [State.ses, h, ← State.ses]

/-- The device but for its performance counters. -/
def State.offPmu (s : State) : State := { s with pmu := {} }

theorem State.cntAdd_offPmu (s : State) (c k fuel : Nat) : (s.cntAdd c k fuel).offPmu = s.offPmu := by
  induction fuel generalizing s c k with
  | zero => rfl
  | succ fuel ih =>
    unfold State.cntAdd
    dsimp only
    generalize (if bit (s.reg (evtOff c)) 15 then 2 ^ 32 else 2 ^ 48) = w
    split
    · rfl
    split
    · exact ih _ _ _
    · rfl

theorem State.cntEvent_offPmu (s : State) (cs : List Nat) (code unit k : Nat) : (s.cntEvent cs code unit k).offPmu = s.offPmu := by
  refine foldl_keeps State.offPmu _ (fun s c => ?_) cs s
  dsimp only
  split
  · exact s.cntAdd_offPmu c k 64
  · rfl

theorem State.count_offPmu (s : State) (code unit k : Nat) : (s.count code unit k).offPmu = s.offPmu := by
  unfold State.count
  split
  · exact s.cntEvent_offPmu _ _ _ _
  · rfl

theorem State.countTile_offPmu (s : State) (t code : Nat) : (s.countTile t code).offPmu = s.offPmu := s.cntEvent_offPmu _ _ _ _

/-- The device but for its sessions. -/
def State.offSessions (s : State) : State := { s with sessions := [] }

end Sys2Proof.Machine
end
section
/-!
O28: dispatch, and the idle tile and quadrant (R83, R84, R87, R321, R376).
-/
namespace Sys2Proof.Machine

/-- The plan of a picture (R142) is made in its session, and its units stay. -/
theorem State.planPic_spec (s : State) (n num : Nat) :
    (s.planPic n num).offSessions = s.offSessions ∧ OtherSessions s (s.planPic n num) (· = n) ∧
      ∀ u p w, u.ses = n → u.pic = num → s.unitOf u = some (p, w) → ∃ q, (s.planPic n num).unitOf u = some (q, w) := by
  unfold State.planPic
  extract_lets x
  split
  · split
    · exact ⟨rfl, fun _ _ => rfl, fun _ p _ _ _ h => ⟨p, h⟩⟩
    · refine ⟨rfl, s.modSes_others n _, ?_⟩
      rintro u p w rfl rfl h
      exact ⟨_, State.modPic_unitOf h (fun _ => rfl) (State.unitOf_eq_some.1 h).2⟩
  · exact ⟨rfl, fun _ _ => rfl, fun _ p _ _ _ h => ⟨p, h⟩⟩

/-- A unit's picture is planned, and what its last attempt lost is forgotten: what a launch does before it starts the unit. -/
def State.planned (s : State) (u : UnitRef) : State :=
  (s.planPic u.ses u.pic).modUnit u fun w => { w with bitLost := [], refLost := false }

theorem State.launch_one (s : State) (r : Ready) (k : Nat) : s.launch r [k] [] = (s.planned r.ref).startUnit r.ref [k] k := rfl

theorem State.planned_spec (s : State) (u : UnitRef) :
    (s.planned u).offSessions = s.offSessions ∧ OtherSessions s (s.planned u) (· = u.ses) ∧
      ∀ p w, s.unitOf u = some (p, w) → ∃ q, (s.planned u).unitOf u = some (q, { w with bitLost := [], refLost := false }) := by
  obtain ⟨rest, others, unit⟩ := s.planPic_spec u.ses u.pic
  refine ⟨rest, others.trans (State.modSes_others _ _ _), fun p w h => ?_⟩
  obtain ⟨q, found⟩ := unit u p w rfl rfl h
  exact ⟨_, State.modUnit_unitOf found fun _ => rfl⟩

/-- The quadrant of tile `k` runs (R84). -/
def State.clocked (s : State) (k : Nat) : State :=
  if (s.quad (quadOf k)).pll then s else s.startPll (quadOf k) (tget 0 s.pat.caps (quadOf k) * 100)

theorem State.clocked_pll (s : State) (k : Nat) : ((s.clocked k).quad (quadOf k)).pll = true := by
  unfold State.clocked
  split
  next runs => exact runs
  next => simp

/-- Starting a unit: its quadrant is clocked, the tile takes the unit, and the unit runs. -/
theorem State.startUnit_eq (s : State) (u : UnitRef) (gang : List Nat) (k : Nat) :
    ∃ (win : List (Nat × Nat)) (box : List (BitVec 128)) (i e pc : Nat),
      s.startUnit u gang k = ((((s.clocked k).fresh.1.countTile k 0x47).modTile k fun y => { y with
        power := .run, work := some u, gang := gang, window := win, abandon := 0, inbox := box
        ndl := { y.ndl with state := 1, prog := i, entry := e, committed := false, pc := pc } }).modUnit u fun w =>
          { w with st := .running, tile := k, attempts := w.attempts + 1, woke := s.now + s.wakeCost k }) :=
  ⟨_, _, _, _, _, rfl⟩

theorem State.startUnit_spec (s : State) (u : UnitRef) (gang : List Nat) (k : Nat) :
    let t := s.startUnit u gang k
    (t.tile k).power = .run ∧ (t.tile k).work = some u ∧ (t.tile k).ndl.state = 1 ∧ (t.tile k).ndl.committed = false ∧
      (t.tile k).abandon = 0 ∧ (t.tile k).role = (s.tile k).role ∧ (t.quad (quadOf k)).pll = true ∧ OtherTiles s t (· = k) ∧
      OtherSessions s t (· = u.ses) ∧ t.regs = s.regs ∧ t.pat = s.pat ∧
      ∀ p w, s.unitOf u = some (p, w) → ∃ q, t.unitOf u = some (q, { w with
        st := .running, tile := k, attempts := w.attempts + 1, woke := s.now + s.wakeCost k }) := by
  obtain ⟨win, box, i, e, pc, eq⟩ := s.startUnit_eq u gang k
  have clock : (s.clocked k).offFabric = s.offFabric := by
    unfold State.clocked
    split <;> rfl
  have tiles : (s.clocked k).tiles = s.tiles := by
    unfold State.clocked
    split <;> rfl
  have count := (s.clocked k).fresh.1.countTile_offPmu k 0x47
  have runs : (((s.clocked k).fresh.1.countTile k 0x47).quad (quadOf k)).pll = true :=
    (congrArg (fun b : State => (b.quad (quadOf k)).pll) count :).trans (s.clocked_pll k)
  generalize s.clocked k = a at *
  rw [eq]
  generalize a.fresh.1.countTile k 0x47 = b at *
  have tile (j : Nat) : b.tile j = s.tile j := by
    have same : b.tiles = s.tiles := (congrArg State.tiles count :).trans tiles
    rw [State.tile, same, ← State.tile]
  have sessions : b.sessions = s.sessions := (congrArg State.sessions count :).trans (congrArg State.sessions clock :)
  have ses : b.ses u.ses = s.ses u.ses := by rw [State.ses, sessions, ← State.ses]
  generalize hf : (fun y : Tile => { y with
    power := .run, work := some u, gang := gang, window := win, abandon := 0, inbox := box
    ndl := { y.ndl with state := 1, prog := i, entry := e, committed := false, pc := pc } }) = f
  have own : (((b.modTile k f).modUnit u fun w =>
      { w with st := .running, tile := k, attempts := w.attempts + 1, woke := s.now + s.wakeCost k }).tile k) = f (s.tile k) := by
    show (b.modTile k f).tile k = _
    rw [State.modTile_tile, if_pos rfl, tile]
  have other (j : Nat) (ne : ¬ j = k) : (((b.modTile k f).modUnit u fun w =>
      { w with st := .running, tile := k, attempts := w.attempts + 1, woke := s.now + s.wakeCost k }).tile j) = s.tile j := by
    show (b.modTile k f).tile j = _
    rw [State.modTile_tile, if_neg ne, tile]
  subst hf
  intro t
  refine ⟨congrArg Tile.power own, congrArg Tile.work own, congrArg (·.ndl.state) own, congrArg (·.ndl.committed) own,
    congrArg Tile.abandon own, (congrArg Tile.role own :), runs, fun j ne => ?_, ?_, ?_, ?_, fun p w h => ?_⟩
  · exact other j ne
  · exact (OtherSessions.of_eq sessions _).trans (State.modSes_others _ _ _)
  · exact (congrArg State.regs count :).trans (congrArg State.regs clock :)
  · exact (congrArg State.pat count :).trans (congrArg State.pat clock :)
  · have unit : b.unitOf u = some (p, w) := (State.unitOf_congr (congrArg Session.pics ses) (congrArg Session.kept ses)).trans h
    exact ⟨_, State.modUnit_unitOf unit fun _ => rfl⟩

/-- UNIT_DISPATCH of a panel that may not start anything, or has nothing ready (R83). -/
theorem State.dispatchOp_none {s : State} {panel : Nat}
    (h : s.work = false ∨ nbit s.resetting panel = true ∨ (s.readyUnits panel).foldr insReady [] = []) :
    s.dispatchOp panel [] = s := by
  unfold State.dispatchOp
  split
  next => rfl
  next may =>
    obtain idle | resets | none := h
    · simp [idle] at may
    · simp [resets] at may
    · simp [none, State.firstFit]

/-- UNIT_DISPATCH whose first unit finds one tile starts it there (R83, R84). -/
theorem State.dispatchOp_first {s : State} {panel : Nat} (work : s.work = true) (runs : nbit s.resetting panel = false)
    (unbarred : ¬ (nbit s.ldr.pressing panel = true ∧ s.ldr.phase = 5)) {r : Ready} {rest : List Ready} {k : Nat}
    (first : (s.readyUnits panel).foldr insReady [] = r :: rest) (tile : s.choose r = some [k]) :
    s.dispatchOp panel [] = (s.planned r.ref).startUnit r.ref [k] k := by
  have fit : s.firstFit (r :: rest) false = (some (r, [k]), false) := by simp only [State.firstFit, tile]
  have may : (!s.work || nbit s.resetting panel || (nbit s.ldr.pressing panel && s.ldr.phase == 5)) = false := by
    simpa [work, runs] using unbarred
  simp only [State.dispatchOp, may, first, fit, Bool.false_and, Bool.false_eq_true, if_false, State.launch_one]

/-- A flushed inbox counts its entries and the flush (R321), in two registers of the tile. -/
theorem State.flushInbox_spec (s : State) (k : Nat) :
    (s.flushInbox k).tile k = { s.tile k with inbox := [], midItem := false } ∧ OtherTiles s (s.flushInbox k) (· = k) ∧
      s.flushInbox k = { s with tiles := (s.flushInbox k).tiles, regs := (s.flushInbox k).regs } ∧
      RegsKept s (s.flushInbox k) [0x200000 + 0x8000 * k + 0x108, 0x200000 + 0x8000 * k + 0x10C] := by
  have tile (j : Nat) : (s.flushInbox k).tile j = (s.setTile k { s.tile k with inbox := [], midItem := false }).tile j := rfl
  refine ⟨?_, fun j ne => ?_, rfl, fun off away => ?_⟩
  · rw [tile, State.setTile_tile, if_pos rfl]
  · rw [tile, State.setTile_tile, if_neg ne]
  · simp only [List.mem_cons, List.not_mem_nil, or_false, not_or] at away
    obtain ⟨first, second⟩ := away
    unfold State.flushInbox tileBase
    extract_lets x s1
    rw [State.bump_reg, if_neg second, State.bump_reg, if_neg first]
    rfl

/-- An idle tile that powers off (R87). -/
def State.poweredOff (s : State) (k : Nat) : State :=
  (s.flushInbox k).modTile k fun y => { y with power := .off, window := [], since := s.now, ndl := { y.ndl with state := 5 } }

theorem State.poweredOff_tile (s : State) (k : Nat) : (s.poweredOff k).tile k =
    { s.tile k with
      inbox := [], midItem := false, power := .off, window := [], since := s.now, ndl := { (s.tile k).ndl with state := 5 } } := by
  rw [State.poweredOff, State.modTile_tile, if_pos rfl, (s.flushInbox_spec k).1]

theorem State.poweredOff_rest (s : State) (k : Nat) :
    s.poweredOff k = { s with tiles := (s.poweredOff k).tiles, regs := (s.poweredOff k).regs } ∧
      OtherTiles s (s.poweredOff k) (· = k) ∧
      RegsKept s (s.poweredOff k) [0x200000 + 0x8000 * k + 0x108, 0x200000 + 0x8000 * k + 0x10C] := by
  obtain ⟨-, others, rest, regs⟩ := s.flushInbox_spec k
  unfold State.poweredOff
  generalize s.flushInbox k = t at *
  refine ⟨?_, fun j ne => ?_, regs⟩
  · rw [rest]
    rfl
  · rw [State.modTile_tile, if_neg ne]
    exact others j ne

theorem State.tileIdleOffOp_off {s : State} {k : Nat} (idle : (s.tile k).work = none) (nap : (s.tile k).power = .nap)
    (inService : (s.tile k).role ≠ .selfTest) (due : (s.tile k).since + (s.reg 0x20004).toNat ≤ s.now)
    (cold : (s.tile k).role = .spare → s.holdsLive (s.tile k).panel = false) (free : s.pressNeeds k = false) :
    s.tileIdleOffOp k = s.poweredOff k := by
  have go : ((s.tile k).work.isNone && (s.tile k).power == .nap && decide ((s.tile k).since + (s.reg 0x20004).toNat ≤ s.now) &&
      (s.tile k).role != .selfTest && !s.pressNeeds k && !((s.tile k).role == .spare && s.holdsLive (s.tile k).panel)) = true := by
    simpa [idle, nap, inService, due, free, imp_iff_not_or] using cold
  exact if_pos go

theorem State.tileIdleOffOp_stays {s : State} {k : Nat} (h : (s.tile k).work ≠ none ∨ (s.tile k).power ≠ .nap ∨
    s.now < (s.tile k).since + (s.reg 0x20004).toNat ∨ s.pressNeeds k = true) : s.tileIdleOffOp k = s := by
  refine if_neg fun go => ?_
  simp only [Bool.and_eq_true, Option.isNone_iff_eq_none, beq_iff_eq, decide_eq_true_eq, Bool.not_eq_true'] at go
  obtain ⟨⟨⟨⟨⟨idle, nap⟩, due⟩, -⟩, free⟩, -⟩ := go
  obtain busy | on | early | needed := h
  · exact busy idle
  · exact on nap
  · omega
  · exact absurd needed (by simp [free])

theorem State.pllStopOp_stops {s : State} {q : Nat} (runs : (s.quad q).pll = true)
    (off : ∀ t, t < s.nTiles → quadOf t = q → (s.tile t).power = .off ∧ (s.tile t).work = none ∧ (s.tile t).role ≠ .selfTest ∧
      (s.tile t).since + (s.reg 0x20008).toNat ≤ s.now) (free : s.pressNeedsQuad q = false) :
    s.pllStopOp q = s.setQuad q { s.quad q with pll := false, mhz := 0, stepAt := none } := by
  refine if_pos ?_
  rw [runs, free, Bool.and_eq_true, Bool.and_eq_true]
  refine ⟨⟨rfl, List.all_eq_true.2 fun t mine => ?_⟩, rfl⟩
  simp only [List.mem_filter, mem_upto, beq_iff_eq] at mine
  obtain ⟨power, idle, inService, due⟩ := off t mine.1 mine.2
  simp [power, idle, inService, due]

theorem State.pllStopOp_stays {s : State} {q : Nat}
    (h : (∃ t, t < s.nTiles ∧ quadOf t = q ∧ (s.tile t).power ≠ .off) ∨ s.pressNeedsQuad q = true) : s.pllStopOp q = s := by
  refine if_neg fun go => ?_
  simp only [Bool.and_eq_true, Bool.not_eq_true'] at go
  obtain ⟨⟨-, all⟩, free⟩ := go
  obtain ⟨t, small, mine, on⟩ | needed := h
  · have ok := List.all_eq_true.1 all t (List.mem_filter.2 ⟨mem_upto.2 small, by simp [mine]⟩)
    simp only [Bool.and_eq_true, beq_iff_eq] at ok
    exact on ok.1.1.1
  · exact absurd needed (by simp [free])

/-- Settles O28, by what starting a unit does, and by what holds an idle tile and its quadrant up. -/
theorem dispatchAndIdle : Obligations.DispatchAndIdle := by
  refine ⟨fun s panel => ⟨fun h => congrArg Host.Outcome.next (State.dispatchOp_none h), ?_⟩, fun s k q => ⟨?_, ?_, ?_, ?_⟩⟩
  · rintro work runs unbarred r rest k ⟨p, w⟩ first choice unit
    refine ⟨_, congrArg Host.Outcome.next (State.dispatchOp_first work runs unbarred first choice), ?_⟩
    obtain ⟨off, before, plan⟩ := s.planned_spec r.ref
    obtain ⟨q, found⟩ := plan p w unit
    generalize s.planned r.ref = a at *
    have tiles (j : Nat) : a.tile j = s.tile j := (congrArg (State.tile · j) off :)
    have now : a.now = s.now := (congrArg State.now off :)
    have cost : a.wakeCost k = s.wakeCost k := (congrArg (State.wakeCost · k) off :)
    obtain ⟨power, takes, state, fresh, abandon, role, pll, others, sessions, regs, pat, runs⟩ := a.startUnit_spec r.ref [k] k
    obtain ⟨q', started⟩ := runs q _ found
    rw [now, cost] at started
    exact ⟨power, takes, state, fresh, abandon, role.trans (congrArg Tile.role (tiles k)), pll, ⟨q', started⟩,
      fun j ne => (others j ne).trans (tiles j), before.trans sessions, regs.trans (congrArg State.regs off :),
      pat.trans (congrArg State.pat off :)⟩
  · intro idle nap inService due cold free
    refine ⟨_, congrArg Host.Outcome.next (State.tileIdleOffOp_off idle nap inService due cold free), ?_⟩
    have own := s.poweredOff_tile k
    obtain ⟨rest, others, regs⟩ := s.poweredOff_rest k
    exact ⟨rest, (congrArg Tile.power own :), (congrArg Tile.inbox own :), (congrArg Tile.since own :), (congrArg Tile.role own :),
      others, regs⟩
  · exact fun h => congrArg Host.Outcome.next (State.tileIdleOffOp_stays h)
  · exact fun runs off free => congrArg Host.Outcome.next (State.pllStopOp_stops runs off free)
  · exact fun h => congrArg Host.Outcome.next (State.pllStopOp_stays h)

end Sys2Proof.Machine
end

section
/-!
O32: abandonment, tile faults and the watchdog end a routine (R51, R248, R281, R282).
-/
namespace Sys2Proof.Machine

theorem satIncW_toNat (w : Word) (k : Nat) : (satIncW w k).toNat = min 0xFFFFFFFF (w.toNat + k) := by
  rw [satIncW, w32, BitVec.toNat_ofNat]
  omega

theorem RegsKept.trans {s t u : State} {l : List Nat} (h : RegsKept s t l) (k : RegsKept t u l) : RegsKept s u l := fun o away =>
  (k o away).trans (h o away)

theorem RegsKept.mono {s t : State} {l m : List Nat} (h : RegsKept s t l) (sub : l ⊆ m) : RegsKept s t m := fun o away =>
  h o fun mem => away (sub mem)

theorem OtherTiles.trans {s t u : State} {p : Nat → Prop} (h : OtherTiles s t p) (k : OtherTiles t u p) : OtherTiles s u p :=
  fun j away => (k j away).trans (h j away)

theorem OtherTiles.of_eq {s t : State} (h : t.tiles = s.tiles) (p : Nat → Prop) : OtherTiles s t p := fun j _ => by
  rw [State.tile, h, ← State.tile]

theorem State.bump_tile (s : State) (off k j : Nat) : (s.bump off k).tile j = s.tile j := by
  rw [State.tile, State.bump_tiles, ← State.tile]

theorem State.bump_ses (s : State) (off k n : Nat) : (s.bump off k).ses n = s.ses n := by
  rw [State.ses, State.bump_sessions, ← State.ses]

/-- The device but for its tiles and registers. -/
def State.offTiles (s : State) : State := { s with tiles := [], regs := [] }

theorem State.setReg_offTiles (s : State) (off : Nat) (v : Word) : (s.setReg off v).offTiles = s.offTiles := by
  unfold State.offTiles
  rfl

theorem State.bump_offTiles (s : State) (off k : Nat) : (s.bump off k).offTiles = s.offTiles := s.setReg_offTiles _ _

theorem State.setTile_offTiles (s : State) (k : Nat) (x : Tile) : (s.setTile k x).offTiles = s.offTiles := by
  unfold State.offTiles
  rfl

theorem State.flushInbox_offTiles (s : State) (k : Nat) : (s.flushInbox k).offTiles = s.offTiles := by
  unfold State.flushInbox
  rw [State.bump_offTiles, State.bump_offTiles, State.setTile_offTiles]

/-- A tile that rests from a routine stopped for cause `c`, with the boundary and the cause recorded (R281). -/
def Tile.stopped (x : Tile) (now c : Nat) : Tile :=
  { x.rest now with
    ndl := { x.ndl with
      state := 0, gpr := [], loops := [], issued := [], committed := false
      lastAbandon := mkWord [(0, fld x.ndl.shown 14 0), (16, c)] } }

/-- The tile with another inbox. -/
def Tile.holding (x : Tile) (box : List (BitVec 128)) (mid : Bool) : Tile := { x with inbox := box, midItem := mid }

theorem Tile.stopped_lastAbandon (x : Tile) (now c : Nat) :
    (x.stopped now c).ndl.lastAbandon = mkWord [(0, x.ndl.shown.toNat % 2 ^ 15), (16, c)] := by
  simp [Tile.stopped, fld, nfld]

/-- Tile `k` stops for cause `c`, and the stop is counted. -/
def State.halted (s : State) (k c : Nat) : State := (s.setTile k ((s.tile k).stopped s.now c)).bump (tileBase k + 0x2014)

theorem State.stopRoutine_eq (s : State) (k c : Nat) : s.stopRoutine k c =
    let t := if (s.tile k).work.isSome then (s.halted k c).bump 0xB0018 else s.halted k c
    if c = 2 ∨ c = 3 then t.flushInbox k else t := rfl

/-- The registers that count a stopped routine's tile, its lost packets and its inbox. -/
def stopCounters (k : Nat) : List Nat := [0xB0018, 0x200000 + 0x8000 * k + 0x108, 0x200000 + 0x8000 * k + 0x10C]

/-- After its tile has stopped, a routine loses its packets, and its inbox for some causes. -/
theorem State.stopRoutine_halted (s : State) (k c : Nat) :
    let t := s.stopRoutine k c
    (∃ box mid, t.tile k = ((s.halted k c).tile k).holding box mid) ∧ OtherTiles (s.halted k c) t (· = k) ∧
      t.offTiles = (s.halted k c).offTiles ∧ RegsKept (s.halted k c) t (stopCounters k) := by
  rw [State.stopRoutine_eq]
  generalize s.halted k c = a
  extract_lets b t
  have tiles : b.tiles = a.tiles := by
    dsimp only [b]
    split
    · exact a.bump_tiles _ _
    · rfl
  have own : b.tile k = a.tile k := by rw [State.tile, tiles, ← State.tile]
  have rest : b.offTiles = a.offTiles := by
    dsimp only [b]
    split
    · exact a.bump_offTiles _ _
    · rfl
  have regs : RegsKept a b (stopCounters k) := fun off away => by
    have ne := List.ne_of_not_mem_cons away
    dsimp only [b]
    split
    · rw [State.bump_reg, if_neg ne]
    · rfl
  dsimp only [t]
  split
  · obtain ⟨tile, others, -, kept⟩ := b.flushInbox_spec k
    refine ⟨⟨[], false, tile.trans (by rw [own]; rfl)⟩, (OtherTiles.of_eq tiles _).trans others, (b.flushInbox_offTiles k).trans rest, ?_⟩
    · exact regs.trans (kept.mono (List.subset_cons_self ..))
  · exact ⟨⟨_, _, own⟩, OtherTiles.of_eq tiles _, rest, regs⟩

/-- A routine that stops rests its tile alone, and is counted in the tile's registers. -/
theorem State.stopRoutine_spec (s : State) (k c : Nat) :
    let t := s.stopRoutine k c
    (∃ box mid, t.tile k = ((s.tile k).stopped s.now c).holding box mid) ∧ OtherTiles s t (· = k) ∧
      t.offTiles = s.offTiles ∧ RegsKept s t ((0x200000 + 0x8000 * k + 0x2014) :: stopCounters k) ∧
      t.reg (0x200000 + 0x8000 * k + 0x2014) = satIncW (s.reg (0x200000 + 0x8000 * k + 0x2014)) 1 := by
  obtain ⟨⟨box, mid, tile⟩, others, rest, regs⟩ := s.stopRoutine_halted k c
  have halted (j : Nat) : (s.halted k c).tile j = (s.setTile k ((s.tile k).stopped s.now c)).tile j :=
    State.bump_tile _ _ _ _
  have count (o : Nat) : (s.halted k c).reg o =
      if o = 0x200000 + 0x8000 * k + 0x2014 then satIncW (s.reg (0x200000 + 0x8000 * k + 0x2014)) 1 else s.reg o := by
    rw [State.halted, tileBase, State.bump_reg]
    rfl
  refine ⟨⟨box, mid, ?_⟩, fun j ne => ?_, rest.trans ?_, fun o away => ?_, ?_⟩
  · rw [tile, halted, State.setTile_tile, if_pos rfl]
  · rw [others j ne, halted, State.setTile_tile, if_neg ne]
  · rw [State.halted, State.bump_offTiles, State.setTile_offTiles]
  · rw [regs o (List.not_mem_of_not_mem_cons away), count, if_neg (List.ne_of_not_mem_cons away)]
  · rw [regs _ (by simp [stopCounters]; omega), count, if_pos rfl]

/-- The device but for its sessions, registers and performance counters. -/
def State.offUnits (s : State) : State := { s with sessions := [], regs := [], pmu := {} }

theorem State.modSes_offUnits (s : State) (n : Nat) (f : Session → Session) : (s.modSes n f).offUnits = s.offUnits := by
  unfold State.offUnits
  rfl

theorem State.bump_offUnits (s : State) (off k : Nat) : (s.bump off k).offUnits = s.offUnits := by
  unfold State.offUnits
  rfl

theorem State.count_offUnits (s : State) (code unit k : Nat) : (s.count code unit k).offUnits = s.offUnits := by
  have rest := congrArg State.offUnits (s.count_offPmu code unit k)
  exact rest

theorem State.count_sessions (s : State) (code unit k : Nat) : (s.count code unit k).sessions = s.sessions :=
  (congrArg State.sessions (s.count_offPmu code unit k) :)

theorem State.count_reg (s : State) (code unit k o : Nat) : (s.count code unit k).reg o = s.reg o :=
  (congrArg (State.reg · o) (s.count_offPmu code unit k) :)

/-- A unit that moves away from a tile at fault, or from none. -/
def WUnit.moved (w : WUnit) (avoid : Option Nat) : WUnit :=
  { w with
    st := .ready, replay := true
    failedOn := match avoid with
      | some k => [k]
      | none => w.failedOn }

/-- A session that counts a patch move. -/
def Session.patchMoved (x : Session) : Session := { x with patchMoves := min 0xFFFF (x.patchMoves + 1) }

/-- A session that counts an abandonment. -/
def Session.gaveUp (x : Session) : Session := { x with abandoned := min 0xFFFFFFFF (x.abandoned + 1) }

theorem State.patchMove_eq (s : State) (u : UnitRef) (avoid : Option Nat) : s.patchMove u avoid =
    (((s.modUnit u (·.moved avoid)).modSes u.ses Session.patchMoved).bump 0xF0014).count 5 0 :=
  rfl

/-- A patch move of a unit (R248). -/
theorem State.patchMove_spec {s : State} {u : UnitRef} {p : Pic} {w : WUnit} (h : s.unitOf u = some (p, w)) (avoid : Option Nat) :
    let t := s.patchMove u avoid
    t.offUnits = s.offUnits ∧ OtherSessions s t (· = u.ses) ∧ RegsKept s t [0xF0014] ∧
      (t.ses u.ses).patchMoves = min 0xFFFF ((s.ses u.ses).patchMoves + 1) ∧ ∃ q, t.unitOf u = some (q, w.moved avoid) := by
  extract_lets t
  let a := s.modUnit u (·.moved avoid)
  let b := a.modSes u.ses Session.patchMoved
  have eq : t = (b.bump 0xF0014).count 5 0 := s.patchMove_eq u avoid
  have ses (n : Nat) : t.ses n = b.ses n := by rw [eq, State.ses, State.count_sessions, State.bump_sessions, ← State.ses]
  have own : t.ses u.ses = (a.ses u.ses).patchMoved := by
    rw [ses, State.modSes_ses, if_pos rfl]
  have held : a.ses u.ses = (s.ses u.ses).modPic u.pic fun p => p.modUnit u.idx (·.moved avoid) :=
    (s.modSes_ses _ _ _).trans (if_pos rfl)
  have before : (a.ses u.ses).patchMoves = (s.ses u.ses).patchMoves := (congrArg Session.patchMoves held :)
  refine ⟨?_, fun n ne => ?_, fun o away => ?_, ?_, p.modUnit u.idx (·.moved avoid), ?_⟩
  · rw [eq, State.count_offUnits, State.bump_offUnits, State.modSes_offUnits]
    exact s.modSes_offUnits _ _
  · rw [ses, State.modSes_ses, if_neg ne]
    exact s.modSes_others _ _ n ne
  · rw [eq, State.count_reg, State.bump_reg, if_neg (List.ne_of_not_mem_cons away)]
    rfl
  · rw [own, ← before]
    rfl
  · rw [State.unitOf_congr (s := a) (congrArg Session.pics own :) (congrArg Session.kept own :)]
    exact State.modUnit_unitOf h fun _ => rfl

/-- An ARCHIVE unit that goes back to the queue (R85). -/
def WUnit.back (w : WUnit) : WUnit := { w with st := .ready, replay := false, result := none, attempts := w.attempts - 1 }

/-- The units of a picture as the abandonment of unit `idx` leaves them. -/
def Pic.archived (p : Pic) (idx : Nat) : Pic :=
  { p with units := p.units.map fun w =>
      if w.idx = idx ∨ w.st = .parked then w.back else { w with replay := w.replay && w.st == .running } }

theorem Pic.archived_unit? {p : Pic} {idx : Nat} {w : WUnit} (h : p.unit? idx = some w) :
    (p.archived idx).unit? idx = some w.back := by
  have here : w.idx = idx := by simpa using List.find?_some h
  have keeps : ((fun v : WUnit => v.idx == idx) ∘ fun w : WUnit =>
      if w.idx = idx ∨ w.st = .parked then w.back else { w with replay := w.replay && w.st == .running }) = fun v => v.idx == idx := by
    funext v
    dsimp only [Function.comp]
    split <;> rfl
  unfold Pic.unit? at h ⊢
  unfold Pic.archived
  rw [List.find?_map, keeps, h, Option.map_some, if_pos (.inl here)]

/-- An ARCHIVE abandonment (R85, R48). -/
theorem State.archiveBack_spec {s : State} {u : UnitRef} {p : Pic} {w : WUnit} (h : s.unitOf u = some (p, w)) :
    let t := s.archiveBack u
    t.offUnits = s.offUnits ∧ OtherSessions s t (· = u.ses) ∧ RegsKept s t [0x20024] ∧ ∃ q, t.unitOf u = some (q, w.back) := by
  obtain ⟨pic, unit⟩ := State.unitOf_eq_some.1 h
  let a := s.modSes u.ses fun x => x.modPic u.pic (·.archived u.idx)
  have units : a.unitOf u = some (p.archived u.idx, w.back) :=
    State.modPic_unitOf h (fun _ => rfl) (Pic.archived_unit? unit)
  have eq : s.archiveBack u = a ∨ s.archiveBack u =
      (a.modSes u.ses Session.gaveUp).bump 0x20024 := by
    unfold State.archiveBack
    rw [pic]
    dsimp only
    split
    · exact .inl rfl
    · exact .inr rfl
  have rest : a.offUnits = s.offUnits := s.modSes_offUnits _ _
  have others : OtherSessions s a (· = u.ses) := s.modSes_others _ _
  have regs : RegsKept s a [0x20024] := fun _ _ => rfl
  clear_value a
  obtain eq | eq := eq <;> rw [eq]
  · exact ⟨rest, others, regs, _, units⟩
  · let b := a.modSes u.ses Session.gaveUp
    have own : b.ses u.ses = (a.ses u.ses).gaveUp := by
      rw [State.modSes_ses, if_pos rfl]
    refine ⟨?_, others.trans fun n ne => ?_, fun o away => ?_, p.archived u.idx, ?_⟩
    · rw [State.bump_offUnits, State.modSes_offUnits, rest]
    · rw [State.bump_ses]
      exact a.modSes_others _ _ n ne
    · rw [State.bump_reg, if_neg (List.ne_of_not_mem_cons away)]
      exact regs o away
    · rw [State.unitOf_congr (s := b) (congrArg Session.pics (State.bump_ses _ _ _ _)) (congrArg Session.kept (State.bump_ses _ _ _ _)),
        State.unitOf_congr (s := a) (congrArg Session.pics own :) (congrArg Session.kept own :)]
      exact units

/-- The unit of a routine that stopped for cause `cause` is ready again (R281, R282). -/
def State.returned (s : State) (u : UnitRef) (cause : Nat) : State :=
  if cause = 1 then s.modUnit u fun w => { w with st := .ready } else if cause = 3 then s.patchMove u none else s.archiveBack u

/-- A needle that holds one request acts on it (R281). -/
theorem State.abandonTile_eq {s : State} {k cause : Nat} (among : cause ∈ [1, 3, 4, 5]) (asked : (s.tile k).abandon = 2 ^ cause)
    {u : UnitRef} (work : (s.tile k).work = some u) (uncommitted : (s.tile k).ndl.committed = false) :
    s.abandonTile k = (s.stopRoutine k cause).returned u cause := by
  have bits : ∀ c ∈ [1, 3, 4, 5], ((List.range 6).find? fun b => nbit (2 ^ c) b) = some c ∧
      nbit (2 ^ c) 1 = decide (c = 1) ∧ nbit (2 ^ c) 3 = decide (c = 3) := by decide
  obtain ⟨found, one, three⟩ := bits cause among
  unfold State.abandonTile
  simp only [asked, found, work, uncommitted, one, three, Bool.false_eq_true, if_false, decide_eq_true_eq, State.returned]

theorem State.returned_spec {s : State} {u : UnitRef} {p : Pic} {w : WUnit} (h : s.unitOf u = some (p, w)) (cause : Nat) :
    let t := s.returned u cause
    t.offUnits = s.offUnits ∧ OtherSessions s t (· = u.ses) ∧ RegsKept s t [0xF0014, 0x20024] ∧
      (cause = 3 → (t.ses u.ses).patchMoves = min 0xFFFF ((s.ses u.ses).patchMoves + 1)) ∧
      ∃ q v, t.unitOf u = some (q, v) ∧ v.st = .ready ∧ (cause = 1 → v = { w with st := .ready }) ∧
        (cause = 3 → v = { w with st := .ready, replay := true }) ∧
        (cause = 4 ∨ cause = 5 → v = { w with st := .ready, replay := false, result := none, attempts := w.attempts - 1 }) := by
  extract_lets t
  by_cases one : cause = 1
  · have eq : t = s.modUnit u fun w => { w with st := .ready } := if_pos one
    clear_value t
    subst eq
    refine ⟨s.modSes_offUnits _ _, s.modSes_others _ _, fun _ _ => rfl, by omega, _, _, State.modUnit_unitOf h fun _ => rfl, rfl, ?_⟩
    exact ⟨fun _ => rfl, by omega, by omega⟩
  by_cases three : cause = 3
  · have eq : t = s.patchMove u none := (if_neg one).trans (if_pos three)
    obtain ⟨rest, others, regs, count, q, found⟩ := State.patchMove_spec h none
    rw [eq]
    exact ⟨rest, others, regs.mono (by simp), fun _ => count, q, _, found, rfl, by omega, fun _ => rfl, by omega⟩
  · have eq : t = s.archiveBack u := (if_neg one).trans (if_neg three)
    obtain ⟨rest, others, regs, q, found⟩ := State.archiveBack_spec h
    rw [eq]
    exact ⟨rest, others, regs.mono (by simp), by omega, q, _, found, rfl, by omega, by omega, fun _ => rfl⟩

/-- ROUTINE_ABANDON of a needle that holds one request. -/
theorem State.abandonOp_eq {s : State} {k cause : Nat} {u : UnitRef} (live : s.live = true) (small : k < s.nTiles)
    (testing : (s.tile k).role ≠ .selfTest) (among : cause ∈ [1, 3, 4, 5]) (asked : (s.tile k).abandon = 2 ^ cause)
    (work : (s.tile k).work = some u) (uncommitted : (s.tile k).ndl.committed = false) :
    s.abandonOp k = (s.stopRoutine k cause).returned u cause := by
  have go : (s.live && decide (k < s.nTiles) && (s.tile k).role != .selfTest) = true := by simp [live, small, testing]
  exact (if_pos go).trans (State.abandonTile_eq among asked work uncommitted)

/-- A stopped routine leaves the units of work as they were. -/
theorem State.stopRoutine_unitOf (s : State) (k c : Nat) (u : UnitRef) : (s.stopRoutine k c).unitOf u = s.unitOf u := by
  obtain ⟨-, -, rest, -⟩ := s.stopRoutine_spec k c
  exact (congrArg (State.unitOf · u) rest :)

/-- ROUTINE_ABANDON of a needle that holds one request (R281, R282). -/
theorem routineAbandon_ends (s : State) (k cause : Nat) (u : UnitRef) (p : Pic) (w : WUnit) (live : s.live = true)
    (small : k < s.nTiles) (testing : (s.tile k).role ≠ .selfTest) (among : cause ∈ [1, 3, 4, 5])
    (asked : (s.tile k).abandon = 2 ^ cause) (work : (s.tile k).work = some u) (unit : s.unitOf u = some (p, w))
    (uncommitted : (s.tile k).ndl.committed = false) : Answers (.routineAbandon k) s fun t =>
       (t.tile k).work = none ∧ (t.tile k).power = .nap ∧ (t.tile k).abandon = 0 ∧ (t.tile k).ndl.state = 0 ∧
       (t.tile k).ndl.gpr = [] ∧
       (t.tile k).ndl.lastAbandon = mkWord [(0, (s.tile k).ndl.shown.toNat % 2 ^ 15), (16, cause)] ∧
       (t.reg (0x200000 + 0x8000 * k + 0x2014)).toNat =
         min 0xFFFFFFFF ((s.reg (0x200000 + 0x8000 * k + 0x2014)).toNat + 1) ∧
       OtherTiles s t (· = k) ∧ OtherSessions s t (· = u.ses) ∧ t.pat = s.pat ∧
       (cause = 3 → (t.ses u.ses).patchMoves = min 0xFFFF ((s.ses u.ses).patchMoves + 1)) ∧
       ∃ q v, t.unitOf u = some (q, v) ∧ v.st = .ready ∧
         (cause = 1 → v = { w with st := .ready }) ∧ (cause = 3 → v = { w with st := .ready, replay := true }) ∧
         (cause = 4 ∨ cause = 5 → v = { w with st := .ready, replay := false, result := none, attempts := w.attempts - 1 }) := by
  refine ⟨_, congrArg Host.Outcome.next (State.abandonOp_eq live small testing among asked work uncommitted), ?_⟩
  obtain ⟨⟨box, mid, tile⟩, others, stopped, -, count⟩ := s.stopRoutine_spec k cause
  have found := (s.stopRoutine_unitOf k cause u).trans unit
  generalize s.stopRoutine k cause = a at *
  obtain ⟨rest, sessions, regs, moves, ready⟩ := State.returned_spec found cause
  have last := (s.tile k).stopped_lastAbandon s.now cause
  have ses : (a.ses u.ses) = s.ses u.ses := (congrArg (State.ses · u.ses) stopped :)
  generalize a.returned u cause = t at *
  have tiles (j : Nat) : t.tile j = a.tile j := (congrArg (State.tile · j) rest :)
  have counted := regs (0x200000 + 0x8000 * k + 0x2014) (by simp; omega)
  rw [ses] at moves
  have own := (tiles k).trans tile
  refine ⟨(congrArg Tile.work own :), (congrArg Tile.power own :), (congrArg Tile.abandon own :), (congrArg (·.ndl.state) own :),
    (congrArg (·.ndl.gpr) own :), (congrArg (·.ndl.lastAbandon) own :).trans last, ?_, fun j ne => (tiles j).trans (others j ne),
    fun n ne => ?_, ?_, moves, ready⟩
  · rw [counted, count, satIncW_toNat]
  · exact (sessions n ne).trans (congrArg (State.ses · n) stopped :)
  · exact (congrArg State.pat rest :).trans (congrArg State.pat stopped :)

/-- What the end of a routine on tile `k` keeps as its fault is raised and acted on. -/
structure KeepsPost (k : Nat) (s t : State) : Prop where
  pat : t.pat = s.pat
  units : ∀ n, (t.ses n).units = (s.ses n).units
  work : (t.tile k).work = (s.tile k).work
  last : (t.tile k).ndl.lastAbandon = (s.tile k).ndl.lastAbandon
  status : ∀ i, s.flt.status.getLsbD i = true → t.flt.status.getLsbD i = true

theorem KeepsPost.trans {k : Nat} {s t u : State} (h : KeepsPost k s t) (g : KeepsPost k t u) : KeepsPost k s u :=
  ⟨g.pat.trans h.pat, fun n => (g.units n).trans (h.units n), g.work.trans h.work, g.last.trans h.last,
    fun i on => g.status i (h.status i on)⟩

theorem KeepsPost.of_still {k : Nat} {s t : State} {m : BitVec 64} (h : t.still = { s.still with status := s.flt.status ||| m }) :
    KeepsPost k s t ∧ (t.tile k).role = (s.tile k).role := by
  have post : (t.tile k).post = (s.tile k).post := (congrArg (fun x : Still => x.posts k) h :)
  have status : t.flt.status = s.flt.status ||| m := (congrArg Still.status h :)
  refine ⟨⟨(congrArg Still.pat h :), fun n => (congrArg (fun x : Still => x.units n) h :), (congrArg (·.2.1) post :),
    (congrArg (·.2.2) post :), fun i on => ?_⟩, (congrArg Prod.fst post :)⟩
  rw [status, BitVec.getLsbD_or, on, Bool.true_or]

theorem KeepsPost.of_same {k : Nat} {s t : State} (h : t.still = s.still) : KeepsPost k s t ∧ (t.tile k).role = (s.tile k).role :=
  KeepsPost.of_still (m := 0#64) (by rw [h, BitVec.or_zero]; rfl)

theorem State.refloor_still (s : State) (p : Nat) : (s.refloor p).still = s.still := by
  unfold State.refloor
  split <;> rfl

theorem State.spareCheck_keeps (s : State) (p k : Nat) :
    KeepsPost k s (s.spareCheck p) ∧ ((s.spareCheck p).tile k).role = (s.tile k).role := by
  unfold State.spareCheck
  extract_lets a
  have floor : KeepsPost k s a ∧ (a.tile k).role = (s.tile k).role := KeepsPost.of_same (s.refloor_still p)
  split
  · have raised := KeepsPost.of_still (k := k) (a.raiseDev_still 14 0 0)
    exact ⟨floor.1.trans raised.1, raised.2.trans floor.2⟩
  · exact floor

/-- A change of tile `j` keeps the post of another tile. -/
theorem State.modTile_keeps (s : State) (j k : Nat) (f : Tile → Tile) (h : k = j → (f (s.tile j)).post = (s.tile j).post) :
    KeepsPost k s (s.modTile j f) ∧ ((s.modTile j f).tile k).role = (s.tile k).role := by
  have post : ((s.modTile j f).tile k).post = (s.tile k).post := by
    rw [State.modTile_tile]
    split
    next e => rw [h e, e]
    next => rfl
  exact ⟨⟨rfl, fun _ => rfl, (congrArg (·.2.1) post :), (congrArg (·.2.2) post :), fun _ on => on⟩, (congrArg Prod.fst post :)⟩

theorem State.promote_keeps (s : State) {j k : Nat} (ne : k ≠ j) :
    KeepsPost k s (s.promote j) ∧ ((s.promote j).tile k).role = (s.tile k).role := by
  unfold State.promote
  have up := s.modTile_keeps j k (fun x => { x with role := .active, promoted := true }) (fun e => absurd e ne)
  have counted := KeepsPost.of_same (k := k) (State.bump_still (s.modTile j fun x => { x with role := .active, promoted := true }) 0xF002C 1)
  exact ⟨up.1.trans counted.1, counted.2.trans up.2⟩

theorem nearest_mem {f k : Nat} {l : List Nat} (h : nearest f l = some k) : k ∈ l := by
  unfold nearest at h
  split at h
  next found => exact Option.some.inj h ▸ List.mem_of_find?_eq_some found
  next =>
    split at h
    next found => exact Option.some.inj h ▸ List.mem_of_find?_eq_some found
    next => exact List.mem_of_mem_head? h

/-- A tile out of service (R254). -/
def Tile.takenOut (y : Tile) (now : Nat) : Tile :=
  { y with
    role := .retired, back := .unused, promoted := false, power := .off, since := now, work := none, retireReq := false
    retest := false, window := [], inbox := [], midItem := false, ndl := { y.ndl with state := 5 } }

/-- Tile `k` leaves service, and is counted. -/
def State.takenOut (s : State) (k : Nat) : State := (s.modTile k fun y => y.takenOut s.now).bump 0xF0028

theorem State.takenOut_tile (s : State) (k : Nat) : (s.takenOut k).tile k = (s.tile k).takenOut s.now := by
  rw [State.takenOut, State.bump_tile, State.modTile_tile, if_pos rfl]

theorem State.takenOut_keeps {s : State} {k : Nat} (idle : (s.tile k).work = none) : KeepsPost k s (s.takenOut k) := by
  have own := s.takenOut_tile k
  exact ⟨rfl, fun _ => rfl, (congrArg Tile.work own).trans idle.symm, (congrArg (·.ndl.lastAbandon) own :), fun _ on => on⟩

/-- A tile without work that retires from a self-test (R254): a spare is promoted, one that is busy is waited for, or none is left. -/
theorem State.retireTile_cases {s : State} {k : Nat} (testing : (s.tile k).role = .selfTest) (idle : (s.tile k).work = none) :
    let a := s.takenOut k
    let p := (s.tile k).panel
    s.retireTile k = a.spareCheck p ∨ (∃ j ∈ a.spares p, s.retireTile k = (a.promote j).spareCheck p) ∨
      s.retireTile k = (a.modTile k fun y => { y with back := .active }).refloor p := by
  intro a p
  have inService : ¬ ((s.tile k).role == .retired || (s.tile k).role == .unused) = true := by simp [testing]
  unfold State.retireTile
  extract_lets x stopped b was c d sp free
  have same : b = s := by
    dsimp only [b]
    rw [show x.work = none from idle]
  have taken : d = a := by
    dsimp only [d, c]
    rw [same]
    rfl
  clear_value d
  subst taken
  rw [if_neg inService]
  split
  · split
    next j found =>
      have among : j ∈ (a.spares p).filter fun k => (a.tile k).idle := by
        obtain napping | other := (Option.orElse_eq_some _ _ _).1 found
        · exact List.mem_of_mem_filter (nearest_mem napping)
        · exact nearest_mem other.2
      exact .inr (.inl ⟨j, List.mem_of_mem_filter among, rfl⟩)
    next =>
      split
      · exact .inl rfl
      · exact .inr (.inr rfl)
  · exact .inl rfl

theorem State.retireTile_spec {s : State} {k : Nat} (testing : (s.tile k).role = .selfTest) (idle : (s.tile k).work = none) :
    ((s.retireTile k).tile k).role = .retired ∧ KeepsPost k s (s.retireTile k) := by
  have out := State.takenOut_keeps idle
  have retired : ((s.takenOut k).tile k).role = .retired := congrArg Tile.role (s.takenOut_tile k)
  suffices after : KeepsPost k (s.takenOut k) (s.retireTile k) ∧ ((s.retireTile k).tile k).role = ((s.takenOut k).tile k).role from
    ⟨after.2.trans retired, out.trans after.1⟩
  obtain none | ⟨j, spare, promoted⟩ | waits := State.retireTile_cases testing idle
  · rw [none]
    exact State.spareCheck_keeps _ _ _
  · have role : ((s.takenOut k).tile j).role = .spare := by
      have ok := List.of_mem_filter spare
      simp only [Bool.and_eq_true, beq_iff_eq] at ok
      exact ok.1
    have ne : k ≠ j := fun e => by
      rw [← e, retired] at role
      cases role
    obtain ⟨up, same⟩ := (s.takenOut k).promote_keeps ne
    obtain ⟨check, same'⟩ := State.spareCheck_keeps ((s.takenOut k).promote j) (s.tile k).panel k
    rw [promoted]
    exact ⟨up.trans check, same'.trans same⟩
  · obtain ⟨marked, same⟩ := (s.takenOut k).modTile_keeps k k (fun y => { y with back := .active }) fun _ => rfl
    obtain ⟨floor, same'⟩ := KeepsPost.of_same (k := k)
      (State.refloor_still ((s.takenOut k).modTile k fun y => { y with back := .active }) (s.tile k).panel)
    rw [waits]
    exact ⟨marked.trans floor, same'.trans same⟩

/-- One event within its class's scope is settled, recorded, traced, signalled and acted on (R263 to R266). -/
theorem State.raise_eq {s : State} {cls unit : Nat} (ok : s.unitOk cls unit = true) (detail : Word) (ses : Nat) :
    s.raise cls unit detail ses =
      let r := s.settle { cls := cls, unit := unit, n := 1, detail := detail, ses := ses }
      (((r.1.recordFirst r.2).lintFault r.2).signal r.2).react r.2 := by
  have merged : mergeEvs [] [{ cls := cls, unit := unit, n := 1, detail := detail, ses := ses }] =
      [{ cls := cls, unit := unit, n := 1, detail := detail, ses := ses }] := rfl
  simp only [State.raise, State.collect, merged, List.foldl_cons, List.foldl_nil, ok, if_true, insSettled]

/-- A tile's fault latches its class, and retires the tile or leaves it in its self-test (Table 13.2). -/
theorem State.raise_spec {s : State} {cls k : Nat} (scope : scopeOf cls = .tile) (narrow : cls < 64) (small : k < s.nTiles)
    (testing : (s.tile k).role = .selfTest) (idle : (s.tile k).work = none) (detail : Word) (ses : Nat) :
    let t := s.raise cls k detail ses
    KeepsPost k s t ∧ ((t.tile k).role = .selfTest ∨ (t.tile k).role = .retired) ∧ t.flt.status.getLsbD cls = true := by
  have ok : s.unitOk cls k = true := by simp [State.unitOk, scope, small]
  rw [State.raise_eq ok]
  extract_lets r t
  have latched : (((r.1.recordFirst r.2).lintFault r.2).signal r.2).still =
      { s.still with status := s.flt.status ||| BitVec.ofNat 64 (2 ^ cls) } := by
    rw [State.signal_still, State.lintFault_still, State.recordFirst_still]
    exact s.settle_still _
  have mine : r.2.cls = cls ∧ r.2.unit = k := ⟨rfl, rfl⟩
  obtain ⟨class_, unit⟩ := mine
  have acts : t = ((((r.1.recordFirst r.2).lintFault r.2).signal r.2).retireTile k) ∨
      t = ((r.1.recordFirst r.2).lintFault r.2).signal r.2 := by
    dsimp only [t]
    unfold State.react
    rw [class_, scope, unit]
    dsimp only
    split
    · exact .inl rfl
    · exact .inr rfl
  clear_value t
  generalize ((r.1.recordFirst r.2).lintFault r.2).signal r.2 = a at *
  obtain ⟨keeps, role⟩ := KeepsPost.of_still (k := k) latched
  have on : a.flt.status.getLsbD cls = true := by
    have status : a.flt.status = s.flt.status ||| BitVec.ofNat 64 (2 ^ cls) := (congrArg Still.status latched :)
    rw [status, BitVec.getLsbD_or, BitVec.getLsbD_ofNat]
    simp [narrow]
  obtain rfl | rfl := acts
  · obtain ⟨retired, kept⟩ := State.retireTile_spec (role.trans testing) (keeps.work.trans idle)
    exact ⟨keeps.trans kept, .inr retired, kept.status cls on⟩
  · exact ⟨keeps, .inl (role.trans testing), on⟩

/-- A tile in self-test (R247, R252). -/
theorem State.enterSelfTest_spec (s : State) (k : Nat) :
    let t := s.enterSelfTest k
    (t.tile k).role = .selfTest ∧ (t.tile k).work = none ∧ (t.tile k).ndl.lastAbandon = (s.tile k).ndl.lastAbandon ∧
      t.offTiles = s.offTiles ∧ t.regs = s.regs := by
  have own : (s.enterSelfTest k).tile k = _ := (s.modTile_tile k _ k).trans (if_pos rfl)
  exact ⟨(congrArg Tile.role own :), (congrArg Tile.work own :), (congrArg (·.ndl.lastAbandon) own :), s.setTile_offTiles _ _, rfl⟩

/-- A unit with attempts left whose tile is at fault moves (R248). -/
theorem State.unitFailed_moves {s : State} {u : UnitRef} {p : Pic} {w : WUnit} (h : s.unitOf u = some (p, w))
    (left : w.attempts < fld (s.reg 0xF0000) 2 0) (k : Nat) : s.unitFailed u k false = s.patchMove u (some k) := by
  simp only [State.unitFailed, h, Nat.not_le.2 left, false_and, if_false, Bool.false_eq_true]

theorem State.tileBroken_eq {s : State} {k cls : Nat} {u : UnitRef} {p : Pic} {w : WUnit} (work : (s.tile k).work = some u)
    (unit : s.unitOf u = some (p, w)) (uncommitted : (s.tile k).ndl.committed = false)
    (left : w.attempts < fld (s.reg 0xF0000) 2 0) :
    s.tileBroken k cls = ((((s.stopRoutine k 2).enterSelfTest k).patchMove u (some k)).raise cls k 0 u.ses) := by
  obtain ⟨-, -, stopped, regs, -⟩ := s.stopRoutine_spec k 2
  obtain ⟨-, -, -, tested, same⟩ := (s.stopRoutine k 2).enterSelfTest_spec k
  have found : ((s.stopRoutine k 2).enterSelfTest k).unitOf u = some (p, w) :=
    (congrArg (State.unitOf · u) (tested.trans stopped) :).trans unit
  have limit : ((s.stopRoutine k 2).enterSelfTest k).reg 0xF0000 = s.reg 0xF0000 := by
    rw [State.reg, same, ← State.reg]
    exact regs _ (by simp [stopCounters]; omega)
  unfold State.tileBroken
  simp only [work, Option.isSome_some, if_true, uncommitted, Bool.false_eq_true, if_false,
    State.unitFailed_moves found (limit ▸ left) k]

/-- A fault of R248 on a tile with a unit under way: the tile leaves it, and the unit moves. -/
theorem State.tileBroken_spec {s : State} {k cls : Nat} {u : UnitRef} {p : Pic} {w : WUnit} (small : k < s.nTiles)
    (work : (s.tile k).work = some u) (unit : s.unitOf u = some (p, w)) (uncommitted : (s.tile k).ndl.committed = false)
    (left : w.attempts < fld (s.reg 0xF0000) 2 0) (scope : scopeOf cls = .tile) (narrow : cls < 64) :
    let t := s.tileBroken k cls
    (t.tile k).work = none ∧ ((t.tile k).role = .selfTest ∨ (t.tile k).role = .retired) ∧ t.flt.status.getLsbD cls = true ∧
      (t.tile k).ndl.lastAbandon = mkWord [(0, (s.tile k).ndl.shown.toNat % 2 ^ 15), (16, 2)] ∧
      (t.ses u.ses).patchMoves = min 0xFFFF ((s.ses u.ses).patchMoves + 1) ∧ t.pat = s.pat ∧
      ∃ q v, t.unitOf u = some (q, v) ∧ v.st = .ready ∧ v.replay = true ∧ k ∈ v.failedOn := by
  rw [State.tileBroken_eq work unit uncommitted left]
  obtain ⟨⟨box, mid, rested⟩, -, stopped, -, -⟩ := s.stopRoutine_spec k 2
  obtain ⟨testing, idle, last, tested, -⟩ := (s.stopRoutine k 2).enterSelfTest_spec k
  have boundary := (s.tile k).stopped_lastAbandon s.now 2
  have recorded : ((s.stopRoutine k 2).tile k).ndl.lastAbandon = ((s.tile k).stopped s.now 2).ndl.lastAbandon :=
    (congrArg (·.ndl.lastAbandon) rested :)
  have outside := tested.trans stopped
  replace last := last.trans (recorded.trans boundary)
  generalize (s.stopRoutine k 2).enterSelfTest k = a at *
  have found : a.unitOf u = some (p, w) := (congrArg (State.unitOf · u) outside :).trans unit
  have ses : a.ses u.ses = s.ses u.ses := (congrArg (State.ses · u.ses) outside :)
  have pat : a.pat = s.pat := (congrArg State.pat outside :)
  have tiles : a.nTiles = s.nTiles := (congrArg State.nTiles outside :)
  obtain ⟨moved, -, -, count, q, move⟩ := State.patchMove_spec found (some k)
  generalize a.patchMove u (some k) = b at *
  have tile : b.tile k = a.tile k := (congrArg (State.tile · k) moved :)
  have pat' : b.pat = a.pat := (congrArg State.pat moved :)
  have tiles' : b.nTiles = a.nTiles := (congrArg State.nTiles moved :)
  obtain ⟨keeps, role, on⟩ := State.raise_spec scope narrow (tiles'.trans tiles ▸ small) ((congrArg Tile.role tile).trans testing)
    ((congrArg Tile.work tile).trans idle) 0 u.ses
  generalize b.raise cls k 0 u.ses = t at *
  have units := keeps.units u.ses
  have unitOf : t.unitOf u = b.unitOf u := State.unitOf_congr (congrArg Prod.fst units) (congrArg (·.2.1) units)
  have moves : (t.ses u.ses).patchMoves = (b.ses u.ses).patchMoves := (congrArg (·.2.2) units :)
  refine ⟨keeps.work.trans ((congrArg Tile.work tile).trans idle), role, on, ?_, ?_, keeps.pat.trans (pat'.trans pat), q, _,
    unitOf.trans move, rfl, rfl, List.mem_singleton.2 rfl⟩
  · rw [keeps.last, tile, last]
  · rw [moves, count, ses]

/-- TILE_FAULT on a tile in service, with no press and no load under way (R248), or on a tile that a press loads (R51). -/
theorem State.tileFaultOp_eq {s : State} {k : Nat} (live : s.live = true) (small : k < s.nTiles)
    (inService : (s.tile k).role = .active ∨ (s.tile k).role = .spare) (powered : (s.tile k).power ≠ .off) (kind : TileFaultKind) :
    (s.ldr.busy = true → s.ldr.phase = 5 → inMask (tget 0 s.ldr.next.roles k) s.ldr.pressing = true →
      s.tileFaultOp k kind = s.rollBack 0x10) ∧
    (s.ldr.busy = false → s.tileFaultOp k kind = s.tileBroken k (match kind with
      | .storeParity => 9
      | .windowWord => 10)) := by
  have serves : (s.tile k).inService = true := by simpa [Tile.inService] using inService
  constructor
  · intro busy phase mine
    simp only [State.tileFaultOp, live, small, serves, bne_iff_ne.2 powered, busy, phase, mine, decide_true, beq_self_eq_true,
      Bool.and_self, if_true]
  · intro free
    cases kind <;> simp [State.tileFaultOp, live, small, serves, powered, free]

/-- TILE_WATCHDOG of a tile that runs a unit (R248). -/
theorem State.watchdogOp_eq {s : State} {k : Nat} (live : s.live = true) (small : k < s.nTiles)
    (inService : (s.tile k).role = .active ∨ (s.tile k).role = .spare) {u : UnitRef} (work : (s.tile k).work = some u)
    (uncommitted : (s.tile k).ndl.committed = false) : s.watchdogOp k = s.tileBroken k 11 := by
  have serves : (s.tile k).inService = true := by simpa [Tile.inService] using inService
  simp [State.watchdogOp, live, small, serves, work, uncommitted]

/-- Settles O32, by how a routine stops, how its unit moves, and what raising a tile's fault keeps. -/
theorem routineEnds : Obligations.RoutineEnds := by
  refine ⟨routineAbandon_ends, fun s k cls c u p w live small inService powered work unit uncommitted left how => ?_⟩
  have faults := State.tileFaultOp_eq live small inService powered
  have broken (scope : scopeOf cls = .tile) (narrow : cls < 64) :=
    State.tileBroken_spec small work unit uncommitted left scope narrow
  obtain ⟨rfl, rfl⟩ | ⟨rfl, rfl⟩ | ⟨rfl, rfl⟩ := how
  · refine ⟨fun _ busy phase mine => congrArg Host.Outcome.next ((faults .storeParity).1 busy phase mine), fun free => ?_⟩
    exact ⟨_, congrArg Host.Outcome.next ((faults .storeParity).2 (free.resolve_right (by decide))), broken rfl (by decide)⟩
  · refine ⟨fun _ busy phase mine => congrArg Host.Outcome.next ((faults .windowWord).1 busy phase mine), fun free => ?_⟩
    exact ⟨_, congrArg Host.Outcome.next ((faults .windowWord).2 (free.resolve_right (by decide))), broken rfl (by decide)⟩
  · refine ⟨fun other => absurd rfl other, fun _ => ?_⟩
    exact ⟨_, congrArg Host.Outcome.next (State.watchdogOp_eq live small inService work uncommitted), broken rfl (by decide)⟩

end Sys2Proof.Machine
end

section
/-!
SUPPORT. Moving a DMA channel's beats latches fault classes at most, of all that a raised fault leaves alone (R311); a stopped channel
has no descriptor (R317, R319).
-/
namespace Sys2Proof.Machine

/-- `t` differs from `s`, in what a fault leaves alone, by latched classes at most. -/
def Latches (s t : State) : Prop := ∃ m, t.still = { s.still with status := s.flt.status ||| m }

theorem Latches.of_still {s t : State} (h : t.still = s.still) : Latches s t := ⟨0#64, by rw [h, BitVec.or_zero]; rfl⟩

theorem Latches.trans {s t u : State} (h : Latches s t) (g : Latches t u) : Latches s u := by
  obtain ⟨m, h⟩ := h
  obtain ⟨n, g⟩ := g
  have status : t.flt.status = s.flt.status ||| m := (congrArg Still.status h :)
  exact ⟨m ||| n, by rw [g, status, h, BitVec.or_assoc]⟩

theorem State.raiseDev_latches (s : State) (k : Nat) (detail : Word) (ses : Nat) : Latches s (s.raiseDev k detail ses) :=
  ⟨_, s.raiseDev_still k detail ses⟩

theorem State.count_still (s : State) (code unit k : Nat) : (s.count code unit k).still = s.still :=
  (congrArg State.still (s.count_offPmu code unit k) :)

theorem State.setStack_still (s : State) (k : Nat) (x : Stack) : (s.setStack k x).still = s.still := rfl

theorem State.access_still (s : State) (p : LinePos) : (s.access p).still = s.still := by
  unfold State.access
  extract_lets x y k b hit n mode keep b' x' clr t
  have moved : t.still = s.still := rfl
  split
  · exact (t.count_still _ _ _).trans moved
  · exact moved

theorem State.setBytes_still (s : State) (a : Nat) (bs : List Byte) : (s.setBytes a bs).still = s.still := by
  induction bs generalizing s a with
  | nil => rfl
  | cons b t ih => exact ih (s.setByte a b) (a + 1)

theorem State.setSide_still (s : State) (line i : Nat) (bs : List Byte) : (s.setSide line i bs).still = s.still := by
  induction bs generalizing s i with
  | nil => rfl
  | cons b t ih => exact ih { s with side := tset 0 (line * 8 + i) b s.side } (i + 1)

theorem State.storeLine_still (s : State) (a : Nat) (cs : List Byte) : (s.storeLine a cs).still = s.still :=
  (State.setSide_still _ _ _ _).trans (s.setBytes_still _ _)

theorem State.writeLine_still (s : State) (a : Nat) (data : List Byte) (label : Word) : (s.writeLine a data label).still = s.still :=
  (State.storeLine_still _ _ _).trans (s.count_still _ _ _)

theorem State.countLanes_still (s : State) (k c : Nat) (errs : List (Nat × Byte)) : (s.countLanes k c errs).still = s.still :=
  s.setStack_still _ _

theorem State.lastUnc_still (s : State) (v : Nat) : { s with lastUnc := v }.still = s.still := rfl

theorem State.readLine_latches (s : State) (a : Nat) (errs : List (Nat × Byte)) (scrub : Bool) : Latches s (s.readLine a errs scrub) := by
  unfold State.readLine
  extract_lets p got t u
  have counted : Latches s t := .of_still (s.count_still _ _ _)
  split
  · exact counted
  next es _ =>
    extract_lets u
    have marked : u.still = t.still := by
      dsimp only [u]
      rw [State.countLanes_still, State.bump_still, State.bump_still]
    clear_value u
    have fixed := (counted.trans (.of_still marked)).trans (u.raiseDev_latches 22 0 0)
    split
    · exact fixed.trans (.of_still (State.storeLine_still _ _ _))
    · exact fixed
  next =>
    have marked : u.still = t.still := by
      dsimp only [u]
      rw [State.bump_still, State.bump_still]
    clear_value u
    exact (counted.trans (.of_still marked)).trans
      ((Latches.of_still (u.lastUnc_still (uncRecord a scrub))).trans (State.raiseDev_latches _ 23 0 0))

theorem State.fetchLine_latches (s : State) (a gen : Nat) : Latches s (s.fetchLine a gen).1 := by
  have read : Latches s ((s.access (decodeLine a)).readLine a [] false) :=
    (Latches.of_still (s.access_still _)).trans (State.readLine_latches _ _ _ _)
  unfold State.fetchLine
  extract_lets t got cs u
  clear_value cs
  split
  · extract_lets label
    split <;> exact read
  · exact read

theorem State.readBeat_latches (s : State) (x : Chan) (d : Desc) (i j : Nat) : Latches s (s.readBeat x d i j).1 := by
  unfold State.readBeat
  split
  · extract_lets a
    split
    · exact .of_still (s.bump_still _ _)
    · exact s.fetchLine_latches _ _
  · exact .of_still rfl

theorem State.writeBeat_still (s : State) (n : Nat) (d : Desc) (i j : Nat) (b : List Byte × Nat × Word) :
    (s.writeBeat n d i j b).still = s.still := by
  unfold State.writeBeat
  extract_lets a m
  split
  · split
    · exact s.bump_still _ _
    · exact (State.writeLine_still _ _ _ _).trans (s.access_still _)
  · exact (s.emit_posted _).still

theorem Mover.beat_latches (m : Mover) (n : Nat) (x : Chan) (d : Desc) (e : MoveEnd) (i j : Nat) : Latches m.s (m.beat n x d e i j).s := by
  have same : Latches m.s m.s := .of_still rfl
  have go (k : Nat) : Latches m.s (Mover.beat.go m n x d i j k).s := by
    unfold Mover.beat.go
    extract_lets r
    have read : Latches m.s r.1 := m.s.readBeat_latches x d i j
    split
    · exact read.trans (.of_still (State.writeBeat_still _ _ _ _ _ _))
    · exact read
  unfold Mover.beat
  extract_lets k
  split
  · exact same
  split
  · split
    · exact same
    · exact go k
  · split
    · split
      · exact same
      · exact go k
    · exact go k

/-- Moving a descriptor latches classes at most. -/
theorem State.moveAll_latches (s : State) (n : Nat) (d : Desc) (e : MoveEnd) : Latches s (s.moveAll n d e).s := by
  have fold {α : Type} (f : Mover → α → Mover) (step : ∀ m a, Latches m.s (f m a).s) (l : List α) (m : Mover) :
      Latches m.s (l.foldl f m).s := by
    induction l generalizing m with
    | nil => exact .of_still rfl
    | cons a t ih => exact (step m a).trans (ih (f m a))
  unfold State.moveAll
  extract_lets x
  exact fold _ (fun m i => fold _ (fun m j => m.beat_latches n x d e i j) _ m) _ { s := s }

theorem State.sendWriteback_still (s : State) (n : Nat) (b : List Byte) (status done : Nat) :
    (s.sendWriteback n b status done).still = s.still := by
  have sent (e : Emit) : (s.emit e).still = s.still := (s.emit_posted e).still
  rw [State.sendWriteback]
  generalize State.physOf _ _ = line
  split
  · cases line with
    | none => exact sent _
    | some p => exact (State.writeLine_still _ _ _ _).trans ((State.access_still _ _).trans (sent _))
  · exact sent _

/-- Channel `n` ends its descriptor, and no channel takes one; domains, pattern and latched classes stay. -/
structure Stopped (n : Nat) (s t : State) : Prop where
  pat : t.pat = s.pat
  doms : t.pwr.doms = s.pwr.doms
  status : ∀ i, s.flt.status.getLsbD i = true → t.flt.status.getLsbD i = true
  gone : (t.chan n).desc = none
  none_ : ∀ m, (s.chan m).desc = none → (t.chan m).desc = none

theorem State.chan_of_still {s t : State} (h : t.chans = s.chans) (m : Nat) : t.chan m = s.chan m := by
  rw [State.chan, h, ← State.chan]

/-- A channel without a descriptor is stopped. -/
theorem Stopped.of_none {n : Nat} {s : State} (gone : (s.chan n).desc = none) : Stopped n s s :=
  ⟨rfl, rfl, fun _ on => on, gone, fun _ h => h⟩

theorem Stopped.of_latches {n : Nat} {s t u : State} (h : Latches s t) (g : Stopped n t u) : Stopped n s u := by
  obtain ⟨m, h⟩ := h
  have chans (j : Nat) : t.chan j = s.chan j := State.chan_of_still (congrArg Still.chans h :) j
  refine ⟨g.pat.trans (congrArg Still.pat h :), g.doms.trans (congrArg Still.doms h :), fun i on => g.status i ?_, g.gone,
    fun j gone => g.none_ j (by rw [chans, gone])⟩
  have status : t.flt.status = s.flt.status ||| m := (congrArg Still.status h :)
  rw [status, BitVec.getLsbD_or, on, Bool.true_or]

theorem Stopped.latches {n : Nat} {s t u : State} (g : Stopped n s t) (h : Latches t u) : Stopped n s u := by
  obtain ⟨m, h⟩ := h
  have chans (j : Nat) : u.chan j = t.chan j := State.chan_of_still (congrArg Still.chans h :) j
  refine ⟨(congrArg Still.pat h :).trans g.pat, (congrArg Still.doms h :).trans g.doms, fun i on => ?_, by rw [chans, g.gone],
    fun j gone => by rw [chans, g.none_ j gone]⟩
  have status : u.flt.status = t.flt.status ||| m := (congrArg Still.status h :)
  rw [status, BitVec.getLsbD_or, g.status i on, Bool.true_or]

theorem State.setChan_stopped (s : State) (n : Nat) {x : Chan} (gone : x.desc = none) : Stopped n s (s.setChan n x) := by
  refine ⟨rfl, rfl, fun _ on => on, ?_, fun m none_ => ?_⟩
  · rw [State.setChan_chan, if_pos rfl, gone]
  · rw [State.setChan_chan]
    split
    · exact gone
    · exact none_

/-- A descriptor that ends leaves its channel without one (R315). -/
theorem State.descEnd_stopped (s : State) (n : Nat) (b : List Byte) (status done : Nat) : Stopped n s (s.descEnd n b status done) := by
  unfold State.descEnd
  split
  · extract_lets t x head u
    have sent : Latches s t := .of_still (s.sendWriteback_still n b status done)
    have ends : Stopped n s u := .of_latches sent (t.setChan_stopped n rfl)
    split
    · exact ends.latches (.of_still (State.post_posted _ _ _ _).still)
    · exact ends
  · exact s.setChan_stopped n rfl

theorem State.stopChan_stopped (s : State) (n : Nat) : Stopped n s (s.stopChan n) := by
  unfold State.stopChan
  extract_lets x r
  split
  next d _ =>
    extract_lets per lim m
    have moved : Latches s m.s := (Latches.of_still (s := s) (t := r.1) rfl).trans (State.moveAll_latches _ _ _ _)
    have counted := moved.trans (.of_still (m.s.count_still 6 0 m.beats))
    exact (Stopped.of_latches counted (State.descEnd_stopped _ _ _ _ _)).latches (.of_still (State.bump_still _ _ _))
  next gone => exact .of_none gone

/-- A forced power-down stops every channel that moves on the stack, and latches class 29 (R319). -/
theorem State.forceStops_spec (s : State) (l : List Nat) :
    let t := l.foldl (fun s n => (s.stopChan n).raiseDev 29) s
    t.pat = s.pat ∧ t.pwr.doms = s.pwr.doms ∧ (∀ i, s.flt.status.getLsbD i = true → t.flt.status.getLsbD i = true) ∧
      (∀ m, (s.chan m).desc = none → (t.chan m).desc = none) ∧ (∀ n ∈ l, (t.chan n).desc = none) ∧
      (l ≠ [] → t.flt.status.getLsbD 29 = true) := by
  induction l generalizing s with
  | nil => exact ⟨rfl, rfl, fun _ on => on, fun _ h => h, List.forall_mem_nil _, fun h => absurd rfl h⟩
  | cons n l ih =>
    have stop : Stopped n s ((s.stopChan n).raiseDev 29) := (s.stopChan_stopped n).latches (State.raiseDev_latches _ 29 0 0)
    have latched : ((s.stopChan n).raiseDev 29).flt.status.getLsbD 29 = true := by
      have status := (congrArg Still.status ((s.stopChan n).raiseDev_still 29 0 0) :)
      rw [show ((s.stopChan n).raiseDev 29).flt.status = _ from status, BitVec.getLsbD_or]
      simp
    obtain ⟨pat, doms, status, none_, gone, -⟩ := ih ((s.stopChan n).raiseDev 29)
    refine ⟨pat.trans stop.pat, doms.trans stop.doms, fun i on => status i (stop.status i on), fun m h => none_ m (stop.none_ m h),
      fun m mem => ?_, fun _ => status 29 latched⟩
    obtain rfl | mem := List.mem_cons.1 mem
    · exact none_ m stop.gone
    · exact gone m mem

end Sys2Proof.Machine
end
section
/-!
O55: sleep requests of stacks and quadrants, and their wake (R51, R319, R377, R378).
-/
namespace Sys2Proof.Machine

theorem State.nStacks_le (s : State) : s.nStacks ≤ 4 := by
  unfold State.nStacks
  split <;> decide

theorem State.dom_of_pwr {s t : State} (h : t.pwr.doms = s.pwr.doms) (d : Nat) : t.dom d = s.dom d := by
  rw [State.dom, h, ← State.dom]

/-- A write of a sleep request goes to the domain's own control, or is ignored where the part has none. -/
theorem execDomainSleepWrite_eq {s : State} (live : s.live = true) (d : Nat) (v : Word) :
    exec (.domainSleepWrite d v) s = .next (s.domWrite d v) := congrArg Host.Outcome.next (if_pos live)

theorem State.domWrite_stack {s : State} {k : Nat} (small : k < s.nStacks) (v : Word) : s.domWrite k v = s.stackCtl k v :=
  if_pos small

theorem State.domWrite_quad {s : State} {q : Nat} (small : q < s.nQuads) (v : Word) : s.domWrite (4 + q) v = s.quadCtl q v := by
  have few := s.nStacks_le
  rw [State.domWrite, if_neg (by omega), if_pos ⟨by omega, by omega⟩, Nat.add_sub_cancel_left]

theorem State.domWrite_none {s : State} {d : Nat} (stack : s.nStacks ≤ d) (quad : d < 4 ∨ s.nQuads ≤ d - 4) (v : Word) :
    s.domWrite d v = s.ignored (0x70010 + 4 * d) v := by
  rw [State.domWrite, if_neg (by omega), if_neg (by omega)]

/-- A stack's request that nothing bars and that has not taken effect (R319, R378): forced, it stops the channels that move on the stack. -/
theorem State.stackCtl_asks {s : State} {k : Nat} {v : Word} (on : v.getLsbD 0 = true) (may : s.stackBars k = false)
    (awake : (s.dom k).st ≠ 1) (still : (s.dom k).st ≠ 4) :
    s.stackCtl k v =
      let t := s.setDom k { s.dom k with sleep := true, force := v.getLsbD 1 }
      (if v.getLsbD 1 then t.forceStops k else t).showHeld k := by
  simp only [State.stackCtl, bit, on, may, awake, still, Bool.not_true, Bool.false_eq_true, or_self, if_false]
  rfl

theorem State.stackSleepOp_sleeps {s : State} {k : Nat} (live : s.live = true) (small : k < s.nStacks) (asked : (s.dom k).sleep = true)
    (awake : (s.dom k).st ≠ 1) (still : (s.dom k).st ≠ 4) (may : s.stackBars k = false) (free : (s.stackHeld k).1 = 0) :
    s.stackSleepOp k = (s.setDom k { s.dom k with st := 1, holder := 0 }).setStack k
      { (s.stack k).closeRows (fun _ _ => true) with sr := 0xF, pd := 0 } := by
  simp [State.stackSleepOp, live, small, asked, awake, still, may, free]

/-- A quadrant's request powers its idle tile `t` off (R377), but for what R51 and R253 hold. -/
def State.quadTile (q : Nat) (s : State) (t : Nat) : State :=
  if quadOf t == q && (s.tile t).work.isNone && (s.tile t).power == .nap && (s.tile t).role != .selfTest && !s.pressNeeds t &&
      !((s.tile t).role == .spare && s.holdsLive (s.tile t).panel)
  then s.poweredOff t else s

theorem State.quadOff_eq (s : State) (q : Nat) : s.quadOff q = (upto s.nTiles).foldl (State.quadTile q) s := rfl

theorem State.poweredOff_offTiles (s : State) (k : Nat) : (s.poweredOff k).offTiles = s.offTiles :=
  (State.setTile_offTiles _ _ _).trans (s.flushInbox_offTiles k)

theorem State.quadTile_offTiles (q : Nat) (s : State) (t : Nat) : (s.quadTile q t).offTiles = s.offTiles := by
  unfold State.quadTile
  split
  · exact s.poweredOff_offTiles t
  · rfl

theorem State.quadTile_other (q : Nat) (s : State) (t k : Nat) (ne : k ≠ t) : (s.quadTile q t).tile k = s.tile k := by
  unfold State.quadTile
  split
  · exact (s.poweredOff_rest t).2.1 k ne
  · rfl

/-- A tile of the quadrant that naps without work, and that nothing holds, powers off. -/
theorem State.quadTile_off {q : Nat} {s : State} {t : Nat} (mine : quadOf t = q) (idle : (s.tile t).work = none)
    (nap : (s.tile t).power = .nap) (inService : (s.tile t).role ≠ .selfTest)
    (cold : (s.tile t).role = .spare → s.holdsLive (s.tile t).panel = false) (free : s.pressNeeds t = false) :
    s.quadTile q t = s.poweredOff t := by
  refine if_pos ?_
  simpa [mine, idle, nap, inService, free, imp_iff_not_or] using cold

/-- A tile that is off already, or another quadrant's, stays as it is. -/
theorem State.quadTile_stays {q : Nat} {s : State} {t : Nat} (h : quadOf t = q → (s.tile t).power = .off) : s.quadTile q t = s := by
  refine if_neg fun go => ?_
  simp only [Bool.and_eq_true, beq_iff_eq] at go
  obtain ⟨⟨⟨⟨⟨mine, -⟩, nap⟩, -⟩, -⟩, -⟩ := go
  rw [h mine] at nap
  cases nap

/-- What a quadrant's request does to its tiles (R377). -/
theorem State.quadOff_spec (s : State) (q : Nat) :
    (s.quadOff q).offTiles = s.offTiles ∧ OtherTiles s (s.quadOff q) (fun i => i < s.nTiles ∧ quadOf i = q) ∧
      ∀ i, i < s.nTiles → quadOf i = q → (s.tile i).work = none → (s.tile i).power = .nap → (s.tile i).role ≠ .selfTest →
        ((s.tile i).role = .spare → s.holdsLive (s.tile i).panel = false) → s.pressNeeds i = false →
        ((s.quadOff q).tile i).power = .off ∧ ((s.quadOff q).tile i).inbox = [] ∧ ((s.quadOff q).tile i).role = (s.tile i).role := by
  have keep := State.quadTile_offTiles q
  have other := State.quadTile_other q
  have at_ {i : Nat} (small : i < s.nTiles) := foldl_at State.tile State.offTiles (State.quadTile q) keep other (nodup_upto s.nTiles)
    (mem_upto.2 small) s
  rw [State.quadOff_eq]
  refine ⟨foldl_keeps State.offTiles _ keep _ s, fun i away => ?_, fun i small mine idle nap inService cold free => ?_⟩
  · by_cases small : i < s.nTiles
    · obtain ⟨u, -, before, after⟩ := at_ small
      have stays : (u.quadTile q i).tile i = u.tile i :=
        congrArg (State.tile · i) (if_neg (by simp [show quadOf i ≠ q from fun mine => away ⟨small, mine⟩]))
      rw [after, stays, before]
    · exact foldl_other State.tile _ other (fun mem => small (mem_upto.1 mem)) s
  · obtain ⟨u, rest, before, after⟩ := at_ small
    have live (p : Nat) : u.holdsLive p = s.holdsLive p := (congrArg (State.holdsLive · p) rest :)
    have needs : u.pressNeeds i = s.pressNeeds i := (congrArg (State.pressNeeds · i) rest :)
    rw [← before] at idle nap inService cold
    have off : u.quadTile q i = u.poweredOff i :=
      State.quadTile_off mine idle nap inService (fun spare => (live _).trans (cold spare)) (needs.trans free)
    have own := u.poweredOff_tile i
    rw [after, off, ← before]
    exact ⟨(congrArg Tile.power own :), (congrArg Tile.inbox own :), (congrArg Tile.role own :)⟩

/-- With every tile of the quadrant off, QUADRANT_SLEEP stops its PLL (R377). -/
theorem State.quadSleepOp_stops {s : State} {q : Nat} (live : s.live = true) (small : q < s.nQuads) (asked : (s.dom (4 + q)).sleep = true)
    (off : ∀ i, i < s.nTiles → quadOf i = q → (s.tile i).power = .off ∧ (s.tile i).role ≠ .selfTest)
    (free : s.pressNeedsQuad q = false) :
    s.quadSleepOp q = s.setQuad q { s.quad q with pll := false, mhz := 0, stepAt := none } := by
  have stays : s.quadOff q = s := by
    have step (l : List Nat) (mem : ∀ i ∈ l, i < s.nTiles) : l.foldl (State.quadTile q) s = s := by
      induction l with
      | nil => rfl
      | cons i l ih =>
        obtain ⟨small, rest⟩ := List.forall_mem_cons.1 mem
        rw [List.foldl_cons, State.quadTile_stays fun mine => (off i small mine).1, ih rest]
    exact step _ fun i mem => mem_upto.1 mem
  have go : (s.live && decide (q < s.nQuads) && (s.dom (4 + q)).sleep) = true := by simp [live, small, asked]
  have all : ((upto s.nTiles).all fun i => quadOf i != q || ((s.tile i).power == .off && (s.tile i).role != .selfTest)) = true :=
    List.all_eq_true.2 fun i mem => by
      by_cases mine : quadOf i = q
      · obtain ⟨power, inService⟩ := off i (mem_upto.1 mem) mine
        simp [power, inService]
      · simp [mine]
  rw [State.quadSleepOp, if_pos go, stays]
  exact if_pos (by rw [free, all]; rfl)

/-- A request that is not forced shows what holds it (R378). -/
theorem State.stackCtl_soft {s : State} {k : Nat} {v : Word} (on : v.getLsbD 0 = true) (soft : v.getLsbD 1 = false)
    (may : s.stackBars k = false) (awake : (s.dom k).st ≠ 1) (still : (s.dom k).st ≠ 4) :
    let t := s.stackCtl k v
    t = { s with pwr := t.pwr } ∧ (∀ m, m ≠ k → t.dom m = s.dom m) ∧
      t.dom k = { sleep := true, force := false, st := (s.stackHeld k).1, holder := (s.stackHeld k).2 } := by
  rw [State.stackCtl_asks on may awake still]
  simp only [soft, Bool.false_eq_true, if_false]
  refine ⟨rfl, fun m ne => ?_, ?_⟩
  · rw [State.showHeld, State.setDom_dom, if_neg ne, State.setDom_dom, if_neg ne]
  · rw [State.showHeld, State.setDom_dom, if_pos rfl, State.setDom_dom, if_pos rfl]
    rfl

/-- A forced one stops the channels that move on the stack (R319). -/
theorem State.stackCtl_forced {s : State} {k : Nat} {v : Word} (on : v.getLsbD 0 = true) (force : v.getLsbD 1 = true)
    (may : s.stackBars k = false) (awake : (s.dom k).st ≠ 1) (still : (s.dom k).st ≠ 4) (moving : s.movingOn k ≠ []) :
    let t := s.stackCtl k v
    (t.dom k).sleep = true ∧ t.flt.status.getLsbD 29 = true ∧ (∀ n ∈ s.movingOn k, (t.chan n).desc = none) ∧ t.pat = s.pat := by
  rw [State.stackCtl_asks on may awake still]
  simp only [force, if_true]
  obtain ⟨pat, doms, -, -, gone, latched⟩ :=
    State.forceStops_spec (s.setDom k { s.dom k with sleep := true, force := true }) (s.movingOn k)
  have own : ((s.setDom k { s.dom k with sleep := true, force := true }).forceStops k).dom k =
      { s.dom k with sleep := true, force := true } :=
    (State.dom_of_pwr doms k).trans ((State.setDom_dom _ _ _ _).trans (if_pos rfl))
  refine ⟨?_, latched moving, gone, pat⟩
  rw [State.showHeld, State.setDom_dom, if_pos rfl, own]

/-- A stack whose domain and record are written: nothing else of the device changes. -/
theorem State.setDom_setStack (s : State) (k : Nat) (x : Dom) (y : Stack) :
    let t := (s.setDom k x).setStack k y
    t = { s with pwr := t.pwr, hbm := t.hbm } ∧ (∀ m, m ≠ k → t.dom m = s.dom m) ∧ t.dom k = x ∧ t.stack k = y ∧
      ∀ j, j ≠ k → t.stack j = s.stack j := by
  refine ⟨rfl, fun m ne => (State.setDom_dom _ _ _ _).trans (if_neg ne), (State.setDom_dom _ _ _ _).trans (if_pos rfl), ?_,
    fun j ne => ?_⟩
  · rw [State.setStack_stack, if_pos rfl]
  · rw [State.setStack_stack, if_neg ne]
    rfl

/-- A quadrant's request that nothing bars (R377). -/
theorem State.quadCtl_asks {s : State} {q : Nat} {v : Word} (on : v.getLsbD 0 = true) (may : s.quadBars q = false) :
    let t := s.quadCtl q v
    t = { s with pwr := t.pwr, tiles := t.tiles, regs := t.regs } ∧ (∀ m, m ≠ 4 + q → t.dom m = s.dom m) ∧
      t.dom (4 + q) = { s.dom (4 + q) with sleep := true } ∧ OtherTiles s t (fun i => i < s.nTiles ∧ quadOf i = q) ∧
      ∀ i, i < s.nTiles → quadOf i = q → (s.tile i).work = none → (s.tile i).power = .nap → (s.tile i).role ≠ .selfTest →
        ((s.tile i).role = .spare → s.holdsLive (s.tile i).panel = false) → s.pressNeeds i = false →
        (t.tile i).power = .off ∧ (t.tile i).inbox = [] ∧ (t.tile i).role = (s.tile i).role := by
  have eq : s.quadCtl q v = (s.setDom (4 + q) { s.dom (4 + q) with sleep := true }).quadOff q := by
    simp only [State.quadCtl, bit, on, may, Bool.not_true, Bool.false_eq_true, if_false]
  rw [eq]
  obtain ⟨rest, others, offs⟩ := (s.setDom (4 + q) { s.dom (4 + q) with sleep := true }).quadOff_spec q
  have doms (m : Nat) : ((s.setDom (4 + q) { s.dom (4 + q) with sleep := true }).quadOff q).dom m =
      if m = 4 + q then { s.dom (4 + q) with sleep := true } else s.dom m :=
    (congrArg (State.dom · m) rest :).trans (State.setDom_dom _ _ _ _)
  refine ⟨?_, fun m ne => (doms m).trans (if_neg ne), (doms _).trans (if_pos rfl), others, offs⟩
  generalize (s.setDom (4 + q) { s.dom (4 + q) with sleep := true }).quadOff q = t at *
  calc t = { t.offTiles with pwr := t.pwr, tiles := t.tiles, regs := t.regs } := rfl
    _ = { s with pwr := t.pwr, tiles := t.tiles, regs := t.regs } := by rw [rest]; rfl

/-- Settles O55, by what each domain's control does, by what a forced power-down stops, and by what powers a quadrant's tiles off. -/
theorem domainSleep : Obligations.DomainSleep := by
  intro s k q d v live off x onlyDom
  refine ⟨fun small => ⟨fun low => ?_, fun on bars => ?_, fun on may awake still => ⟨fun soft => ?_, fun force moving => ?_⟩,
    fun asked awake still may free => ?_, fun no => ?_⟩, fun wakes => ?_, fun no => ?_,
    fun small => ⟨fun low => ?_, fun on bars => ?_, fun on may => ?_, fun asked tiles free => ?_, fun no => ?_⟩,
    fun _ stack quad => ?_⟩
  · rw [execDomainSleepWrite_eq live, State.domWrite_stack small]
    exact congrArg Host.Outcome.next (if_pos (by simp only [bit, low, Bool.not_false]))
  · rw [execDomainSleepWrite_eq live, State.domWrite_stack small]
    exact congrArg Host.Outcome.next ((if_neg (by simp [bit, on])).trans (if_pos bars))
  · exact ⟨_, (execDomainSleepWrite_eq live k v).trans (congrArg Host.Outcome.next (State.domWrite_stack small v)),
      State.stackCtl_soft on soft may awake still⟩
  · exact ⟨_, (execDomainSleepWrite_eq live k v).trans (congrArg Host.Outcome.next (State.domWrite_stack small v)),
      State.stackCtl_forced on force may awake still moving⟩
  · obtain ⟨rest, doms, own, stack, others⟩ := s.setDom_setStack k { s.dom k with st := 1, holder := 0 }
      { (s.stack k).closeRows (fun _ _ => true) with sr := 0xF, pd := 0 }
    exact ⟨_, congrArg Host.Outcome.next (State.stackSleepOp_sleeps live small asked awake still may free), rest, doms, own,
      congrArg Stack.sr stack, congrArg Stack.pd stack, others⟩
  · exact congrArg Host.Outcome.next (if_neg (by simp [show (s.dom k).sleep = false from no]))
  · exact ⟨_, congrArg Host.Outcome.next (if_pos (by simp [live, show (s.dom k).st = 4 from wakes])), s.setDom_setStack k _ _⟩
  · exact congrArg Host.Outcome.next (if_neg (by simp [show (s.dom k).st ≠ 4 from no]))
  · rw [execDomainSleepWrite_eq live, State.domWrite_quad small]
    exact congrArg Host.Outcome.next (if_pos (by simp only [bit, low, Bool.not_false]))
  · rw [execDomainSleepWrite_eq live, State.domWrite_quad small]
    exact congrArg Host.Outcome.next ((if_neg (by simp [bit, on])).trans (if_pos bars))
  · exact ⟨_, (execDomainSleepWrite_eq live (4 + q) v).trans (congrArg Host.Outcome.next (State.domWrite_quad small v)),
      State.quadCtl_asks on may⟩
  · exact congrArg Host.Outcome.next (State.quadSleepOp_stops live small asked tiles free)
  · exact congrArg Host.Outcome.next (if_neg (by simp [no]))
  · rw [execDomainSleepWrite_eq live, State.domWrite_none stack quad]

end Sys2Proof.Machine
end

section
/-!
O15: an OPEN that frees no page still looks at HMP_LOW (R172), so it can post the event of a low hamper.
-/
namespace Sys2Proof.Machine

/-- A woven device of one panel for LIVE sessions whose pattern declares no hamper page, after its host wrote 1 to HMP_LOW: no event
has gone out for it yet. -/
def belowLow : State :=
  { pwr := { life := .up }
    pat := { serial := 1, panels := [(0, { tiles := 1, classes := 1, maxSes := 1 })] }
    regs := [(0xB000C, 1)] }

/-- Reached by the host's write of HMP_LOW, whose value had been 0. -/
theorem belowLow_reached : exec (.registerWrite 0 0xB000C (.words [1])) { belowLow with regs := [] } = .next belowLow := by
  rfl

theorem belowLow_reaches : Reaches belowLow 0 0 0 := ⟨by decide, .inl rfl, by decide⟩

theorem belowLow_serving : Serving belowLow := .inl (by decide)

/-- OPEN of session 0 counts one lost event in the host port. -/
theorem belowLow_open_lost : ((effect (.openSession 0 0 0) belowLow).fn 0).lost = 1 := by decide

/-- Refutes O15: OPEN of a record that holds no page and no picture posts the event of HMP_FREE below HMP_LOW, so the host port
changes. -/
theorem not_openAndConfigure : ¬ Obligations.OpenAndConfigure := by
  unfold Obligations.OpenAndConfigure
  rintro ⟨opens, -⟩
  obtain ⟨accepted, -⟩ := opens belowLow 0 0 0 belowLow_reaches belowLow_serving rfl rfl (by decide)
  obtain ⟨t, run, after⟩ := accepted (by decide) (by decide)
  obtain ⟨-, -, -, -, -, -, -, -, -, -, -, quiet⟩ := after
  obtain ⟨-, -, -, hif, -⟩ := quiet rfl rfl
  have lost : (t.fn 0).lost = 1 := effect_of_exec run ▸ belowLow_open_lost
  rw [State.fn, hif] at lost
  exact absurd lost (by decide)

end Sys2Proof.Machine
end

section
/-!
O18: MIGRATE_OUT (R65, R70), INVALIDATE_REF (R68) and FORCE_RECOVERY (R69).
-/
namespace Sys2Proof.Machine

/-- A command that R429 accepts has its effect on the session that the function reaches. -/
theorem State.cmdVia_accepted {s : State} {fn n k cmd : Nat} {arg : BitVec 24} (h : Reaches s fn n k) (lo : 1 ≤ cmd)
    (hi : cmd ≤ 11) (why : s.cmdReason k cmd arg.toNat = none) : s.cmdVia fn n cmd arg = s.cmdEffect k cmd arg.toNat := by
  obtain ⟨code, argument⟩ := fld_cmdWord (by omega : cmd < 16) arg
  rw [State.cmdVia, State.onSes_of_reaches h, State.sesCmd]
  simp only [code, argument, why]
  rw [if_neg (by omega)]

/-- `t` differs from `s` in the records of the sessions that `p` holds of alone. -/
structure RecordsOnly (p : Nat → Prop) (s t : State) : Prop where
  frame : t = { s with sessions := t.sessions }
  others : OtherSessions s t p

theorem RecordsOnly.rfl {p : Nat → Prop} {s : State} : RecordsOnly p s s := ⟨Eq.refl _, fun _ _ => Eq.refl _⟩

theorem RecordsOnly.trans {p : Nat → Prop} {s t u : State} (h : RecordsOnly p s t) (k : RecordsOnly p t u) : RecordsOnly p s u :=
  ⟨k.frame.trans (by rw [h.frame]), h.others.trans k.others⟩

theorem RecordsOnly.mono {p q : Nat → Prop} {s t : State} (h : RecordsOnly p s t) (sub : ∀ m, p m → q m) : RecordsOnly q s t :=
  ⟨h.frame, fun m hm => h.others m fun g => hm (sub m g)⟩

theorem State.setSes_recordsOnly (s : State) (n : Nat) (x : Session) : RecordsOnly (· = n) s (s.setSes n x) :=
  ⟨rfl, fun m hm => by simp [hm]⟩

/-- The fold of a session is its last publication: the generation at both ends of the fold area and in ME_STAT's copy, and SES_CFG_SEQ
of the last committed picture (R72, R74, R132). -/
def Session.Shows (x : Session) : Prop :=
  tget 0 x.fold 0x380 = x.foldGen ∧ tget 0 x.fold 0x3FC = x.foldGen ∧ tget 0 x.fold 0x1F0 = x.foldGen ∧
    tget 0 x.fold 0x388 = x.commitSeq

/-- A publication changes the session's record alone: FOLD_GEN rises by one, and the new fold shows it (R72). -/
theorem State.publish_spec (s : State) (n : Nat) : RecordsOnly (· = n) s (s.publish n) ∧
    ∃ f, (s.publish n).ses n = { s.ses n with foldGen := (s.ses n).foldGen + 1, fold := f } ∧
      ((s.publish n).ses n).Shows := by
  refine ⟨s.setSes_recordsOnly n _, ((s.publish n).ses n).fold, ?_, ?_⟩
  · simp only [State.publish, State.setSes_ses, if_true]
  · simp [Session.Shows, State.publish, State.foldNow, tget_tset]

/-- A change of state changes the session's record alone and publishes once (R72); mig_failed clears (R71). -/
theorem State.setSt_spec (s : State) (n : Nat) (st : Ses) : RecordsOnly (· = n) s (s.setSt n st) ∧
    ∃ f, (s.setSt n st).ses n = { s.ses n with
      st := st, prior := .closed, migFailed := false, cwords := (s.ses n).meWords
      foldGen := (s.ses n).foldGen + 1, fold := f } ∧ ((s.setSt n st).ses n).Shows := by
  let y : Session := { s.ses n with st := st, prior := .closed, migFailed := false, cwords := (s.ses n).meWords }
  obtain ⟨only, f, record, shows⟩ := State.publish_spec (s.setSes n y) n
  rw [State.setSes_ses, if_pos rfl] at record
  exact ⟨(s.setSes_recordsOnly n y).trans only, f, record, shows⟩

/-- A session enters MIGRATING as a source (R59, R70). -/
theorem State.toMigrating_spec (s : State) (n : Nat) (auto : Bool) : RecordsOnly (· = n) s (s.toMigrating n auto) ∧
    ∃ f, (s.toMigrating n auto).ses n = { s.ses n with
      st := .migrating, prior := (s.ses n).st, migFailed := false, foldGen := (s.ses n).foldGen + 1, fold := f
      mig := some { out := true, peer := fld (s.ses n).migrate 17 0, peerSes := fld (s.ses n).migrate 29 18
                    started := s.now, auto := auto } } := by
  obtain ⟨only, f, record, -⟩ := State.publish_spec (s.setSes n { s.ses n with
    st := .migrating, prior := (s.ses n).st, migFailed := false
    mig := some { out := true, peer := fld (s.ses n).migrate 17 0, peerSes := fld (s.ses n).migrate 29 18
                  started := s.now, auto := auto } }) n
  rw [State.setSes_ses, if_pos rfl] at record
  exact ⟨(s.setSes_recordsOnly n _).trans only, f, record⟩

/-- A member that is not yet migrating enters MIGRATING with its group (R65). -/
def State.joinMigrating (auto : Bool) (s : State) (m : Nat) : State :=
  if (s.ses m).st == .migrating then s else s.toMigrating m auto

theorem State.joinMigrating_only (auto : Bool) (s : State) (m : Nat) : RecordsOnly (· = m) s (s.joinMigrating auto m) := by
  unfold State.joinMigrating
  split
  · exact .rfl
  · exact (s.toMigrating_spec m auto).1

theorem State.joinMigrating_st (auto : Bool) (s : State) (m : Nat) : ((s.joinMigrating auto m).ses m).st = .migrating := by
  unfold State.joinMigrating
  split
  · simp_all
  · obtain ⟨-, f, record⟩ := s.toMigrating_spec m auto
    rw [record]

/-- Once a session migrates, no member that joins after it changes that. -/
theorem State.foldl_joinMigrating_keeps (auto : Bool) (l : List Nat) (s : State) (m : Nat) (h : (s.ses m).st = .migrating) :
    ((l.foldl (State.joinMigrating auto) s).ses m).st = .migrating := by
  induction l generalizing s with
  | nil => exact h
  | cons a t ih =>
    refine ih _ ?_
    by_cases same : m = a
    · exact same ▸ s.joinMigrating_st auto a
    · rw [(s.joinMigrating_only auto a).others m same, h]

/-- Every member enters MIGRATING, and no other record changes (R65). -/
theorem State.foldl_joinMigrating_spec (auto : Bool) (l : List Nat) (s : State) :
    RecordsOnly (· ∈ l) s (l.foldl (State.joinMigrating auto) s) ∧
      ∀ m ∈ l, ((l.foldl (State.joinMigrating auto) s).ses m).st = .migrating := by
  induction l generalizing s with
  | nil => exact ⟨.rfl, fun _ h => absurd h List.not_mem_nil⟩
  | cons a t ih =>
    obtain ⟨only, all⟩ := ih (s.joinMigrating auto a)
    refine ⟨((s.joinMigrating_only auto a).mono fun m h => by simp [h]).trans (only.mono fun m h => by simp [h]), ?_⟩
    intro m mem
    rcases List.mem_cons.1 mem with rfl | mem
    · exact State.foldl_joinMigrating_keeps auto t _ m (s.joinMigrating_st auto m)
    · exact all m mem

theorem State.migrateOut_group (s : State) (n : Nat) (auto : Bool) (member : (s.ses n).member = true) :
    s.migrateOut n auto = (s.members n).foldl (State.joinMigrating auto) s := by
  simp only [State.migrateOut, member, if_true]
  rfl

theorem State.migrateOut_alone (s : State) (n : Nat) (auto : Bool) (member : (s.ses n).member = false) :
    s.migrateOut n auto = s.toMigrating n auto := by
  simp [State.migrateOut, member]

/-- What INVALIDATE_REF leaves of a session (R68). -/
def Session.invalidated (x : Session) (m : Nat) : Session :=
  { x with
    refs := x.refs.filter fun r => !laterEq r m
    ltr := x.ltr.filter fun r => !laterEq r m
    pics := x.pics.map fun p => if laterEq p.num m then { p with noRef := true } else p
    invalN := match x.invalN with
      | some k => some (if laterEq m k then k else m)
      | none => some m }

theorem State.invalidateOp_eq (s : State) (n m : Nat) : s.invalidateOp n m = s.setSes n ((s.ses n).invalidated m) := rfl

/-- Settles O18: MIGRATE_OUT by whether the session is in a group, the two reference commands by what they write. -/
theorem migrateOutAndReferences : Obligations.MigrateOutAndReferences := by
  unfold Obligations.MigrateOutAndReferences
  refine ⟨fun s fn n k arg reach accepted => ?_, fun s fn n k arg reach => ⟨fun accepted => ?_, fun accepted => ?_⟩⟩
  · refine ⟨s.migrateOut k false, congrArg _ (State.cmdVia_accepted reach (by decide) (by decide) accepted), ?_, ?_⟩
    · intro alone
      obtain ⟨only, f, record⟩ := s.toMigrating_spec k false
      rw [State.migrateOut_alone s k false alone, record]
      exact ⟨only.frame, only.others, rfl, rfl, rfl, rfl, rfl, rfl⟩
    · intro member
      obtain ⟨only, all⟩ := State.foldl_joinMigrating_spec false (s.members k) s
      rw [State.migrateOut_group s k false member]
      exact ⟨only.frame, only.others, all⟩
  · refine ⟨s.invalidateOp k arg.toNat, congrArg _ (State.cmdVia_accepted reach (by decide) (by decide) accepted), ?_⟩
    have only := s.setSes_recordsOnly k ((s.ses k).invalidated arg.toNat)
    rw [State.invalidateOp_eq]
    refine ⟨only.frame, only.others, ?_⟩
    rw [State.setSes_ses, if_pos rfl]
    refine ⟨rfl, fun r => ?_, fun r => ?_, fun none => ?_, fun m some => ?_⟩
    · simp [Session.invalidated]
    · simp [Session.invalidated, Option.filter_eq_some_iff]
    · simp [Session.invalidated, none]
    · simp [Session.invalidated, some]
  · exact congrArg _ (State.cmdVia_accepted (cmd := 11) reach (by decide) (by decide) accepted)

end Sys2Proof.Machine
end

section
/-!
O16: START, PAUSE and RESUME (R59), and the fold that each publishes (R72, R132).
-/
namespace Sys2Proof.Machine

/-- `t` differs from `s` in the record of session `n`, in subscribers and in plain registers alone. -/
structure AroundRecord (n : Nat) (s t : State) : Prop where
  frame : t = { s with sessions := t.sessions, subs := t.subs, regs := t.regs }
  others : OtherSessions s t (· = n)

theorem AroundRecord.rfl {n : Nat} {s : State} : AroundRecord n s s := ⟨Eq.refl _, fun _ _ => Eq.refl _⟩

theorem AroundRecord.trans {n : Nat} {s t u : State} (h : AroundRecord n s t) (k : AroundRecord n t u) : AroundRecord n s u :=
  ⟨k.frame.trans (by rw [h.frame]), h.others.trans k.others⟩

theorem RecordsOnly.around {n : Nat} {s t : State} (h : RecordsOnly (· = n) s t) : AroundRecord n s t :=
  ⟨h.frame.trans (by rw [h.frame]), h.others⟩

theorem InRecord.around {n : Nat} {s t : State} (h : InRecord n s t) : AroundRecord n s t :=
  ⟨h.frame.trans (by rw [h.frame]), h.others⟩

/-- The parts that the statements on session commands name. -/
theorem AroundRecord.parts {n : Nat} {s t : State} (h : AroundRecord n s t) :
    OtherSessions s t (· = n) ∧ t.tiles = s.tiles ∧ t.pat = s.pat ∧ t.hif = s.hif :=
  ⟨h.others, (congrArg State.tiles h.frame :), (congrArg State.pat h.frame :), (congrArg State.hif h.frame :)⟩

/-- The live floor of a panel is a plain register (R82). -/
theorem State.refloor_spec (s : State) (p n : Nat) : AroundRecord n s (s.refloor p) ∧ (s.refloor p).sessions = s.sessions := by
  unfold State.refloor
  split
  · exact ⟨⟨rfl, fun _ _ => rfl⟩, rfl⟩
  · exact ⟨.rfl, rfl⟩

/-- A change of a LIVE session's state recomputes its panel's floor (R82). -/
theorem State.liveRefloor_spec (s : State) (live : Prop) [Decidable live] (p n : Nat) :
    AroundRecord n s (if live then s.refloor p else s) ∧ (if live then s.refloor p else s).sessions = s.sessions := by
  split
  · exact s.refloor_spec p n
  · exact ⟨.rfl, rfl⟩

theorem AroundRecord.foldl {α : Type} {n : Nat} (f : State → α → State) (h : ∀ s a, AroundRecord n s (f s a)) (l : List α) (s : State) :
    AroundRecord n s (l.foldl f s) := by
  induction l generalizing s with
  | nil => exact .rfl
  | cons a t ih => exact (h s a).trans (ih _)

/-- The subscribers of a session take their first sequence numbers (R209). -/
theorem State.resetSeqs_spec (s : State) (n m : Nat) : AroundRecord m s (s.resetSeqs n) ∧ (s.resetSeqs n).sessions = s.sessions := by
  unfold State.resetSeqs
  refine ⟨.foldl _ (fun _ _ => ?_) _ s, foldl_keeps State.sessions _ (fun _ _ => ?_) _ s⟩
  · exact ⟨rfl, fun _ _ => rfl⟩
  · rfl

theorem State.ses_of_sessions {s t : State} (h : t.sessions = s.sessions) (n : Nat) : t.ses n = s.ses n := by
  rw [State.ses, h, State.ses]

/-- `y` is `x` but for its configuration in force, what waits of one, its sequence numbers and what derives from it. -/
def Session.Reconfigured (x y : Session) : Prop :=
  y = { x with pend := y.pend, force := y.force, revert := y.revert, forceSeq := y.forceSeq, cfgSeq := y.cfgSeq, rc := y.rc
               pace := y.pace }

theorem Session.Reconfigured.trans {x y z : Session} (h : x.Reconfigured y) (k : y.Reconfigured z) : x.Reconfigured z := by
  unfold Session.Reconfigured at *
  exact Eq.trans k (by rw [h])

theorem State.takeForce_reconfigured (s : State) (n : Nat) (c : Tbl Word) : (s.ses n).Reconfigured ((s.takeForce n c).ses n) := by
  obtain ⟨-, rc, p, record⟩ := s.takeForce_spec n c
  rw [record]
  rfl

/-- A configuration that takes force after the record was reconfigured. -/
theorem State.setSes_takeForce (s : State) (n : Nat) (x : Session) (c : Tbl Word) (h : (s.ses n).Reconfigured x) :
    InRecord n s ((s.setSes n x).takeForce n c) ∧ (s.ses n).Reconfigured (((s.setSes n x).takeForce n c).ses n) := by
  have taken := (s.setSes n x).takeForce_reconfigured n c
  rw [State.setSes_ses, if_pos rfl] at taken
  exact ⟨(s.setSes_inRecord n x).trans ((s.setSes n x).takeForce_spec n c).1, h.trans taken⟩

/-- A waiting set and a waiting reversion that apply change nothing else of the record (R61, R63). -/
theorem State.applyPending_spec (s : State) (n : Nat) :
    InRecord n s (s.applyPending n) ∧ (s.ses n).Reconfigured ((s.applyPending n).ses n) := by
  unfold State.applyPending
  extract_lets x s1 y
  have pend : InRecord n s s1 ∧ (s.ses n).Reconfigured (s1.ses n) := by
    dsimp only [s1]
    split
    · exact s.setSes_takeForce n _ _ rfl
    · exact ⟨.rfl, rfl⟩
  have revert : ∀ t, InRecord n s1 t ∧ (s1.ses n).Reconfigured (t.ses n) → InRecord n s t ∧ (s.ses n).Reconfigured (t.ses n) :=
    fun t h => ⟨pend.1.trans h.1, pend.2.trans h.2⟩
  apply revert
  split
  · split
    · exact s1.setSes_takeForce n _ _ rfl
    · exact ⟨s1.setSes_inRecord n _, by rw [State.setSes_ses, if_pos rfl]; rfl⟩
  · exact ⟨.rfl, rfl⟩

/-- Without a reversion that waits, the pending set takes force (R61). -/
theorem State.applyPending_pend (s : State) (n : Nat) {c : Tbl Word} (pend : (s.ses n).pend = some c)
    (revert : (s.ses n).revert = false) :
    ((s.applyPending n).ses n).pend = none ∧ ((s.applyPending n).ses n).force = some c := by
  let y : Session := { s.ses n with pend := none, forceSeq := (s.ses n).pendSeq }
  obtain ⟨-, rc, p, record⟩ := (s.setSes n y).takeForce_spec n c
  rw [State.setSes_ses, if_pos rfl] at record
  have eq : s.applyPending n = (s.setSes n y).takeForce n c := by
    simp only [State.applyPending, pend]
    exact if_neg (by rw [record]; simp [y, revert])
  rw [eq, record]
  exact ⟨rfl, rfl⟩

theorem State.applyCalm_spec (s : State) (n : Nat) :
    InRecord n s (s.applyCalm n) ∧ (s.ses n).Reconfigured ((s.applyCalm n).ses n) := by
  unfold State.applyCalm
  split
  · exact s.applyPending_spec n
  · exact ⟨.rfl, rfl⟩

/-- What an accepted command that changes the session's state leaves of the publication: one, which stands in the record. -/
structure Published (n : Nat) (st : Ses) (s t : State) : Prop extends AroundRecord n s t where
  state : (t.ses n).st = st
  gen : (t.ses n).foldGen = (s.ses n).foldGen + 1
  seq : (t.ses n).commitSeq = (s.ses n).commitSeq
  shows : (t.ses n).Shows

theorem State.setSt_published (s : State) (n : Nat) (st : Ses) : Published n st s (s.setSt n st) := by
  obtain ⟨only, f, record, shows⟩ := s.setSt_spec n st
  exact ⟨only.around, by rw [record], by rw [record], by rw [record], shows⟩

/-- What follows a publication and changes nothing that it shows. -/
theorem Published.then {n : Nat} {st : Ses} {s t u : State} (h : Published n st s t) (around : AroundRecord n t u)
    (same : (t.ses n).Reconfigured (u.ses n)) : Published n st s u := by
  refine ⟨h.toAroundRecord.trans around, ?_, ?_, ?_, ?_⟩
  · rw [same]; exact h.state
  · rw [same]; exact h.gen
  · rw [same]; exact h.seq
  · rw [same]; exact h.shows

theorem Published.unmoved {n : Nat} {st : Ses} {s t u : State} (h : Published n st s t) (around : AroundRecord n t u)
    (same : u.sessions = t.sessions) : Published n st s u :=
  h.then around (by rw [State.ses_of_sessions same]; rfl)

/-- START (R59): the record begins its stream, publishes and runs. -/
theorem State.startOp_spec (s : State) (n : Nat) : Published n .running s (s.startOp n) ∧
    ∃ f0 f w, (s.startOp n).ses n = { (s.ses n).begin f0 with
      st := .running, prior := .closed, migFailed := false, cwords := w, foldGen := (s.ses n).foldGen + 1, fold := f } := by
  unfold State.startOp
  extract_lets x t s1 s2
  obtain ⟨reset, same⟩ := s1.resetSeqs_spec n n
  obtain ⟨around, last⟩ := s2.liveRefloor_spec (x.cls = clsLive) x.panel n
  obtain ⟨-, f, record, -⟩ := (s1.resetSeqs n).setSt_spec n .running
  have own : (s1.resetSeqs n).ses n = x.begin (if x.cls = clsDecode then 0 else t.f0) := by
    rw [State.ses_of_sessions same]; simp [s1]
  have published := (s1.resetSeqs n).setSt_published n .running
  refine ⟨.unmoved ⟨(s.setSes_recordsOnly n _).around.trans (reset.trans published.toAroundRecord), published.state, ?_, ?_,
    published.shows⟩ around last, (if x.cls = clsDecode then 0 else t.f0), f,
    ((s1.resetSeqs n).ses n).meWords, ?_⟩
  · rw [published.gen, own]; rfl
  · rw [published.seq, own]; rfl
  · rw [State.ses_of_sessions last, record, own]; rfl

/-- PAUSE (R59): the record is paused and publishes; where nothing is in flight, what waits applies. -/
theorem State.pauseOp_spec (s : State) (n : Nat) : Published n .paused s (s.pauseOp n) ∧
    ∃ f w, (s.pauseOp n).sessions = ((s.setSt n .paused).applyCalm n).sessions ∧ (s.setSt n .paused).ses n = { s.ses n with
      st := .paused, prior := .closed, migFailed := false, cwords := w, foldGen := (s.ses n).foldGen + 1, fold := f } := by
  obtain ⟨-, f, record, -⟩ := s.setSt_spec n .paused
  obtain ⟨within, same⟩ := (s.setSt n .paused).applyCalm_spec n
  unfold State.pauseOp
  extract_lets s1 s2
  obtain ⟨around, last⟩ := s2.liveRefloor_spec ((s2.ses n).cls = clsLive) (s2.ses n).panel n
  exact ⟨((s.setSt_published n .paused).then within.around same).unmoved around last, f, _, last, record⟩

/-- RESUME (R59): the record runs and publishes. -/
theorem State.resumeOp_spec (s : State) (n : Nat) : Published n .running s (s.resumeOp n) ∧
    ∃ f w, (s.resumeOp n).ses n = { s.ses n with
      st := .running, prior := .closed, migFailed := false, cwords := w, foldGen := (s.ses n).foldGen + 1, fold := f } := by
  obtain ⟨-, f, record, -⟩ := s.setSt_spec n .running
  unfold State.resumeOp
  extract_lets s1
  obtain ⟨around, last⟩ := s1.liveRefloor_spec ((s1.ses n).cls = clsLive) (s1.ses n).panel n
  exact ⟨(s.setSt_published n .running).unmoved around last, f, _, (State.ses_of_sessions last n).trans record⟩

/-- Out of SAFE, with no argument, the commands that only Table 3.3 judges are accepted in the state that it names. -/
theorem State.cmdReason_run {s : State} {n : Nat} (serving : Serving s) :
    ((s.ses n).st = .ready → s.cmdReason n 3 0 = none) ∧ ((s.ses n).st = .running → s.cmdReason n 4 0 = none) ∧
    ((s.ses n).st = .paused → s.cmdReason n 5 0 = none) ∧
    ((s.ses n).st = .running ∨ (s.ses n).st = .paused → s.cmdReason n 6 0 = none) := by
  have bars : ∀ cmd, cmd ≠ 1 → cmd ≠ 9 → s.modeBars cmd = false := fun cmd h1 h9 => by
    rcases serving with h | h | h <;> simp [State.modeBars, h, h1, h9]
  refine ⟨fun h => ?_, fun h => ?_, fun h => ?_, fun h => ?_⟩
  · simp [State.cmdReason, bars, h, State.stateAdmits, firstFail]
  · simp [State.cmdReason, bars, h, State.stateAdmits, firstFail]
  · simp [State.cmdReason, bars, h, State.stateAdmits, firstFail]
  · rcases h with h | h <;> simp [State.cmdReason, bars, h, State.stateAdmits, firstFail]

/-- The operations of the commands that run a session's stream. -/
theorem State.cmdEffect_run (s : State) (n arg : Nat) :
    s.cmdEffect n 3 arg = s.startOp n ∧ s.cmdEffect n 4 arg = s.pauseOp n ∧ s.cmdEffect n 5 arg = s.resumeOp n ∧
      s.cmdEffect n 6 arg = s.drainOp n ∧ s.cmdEffect n 7 arg = s.closeOp n := by
  simp [State.cmdEffect]

/-- What each of the three commands does in the state that admits it. -/
theorem exec_startPauseResume {s : State} {fn n k : Nat} (reach : Reaches s fn n k) (serving : Serving s) :
    ((s.ses k).st = .ready → exec (.start fn n 0) s = .next (s.startOp k)) ∧
    ((s.ses k).st = .running → exec (.pause fn n 0) s = .next (s.pauseOp k)) ∧
    ((s.ses k).st = .paused → exec (.resume fn n 0) s = .next (s.resumeOp k)) := by
  obtain ⟨start, pause, resume, -⟩ := State.cmdReason_run (n := k) serving
  obtain ⟨toStart, toPause, toResume, -⟩ := s.cmdEffect_run k 0
  have via : ∀ cmd, 1 ≤ cmd → cmd ≤ 11 → s.cmdReason k cmd 0 = none → s.cmdVia fn n cmd 0 = s.cmdEffect k cmd 0 :=
    fun _ lo hi => State.cmdVia_accepted (arg := 0) reach lo hi
  refine ⟨fun h => ?_, fun h => ?_, fun h => ?_⟩
  · rw [← toStart, ← via 3 (by decide) (by decide) (start h)]; rfl
  · rw [← toPause, ← via 4 (by decide) (by decide) (pause h)]; rfl
  · rw [← toResume, ← via 5 (by decide) (by decide) (resume h)]; rfl

/-- Settles O16: each command is its operation, whose record and publication the lemmas above give. -/
theorem runPauseResume : Obligations.RunPauseResume := by
  unfold Obligations.RunPauseResume
  constructor
  · intro s fn n k reach serving
    obtain ⟨start, pause, resume⟩ := exec_startPauseResume reach serving
    refine ⟨fun h => ⟨_, start h, ?_⟩, fun h => ⟨_, pause h, ?_⟩, fun h => ⟨_, resume h, ?_⟩⟩
    · obtain ⟨published, f0, f, w, record⟩ := s.startOp_spec k
      refine ⟨published.state, ?_, ?_, ?_, ?_, ?_, ?_, published.gen, published.parts⟩ <;> rw [record] <;> rfl
    · obtain ⟨published, f, w, same, record⟩ := s.pauseOp_spec k
      have own : (s.pauseOp k).ses k = ((s.setSt k .paused).applyCalm k).ses k := State.ses_of_sessions same k
      have kept := ((s.setSt k .paused).applyCalm_spec k).2
      have calm : ((s.setSt k .paused).ses k).calm = (s.ses k).pics.isEmpty := by rw [record]; rfl
      refine ⟨published.state, ?_, published.gen, fun flight => ?_, fun none revert c pend => ?_, published.parts⟩
      · rw [own, kept, record]
      · rw [own, State.applyCalm, if_neg (by simp [calm, flight]), record]
        exact ⟨rfl, rfl⟩
      · rw [own, State.applyCalm, if_pos (by simp [calm, none])]
        exact State.applyPending_pend _ k (by rw [record]; exact pend) (by rw [record]; exact revert)
    · obtain ⟨published, f, w, record⟩ := s.resumeOp_spec k
      refine ⟨published.state, ?_, ?_, ?_, published.gen, published.parts⟩ <;> rw [record]
  · intro s fn n k reach serving c t which run
    obtain ⟨start, pause, resume⟩ := exec_startPauseResume reach serving
    have published : ∃ st, Published k st s t := by
      rcases which with ⟨st, rfl⟩ | ⟨st, rfl⟩ | ⟨st, rfl⟩
      · rw [start st, Host.Outcome.next.injEq] at run
        exact ⟨_, run ▸ (s.startOp_spec k).1⟩
      · rw [pause st, Host.Outcome.next.injEq] at run
        exact ⟨_, run ▸ (s.pauseOp_spec k).1⟩
      · rw [resume st, Host.Outcome.next.injEq] at run
        exact ⟨_, run ▸ (s.resumeOp_spec k).1⟩
    obtain ⟨st, published⟩ := published
    rw [← published.gen, ← published.seq]
    exact published.shows

end Sys2Proof.Machine
end

section
/-!
SUPPORT. Where no session waits to be admitted, nothing is looked at again (R78, R79).
-/
namespace Sys2Proof.Machine

theorem mem_tdel {α : Type} {t : Tbl α} {k : Nat} {e : Nat × α} (h : e ∈ tdel t k) : e ∈ t := by
  induction t with
  | nil => exact h
  | cons a t ih =>
    rw [tdel] at h
    split at h
    · exact List.mem_cons_of_mem _ (ih h)
    · exact (List.mem_cons.1 h).elim (fun h => h ▸ List.mem_cons_self) fun h => List.mem_cons_of_mem _ (ih h)

theorem mem_tins {α : Type} {t : Tbl α} {k : Nat} {v : α} {e : Nat × α} (h : e ∈ tins k v t) : e = (k, v) ∨ e ∈ t := by
  induction t with
  | nil => exact .inl (List.mem_singleton.1 h)
  | cons a t ih =>
    rw [tins] at h
    split at h
    · exact List.mem_cons.1 h
    · split at h
      · exact (List.mem_cons.1 h).imp_right (List.mem_cons_of_mem _)
      · rcases List.mem_cons.1 h with h | h
        · exact .inr (h ▸ List.mem_cons_self)
        · exact (ih h).imp_right (List.mem_cons_of_mem _)

/-- An entry of a table after a write is the one written or one of before. -/
theorem mem_tset {α : Type} [DecidableEq α] {d : α} {t : Tbl α} {k : Nat} {v : α} {e : Nat × α} (h : e ∈ tset d k v t) :
    e = (k, v) ∨ e ∈ t := by
  rw [tset] at h
  split at h
  · exact .inr (mem_tdel h)
  · exact mem_tins h

theorem tget_mem {α : Type} (d : α) (t : Tbl α) (k : Nat) : tget d t k = d ∨ (k, tget d t k) ∈ t := by
  induction t with
  | nil => exact .inl rfl
  | cons a t ih =>
    rw [tget]
    split
    · next here => exact .inr (here ▸ List.mem_cons_self)
    · exact ih.imp_right (List.mem_cons_of_mem _)

theorem NoneWaits.ses {s : State} (h : NoneWaits s) (n : Nat) : (s.ses n).waits = false := by
  rcases tget_mem {} s.sessions n with none | mem
  · rw [State.ses, none]; rfl
  · exact h _ mem

theorem NoneWaits.setSes {s : State} (h : NoneWaits s) (n : Nat) {x : Session} (own : x.waits = false) : NoneWaits (s.setSes n x) := by
  intro e mem
  rcases mem_tset mem with rfl | mem
  · exact own
  · exact h e mem

theorem NoneWaits.retestAll {s : State} (h : NoneWaits s) : s.retestAll = s := by
  have none : (s.sessions.filter fun e => e.2.waits) = [] := List.filter_eq_nil_iff.2 fun e mem => by simp [h e mem]
  simp [State.retestAll, none]

end Sys2Proof.Machine
end

section
/-!
O20: the ring indices (R67), RING_IN_ROWS (R97), OUT_BUF_HEAD (R169) and DEC_WIN_RELEASE (R184).
-/
namespace Sys2Proof.Machine

/-- Bits from 0 up of a word. -/
theorem fld_low (v : Word) (hi : Nat) : fld v hi 0 = v.toNat % 2 ^ (hi + 1) := by simp [fld, nfld]

theorem fld_high (v : Word) : fld v 31 16 = v.toNat / 65536 := by
  have := v.isLt
  simp only [fld, nfld]
  omega

/-- Nothing is paid where no hint entry is owed (R117). -/
theorem State.payHints_none (s : State) (n k : Nat) (owed : (s.ses n).hintOwed = 0) : s.payHints n k = s := by
  cases k with
  | zero => rfl
  | succ k => simp [State.payHints, owed]

/-- IN_TAIL forward within the ring (R67). -/
theorem State.tailWrite_in {s : State} {n : Nat} {v : Word} (x : Session) (own : s.ses n = x)
    (takes : x.st = .ready ∨ x.st = .running ∨ x.st = .paused) (ring : ringBase x.cfg 0x2C0 ≠ 0)
    (lt : v.toNat % 65536 < ringSize x.cfg 0x2C0)
    (le : (x.inTail + ringSize x.cfg 0x2C0 - x.inHead % ringSize x.cfg 0x2C0) % ringSize x.cfg 0x2C0 ≤
      (v.toNat % 65536 + ringSize x.cfg 0x2C0 - x.inHead % ringSize x.cfg 0x2C0) % ringSize x.cfg 0x2C0) :
    s.tailWrite n 0x2CC v = s.setSes n { x with inTail := v.toNat % 65536, inStall := false } := by
  unfold State.tailWrite
  simp only [own, fld_low, if_true]
  rw [if_neg (by rcases takes with h | h | h <;> simp [h]), if_neg (by simp [ring, lt, le])]
  rfl

/-- HINT_TAIL forward within the ring, with no hint entry owed (R67, R117). -/
theorem State.tailWrite_hint {s : State} {n : Nat} {v : Word} (x : Session) (own : s.ses n = x)
    (takes : x.st = .ready ∨ x.st = .running ∨ x.st = .paused) (ring : ringBase x.cfg 0x2D0 ≠ 0) (owed : x.hintOwed = 0)
    (lt : v.toNat % 65536 < ringSize x.cfg 0x2D0)
    (le : (x.hintTail + ringSize x.cfg 0x2D0 - x.hintHead % ringSize x.cfg 0x2D0) % ringSize x.cfg 0x2D0 ≤
      (v.toNat % 65536 + ringSize x.cfg 0x2D0 - x.hintHead % ringSize x.cfg 0x2D0) % ringSize x.cfg 0x2D0) :
    s.tailWrite n 0x2DC v = s.setSes n { x with hintTail := v.toNat % 65536 } := by
  have pay := fun k => State.payHints_none (s.setSes n { x with hintTail := v.toNat % 65536 }) n k (by simp [owed])
  unfold State.tailWrite
  simp only [own, fld_low]
  rw [if_neg (by rcases takes with h | h | h <;> simp [h]), if_neg (by simp [ring, lt, le])]
  exact pay _

/-- A tail write in a state that takes none (R56). -/
theorem State.tailWrite_barred {s : State} {n off : Nat} {v : Word} (small : off < 0x400)
    (h : ¬ ((s.ses n).st = .ready ∨ (s.ses n).st = .running ∨ (s.ses n).st = .paused)) :
    s.tailWrite n off v = s.setSes n (refusal (s.ses n) off v 0) := by
  rw [State.tailWrite, if_pos (by simpa [not_or] using h), State.ignoredSes_eq _ _ _ _ _ small]

/-- OUT_HEAD forward to the output tail (R67), and in CLOSED and OPEN (R56). -/
theorem State.outHeadOp_eq (s : State) (n : Nat) (v : Word) :
    ((s.ses n).st = .closed ∨ (s.ses n).st = .opened → s.outHeadOp n v = s.setSes n (refusal (s.ses n) 0x2EC v 0)) ∧
    ((s.ses n).st ≠ .closed → (s.ses n).st ≠ .opened → ringBase (s.ses n).cfg 0x2E0 ≠ 0 →
      Machine.forward (ringSize (s.ses n).cfg 0x2E0) (s.ses n).outHead (v.toNat % 65536) (s.ses n).outTail = true →
      s.outHeadOp n v = s.setSes n { s.ses n with outHead := v.toNat % 65536 }) := by
  constructor
  · intro st
    rw [State.outHeadOp, if_pos st, State.ignoredSes_eq _ _ _ _ _ (by decide)]
  · intro closed opened ring fwd
    simp only [State.outHeadOp, fld_low, Nat.reduceAdd, Nat.reducePow]
    rw [if_neg (by simp [closed, opened]), if_neg (by simp [ring, fwd])]

/-- Only rows in the source of the head picture or the one behind it count; zero rows move neither (R97). -/
theorem State.rowsWrite_zero {s : State} {n : Nat} {v : Word} (st : (s.ses n).st = .running ∨ (s.ses n).st = .draining)
    (pic : v.toNat / 65536 = (s.ses n).headPic % 65536 ∨ v.toNat / 65536 = ((s.ses n).headPic + 1) % 65536)
    (rows : v.toNat % 16384 = 0) : s.rowsWrite n v = s.setSes n { s.ses n with rowsReg := v &&& 0xFFFF3FFF } := by
  simp only [State.rowsWrite, fld_low, fld_high, Nat.reduceAdd, Nat.reducePow]
  rw [if_neg (by rcases st with h | h <;> simp [h]), if_neg (by rcases pic with h | h <;> simp [h]), if_pos rows]
  rfl

theorem Session.headPic_idle {x : Session} (idle : x.pics = []) : x.headPic = x.nextPic := by simp [Session.headPic, idle]

/-- With no picture in flight nothing takes the rows yet (R97). -/
theorem State.fetchRows_idle {s : State} {n : Nat} (idle : (s.ses n).pics = []) (k : Nat) : s.fetchRows n k = s := by
  cases k with
  | zero => rfl
  | succ k => simp [State.fetchRows, idle]

theorem State.rowsWrite_ahead {s : State} {n : Nat} {v : Word} (st : (s.ses n).st = .running ∨ (s.ses n).st = .draining)
    (idle : (s.ses n).pics = []) (pic : v.toNat / 65536 = (s.ses n).nextPic % 65536) (some : v.toNat % 16384 ≠ 0)
    (up : (s.ses n).rows0 ≤ v.toNat % 16384) (fits : v.toNat % 16384 ≤ cH clsLive (s.ses n).cfg) :
    s.rowsWrite n v = s.setSes n { s.ses n with rowsReg := v &&& 0xFFFF3FFF, rows0 := v.toNat % 16384 } := by
  simp only [State.rowsWrite, fld_low, fld_high, Nat.reduceAdd, Nat.reducePow, Session.headPic_idle idle, idle, List.find?_nil,
    pic, decide_true, Bool.true_or, Bool.not_true, Bool.false_eq_true, if_false, if_true]
  rw [if_neg (by rcases st with h | h <;> simp [h]), if_neg some, if_neg (by omega)]
  exact State.fetchRows_idle (by simp) _

theorem State.rowsWrite_barred {s : State} {n : Nat} {v : Word} (running : (s.ses n).st ≠ .running)
    (draining : (s.ses n).st ≠ .draining) : s.rowsWrite n v = s.setSes n (refusal (s.ses n) 0x2F0 v 0) := by
  rw [State.rowsWrite, if_pos ⟨running, draining⟩, State.ignoredSes_eq _ _ _ _ _ (by decide)]

/-- OUT_BUF_HEAD within the buffer (R169). -/
theorem State.bufHeadOp_within {s : State} {n : Nat} {v : Word} (closed : (s.ses n).st ≠ .closed) (opened : (s.ses n).st ≠ .opened)
    (lt : v.toNat % 2 ^ 30 < 2 ^ fld (cget (s.ses n).cfg 0x20C) 4 0) :
    s.bufHeadOp n v = s.setSes n { s.ses n with bufHead := v.toNat % 2 ^ 30 } := by
  simp only [State.bufHeadOp, fld_low v]
  rw [if_neg (by simp [closed, opened]), if_neg (by omega)]

/-- A held slot is freed, and where no picture waits nothing follows (R184). -/
theorem State.winFree_held {s : State} {n : Nat} {v : Word} (closed : (s.ses n).st ≠ .closed) (opened : (s.ses n).st ≠ .opened)
    (held : tget 0 (s.ses n).dec.slots (v.toNat % 64) = 3) (none : NoneWaits s) :
    s.winFree n v = s.setSes n { s.ses n with
      dec := { (s.ses n).dec with slots := tset 0 (v.toNat % 64) 0 (s.ses n).dec.slots } } := by
  have release : s.winRelease n v = s.setSes n { s.ses n with
      dec := { (s.ses n).dec with slots := tset 0 (v.toNat % 64) 0 (s.ses n).dec.slots } } := by
    simp only [State.winRelease, fld_low, Nat.reduceAdd, Nat.reducePow]
    rw [if_neg (by simp [closed, opened]), if_neg (by simp [held])]
  simp only [State.winFree, fld_low, Nat.reduceAdd, Nat.reducePow]
  rw [if_pos (by simp [closed, opened, held]), release]
  refine NoneWaits.retestAll (none.setSes n ?_)
  exact none.ses n

theorem State.winFree_other {s : State} {n : Nat} {v : Word} (closed : (s.ses n).st ≠ .closed) (opened : (s.ses n).st ≠ .opened)
    (other : tget 0 (s.ses n).dec.slots (v.toNat % 64) ≠ 3) : s.winFree n v = s.setSes n (refusal (s.ses n) 0x328 v 7) := by
  simp only [State.winFree, State.winRelease, fld_low, Nat.reduceAdd, Nat.reducePow]
  rw [if_neg (by simpa using fun _ _ => other), if_neg (by simp [closed, opened]), if_pos (by simpa using other),
    State.ignoredSes_eq _ _ _ _ _ (by decide)]

/-- Settles O20: each write is its operation on the session that the function reaches, by the branch that the state selects. -/
theorem hostIndexWrites : Obligations.HostIndexWrites := by
  unfold Obligations.HostIndexWrites
  constructor
  · intro s fn n k v reach x i sizeIn sizeHint sizeOut open_
    have tail : exec (.inTailWrite fn n v) s = .next (s.tailWrite k 0x2CC v) := congrArg _ (State.onSes_of_reaches reach _ _ _)
    have hint : exec (.hintTailWrite fn n v) s = .next (s.tailWrite k 0x2DC v) := congrArg _ (State.onSes_of_reaches reach _ _ _)
    have head : exec (.outHeadWrite fn n v) s = .next (s.outHeadOp k v) := congrArg _ (State.onSes_of_reaches reach _ _ _)
    obtain ⟨barred, forward⟩ := s.outHeadOp_eq k v
    rw [tail, hint, head]
    refine ⟨fun takes ring lt le => ?_, fun takes ring owed lt le => ?_, fun closed opened ring lt le => ?_, fun h => ⟨?_, ?_⟩,
      fun st => congrArg _ (barred st)⟩
    · exact congrArg _ (State.tailWrite_in x rfl takes ring lt le)
    · exact congrArg _ (State.tailWrite_hint x rfl takes ring owed lt le)
    · exact congrArg _ (forward closed opened ring (by
        simp only [Machine.forward, Bool.and_eq_true, decide_eq_true_eq]
        exact ⟨lt, le⟩))
    · exact congrArg _ (State.tailWrite_barred (by decide) h)
    · exact congrArg _ (State.tailWrite_barred (by decide) h)
  · intro s fn n k v reach x rows pic
    have rowsRun : exec (.ringInRowsWrite fn n v) s = .next (s.rowsWrite k v) := congrArg _ (State.onSes_of_reaches reach _ _ _)
    have bufRun : exec (.outBufHeadWrite fn n v) s = .next (s.bufHeadOp k v) := congrArg _ (State.onSes_of_reaches reach _ _ _)
    have winRun : exec (.decWinRelease fn n v) s = .next (s.winFree k v) := congrArg _ (State.onSes_of_reaches reach _ _ _)
    rw [rowsRun, bufRun, winRun]
    refine ⟨fun st at_ zero => ?_, fun st idle at_ some up fits => ?_, fun running draining => ?_, fun closed opened lt => ?_,
      fun closed opened held none => ⟨_, winRun, ?_⟩, fun closed opened other => ?_⟩
    · exact congrArg _ (State.rowsWrite_zero st at_ zero)
    · exact congrArg _ (State.rowsWrite_ahead st idle at_ some up fits)
    · exact congrArg _ (State.rowsWrite_barred running draining)
    · exact congrArg _ (State.bufHeadOp_within closed opened lt)
    · rw [State.winFree_held closed opened held none]
      simp only [State.setSes_ses, if_true]
      exact ⟨rfl, fun i => tget_tset _ _ _ _⟩
    · exact congrArg _ (State.winFree_other closed opened other)

end Sys2Proof.Machine
end

section
/-!
SUPPORT. What a notice, a frame of this device and an event of the host port leave alone (R345, R358, R366).
-/
namespace Sys2Proof.Machine

theorem LineOnly.rfl {s : State} : LineOnly s s := Eq.refl _

theorem LineOnly.trans {s t u : State} (h : LineOnly s t) (k : LineOnly t u) : LineOnly s u := by
  unfold LineOnly at *
  exact Eq.trans k (by rw [h])

theorem Posted.lineOnly {s t : State} (h : Posted s t) : LineOnly s t := by
  unfold Posted LineOnly at *
  exact Eq.trans h (by rw [h])

theorem State.assertSrc_lineOnly (s : State) (n : Nat) (detail : Word) (ses : Nat) : LineOnly s (s.assertSrc n detail ses) := by
  unfold State.assertSrc
  extract_lets s1 old i hif s2
  split
  · exact Eq.refl _
  split
  · exact .trans (Eq.refl _ : LineOnly s s2) (State.post_posted s2 _ _ _).lineOnly
  · exact Eq.refl _

theorem State.sendFrame_lineOnly (s : State) (p : Nat) (f : LFrame) : LineOnly s (s.sendFrame p f) := by
  unfold State.sendFrame
  extract_lets x
  split
  · exact Eq.refl _
  split
  · refine LineOnly.trans ?_ (State.emit_posted _ _).lineOnly
    exact Eq.refl _
  · exact Eq.refl _

theorem State.sendTo_lineOnly (s : State) (type dst flags : Nat) (info : List Nat) (bulk : Option MigBulk) :
    LineOnly s (s.sendTo type dst flags info bulk) := s.sendFrame_lineOnly _ _

theorem State.note_lineOnly (s : State) (a kind fig : Nat) : LineOnly s (s.note a kind fig) := by
  unfold State.note
  extract_lets d mgr go
  have told (s : State) (dst : Nat) : LineOnly s (go s dst) := by
    dsimp only [go]
    split
    · exact s.assertSrc_lineOnly 2 d 0
    · exact s.sendTo_lineOnly _ _ _ _ _
  split
  · exact .rfl
  split
  · exact told s mgr
  · exact (told s mgr).trans (told _ 0)

theorem State.safeNotice_lineOnly (s : State) : LineOnly s s.safeNotice := by
  unfold State.safeNotice
  extract_lets s1
  have moved : LineOnly s s1 := s.note_lineOnly _ _ _
  split
  · exact moved
  · exact moved.trans (s1.note_lineOnly _ _ _)

theorem State.safeMigEnd_lineOnly (s : State) (n : Nat) (ok : Bool) : LineOnly s (s.safeMigEnd n ok) := by
  unfold State.safeMigEnd
  split
  · extract_lets l lin s1
    split
    · exact .trans (Eq.refl _ : LineOnly s s1) s1.safeNotice_lineOnly
    · exact Eq.refl _
  · exact .rfl

theorem State.migNotice_lineOnly (s : State) (n : Nat) : LineOnly s (s.migNotice n) := by
  unfold State.migNotice
  split
  · split
    · exact s.note_lineOnly _ _ _
    · exact .rfl
  · exact .rfl

theorem State.migRefuse_lineOnly (s : State) (n : Nat) : LineOnly s (s.migRefuse n) := by
  unfold State.migRefuse
  split
  · split
    · exact s.sendTo_lineOnly _ _ _ _ _
    · exact .rfl
  · exact .rfl

/-- `t` differs from `s` in the records of the sessions that `p` holds of, in subscribers, plain registers, the clothesline, the host
port and what is sent alone. -/
structure Reported (p : Nat → Prop) (s t : State) : Prop where
  frame : t = { s with sessions := t.sessions, subs := t.subs, regs := t.regs, lin := t.lin, hif := t.hif, outbox := t.outbox }
  others : OtherSessions s t p

theorem Reported.rfl {p : Nat → Prop} {s : State} : Reported p s s := ⟨Eq.refl _, fun _ _ => Eq.refl _⟩

theorem Reported.trans {p : Nat → Prop} {s t u : State} (h : Reported p s t) (k : Reported p t u) : Reported p s u :=
  ⟨k.frame.trans (by rw [h.frame]), h.others.trans k.others⟩

theorem Reported.mono {p q : Nat → Prop} {s t : State} (h : Reported p s t) (sub : ∀ m, p m → q m) : Reported q s t :=
  ⟨h.frame, fun m hm => h.others m fun g => hm (sub m g)⟩

theorem AroundRecord.reported {n : Nat} {s t : State} (h : AroundRecord n s t) : Reported (· = n) s t :=
  ⟨h.frame.trans (by rw [h.frame]), h.others⟩

theorem RecordsOnly.reported {p : Nat → Prop} {s t : State} (h : RecordsOnly p s t) : Reported p s t :=
  ⟨h.frame.trans (by rw [h.frame]), h.others⟩

theorem LineOnly.sessions {s t : State} (h : LineOnly s t) : t.sessions = s.sessions := (congrArg State.sessions h :)

theorem LineOnly.reported {p : Nat → Prop} {s t : State} (h : LineOnly s t) : Reported p s t :=
  ⟨Eq.trans h (by rw [h]), OtherSessions.of_eq h.sessions p⟩

theorem Posted.reported {p : Nat → Prop} {s t : State} (h : Posted s t) : Reported p s t := h.lineOnly.reported

theorem Posted.sessions {s t : State} (h : Posted s t) : t.sessions = s.sessions := (congrArg State.sessions h :)

theorem Reported.tiles {p : Nat → Prop} {s t : State} (h : Reported p s t) : t.tiles = s.tiles := (congrArg State.tiles h.frame :)

theorem Reported.pat {p : Nat → Prop} {s t : State} (h : Reported p s t) : t.pat = s.pat := (congrArg State.pat h.frame :)

theorem Reported.sec {p : Nat → Prop} {s t : State} (h : Reported p s t) : t.sec = s.sec := (congrArg State.sec h.frame :)

theorem Reported.flt {p : Nat → Prop} {s t : State} (h : Reported p s t) : t.flt = s.flt := (congrArg State.flt h.frame :)

/-- The event of a state change without a command goes to the host port alone (R58). -/
theorem State.postState_posted (s : State) (n : Nat) (new old : Ses) (failed : Bool) : Posted s (s.postState n new old failed) :=
  s.post_posted _ _ _

end Sys2Proof.Machine
end

section
/-!
SUPPORT. Pages go back (R166, R168, R172): what a release can change, and a double release as class 21 (R167).
-/
namespace Sys2Proof.Machine

/-- `t` differs from `s` in what an event tells: the collector but its configuration, lint, plain registers, the host port and what
is sent. -/
def Signalled (s t : State) : Prop :=
  t = { s with regs := t.regs, flt := { t.flt with cfg := s.flt.cfg }, lnt := t.lnt, hif := t.hif, outbox := t.outbox }

theorem Signalled.rfl {s : State} : Signalled s s := Eq.refl _

theorem Signalled.trans {s t u : State} (h : Signalled s t) (k : Signalled t u) : Signalled s u := by
  unfold Signalled at *
  exact Eq.trans k (by rw [h])

theorem State.fireSlot_signalled (s : State) (n : Nat) : Signalled s (s.fireSlot n) := by
  unfold State.fireSlot
  extract_lets w
  split <;> exact Eq.refl _

theorem State.lintPush_signalled (s : State) (t : LintTrig) : Signalled s (s.lintPush t) := by
  unfold State.lintPush
  split <;> exact Eq.refl _

theorem Signalled.foldl {α : Type} (f : State → α → State) (h : ∀ s a, Signalled s (f s a)) (l : List α) (s : State) :
    Signalled s (l.foldl f s) := by
  induction l generalizing s with
  | nil => exact .rfl
  | cons a t ih => exact (h s a).trans (ih _)

theorem State.lintFault_signalled (s : State) (e : Settled) : Signalled s (s.lintFault e) := by
  unfold State.lintFault
  extract_lets slots word mk f s1 lnt s2
  have fired (l : List Nat) (s : State) : Signalled s (l.foldl (fun s n => (s.lintPush (mk s n)).fireSlot n) s) :=
    .foldl _ (fun s n => (s.lintPush_signalled _).trans (State.fireSlot_signalled _ n)) l s
  have first : Signalled s s1 := by
    dsimp only [s1]
    split
    · exact s.fireSlot_signalled _
    · exact .rfl
  split
  · exact (first.trans (Eq.refl _ : Signalled s1 s2)).trans (fired _ s2)
  · exact fired slots s

theorem State.signal_signalled (s : State) (e : Settled) : Signalled s (s.signal e) := by
  unfold State.signal
  extract_lets cfg
  split
  · unfold State.assertSrc
    extract_lets s1 old i hif s2
    split
    · exact Eq.refl _
    split
    · have posted : Posted s2 _ := State.post_posted s2 0 none
        { src := 0x040 + 0, typ := 3, count := 1, detail := e.word true, time := s1.now % 2 ^ 48, ses := i.ses }
      refine .trans (Eq.refl _ : Signalled s s2) ?_
      unfold Posted Signalled at *
      exact Eq.trans posted (by rw [posted])
    · exact Eq.refl _
  · exact .rfl

theorem State.recordFirst_signalled (s : State) (e : Settled) : Signalled s (s.recordFirst e) := by
  unfold State.recordFirst
  split <;> exact Eq.refl _

/-- A level that counting raises to 3 and escalation to the class's top level (R263). -/
theorem raisedLevel_lt {base top : Nat} (hb : base < 4) (ht : top < 4) (counts unacked : Bool) (last : Nat) :
    (if unacked then max (if counts then max base 3 else base) (min (last + 1) top) else if counts then max base 3 else base) < 4 := by
  split <;> split <;> omega

/-- A class that is not configured to become fatal settles below level 4 (R266). -/
theorem State.settle_lvl {s : State} {e : FaultEv} (h : NotFatal s e.cls) : (s.settle e).2.lvl < 4 :=
  raisedLevel_lt h.1 h.2 _ _ _

/-- What a device fault does before the device reacts. -/
theorem State.raiseDev_eq (s : State) (k : Nat) (detail : Word) (ses : Nat) :
    ∃ (t : State) (e : Settled), s.raiseDev k detail ses = t.reactDev e ∧ Signalled s t ∧ e.cls = k ∧ (NotFatal s k → e.lvl < 4) := by
  let r := s.settle { cls := k, unit := 0, n := 1, detail := detail, ses := ses }
  refine ⟨_, r.2, rfl, ?_, rfl, fun h => State.settle_lvl h⟩
  exact .trans (Eq.refl _ : Signalled s r.1) (.trans (r.1.recordFirst_signalled r.2)
    (.trans (State.lintFault_signalled _ r.2) (State.signal_signalled _ r.2)))

/-- `t` has the pattern, the security engine, the collector's configuration and every session's level bit of `s`. -/
structure Footed (s t : State) : Prop where
  pat : t.pat = s.pat
  sec : t.sec = s.sec
  cfg : t.flt.cfg = s.flt.cfg
  level : ∀ n, (t.ses n).level = (s.ses n).level

theorem Footed.rfl {s : State} : Footed s s := ⟨Eq.refl _, Eq.refl _, Eq.refl _, fun _ => Eq.refl _⟩

theorem Footed.trans {s t u : State} (h : Footed s t) (k : Footed t u) : Footed s u :=
  ⟨k.pat.trans h.pat, k.sec.trans h.sec, k.cfg.trans h.cfg, fun n => (k.level n).trans (h.level n)⟩

theorem Footed.foldl {α : Type} (f : State → α → State) (h : ∀ s a, Footed s (f s a)) (l : List α) (s : State) :
    Footed s (l.foldl f s) := by
  induction l generalizing s with
  | nil => exact .rfl
  | cons a t ih => exact (h s a).trans (ih _)

theorem Signalled.footed {s t : State} (h : Signalled s t) : Footed s t := by
  unfold Signalled at h
  rw [h]
  exact ⟨Eq.refl _, Eq.refl _, Eq.refl _, fun _ => Eq.refl _⟩

theorem LineOnly.footed {s t : State} (h : LineOnly s t) : Footed s t := by
  unfold LineOnly at h
  rw [h]
  exact ⟨Eq.refl _, Eq.refl _, Eq.refl _, fun _ => Eq.refl _⟩

theorem Reported.footed {n : Nat} {s t : State} (h : Reported (· = n) s t) (level : (t.ses n).level = (s.ses n).level) :
    Footed s t := by
  refine ⟨h.pat, h.sec, congrArg (·.cfg) h.flt, fun m => ?_⟩
  by_cases same : m = n
  · rw [same, level]
  · rw [h.others m same]

theorem State.toMigrating_footed (s : State) (n : Nat) (auto : Bool) : Footed s (s.toMigrating n auto) := by
  obtain ⟨only, f, record⟩ := s.toMigrating_spec n auto
  exact only.reported.footed (by rw [record])

theorem State.migrateOut_footed (s : State) (n : Nat) (auto : Bool) : Footed s (s.migrateOut n auto) := by
  unfold State.migrateOut
  extract_lets x
  split
  · refine .foldl _ (fun s m => ?_) _ s
    split
    · exact .rfl
    · exact s.toMigrating_footed m auto
  · exact s.toMigrating_footed n auto

theorem State.askAbandon_footed (s : State) (c t : Nat) : Footed s (s.askAbandon c t) := by
  unfold State.askAbandon
  split <;> exact ⟨rfl, rfl, rfl, fun _ => rfl⟩

/-- What the entry into SAFE leaves (R268). -/
theorem State.enterSafe_footed (s : State) : Footed s s.enterSafe := by
  unfold State.enterSafe
  extract_lets pwr ldr s1 s2 l lin s3 s4
  have asked : Footed s1 s2 := .foldl _ (fun s t => s.askAbandon_footed 1 t) _ s1
  have sent : Footed s3 s4 := .foldl _ (fun s n => s.migrateOut_footed n true) l s3
  have safe : Footed s s1 := ⟨rfl, rfl, rfl, fun _ => rfl⟩
  have listed : Footed s2 s3 := ⟨rfl, rfl, rfl, fun _ => rfl⟩
  have entered : Footed s s4 := safe.trans (asked.trans (listed.trans sent))
  split
  · exact entered.trans s4.safeNotice_lineOnly.footed
  · exact entered

/-- A device fault of a class other than 5: what it leaves, and that it changes no session where the class does not become fatal. -/
theorem State.raiseDev_footed (s : State) {k : Nat} (lockstep : k ≠ 5) (detail : Word) (ses : Nat) :
    Footed s (s.raiseDev k detail ses) ∧ (NotFatal s k → Signalled s (s.raiseDev k detail ses)) := by
  obtain ⟨t, e, eq, told, cls, lvl⟩ := s.raiseDev_eq k detail ses
  rw [eq, State.reactDev]
  constructor
  · split
    · split
      · exact told.footed
      · exact told.footed.trans t.enterSafe_footed
    · rw [if_neg (by rw [cls]; simp [lockstep])]
      exact told.footed
  · intro calm
    rw [if_neg (by have := lvl calm; omega), if_neg (by rw [cls]; simp [lockstep])]
    exact told

theorem NotFatal.of_cfg {s t : State} {k : Nat} (h : NotFatal s k) (cfg : t.flt.cfg = s.flt.cfg) : NotFatal t k := by
  unfold NotFatal State.fltCfg at *
  rwa [cfg]

/-- What a release of pages can change: where class 21 does not become fatal, no session. -/
structure Freed (s t : State) : Prop extends Footed s t where
  calm : NotFatal s 21 → t.sessions = s.sessions

theorem Freed.rfl {s : State} : Freed s s := ⟨.rfl, fun _ => Eq.refl _⟩

theorem Freed.trans {s t u : State} (h : Freed s t) (k : Freed t u) : Freed s u :=
  ⟨h.toFooted.trans k.toFooted, fun calm => (k.calm (calm.of_cfg h.cfg)).trans (h.calm calm)⟩

theorem Freed.foldl {α : Type} (f : State → α → State) (h : ∀ s a, Freed s (f s a)) (l : List α) (s : State) :
    Freed s (l.foldl f s) := by
  induction l generalizing s with
  | nil => exact .rfl
  | cons a t ih => exact (h s a).trans (ih _)

theorem Posted.freed {s t : State} (h : Posted s t) : Freed s t := ⟨h.lineOnly.footed, fun _ => h.sessions⟩

/-- A change of pages, tiles, subscribers, registers or of what a low hamper tells frees as well. -/
theorem Freed.of_parts {s t : State} (pat : t.pat = s.pat) (sec : t.sec = s.sec) (flt : t.flt = s.flt)
    (sessions : t.sessions = s.sessions) : Freed s t :=
  ⟨⟨pat, sec, congrArg (·.cfg) flt, fun n => congrArg (·.level) (State.ses_of_sessions sessions n)⟩, fun _ => sessions⟩

theorem State.checkLow_freed (s : State) : Freed s s.checkLow := by
  unfold State.checkLow
  extract_lets low
  split
  · split
    · exact .trans (.of_parts rfl rfl rfl rfl : Freed s { s with lowArmed := false }) (State.post_posted _ _ _ _).freed
    · exact .rfl
  · exact .of_parts rfl rfl rfl rfl

theorem State.dropRef_freed (s : State) (i : Nat) : Freed s (s.dropRef i) := by
  unfold State.dropRef
  extract_lets p
  split <;> exact .of_parts rfl rfl rfl rfl

theorem State.releasePage_freed (s : State) (consumer : Nat) (pg : Nat × Nat) : Freed s (s.releasePage consumer pg).1 := by
  unfold State.releasePage
  extract_lets p
  split
  · exact (s.dropRef_freed _).trans (State.checkLow_freed _)
  · exact .of_parts rfl rfl rfl rfl

theorem State.raiseDev_freed (s : State) (detail : Word) (ses : Nat) : Freed s (s.raiseDev 21 detail ses) := by
  obtain ⟨footed, calm⟩ := s.raiseDev_footed (k := 21) (by decide) detail ses
  refine ⟨footed, fun h => ?_⟩
  rw [calm h]

theorem State.releasePages_freed (s : State) (consumer : Nat) (ps : List (Nat × Nat)) : Freed s (s.releasePages consumer ps) := by
  unfold State.releasePages
  refine .foldl _ (fun s p => ?_) _ s
  extract_lets r
  have gone : Freed s r.1 := s.releasePage_freed consumer p
  split
  · exact gone.trans (State.raiseDev_freed _ _ _)
  · exact gone

theorem State.freeAll_freed (s : State) (ps : List Nat) : Freed s (s.freeAll ps) := by
  refine .trans (t := ps.foldl State.freePage s) (.foldl _ (fun s p => ?_) ps s) (State.checkLow_freed _)
  exact .of_parts rfl rfl rfl rfl

theorem State.dropUnit_freed (s : State) (q : QUnit) : Freed s (s.dropUnit q) := s.releasePages_freed _ _

theorem State.flushSes_freed (s : State) (n : Nat) : Freed s (s.flushSes n) := by
  unfold State.flushSes
  refine .foldl _ (fun s k => ?_) _ s
  unfold State.flushWhere
  extract_lets x out s1 s2
  have dropped : Freed s s2 :=
    .trans (.of_parts rfl rfl rfl rfl : Freed s s1) (.foldl _ State.dropUnit_freed out s1)
  split
  · exact dropped
  · exact dropped.trans (.of_parts rfl rfl rfl rfl)

theorem State.freeSesPages_freed (s : State) (n : Nat) : Freed s (s.freeSesPages n) := by
  unfold State.freeSesPages
  extract_lets x s1 early
  have waiting : Freed s s1 := .foldl _ (fun s (o : OutItem) => s.releasePages_freed 0 o.pages) _ s
  exact waiting.trans ((s1.releasePages_freed 0 early).trans (State.freeAll_freed _ _))

theorem State.dropUnits_freed (s : State) (n : Nat) : Freed s (s.dropUnits n) := by
  unfold State.dropUnits
  refine .foldl _ (fun s t => ?_) _ s
  split
  · split
    · exact .of_parts rfl rfl rfl rfl
    · exact .rfl
  · exact .rfl

end Sys2Proof.Machine
end

section
/-!
SUPPORT. A migration fails (R58, R71): its source resumes, its destination returns to CLOSED.
-/
namespace Sys2Proof.Machine

/-- A source resumes in its prior state with mig_failed (R71). -/
theorem State.migSrcFail_spec {s : State} {n : Nat} {g : Mig} (st : (s.ses n).st = .migrating) (mig : (s.ses n).mig = some g)
    (out : g.out = true) : Reported (· = n) s (s.migSrcFail n) ∧ ∃ f, (s.migSrcFail n).ses n = { s.ses n with
      mig := none, st := (s.ses n).prior, prior := .closed, migFailed := true, foldGen := (s.ses n).foldGen + 1, fold := f } := by
  let y : Session := { s.ses n with mig := none, st := (s.ses n).prior, prior := .closed, migFailed := true }
  obtain ⟨only, f, record, -⟩ := (s.setSes n y).publish_spec n
  have posted := ((s.setSes n y).publish n).postState_posted n (s.ses n).prior .migrating true
  have eq : s.migSrcFail n = ((s.setSes n y).publish n).postState n (s.ses n).prior .migrating true := by
    unfold State.migSrcFail
    simp only [mig]
    rw [if_pos ⟨st, out⟩]
  rw [State.setSes_ses, if_pos rfl] at record
  rw [eq, State.ses_of_sessions posted.sessions n, record]
  exact ⟨(s.setSes_recordsOnly n y).reported.trans (only.reported.trans posted.reported), f, rfl⟩

/-- A destination returns to CLOSED (R71). -/
theorem State.migDstFail_spec {s : State} {n : Nat} {g : Mig} (st : (s.ses n).st = .migrating) (mig : (s.ses n).mig = some g)
    (dest : g.out = false) : Reported (· = n) s (s.migDstFail n) ∧ ∃ f w, (s.migDstFail n).ses n = { s.ses n with
      mig := none, st := .closed, prior := .closed, migFailed := false, cwords := w, foldGen := (s.ses n).foldGen + 1
      fold := f } := by
  let y : Session := { s.ses n with mig := none }
  obtain ⟨only, f, record, -⟩ := (s.setSes n y).setSt_spec n .closed
  have posted := ((s.setSes n y).setSt n .closed).postState_posted n .closed .migrating true
  have eq : s.migDstFail n = ((s.setSes n y).setSt n .closed).postState n .closed .migrating true := by
    unfold State.migDstFail
    simp only [mig]
    rw [if_pos ⟨st, by simp [dest]⟩]
  rw [State.setSes_ses, if_pos rfl] at record
  rw [eq, State.ses_of_sessions posted.sessions n, record]
  exact ⟨(s.setSes_recordsOnly n y).reported.trans (only.reported.trans posted.reported), f, _, rfl⟩

/-- Whatever the session is, a failure as a source changes its record at most, and not its level bit. -/
theorem State.migSrcFail_within (s : State) (n : Nat) :
    Reported (· = n) s (s.migSrcFail n) ∧ ((s.migSrcFail n).ses n).level = (s.ses n).level := by
  rcases mig : (s.ses n).mig with _ | g
  · have stays : s.migSrcFail n = s := by simp only [State.migSrcFail, mig]
    rw [stays]
    exact ⟨.rfl, rfl⟩
  · by_cases source : (s.ses n).st = .migrating ∧ g.out = true
    · obtain ⟨within, f, record⟩ := State.migSrcFail_spec source.1 mig source.2
      exact ⟨within, by rw [record]⟩
    · have stays : s.migSrcFail n = s := by simp only [State.migSrcFail, mig, source, if_false]
      rw [stays]
      exact ⟨.rfl, rfl⟩

theorem State.migDstFail_within (s : State) (n : Nat) :
    Reported (· = n) s (s.migDstFail n) ∧ ((s.migDstFail n).ses n).level = (s.ses n).level := by
  rcases mig : (s.ses n).mig with _ | g
  · have stays : s.migDstFail n = s := by simp only [State.migDstFail, mig]
    rw [stays]
    exact ⟨.rfl, rfl⟩
  · by_cases dest : (s.ses n).st = .migrating ∧ ¬ g.out = true
    · obtain ⟨within, f, w, record⟩ := State.migDstFail_spec dest.1 mig (by simpa using dest.2)
      exact ⟨within, by rw [record]⟩
    · have stays : s.migDstFail n = s := by simp only [State.migDstFail, mig, dest, if_false]
      rw [stays]
      exact ⟨.rfl, rfl⟩

/-- One source of a migration fails with its destination on this device (R71). -/
def State.migFailOne (s : State) (m : Nat) : State :=
  let p := s.migPeer m
  let s := s.migRefuse m
  let s := s.migSrcFail m
  match p with
  | some d => match (s.ses d).mig with
    | some g => if g.peerSes = m then s.migDstFail d else s
    | none => s
  | none => s

theorem State.migFail_eq (s : State) (n : Nat) : s.migFail n =
    ((if (s.ses n).member then (s.members n).filter fun m => (s.ses m).st == Ses.migrating else [n]).foldl State.migFailOne
      (s.migNotice n)).safeMigEnd n false := rfl

theorem State.migFailOne_footed (s : State) (m : Nat) : Footed s (s.migFailOne m) := by
  unfold State.migFailOne
  extract_lets p s1 s2
  have told : Footed s s1 := (s.migRefuse_lineOnly m).footed
  obtain ⟨within, level⟩ := s1.migSrcFail_within m
  have source : Footed s s2 := told.trans (within.footed level)
  clear_value p
  rcases p with _ | d
  · exact source
  · dsimp only
    split
    · split
      · obtain ⟨dest, kept⟩ := s2.migDstFail_within d
        exact source.trans (dest.footed kept)
      · exact source
    · exact source

theorem State.migFail_footed (s : State) (n : Nat) : Footed s (s.migFail n) := by
  rw [State.migFail_eq]
  exact (s.migNotice_lineOnly n).footed.trans
    ((Footed.foldl _ State.migFailOne_footed _ _).trans (State.safeMigEnd_lineOnly _ _ _).footed)

end Sys2Proof.Machine
end

section
/-!
O17: DRAIN (R59, R65) and CLOSE (R59, R168).
-/
namespace Sys2Proof.Machine

theorem State.modSes_recordsOnly (s : State) (n : Nat) (f : Session → Session) : RecordsOnly (· = n) s (s.modSes n f) :=
  s.setSes_recordsOnly n _

theorem State.pushOut_recordsOnly (s : State) (n : Nat) (o : OutItem) : RecordsOnly (· = n) s (s.pushOut n o) := by
  unfold State.pushOut
  split
  · exact s.modSes_recordsOnly n _
  · exact .rfl

theorem RecordsOnly.foldl {α : Type} {p : Nat → Prop} (f : State → α → State) (h : ∀ s a, RecordsOnly p s (f s a)) (l : List α)
    (s : State) : RecordsOnly p s (l.foldl f s) := by
  induction l generalizing s with
  | nil => exact .rfl
  | cons a t ih => exact (h s a).trans (ih _)

theorem State.outputPics_recordsOnly (s : State) (n : Nat) (c : Tbl Word) (nums : List Nat) :
    RecordsOnly (· = n) s (s.outputPics n c nums) := by
  unfold State.outputPics
  refine .foldl _ (fun s k => ?_) _ s
  extract_lets x
  split
  · exact (s.setSes_recordsOnly n _).trans (State.pushOut_recordsOnly _ n _)
  · exact .rfl

theorem State.flushDpb_recordsOnly (s : State) (n : Nat) : RecordsOnly (· = n) s (s.flushDpb n) := by
  unfold State.flushDpb
  extract_lets x s1 s2
  split
  · have written : RecordsOnly (· = n) s s1 := s.outputPics_recordsOnly n _ _
    exact written.trans ((s1.modSes_recordsOnly n _).trans (s2.modSes_recordsOnly n _))
  · exact .rfl

/-- A stream that is not over goes on (R59). -/
theorem State.endDrain_goesOn {s : State} {n : Nat} (more : s.lastOfStream n = false) : s.endDrain n = s := by
  simp [State.endDrain, more]

/-- A stream that is over ends: READY, its references freed and eos set (R58, R59, R170). -/
theorem State.endDrain_ends {s : State} {n : Nat} (ended : s.lastOfStream n = true) :
    Reported (· = n) s (s.endDrain n) ∧ ((s.endDrain n).ses n).st = .ready ∧ ((s.endDrain n).ses n).eos = true ∧
      ((s.endDrain n).ses n).refs = [] := by
  simp only [State.endDrain, ended, if_true]
  generalize before : s.flushDpb n = s1
  have flushed : Reported (· = n) s s1 := before ▸ (s.flushDpb_recordsOnly n).reported
  generalize recorded : (if (s1.ses n).eosSent then s1 else s1.pushOut n _) = s2
  have pushed : Reported (· = n) s1 s2 := by
    rw [← recorded]
    split
    · exact .rfl
    · exact (s1.pushOut_recordsOnly n _).reported
  generalize freed : s2.modSes n _ = s3
  have own : (s3.ses n).eos = true ∧ (s3.ses n).refs = [] := by rw [← freed]; simp
  have cleared : Reported (· = n) s2 s3 := freed ▸ (s2.modSes_recordsOnly n _).reported
  obtain ⟨ready, f, record, -⟩ := s3.setSt_spec n .ready
  have posted := (s3.setSt n .ready).postState_posted n .ready .draining false
  generalize event : (s3.setSt n .ready).postState n .ready .draining false = s4 at posted
  obtain ⟨within, same⟩ := s4.applyPending_spec n
  obtain ⟨around, last⟩ := (s4.applyPending n).liveRefloor_spec ((s1.ses n).cls = clsLive) (s1.ses n).panel n
  refine ⟨flushed.trans (pushed.trans (cleared.trans (ready.reported.trans (posted.reported.trans
    (within.around.reported.trans around.reported))))), ?_⟩
  rw [State.ses_of_sessions last, same, State.ses_of_sessions posted.sessions n, record]
  exact ⟨rfl, own⟩

theorem State.endDrain_reported (s : State) (n : Nat) : Reported (· = n) s (s.endDrain n) := by
  by_cases ended : s.lastOfStream n = true
  · exact (State.endDrain_ends ended).1
  · rw [State.endDrain_goesOn (by simpa using ended)]
    exact .rfl

/-- The record as it enters DRAINING (R59). -/
def State.intoDraining (s : State) (n : Nat) : State :=
  (s.setSes n { s.ses n with drainTo := some (s.ses n).inTail, eosSent := false }).setSt n .draining

theorem State.drainOne_eq (s : State) (n : Nat) : s.drainOne n = (s.intoDraining n).endDrain n := rfl

theorem State.intoDraining_spec (s : State) (n : Nat) : RecordsOnly (· = n) s (s.intoDraining n) ∧
    ∃ f w, (s.intoDraining n).ses n = { s.ses n with
      drainTo := some (s.ses n).inTail, eosSent := false, st := .draining, prior := .closed, migFailed := false, cwords := w
      foldGen := (s.ses n).foldGen + 1, fold := f } := by
  obtain ⟨only, f, record, -⟩ :=
    (s.setSes n { s.ses n with drainTo := some (s.ses n).inTail, eosSent := false }).setSt_spec n .draining
  rw [State.setSes_ses, if_pos rfl] at record
  exact ⟨(s.setSes_recordsOnly n _).trans only, f, _, record⟩

/-- One session drains (R59). -/
theorem State.drainOne_spec (s : State) (n : Nat) :
    Reported (· = n) s (s.drainOne n) ∧ (((s.drainOne n).ses n).st = .draining ∨ ((s.drainOne n).ses n).st = .ready) ∧
    ((s.ses n).pics ≠ [] → ((s.drainOne n).ses n).st = .draining ∧ ((s.drainOne n).ses n).drainTo = some (s.ses n).inTail ∧
      ((s.drainOne n).ses n).pics = (s.ses n).pics) ∧
    ((s.ses n).lower = false → (s.ses n).inputDone = true → (s.ses n).pics = [] → (s.ses n).owed = [] →
      ((s.drainOne n).ses n).st = .ready ∧ ((s.drainOne n).ses n).eos = true ∧ ((s.drainOne n).ses n).refs = []) := by
  obtain ⟨only, f, w, record⟩ := s.intoDraining_spec n
  rw [State.drainOne_eq]
  refine ⟨only.reported.trans (State.endDrain_reported _ n), ?_, fun flight => ?_, fun lower done idle owed => ?_⟩
  · by_cases ended : (s.intoDraining n).lastOfStream n = true
    · exact .inr (State.endDrain_ends ended).2.1
    · rw [State.endDrain_goesOn (by simpa using ended), record]
      exact .inl rfl
  · have more : (s.intoDraining n).lastOfStream n = false := by simp [State.lastOfStream, record, flight]
    rw [State.endDrain_goesOn more, record]
    exact ⟨rfl, rfl, rfl⟩
  · have input : ((s.intoDraining n).ses n).inputDone = true := by rw [record]; exact done
    have single : ((s.intoDraining n).ses n).lower = false := by rw [record]; exact lower
    have ended : (s.intoDraining n).lastOfStream n = true := by
      simp only [State.lastOfStream, State.streamOver, input, single]
      simp [record, idle, owed]
    exact (State.endDrain_ends ended).2

/-- The sessions of a list drain one after the other (R65). -/
theorem State.foldl_drainOne_spec (l : List Nat) (s : State) :
    Reported (· ∈ l) s (l.foldl State.drainOne s) ∧
      ∀ m, m ∈ l ∨ (s.ses m).st = .draining ∨ (s.ses m).st = .ready →
        ((l.foldl State.drainOne s).ses m).st = .draining ∨ ((l.foldl State.drainOne s).ses m).st = .ready := by
  induction l generalizing s with
  | nil => exact ⟨.rfl, fun m h => h.resolve_left List.not_mem_nil⟩
  | cons a t ih =>
    obtain ⟨within, all⟩ := ih (s.drainOne a)
    obtain ⟨first, drained, -⟩ := s.drainOne_spec a
    rw [List.foldl_cons]
    refine ⟨(first.mono fun m h => by simp [h]).trans (within.mono fun m h => by simp [h]), fun m h => all m ?_⟩
    by_cases same : m = a
    · rw [same]
      exact .inr drained
    · rw [first.others m same]
      exact h.imp_left fun mem => (List.mem_cons.1 mem).resolve_left same

/-- The members that drain with rank 0 (R65). -/
def State.drainsWith (s : State) (n : Nat) : List Nat :=
  (s.members n).filter fun m => m != n && ((s.ses m).st == .running || (s.ses m).st == .paused)

theorem State.drainOp_eq (s : State) (n : Nat) : s.drainOp n =
    if (s.ses n).member && (s.ses n).rank == 0 then (s.drainsWith n).foldl State.drainOne (s.drainOne n) else s.drainOne n := rfl

/-- DRAIN changes session `n`, and of rank 0 those that drain with it, and leaves session `n` as its own drain does. -/
theorem State.drainOp_spec (s : State) (n : Nat) :
    Reported (fun m => m = n ∨ ((s.ses n).member = true ∧ m ∈ s.drainsWith n)) s (s.drainOp n) ∧
      (s.drainOp n).ses n = (s.drainOne n).ses n := by
  have first := (s.drainOne_spec n).1
  rw [State.drainOp_eq]
  split
  · next group =>
    have member : (s.ses n).member = true := (Bool.and_eq_true _ _ ▸ group).1
    have rest := (State.foldl_drainOne_spec (s.drainsWith n) (s.drainOne n)).1
    exact ⟨(first.mono fun m h => .inl h).trans (rest.mono fun m h => .inr ⟨member, h⟩),
      rest.others n (by simp [State.drainsWith])⟩
  · exact ⟨first.mono fun m h => .inl h, rfl⟩

/-- Of rank 0, every member that runs or is paused drains too (R65). -/
theorem State.drainOp_members {s : State} {n : Nat} (member : (s.ses n).member = true) (rank : (s.ses n).rank = 0) {m : Nat}
    (mem : m ∈ s.members n) (st : (s.ses m).st = .running ∨ (s.ses m).st = .paused) :
    ((s.drainOp n).ses m).st = .draining ∨ ((s.drainOp n).ses m).st = .ready := by
  rw [State.drainOp_eq, if_pos (by simp [member, rank])]
  refine (State.foldl_drainOne_spec (s.drainsWith n) (s.drainOne n)).2 m ?_
  by_cases same : m = n
  · rw [same]
    exact .inr (s.drainOne_spec n).2.1
  · exact .inl (List.mem_filter.2 ⟨mem, by simpa [same] using st⟩)

/-- What CLOSE leaves of a record, but for its state and the publication (R59, R168). -/
structure Session.Wiped (x y : Session) : Prop where
  config : y.force = none ∧ y.pend = none ∧ y.cfgSeq = 0 ∧ y.pics = [] ∧ y.kept = []
  rings : y.inTail = 0 ∧ y.inHead = 0 ∧ y.outHead = 0 ∧ y.outTail = 0
  rest : y.refs = [] ∧ y.outq = [] ∧ y.dec.slots = [] ∧ y.mig = none
  staging : x.level = false → y.staged = []
  gen : y.foldGen = x.foldGen

/-- Staging at its reset values, its Expert fields unlocked again where the level bit is set (R8, R59). -/
theorem Session.restage_eq (x : Session) : ∃ c l, x.restage = { x with staged := c, level := l } ∧ (x.level = false → c = []) := by
  unfold Session.restage
  cases level : x.level with
  | false => exact ⟨[], false, rfl, fun _ => rfl⟩
  | true => exact ⟨_, true, rfl, fun h => by simp at h⟩

/-- CLOSE frees what the session holds, then clears its record (R59, R168). -/
theorem State.wipe_spec (s : State) (n : Nat) :
    ∃ t y, s.wipe n = t.setSes n y ∧ Freed s t ∧ (t.ses n).Wiped y := by
  refine ⟨((s.dropUnits n).flushSes n).freeSesPages n, _, rfl,
    (s.dropUnits_freed n).trans ((State.flushSes_freed _ n).trans (State.freeSesPages_freed _ n)), ?_⟩
  dsimp only
  generalize (((s.dropUnits n).flushSes n).freeSesPages n).ses n = x
  obtain ⟨c, l, eq, staged⟩ := Session.restage_eq { x with
      cfgSeq := 0, pendSeq := 0, forceSeq := 0, pend := none, force := none, revert := false, inTail := 0, inHead := 0
      hintTail := 0, hintHead := 0, outHead := 0, outTail := 0, hintOwed := 0, rowsReg := 0, rows0 := 0, rows1 := 0
      seen := none, seenWait := false, pics := [], kept := [], drainTo := none, inStall := false, eos := false, eosSent := false
      recPend := false, recNext := false, invalN := none, refs := [], ltr := none, refresh := none, areas := [], cdfs := []
      refBuf := [], lastSource := [], lastCoded := [], owed := [], rc := {}
      dec := { x.dec with slots := [], written := [], dpb := [], sets := [], buffers := 0 }
      bufHead := 0, bufFill := 0, outq := [], pace := [], mig := none, lastAdm := none }
  rw [eq]
  exact ⟨⟨rfl, rfl, rfl, rfl, rfl⟩, ⟨rfl, rfl, rfl, rfl⟩, ⟨rfl, rfl, rfl, rfl⟩, staged, rfl⟩

/-- CLOSE first fails the migration of a source (log 34). -/
def State.beforeClose (s : State) (n : Nat) : State :=
  match (s.ses n).mig with
  | some g => if (s.ses n).st = Ses.migrating ∧ g.out = true then s.migFail n else s
  | none => s

theorem State.beforeClose_spec (s : State) (n : Nat) :
    Footed s (s.beforeClose n) ∧ ((s.ses n).st ≠ .migrating → s.beforeClose n = s) := by
  unfold State.beforeClose
  split
  · split
    · next source => exact ⟨s.migFail_footed n, fun h => absurd source.1 h⟩
    · exact ⟨.rfl, fun _ => rfl⟩
  · exact ⟨.rfl, fun _ => rfl⟩

theorem State.closeOp_eq (s : State) (n : Nat) : s.closeOp n =
    let t := ((s.beforeClose n).wipe n).setSt n .closed
    if (s.ses n).cls = clsLive then t.refloor (s.ses n).panel else t := rfl

/-- The record after CLOSE, and what the release of its pages left (R59, R168). -/
theorem State.closeOp_spec (s : State) (n : Nat) : ∃ t y z, Freed (s.beforeClose n) t ∧ Reported (· = n) t (s.closeOp n) ∧
    (t.ses n).Wiped y ∧ (s.closeOp n).ses n = z ∧ z.st = .closed ∧ z.foldGen = y.foldGen + 1 ∧
    z = { y with st := z.st, prior := z.prior, migFailed := z.migFailed, cwords := z.cwords, foldGen := z.foldGen
                 fold := z.fold } := by
  obtain ⟨t, y, eq, freed, wiped⟩ := (s.beforeClose n).wipe_spec n
  obtain ⟨only, f, record, -⟩ := (t.setSes n y).setSt_spec n .closed
  rw [State.setSes_ses, if_pos rfl] at record
  obtain ⟨around, last⟩ := ((t.setSes n y).setSt n .closed).liveRefloor_spec ((s.ses n).cls = clsLive) (s.ses n).panel n
  rw [State.closeOp_eq, eq]
  refine ⟨t, y, _, freed, (t.setSes_recordsOnly n y).reported.trans (only.reported.trans around.reported), wiped, rfl, ?_⟩
  rw [State.ses_of_sessions last, record]
  exact ⟨rfl, rfl, rfl⟩

/-- Settles O17: DRAIN by the members that follow it, CLOSE by what the release of pages and the cleared record leave. -/
theorem drainAndClose : Obligations.DrainAndClose := by
  unfold Obligations.DrainAndClose
  constructor
  · intro s fn n k reach serving st
    obtain ⟨-, -, -, accepts⟩ := State.cmdReason_run (n := k) serving
    obtain ⟨-, -, -, toDrain, -⟩ := s.cmdEffect_run k 0
    have via : s.cmdVia fn n 6 0 = s.cmdEffect k 6 0 :=
      State.cmdVia_accepted (arg := 0) reach (by decide) (by decide) (accepts st)
    have run : exec (.drain fn n 0) s = .next (s.drainOp k) := by rw [← toDrain, ← via]; rfl
    obtain ⟨within, own⟩ := s.drainOp_spec k
    obtain ⟨-, -, flight, ended⟩ := s.drainOne_spec k
    refine ⟨_, run, fun pics => ?_, fun lower done idle owed alone => ?_, fun member rank m mem => ?_, fun alone => ?_,
      within.tiles, within.pat, within.sec⟩
    · rw [own]; exact flight pics
    · rw [own]; exact ended lower done idle owed
    · exact State.drainOp_members member rank mem
    · exact fun m h => within.others m (by simp [h, alone])
  · intro s fn n k arg reach accepted
    obtain ⟨-, -, -, -, toClose⟩ := s.cmdEffect_run k arg.toNat
    have via := State.cmdVia_accepted reach (by decide) (by decide) accepted
    have run : exec (.close fn n arg) s = .next (s.closeOp k) := by rw [← toClose, ← via]; rfl
    obtain ⟨footed, stays⟩ := s.beforeClose_spec k
    obtain ⟨t, y, z, freed, within, wiped, own, st, gen, eq⟩ := s.closeOp_spec k
    obtain ⟨⟨force, pend, seq, pics, kept⟩, ⟨inTail, inHead, outHead, outTail⟩, ⟨refs, outq, slots, mig⟩, staging, same⟩ := wiped
    have base := footed.trans freed.toFooted
    refine ⟨_, run, ?_⟩
    dsimp only
    rw [own]
    refine ⟨st, ?_⟩
    rw [gen, eq]
    refine ⟨force, pend, seq, pics, kept, inTail, inHead, outHead, outTail, refs, outq, slots, mig,
      fun level => staging ((base.level k).trans level), within.pat.trans base.pat, within.sec.trans base.sec, fun calm out => ?_⟩
    have quiet : t.sessions = s.sessions := by
      rw [stays out] at freed
      exact freed.calm calm
    refine ⟨(OtherSessions.of_eq quiet _).trans within.others, ?_⟩
    rw [same, State.ses_of_sessions quiet]

end Sys2Proof.Machine
end

section
/-!
O21: a migration between two records of one device (R58, R70, R71, R73).
-/
namespace Sys2Proof.Machine

theorem Session.source_eq {x : Session} {g : Mig} (mig : x.mig = some g) : x.source = (x.st == .migrating && g.out) := by
  simp [Session.source, mig]

/-- A session outside a group moves alone (R65). -/
theorem State.migSet_alone {s : State} {n : Nat} (alone : (s.ses n).member = false) : s.migSet n = [n] := by
  simp [State.migSet, alone]

theorem State.migPeer_local {s : State} {n d : Nat} {g : Mig} (mig : (s.ses n).mig = some g) (here : g.peer = s.lin.addr)
    (peer : g.peerSes = d) : s.migPeer n = some d := by
  simp [State.migPeer, mig, here, peer]

theorem Session.lower_alone {x : Session} (alone : x.member = false) : x.lower = false := by simp [Session.lower, alone]

/-- At the rinse of a source, a destination that fits is taken, and one that does not fails the migration (R70, R71). -/
theorem State.stateCopyOp_local {s : State} {n d : Nat} {g : Mig} (live : s.live = true) (source : (s.ses n).source = true)
    (mig : (s.ses n).mig = some g) (here : g.peer = s.lin.addr) (peer : g.peerSes = d) (alone : (s.ses n).member = false)
    (phase : g.phase = 0) (idle : (s.ses n).pics = []) :
    s.stateCopyOp n =
      if ((s.ses d).st == .migrating && !(s.ses d).source &&
        s.panelTakes d (s.ses n).cls (cW (s.ses n).cls (s.ses n).cfg) (cH (s.ses n).cls (s.ses n).cfg)) = true then s.setPhase n 1
      else s.migFail n := by
  have lower := Session.lower_alone alone
  simp only [State.stateCopyOp, mig, State.migSet_alone alone]
  rw [if_pos (by simp [live, source, phase, lower, idle]), if_pos here]
  simp [State.migPeer_local mig here peer]

theorem State.setPhase_eq {s : State} {n : Nat} {g : Mig} (mig : (s.ses n).mig = some g) (k : Nat) :
    s.setPhase n k = s.setSes n { s.ses n with mig := some { g with phase := k } } := by
  simp [State.setPhase, State.modSes, mig]

theorem Posted.lin {s t : State} (h : Posted s t) : t.lin = s.lin := (congrArg State.lin h :)

theorem State.assertSrc_lin (s : State) (n : Nat) (detail : Word) (ses : Nat) : (s.assertSrc n detail ses).lin = s.lin := by
  unfold State.assertSrc
  extract_lets s1 old i hif s2
  split
  · rfl
  split
  · exact (State.post_posted s2 _ _ _).lin
  · rfl

theorem State.sendTo_addr (s : State) (type dst flags : Nat) (info : List Nat) (bulk : Option MigBulk) :
    (s.sendTo type dst flags info bulk).lin.addr = s.lin.addr := by
  unfold State.sendTo State.sendFrame
  extract_lets x
  split
  · rfl
  split
  · exact congrArg (·.addr) (State.emit_posted _ _).lin
  · rfl

/-- A notice leaves this device's address alone. -/
theorem State.migNotice_addr (s : State) (n : Nat) : (s.migNotice n).lin.addr = s.lin.addr := by
  have note (a kind fig : Nat) : (s.note a kind fig).lin.addr = s.lin.addr := by
    unfold State.note
    extract_lets d mgr go
    have told (s : State) (dst : Nat) : (go s dst).lin.addr = s.lin.addr := by
      dsimp only [go]
      split
      · rw [State.assertSrc_lin]
      · exact s.sendTo_addr _ _ _ _ _
    split
    · rfl
    split
    · exact told s mgr
    · exact (told _ 0).trans (told s mgr)
  unfold State.migNotice
  split
  · split
    · exact note _ _ _
    · rfl
  · rfl

/-- One source fails, and the destination that a migration on this device names (R71). -/
theorem State.migFailOne_spec {s : State} {n : Nat} {g : Mig} (st : (s.ses n).st = .migrating) (mig : (s.ses n).mig = some g)
    (out : g.out = true) (away : g.peer = s.lin.addr → g.peerSes ≠ n) :
    Reported (fun m => m = n ∨ g.peer = s.lin.addr ∧ m = g.peerSes) s (s.migFailOne n) ∧
    ∃ f, (s.migFailOne n).ses n = { s.ses n with
      mig := none, st := (s.ses n).prior, prior := .closed, migFailed := true, foldGen := (s.ses n).foldGen + 1, fold := f } := by
  have refused := s.migRefuse_lineOnly n
  have own : (s.migRefuse n).ses n = s.ses n := State.ses_of_sessions refused.sessions n
  obtain ⟨within, f, record⟩ := State.migSrcFail_spec (s := s.migRefuse n) (by rw [own]; exact st) (by rw [own]; exact mig) out
  rw [own] at record
  have source : Reported (fun m => m = n ∨ g.peer = s.lin.addr ∧ m = g.peerSes) s ((s.migRefuse n).migSrcFail n) :=
    refused.reported.trans (within.mono fun m h => .inl h)
  unfold State.migFailOne
  dsimp only
  by_cases here : g.peer = s.lin.addr
  · rw [State.migPeer_local mig here rfl]
    dsimp only
    split
    · split
      · obtain ⟨dest, -⟩ := ((s.migRefuse n).migSrcFail n).migDstFail_within g.peerSes
        refine ⟨source.trans (dest.mono fun m h => .inr ⟨here, h⟩), f, ?_⟩
        rw [dest.others n (Ne.symm (away here)), record]
      · exact ⟨source, f, record⟩
    · exact ⟨source, f, record⟩
  · have none : s.migPeer n = none := by simp [State.migPeer, mig, here]
    rw [none]
    exact ⟨source, f, record⟩

/-- A source outside a group fails (R71): it resumes in its prior state with mig_failed, one publication later. -/
theorem State.migFail_alone {s : State} {n : Nat} {g : Mig} (st : (s.ses n).st = .migrating) (mig : (s.ses n).mig = some g)
    (out : g.out = true) (alone : (s.ses n).member = false) (away : g.peer = s.lin.addr → g.peerSes ≠ n) :
    Reported (fun m => m = n ∨ g.peer = s.lin.addr ∧ m = g.peerSes) s (s.migFail n) ∧
    ∃ f, (s.migFail n).ses n = { s.ses n with
      mig := none, st := (s.ses n).prior, prior := .closed, migFailed := true, foldGen := (s.ses n).foldGen + 1, fold := f } := by
  have noticed := s.migNotice_lineOnly n
  have own : (s.migNotice n).ses n = s.ses n := State.ses_of_sessions noticed.sessions n
  obtain ⟨within, f, record⟩ := State.migFailOne_spec (s := s.migNotice n) (by rw [own]; exact st) (by rw [own]; exact mig) out
    (by rw [State.migNotice_addr]; exact away)
  rw [State.migNotice_addr] at within
  rw [own] at record
  have ended := ((s.migNotice n).migFailOne n).safeMigEnd_lineOnly n false
  have eq : s.migFail n = ((s.migNotice n).migFailOne n).safeMigEnd n false := by
    simp [State.migFail_eq, alone]
  rw [eq, State.ses_of_sessions ended.sessions n, record]
  exact ⟨noticed.reported.trans (within.trans ended.reported), f, rfl⟩

/-- A source returns to CLOSED, with the publication of its last FOLD_GEN plus one (R58, R73). -/
theorem State.closeSource_spec (s : State) (n : Nat) : Reported (· = n) s (s.closeSource n) ∧
    ((s.closeSource n).ses n).st = .closed ∧ ((s.closeSource n).ses n).foldGen = (s.ses n).foldGen + 1 := by
  unfold State.closeSource
  extract_lets x y dc s1 s2 s3 s4
  have renewed : Reported (· = n) s s2 := (s.setSes_recordsOnly n _).reported.trans (s1.modSes_recordsOnly n _).reported
  obtain ⟨only, f, record, -⟩ := s2.setSt_spec n .closed
  have posted := s3.postState_posted n .closed .migrating false
  obtain ⟨around, last⟩ := s4.liveRefloor_spec (x.cls = clsLive) x.panel n
  have gen : (s2.ses n).foldGen = x.foldGen := by
    obtain ⟨c, l, eq, -⟩ := Session.restage_eq (s1.ses n)
    simp only [s2, State.modSes_ses, if_true, eq]
    simp [s1]
  refine ⟨renewed.trans (only.reported.trans (posted.reported.trans around.reported)), ?_⟩
  rw [State.ses_of_sessions last, State.ses_of_sessions posted.sessions, record, gen]
  exact ⟨rfl, rfl⟩

/-- Spares that come to nap change tiles and quadrants alone (R377, log 40). -/
theorem State.warmSpares_frame (s : State) (p : Nat) :
    s.warmSpares p = { s with tiles := (s.warmSpares p).tiles, pwr := (s.warmSpares p).pwr } := by
  unfold State.warmSpares
  generalize s.spares p = l
  induction l generalizing s with
  | nil => rfl
  | cons t rest ih =>
    rw [List.foldl_cons]
    refine Eq.trans (ih _) ?_
    split
    · dsimp only
      split <;> rfl
    · rfl

/-- The destination takes the source's prior state (R58, R73). -/
theorem State.openDest_spec (s : State) (d : Nat) (gen : Word) (prior : Ses) :
    let t := s.openDest d gen prior
    OtherSessions s t (· = d) ∧ t.pat = s.pat ∧ t.now = s.now ∧ ((s.ses d).cls ≠ clsLive → t.tiles = s.tiles) ∧
      ∃ f w, t.ses d = { s.ses d with
        st := prior, prior := .closed, migFailed := false, cwords := w, foldGen := gen + 1, fold := f } := by
  unfold State.openDest
  extract_lets s1 s2 s3 s4 t
  obtain ⟨reset, same⟩ := s1.resetSeqs_spec d d
  obtain ⟨only, f, record, -⟩ := s2.setSt_spec d prior
  have posted := s3.postState_posted d prior .migrating false
  have within : Reported (· = d) s s4 :=
    (s.modSes_recordsOnly d _).reported.trans (reset.reported.trans (only.reported.trans posted.reported))
  have own : s4.ses d = { s.ses d with
      st := prior, prior := .closed, migFailed := false, cwords := (s2.ses d).meWords, foldGen := gen + 1, fold := f } := by
    rw [State.ses_of_sessions posted.sessions, record, State.ses_of_sessions same]
    simp [s1]
  have now : s4.now = s.now := (congrArg State.now within.frame :)
  obtain ⟨around, last⟩ := s4.refloor_spec (s4.ses d).panel d
  have warm := (s4.refloor (s4.ses d).panel).warmSpares_frame (s4.ses d).panel
  dsimp only [t]
  split
  · next live =>
    rw [own] at live
    have sessions : ((s4.refloor (s4.ses d).panel).warmSpares (s4.ses d).panel).sessions = s4.sessions :=
      Eq.trans (congrArg State.sessions warm :) last
    refine ⟨within.others.trans (OtherSessions.of_eq sessions _), ?_, ?_, fun h => absurd live h, f, (s2.ses d).meWords, ?_⟩
    · rw [warm]
      exact Eq.trans (congrArg State.pat around.frame :) within.pat
    · rw [warm]
      exact Eq.trans (congrArg State.now around.frame :) now
    · rw [State.ses_of_sessions sessions, own]
  · exact ⟨within.others, within.pat, now, fun _ => within.tiles, f, (s2.ses d).meWords, own⟩

/-- Settles O21: the rinse by whether the destination fits, the completion by what each of the two records becomes. -/
theorem localMigration : Obligations.LocalMigration := by
  unfold Obligations.LocalMigration
  intro s n d g live source mig here peer ne alone
  have copy : exec (.migrationStateCopy n) s = .next (s.stateCopyOp n) := rfl
  obtain ⟨st, out⟩ : (s.ses n).st = .migrating ∧ g.out = true := by
    simpa [Session.source_eq mig] using source
  refine ⟨fun phase idle dst dest fits => ?_, fun phase idle bars => ⟨_, copy, ?_⟩, fun phase => ?_⟩
  · rw [copy, State.stateCopyOp_local live source mig here peer alone phase idle, if_pos (by simp [dst, dest, fits]),
      State.setPhase_eq mig]
  · rw [State.stateCopyOp_local live source mig here peer alone phase idle, if_neg (by simp [bars])]
    obtain ⟨within, f, record⟩ := State.migFail_alone st mig out alone fun _ => by rw [peer]; exact ne
    rw [record]
    exact ⟨rfl, rfl, rfl, (within.mono fun m h => h.imp_right fun h => h.2.trans peer).others, within.tiles, within.pat⟩
  · have run : exec (.migrationComplete n) s = .next (s.completeLocal n) := by
      have eq : s.migDoneOp n = s.completeLocal n := by
        simp only [State.migDoneOp, mig, State.migSet_alone alone]
        rw [if_pos (by simp [live, source, phase, here])]
        rfl
      exact congrArg _ eq
    obtain ⟨closed, st1, gen1⟩ := s.closeSource_spec n
    let x := s.ses n
    let y := s.ses d
    let s1 := s.closeSource n
    have own1 : s1.ses d = y := closed.others d ne
    let s2 := s1.setSes d ((s1.ses d).received x)
    have src2 : s2.ses n = s1.ses n := by simp [s2, Ne.symm ne]
    have dst2 : s2.ses d = y.received x := by simp [s2, own1]
    have received := s1.setSes_recordsOnly d ((s1.ses d).received x)
    obtain ⟨others, pat, now, tiles, f, w, record⟩ := s2.openDest_spec d (s2.ses n).foldGen x.prior
    have ended := (s2.openDest d (x.foldGen + 1) x.prior).safeMigEnd_lineOnly n true
    have eq : s.completeLocal n = (s2.openDest d (x.foldGen + 1) x.prior).safeMigEnd n true := by
      rw [← gen1, ← src2]
      simp only [State.completeLocal, State.migPeer_local mig here peer]
      rfl
    rw [dst2] at record
    rw [src2, gen1] at others pat now tiles record
    have dst : (s.completeLocal n).ses d = { y.received x with
        st := x.prior, prior := .closed, migFailed := false, cwords := w, foldGen := x.foldGen + 1 + 1, fold := f } := by
      rw [eq, State.ses_of_sessions ended.sessions, record]
    have src : (s.completeLocal n).ses n = s1.ses n := by
      rw [eq, State.ses_of_sessions ended.sessions, others n (Ne.symm ne), src2]
    refine ⟨_, run, ?_⟩
    dsimp only
    rw [src, dst]
    refine ⟨st1, gen1, rfl, BitVec.add_assoc _ 1#32 1#32, rfl, rfl, rfl, rfl, rfl, rfl, rfl, rfl, rfl, ?_, fun cls => ?_, ?_, ?_⟩
    · rw [eq]
      intro m hm
      rw [State.ses_of_sessions ended.sessions, others m fun h => hm (.inr h), received.others m fun h => hm (.inr h),
        closed.others m fun h => hm (.inl h)]
    · rw [eq, (ended.reported (p := (· = n))).tiles, tiles (by rw [dst2]; exact cls)]
      exact closed.tiles
    · rw [eq, (ended.reported (p := (· = n))).pat, pat]
      exact closed.pat
    · rw [eq]
      exact Eq.trans (congrArg State.now (ended.reported (p := (· = n))).frame :) (now.trans (congrArg State.now closed.frame :))

end Sys2Proof.Machine
end

section
/-!
O30: after a COMMIT takes effect the bands parked behind it are looked for by the picture's number (R62), and a picture kept for a
re-code (R171) may bear the number that has just left the session.
-/
namespace Sys2Proof.Machine

/-- Tile 0 runs the one unit of access unit 0, whose COMMIT is its next word; a kept picture of the same number has a parked unit and
one that waits for its re-code. -/
def parkedTwin : State :=
  { pwr := { life := .up, quads := [(0, { pll := true, mhz := 1200 })] }
    pat := { serial := 1 }
    tiles := [(0, { role := .active, power := .run, work := some { ses := 0 }, store := [(0, 0xA0000000)], ndl := { state := 1 } })]
    sessions := [(0, { st := .running, cls := clsDecode, force := some [], pics := [{ units := [{ st := .running }] }]
                       kept := [{ units := [{ st := .parked }, { idx := 1, recode := true }] }] })] }

/-- The access unit holds no picture, and the COMMIT passes its check. -/
def noPicture : UnitResult := { dec := { hasPicture := false } }

theorem parkedTwin_noneWaits : NoneWaits parkedTwin := by
  unfold NoneWaits
  decide

/-- The COMMIT of the access unit ends the kept picture as well, and counts both. -/
theorem parkedTwin_commit_pictures : ((effect (.commit 0 noPicture) parkedTwin).ses 0).pictures = 2 := by
  decide +kernel

/-- Refutes O30: the commit of an access unit counts two pictures where a kept picture of its number has a parked unit. -/
theorem not_commitPasses : ¬ Obligations.CommitPasses := by
  unfold Obligations.CommitPasses
  intro commits
  obtain ⟨-, -, decodes, -⟩ := commits parkedTwin 0 { ses := 0 } { units := [{ st := .running }] } { st := .running } 0xA0000000 noPicture
    (by decide) rfl (by decide) rfl rfl rfl rfl (by decide) rfl rfl parkedTwin_noneWaits
  obtain ⟨t, run, -, -, -, pictures, -⟩ := decodes rfl (by decide) rfl
  rw [← effect_of_exec run, parkedTwin_commit_pictures] at pictures
  exact absurd pictures (by decide)

end Sys2Proof.Machine
end

section
/-!
What becomes of a picture at the head of a session's ring (R78 to R81, R94): its entries are consumed, and a drop is counted.
-/
namespace Sys2Proof.Machine

/-- `t` differs from `s` in the record of session `n`, in what is posted and counted, and of the scheduler's counters in those of `l`
alone. -/
structure PicturePath (n : Nat) (l : List Nat) (s t : State) : Prop where
  frame : t = { s with
    sessions := t.sessions, subs := t.subs, regs := t.regs, lin := t.lin, hif := t.hif, outbox := t.outbox, pmu := t.pmu }
  others : OtherSessions s t (· = n)
  regs : ∀ o < 0x20040, o ∉ l → t.reg o = s.reg o

namespace PicturePath
variable {n : Nat} {l : List Nat} {s t u : State}

protected theorem rfl : PicturePath n l s s := ⟨Eq.refl _, fun _ _ => Eq.refl _, fun _ _ _ => Eq.refl _⟩

theorem trans (h : PicturePath n l s t) (k : PicturePath n l t u) : PicturePath n l s u :=
  ⟨k.frame.trans (by rw [h.frame]), h.others.trans k.others, fun o lo out => (k.regs o lo out).trans (h.regs o lo out)⟩

theorem mono (h : PicturePath n [] s t) : PicturePath n l s t := ⟨h.frame, h.others, fun o lo _ => h.regs o lo List.not_mem_nil⟩

theorem tiles (h : PicturePath n l s t) : t.tiles = s.tiles := (congrArg State.tiles h.frame :)
theorem pat (h : PicturePath n l s t) : t.pat = s.pat := (congrArg State.pat h.frame :)
theorem pages (h : PicturePath n l s t) : t.pages = s.pages := (congrArg State.pages h.frame :)
theorem now (h : PicturePath n l s t) : t.now = s.now := (congrArg State.now h.frame :)

theorem of_reported (h : Reported (· = n) s t) (regs : ∀ o < 0x20040, t.reg o = s.reg o) : PicturePath n l s t :=
  ⟨h.frame.trans (by rw [h.frame]), h.others, fun o lo _ => regs o lo⟩

theorem of_records (h : RecordsOnly (· = n) s t) : PicturePath n l s t :=
  of_reported h.reported fun o _ => (congrArg (State.reg · o) h.frame :)

theorem of_inRecord (h : InRecord n s t) : PicturePath n l s t :=
  of_reported h.around.reported fun o _ => (congrArg (State.reg · o) h.frame :)

theorem of_posted (h : Posted s t) : PicturePath n l s t := of_reported h.reported fun o _ => (congrArg (State.reg · o) h :)

end PicturePath

theorem State.count_path (s : State) (n : Nat) (l : List Nat) (code unit k : Nat) : PicturePath n l s (s.count code unit k) := by
  have same := s.count_offPmu code unit k
  refine ⟨?_, OtherSessions.of_eq (s.count_sessions code unit k) _, fun o _ _ => s.count_reg code unit k o⟩
  have shape : ∀ t : State, t = { t.offPmu with pmu := t.pmu } := fun _ => rfl
  have eq : s.count code unit k = { s with pmu := (s.count code unit k).pmu } := by
    refine (shape _).trans ?_
    rw [same]
    rfl
  exact eq.trans (by rw [eq])

/-- The live floors of the panels stand behind the scheduler's counters (R82). -/
theorem State.refloor_reg (s : State) (p : Nat) {o : Nat} (low : o < 0x20040) : (s.refloor p).reg o = s.reg o := by
  unfold State.refloor
  split
  · rw [State.setReg_reg, if_neg (by omega)]
  · rfl

theorem State.liveRefloor_path (s : State) (live : Prop) [Decidable live] (p n : Nat) (l : List Nat) :
    PicturePath n l s (if live then s.refloor p else s) := by
  split
  · exact .of_reported (s.refloor_spec p n).1.reported fun o low => s.refloor_reg p low
  · exact .rfl

/-- `y` is `x` in what the admission of pictures has read and counted so far. -/
structure Session.InputKept (x y : Session) : Prop where
  nums : y.pics.map (·.num) = x.pics.map (·.num)
  next : y.nextPic = x.nextPic
  adm : y.lastAdm = x.lastAdm
  head : y.inHead = x.inHead
  dropped : y.dropped = x.dropped
  group : y.group = x.group

namespace Session.InputKept
variable {x y z : Session}

protected theorem rfl : x.InputKept x := ⟨Eq.refl _, Eq.refl _, Eq.refl _, Eq.refl _, Eq.refl _, Eq.refl _⟩

theorem trans (h : x.InputKept y) (k : y.InputKept z) : x.InputKept z :=
  ⟨k.nums.trans h.nums, k.next.trans h.next, k.adm.trans h.adm, k.head.trans h.head, k.dropped.trans h.dropped,
    k.group.trans h.group⟩

theorem of_eq (h : y = x) : x.InputKept y := h ▸ .rfl

theorem of_reconfigured (h : x.Reconfigured y) : x.InputKept y := by rw [h]; exact ⟨rfl, rfl, rfl, rfl, rfl, rfl⟩

end Session.InputKept

theorem State.modSes_inputKept {s : State} {n : Nat} {f : Session → Session} (keeps : (s.ses n).InputKept (f (s.ses n))) :
    (s.ses n).InputKept ((s.modSes n f).ses n) := by
  rw [State.modSes_ses, if_pos rfl]
  exact keeps

theorem State.pushOut_spec (s : State) (n : Nat) (o : OutItem) : ∃ q, (s.pushOut n o).ses n = { s.ses n with outq := q } := by
  unfold State.pushOut
  split
  · exact ⟨_, by rw [State.modSes_ses, if_pos rfl]⟩
  · exact ⟨_, rfl⟩

theorem State.pushOut_inputKept (s : State) (n : Nat) (o : OutItem) : (s.ses n).InputKept ((s.pushOut n o).ses n) := by
  obtain ⟨q, record⟩ := s.pushOut_spec n o
  rw [record]
  exact ⟨rfl, rfl, rfl, rfl, rfl, rfl⟩

theorem State.outputPics_inputKept (s : State) (n : Nat) (c : Tbl Word) (nums : List Nat) :
    (s.ses n).InputKept ((s.outputPics n c nums).ses n) := by
  unfold State.outputPics
  induction nums generalizing s with
  | nil => exact .rfl
  | cons k rest ih =>
    rw [List.foldl_cons]
    refine Session.InputKept.trans ?_ (ih _)
    dsimp only
    split
    · refine Session.InputKept.trans ?_ (State.pushOut_inputKept _ n _)
      rw [State.setSes_ses, if_pos rfl]
      exact ⟨rfl, rfl, rfl, rfl, rfl, rfl⟩
    · exact .rfl

theorem State.tagEos_inputKept (s : State) (n : Nat) : (s.ses n).InputKept ((s.tagEos n).ses n) := by
  refine State.modSes_inputKept ?_
  split <;> exact ⟨rfl, rfl, rfl, rfl, rfl, rfl⟩

theorem State.flushDpb_inputKept (s : State) (n : Nat) : (s.ses n).InputKept ((s.flushDpb n).ses n) := by
  unfold State.flushDpb
  extract_lets x s1 s2
  split
  · exact (s.outputPics_inputKept n _ _).trans
      ((State.modSes_inputKept (s := s1) ⟨rfl, rfl, rfl, rfl, rfl, rfl⟩).trans (s2.tagEos_inputKept n))
  · exact .rfl

/-- The end of a drained stream takes nothing from the ring and counts no drop (R58, R59). -/
theorem State.endDrain_path (s : State) (n : Nat) (l : List Nat) :
    PicturePath n l s (s.endDrain n) ∧ (s.ses n).InputKept ((s.endDrain n).ses n) := by
  unfold State.endDrain
  split
  · extract_lets s1 x s2 s3 s4 s5 s6
    have pushed : PicturePath n l s1 s2 ∧ (s1.ses n).InputKept (s2.ses n) := by
      dsimp only [s2]
      split
      · exact ⟨.rfl, .rfl⟩
      · exact ⟨.of_records (s1.pushOut_recordsOnly n _), s1.pushOut_inputKept n _⟩
    have cleared : (s2.ses n).InputKept (s3.ses n) := State.modSes_inputKept ⟨rfl, rfl, rfl, rfl, rfl, rfl⟩
    obtain ⟨ready, f, record, -⟩ := s3.setSt_spec n .ready
    have posted := s4.postState_posted n .ready .draining false
    obtain ⟨within, same⟩ := s5.applyPending_spec n
    have last := (s6.liveRefloor_spec (x.cls = clsLive) x.panel n).2
    refine ⟨(PicturePath.of_records (s.flushDpb_recordsOnly n)).trans (pushed.1.trans ((PicturePath.of_records
      (s2.modSes_recordsOnly n _)).trans ((PicturePath.of_records ready).trans ((PicturePath.of_posted posted).trans
      ((PicturePath.of_inRecord within).trans (s6.liveRefloor_path _ _ n l)))))), ?_⟩
    rw [State.ses_of_sessions last]
    refine (s.flushDpb_inputKept n).trans (pushed.2.trans (cleared.trans (.trans ?_ (.of_reconfigured same))))
    rw [State.ses_of_sessions posted.sessions n, record]
    exact ⟨rfl, rfl, rfl, rfl, rfl, rfl⟩
  · exact ⟨.rfl, .rfl⟩

/-- A hint entry that is consumed moves the hint head or what it owes, in the record alone (R117). -/
theorem State.consumeHint_path (s : State) (n : Nat) (l : List Nat) : PicturePath n l s (s.consumeHint n) ∧
    ∃ h o, (s.consumeHint n).ses n = { s.ses n with hintHead := h, hintOwed := o } := by
  unfold State.consumeHint
  extract_lets x sz
  split
  · split
    · refine ⟨(PicturePath.of_records (s.setSes_recordsOnly n _)).trans (.of_posted (State.emit_posted _ _)),
        (x.hintHead + 1) % sz, x.hintOwed, ?_⟩
      rw [State.ses_of_sessions (State.emit_posted _ _).sessions, State.setSes_ses, if_pos rfl]
    · exact ⟨.of_records (s.setSes_recordsOnly n _), _, _, by rw [State.setSes_ses, if_pos rfl]⟩
  · exact ⟨.rfl, _, _, rfl⟩

/-- An input entry that is consumed moves the head one on (R94). -/
theorem State.consumeInput_path (s : State) (n : Nat) (free : Bool) (l : List Nat) : PicturePath n l s (s.consumeInput n free) ∧
    ∃ g, (s.consumeInput n free).ses n = { s.ses n with
      inHead := ((s.ses n).inHead % ringSize (s.ses n).cfg 0x2C0 + 1) % ringSize (s.ses n).cfg 0x2C0
      seen := none, seenWait := false, srcGen := g } := by
  unfold State.consumeInput
  extract_lets x sz i s1
  have moved : PicturePath n l s s1 := .of_records (s.setSes_recordsOnly n _)
  split
  · refine ⟨moved.trans (.of_posted (s1.emit_posted _)),
      tset 0 i ((tget 0 x.srcGen i + 1) % 65536) x.srcGen, ?_⟩
    rw [State.ses_of_sessions (s1.emit_posted _).sessions, State.setSes_ses, if_pos rfl]
  · exact ⟨moved, _, by rw [State.setSes_ses, if_pos rfl]⟩

theorem Session.rowsPast_eq (x : Session) (num : Nat) : ∃ a b, x.rowsPast num = { x with rows0 := a, rows1 := b } := by
  unfold Session.rowsPast
  split
  · exact ⟨_, _, rfl⟩
  · split <;> exact ⟨_, _, rfl⟩

theorem Session.modPic_nums (x : Session) (num : Nat) {f : Pic → Pic} (keeps : ∀ p, (f p).num = p.num) :
    (x.modPic num f).pics.map (·.num) = x.pics.map (·.num) := by
  simp only [Session.modPic, List.map_map]
  refine List.map_congr_left fun p _ => ?_
  simp only [Function.comp_apply]
  split
  · exact keeps p
  · rfl

/-- A drop is noted at a picture in flight or in the rate control (R135). -/
theorem Session.noteDrop_eq (x : Session) (t : RateTerms) (ord k : Nat) :
    ∃ ps ks rc, x.noteDrop t ord k = { x with pics := ps, kept := ks, rc := rc } ∧ ps.map (·.num) = x.pics.map (·.num) := by
  unfold Session.noteDrop
  split
  · exact ⟨_, _, _, rfl, rfl⟩
  · split
    · next q _ => exact ⟨_, _, _, rfl, x.modPic_nums q.num fun _ => rfl⟩
    · exact ⟨_, _, _, rfl, rfl⟩

/-- A counted drop (R81): one more in the record and in SCH_DROPPED. -/
theorem State.countDrop_spec (s : State) (n num reason pts band : Nat) (per : Bool) :
    let t := s.countDrop n num reason pts band per
    PicturePath n [0x2001C] s t ∧ t.reg 0x2001C = satIncW (s.reg 0x2001C) 1 ∧
      ∃ e q, t.ses n = { s.ses n with dropped := (s.ses n).dropped + 1, eosSent := e, outq := q } := by
  unfold State.countDrop
  extract_lets x s1 l1 s2 s3 s4 last s5 t
  have told : PicturePath n [] s3 s4 := by
    dsimp only [s4]
    split
    · exact .of_posted (State.post_posted _ _ _ _)
    · exact .rfl
  have same3 : s3.sessions = s1.sessions := State.count_sessions _ _ _ _
  have same4 : s4.sessions = s3.sessions := by
    dsimp only [s4]
    split
    · exact (State.post_posted _ _ _ _).sessions
    · rfl
  have flagged : PicturePath n [] s4 s5 ∧ ∃ e, s5.ses n = { s4.ses n with eosSent := e } := by
    dsimp only [s5]
    split
    · exact ⟨.of_records (s4.modSes_recordsOnly n _), true, by rw [State.modSes_ses, if_pos rfl]⟩
    · exact ⟨.rfl, _, rfl⟩
  have pushed : PicturePath n [] s5 t := .of_records (s5.pushOut_recordsOnly n _)
  have counted : PicturePath n [] (s2.bump 0x2001C) s3 := State.count_path _ _ _ _ _ _
  have late : PicturePath n [] (s2.bump 0x2001C) t := counted.trans (told.trans (flagged.1.trans pushed))
  have bumped : PicturePath n [0x2001C] s (s2.bump 0x2001C) := by
    refine ⟨rfl, fun m ne => (s.setSes_ses n _ m).trans (if_neg ne), fun o _ out => ?_⟩
    rw [State.bump_reg, if_neg (by simpa using out)]
    rfl
  refine ⟨bumped.trans late.mono, ?_, ?_⟩
  · rw [late.regs _ (by decide) List.not_mem_nil, State.bump_reg, if_pos rfl]
    rfl
  · obtain ⟨q, pushed⟩ : ∃ q, t.ses n = { s5.ses n with outq := q } := s5.pushOut_spec n _
    obtain ⟨-, e, own⟩ := flagged
    refine ⟨e, q, pushed.trans ?_⟩
    rw [own, State.ses_of_sessions same4, State.ses_of_sessions same3, State.setSes_ses, if_pos rfl]

/-- A picture of a session outside a group that is dropped before its admission (R81). -/
theorem State.dropNew_spec {s : State} {n : Nat} (alone : (s.ses n).member = false) (p : Pic) (reason : Nat) :
    let t := s.dropNew n p reason
    PicturePath n [0x2001C] s t ∧ t.reg 0x2001C = satIncW (s.reg 0x2001C) 1 ∧
      (t.ses n).dropped = (s.ses n).dropped + 1 ∧ (t.ses n).nextPic = (p.num + 1) % 2 ^ 24 ∧ (t.ses n).inHead = (s.ses n).inHead ∧
      (t.ses n).pics.map (·.num) = (s.ses n).pics.map (·.num) ∧ ((s.ses n).st ≠ .draining → (t.ses n).st = (s.ses n).st) := by
  unfold State.dropNew
  extract_lets x r y s1 s2 t
  obtain ⟨a, b, past⟩ := x.rowsPast_eq p.num
  obtain ⟨ps, ks, rc, noted, nums⟩ := (x.rowsPast p.num).noteDrop_eq r s.admitted 1
  rw [past] at nums
  have own : s1.ses n = { x with pics := ps, kept := ks, rc := rc, rows0 := a, rows1 := b, nextPic := (p.num + 1) % 2 ^ 24 } := by
    have noted : y = _ := noted
    rw [State.setSes_ses, if_pos rfl, noted, past]
  obtain ⟨counted, reg, e, q, record⟩ := s1.countDrop_spec n p.num reason p.pts 0 false
  rw [own] at record
  obtain ⟨ended, input⟩ := s2.endDrain_path n []
  have lower : t = s2.endDrain n := by
    have group : ((s2.endDrain n).ses n).member = false := by
      rw [Session.member, input.group, record]
      exact alone
    simp [t, State.drainLower, group]
  rw [lower]
  have first : PicturePath n [0x2001C] s s1 := .of_records (s.setSes_recordsOnly n _)
  refine ⟨first.trans (counted.trans ended.mono), ?_, ?_, ?_, ?_, ?_, fun st => ?_⟩
  · rw [ended.regs _ (by decide) List.not_mem_nil, reg]
    rfl
  · rw [input.dropped, record]
  · rw [input.next, record]
  · rw [input.head, record]
  · rw [input.nums, record]
    exact nums
  · have same : (s2.ses n).st = (s.ses n).st := by rw [record]
    rw [State.endDrain_goesOn (by simp [State.lastOfStream, same, st]), same]

end Sys2Proof.Machine
end

section
/-!
O22: the limits of a migration, and what goes over the line at its receiver (R70, R71, R364).
-/
namespace Sys2Proof.Machine

theorem State.sendAck_spec (s : State) (p : Nat) :
    s.sendAck p = { s with lin := (s.sendAck p).lin, hif := (s.sendAck p).hif, outbox := (s.sendAck p).outbox } ∧
      (s.sendAck p).lin.addr = s.lin.addr ∧ (s.sendAck p).lin.valid = s.lin.valid := by
  unfold State.sendAck
  extract_lets x
  have sent := (s.setLport p { x with unacked := 0 }).emit_posted (.linkCtl p false ((x.rxSeq + 65535) % 65536))
  refine ⟨Eq.trans sent (by rw [sent]; rfl), ?_⟩
  rw [sent.lin]
  exact ⟨rfl, rfl⟩

/-- A frame for this device that arrives in order reaches it (R357): of what came before, only the link layer differs. -/
theorem State.rxLine_here {s : State} {p : Nat} {h : LineHdr} (order : InOrder s p h) (me : s.lin.me h.dst = true) (type : Nat)
    (info : List Nat) (f : State → State) (bulk : Option MigBulk) :
    ∃ r, s.rxLine p h type info f bulk = f r ∧ r = { s with lin := r.lin, hif := r.hif, outbox := r.outbox } ∧
      r.lin.addr = s.lin.addr := by
  obtain ⟨live, up, seq, hops⟩ := order
  unfold State.rxLine State.rxFrame
  extract_lets x s1 s2
  rw [if_pos (by simp [live, x, up, seq]), if_neg (by omega)]
  have acked : s2 = { s with lin := s2.lin, hif := s2.hif, outbox := s2.outbox } ∧ s2.lin.addr = s.lin.addr ∧
      s2.lin.valid = s.lin.valid := by
    dsimp only [s2]
    split
    · obtain ⟨frame, addr, valid⟩ := s1.sendAck_spec p
      exact ⟨Eq.trans frame (by rfl), addr, valid⟩
    · exact ⟨rfl, rfl, rfl⟩
  obtain ⟨frame, addr, valid⟩ := acked
  refine ⟨s2, if_pos ?_, frame, addr⟩
  rw [Line.me, addr, valid]
  exact me

/-- What the statement says of the sessions and the tiles, from a change that starts where the frame has arrived. -/
theorem Reported.received {n : Nat} {s r t : State} (frame : r = { s with lin := r.lin, hif := r.hif, outbox := r.outbox })
    (h : Reported (· = n) r t) : OtherSessions s t (· = n) ∧ t.tiles = s.tiles := by
  have sessions : r.sessions = s.sessions := (congrArg State.sessions frame :)
  have tiles : r.tiles = s.tiles := (congrArg State.tiles frame :)
  exact ⟨(OtherSessions.of_eq sessions _).trans h.others, h.tiles.trans tiles⟩

theorem State.migAnswer_lineOnly (s : State) (h : LineHdr) (code peerSes ses : Nat) : LineOnly s (s.migAnswer h code peerSes ses) :=
  s.sendTo_lineOnly _ _ _ _ _

theorem State.migTimeoutOp_due {s : State} {n : Nat} {g : Mig} (live : s.live = true) (st : (s.ses n).st = .migrating)
    (mig : (s.ses n).mig = some g) (due : g.started + 144144000 ≤ s.now) :
    s.migTimeoutOp n = if g.out then s.migFail n else if g.phase = 0 then s else s.migDstFail n := by
  simp only [State.migTimeoutOp, mig]
  exact if_pos (by simp [live, st, due])

theorem State.migTimeoutOp_early {s : State} {n : Nat} {g : Mig} (mig : (s.ses n).mig = some g) (early : s.now < g.started + 144144000) :
    s.migTimeoutOp n = s := by
  simp only [State.migTimeoutOp, mig]
  exact if_neg (by simp [early])

/-- The picture at the head of a migrating source's ring, whose deadline has passed, leaves the ring where it is dropped (R70). -/
theorem State.deadlineOp_drops {s : State} {n : Nat} {a e : AdmitIn} {r : Nat} (live : s.live = true)
    (source : (s.ses n).source = true) (cls : (s.ses n).cls = clsLive) (top : (s.ses n).lower = false)
    (more : (s.ses n).inputDone = false) (go : (s.ses n).inStall = false) (seen : (s.ses n).seen = some e)
    (whole : e.entry.length = 64) (owned : ownerBit e.entry = true) (space : (srcDesc e.entry).space ≠ 2)
    (due : (s.encPic n e none).due s.now = true) (drop : s.judge n (s.encPic n e none) true = .drop r) :
    s.deadlineOp n a = ((s.consumeHint n).consumeInput n true).dropNew n (s.encPic n e none) r := by
  simp only [State.deadlineOp, seen, Option.getD_some, if_neg space, Option.isSome_some, due, drop, if_true]
  exact if_pos (by simp [live, source, cls, top, more, go, whole, owned])

/-- An open that fits the panel of the destination that waits for it is taken (R364). -/
theorem State.migOpen_fits {s : State} {h : LineHdr} {n : Nat} {g : Mig} (st : (s.ses n).st = .migrating)
    (mig : (s.ses n).mig = some g) (dest : g.out = false) (phase : g.phase = 0) (peer : g.peer = h.src) {cls w ht : Nat}
    (fits : s.panelTakes n cls w ht = true) (grp : Word) :
    s.migOpen h n g.peerSes cls grp w ht = (s.setSes n { s.ses n with mig := some { g with
      phase := 2, cls := cls % 4, group := maskW 0x1FFF grp, started := s.now, data := [] } }).migAnswer h 1 g.peerSes n := by
  simp only [State.migOpen, mig, fits, if_true]
  exact if_pos (by simp [st, dest, phase, peer])

/-- A done frame is judged by the check value of the data that came (R364). -/
theorem State.migCheck_done {s : State} {h : LineHdr} {n : Nat} {g : Mig} (st : (s.ses n).st = .migrating)
    (mig : (s.ses n).mig = some g) (dest : g.out = false) (phase : g.phase = 2) (peer : g.peer = h.src) (crc : Word) (b : MigBulk) :
    s.migCheck h n crc b =
      if crc32c g.data = crc then
        (s.setSes n { s.ses n with mig := some { g with phase := 3 }, migBulk := some b }).migAnswer h 1 g.peerSes n
      else (s.migDstFail n).migAnswer h 2 g.peerSes n := by
  simp only [State.migCheck, mig]
  exact if_pos (by simp [st, dest, phase, peer])

theorem State.migRefused_source {s : State} {h : LineHdr} {n : Nat} {g : Mig} (st : (s.ses n).st = .migrating)
    (mig : (s.ses n).mig = some g) (out : g.out = true) (peer : g.peer = h.src) : s.migRefused h n = s.migFail n := by
  simp only [State.migRefused, mig, out, if_true]
  exact if_pos (by simp [st, peer])

/-- Settles O22: the limits and the frames, each by the operation that it comes to. -/
theorem migrationOverTheLine : Obligations.MigrationOverTheLine := by
  unfold Obligations.MigrationOverTheLine
  constructor
  · intro s n g live st mig alone
    refine ⟨fun due out away => ⟨_, rfl, ?_⟩, fun due dest begun => ⟨_, rfl, ?_⟩, fun early => ?_, ?_⟩
    · rw [State.migTimeoutOp_due live st mig due, if_pos out]
      obtain ⟨within, f, record⟩ := State.migFail_alone st mig out alone fun here => absurd here away
      rw [record]
      have within := within.mono (q := (· = n)) fun m h => h.resolve_right fun h => away h.1
      exact ⟨rfl, rfl, rfl, rfl, within.others, within.tiles, within.pat⟩
    · rw [State.migTimeoutOp_due live st mig due, if_neg (by simp [dest]), if_neg begun]
      obtain ⟨within, f, w, record⟩ := State.migDstFail_spec st mig dest
      rw [record]
      exact ⟨rfl, rfl, within.others, within.tiles, within.pat⟩
    · exact congrArg _ (State.migTimeoutOp_early mig early)
    · intro a e out cls top more go seen whole owned space due drop hints
      obtain ⟨r, drop⟩ := drop
      have late : (s.encPic n e none).due s.now = true := by
        obtain ⟨d, deadline, past⟩ := due
        simp [Pic.due, deadline, past]
      have eq := State.deadlineOp_drops (a := a) live (by simp [Session.source_eq mig, st, out]) cls top more go seen whole owned space
        late drop
      have unhinted : s.consumeHint n = s := if_neg (by simp [hints])
      rw [unhinted] at eq
      obtain ⟨moved, g', record⟩ := s.consumeInput_path n true [0x2001C]
      obtain ⟨dropped, -, count, -, head, -, stays⟩ := State.dropNew_spec (s := s.consumeInput n true) (n := n)
        (by rw [record]; exact alone) (s.encPic n e none) r
      have path := moved.trans dropped
      refine ⟨_, congrArg Host.Outcome.next eq, ?_, ?_, ?_, path.tiles, path.pat⟩
      · rw [head, record]
      · rw [count, record]
      · rw [stays (by rw [record]; simp [st]), record]
        exact st
  · intro s p h n g order me st mig peer alone away
    have arrives := State.rxLine_here order me
    have own : ∀ r : State, r = { s with lin := r.lin, hif := r.hif, outbox := r.outbox } → r.ses n = s.ses n := fun r frame =>
      State.ses_of_sessions (congrArg State.sessions frame :) n
    refine ⟨fun dest phase cls grp w ht fits => ?_, fun dest phase bytes => ?_, fun dest phase bulk => ?_,
      fun dest phase bulk crc bad => ?_, fun out => ?_⟩
    · obtain ⟨r, eq, frame, -⟩ := arrives ftMigCtl [0, n, g.peerSes, cls, grp, w, ht]
        (fun s => s.migOpen h n g.peerSes cls (w32 grp) w ht) none
      have fits : r.panelTakes n cls w ht = true := by rw [← fits, frame]; rfl
      have now : r.now = s.now := (congrArg State.now frame :)
      rw [State.migOpen_fits (by rw [own r frame]; exact st) (by rw [own r frame]; exact mig) dest phase peer fits] at eq
      have answered := State.migAnswer_lineOnly (r.setSes n { r.ses n with mig := some { g with
        phase := 2, cls := cls % 4, group := maskW 0x1FFF (w32 grp), started := r.now, data := [] } }) h 1 g.peerSes n
      obtain ⟨others, tiles⟩ := Reported.received frame ((r.setSes_recordsOnly n _).reported.trans answered.reported)
      refine ⟨_, congrArg Host.Outcome.next eq, ?_, ?_, others, tiles⟩
      · rw [State.ses_of_sessions answered.sessions, State.setSes_ses, if_pos rfl, now]
      · rw [State.ses_of_sessions answered.sessions, State.setSes_ses, if_pos rfl, own r frame]
        exact st
    · obtain ⟨r, eq, frame, -⟩ := arrives ftMigData ([n, bytes.length] ++ bytes.map (·.toNat)) (fun s =>
        s.modSes n fun y => match y.mig with
          | some g => if y.st == .migrating && !g.out && g.phase == 2 && g.peer == h.src then
              { y with mig := some { g with data := g.data ++ bytes } } else y
          | none => y) none
      obtain ⟨others, tiles⟩ := Reported.received frame (r.modSes_recordsOnly n _).reported
      refine ⟨_, congrArg Host.Outcome.next eq, ?_, others, tiles⟩
      rw [State.modSes_ses, if_pos rfl, own r frame, mig]
      simp [st, dest, phase, peer]
    · obtain ⟨r, eq, frame, -⟩ := arrives ftMigCtl [3, n, (crc32c g.data).toNat] (fun s => s.migCheck h n (crc32c g.data) bulk) (some bulk)
      rw [State.migCheck_done (by rw [own r frame]; exact st) (by rw [own r frame]; exact mig) dest phase peer, if_pos rfl] at eq
      have answered := State.migAnswer_lineOnly (r.setSes n { r.ses n with mig := some { g with phase := 3 }, migBulk := some bulk })
        h 1 g.peerSes n
      obtain ⟨others, tiles⟩ := Reported.received frame ((r.setSes_recordsOnly n _).reported.trans answered.reported)
      refine ⟨_, congrArg Host.Outcome.next eq, ?_, ?_, ?_, others, tiles⟩ <;>
        rw [State.ses_of_sessions answered.sessions, State.setSes_ses, if_pos rfl]
      rw [own r frame]
      exact st
    · obtain ⟨r, eq, frame, -⟩ := arrives ftMigCtl [3, n, crc.toNat] (fun s => s.migCheck h n crc bulk) (some bulk)
      have st' : (r.ses n).st = .migrating := by rw [own r frame]; exact st
      have mig' : (r.ses n).mig = some g := by rw [own r frame]; exact mig
      rw [State.migCheck_done st' mig' dest phase peer, if_neg (Ne.symm bad)] at eq
      obtain ⟨within, f, w, record⟩ := State.migDstFail_spec st' mig' dest
      have answered := (r.migDstFail n).migAnswer_lineOnly h 2 g.peerSes n
      obtain ⟨others, tiles⟩ := Reported.received frame (within.trans answered.reported)
      refine ⟨_, congrArg Host.Outcome.next eq, ?_, ?_, others, tiles⟩ <;> rw [State.ses_of_sessions answered.sessions, record]
    · obtain ⟨r, eq, frame, addr⟩ := arrives ftMigCtl [2, n] (fun s => s.migRefused h n) none
      have st' : (r.ses n).st = .migrating := by rw [own r frame]; exact st
      have mig' : (r.ses n).mig = some g := by rw [own r frame]; exact mig
      have away' : g.peer ≠ r.lin.addr := by rw [addr]; exact away
      rw [State.migRefused_source st' mig' out peer] at eq
      obtain ⟨within, f, record⟩ := State.migFail_alone st' mig' out (by rw [own r frame]; exact alone) fun here => absurd here away'
      obtain ⟨others, tiles⟩ := Reported.received frame (within.mono (q := (· = n)) fun m h => h.resolve_right fun h => away' h.1)
      refine ⟨_, congrArg Host.Outcome.next eq, ?_, ?_, others, tiles⟩ <;> rw [record]
      rw [own r frame]

end Sys2Proof.Machine
end

section
/-!
The admission of a picture (R78 to R80, R164, R182): what joins the session, and what its hint and its source then change.
-/
namespace Sys2Proof.Machine

/-- `t` differs from `s` in no other session and no tile, and SCH_ADMITTED counts as much. -/
structure Within (n : Nat) (s t : State) : Prop where
  others : OtherSessions s t (· = n)
  tiles : t.tiles = s.tiles
  admitted : t.admitted = s.admitted
  reg : t.reg 0x20018 = s.reg 0x20018

namespace Within
variable {n : Nat} {l : List Nat} {s t u : State}

protected theorem rfl : Within n s s := ⟨fun _ _ => Eq.refl _, Eq.refl _, Eq.refl _, Eq.refl _⟩

theorem trans (h : Within n s t) (k : Within n t u) : Within n s u :=
  ⟨h.others.trans k.others, k.tiles.trans h.tiles, k.admitted.trans h.admitted, k.reg.trans h.reg⟩

theorem of_path (h : PicturePath n [] s t) : Within n s t :=
  ⟨h.others, h.tiles, (congrArg State.admitted h.frame :), h.regs _ (by decide) List.not_mem_nil⟩

end Within

/-- `y` is `x` in what admission has read and counted so far, and in the configuration in force. -/
structure Session.Onward (x y : Session) : Prop extends x.InputKept y where
  force : y.force = x.force

namespace Session.Onward
variable {x y z : Session}

protected theorem rfl : x.Onward x := ⟨.rfl, Eq.refl _⟩

theorem trans (h : x.Onward y) (k : y.Onward z) : x.Onward z := ⟨h.toInputKept.trans k.toInputKept, k.force.trans h.force⟩

theorem cfg (h : x.Onward y) : y.cfg = x.cfg := by rw [Session.cfg, h.force, Session.cfg]

theorem of_modPic (x : Session) (num : Nat) {f : Pic → Pic} (keeps : ∀ p, (f p).num = p.num) : x.Onward (x.modPic num f) :=
  ⟨⟨x.modPic_nums num keeps, Eq.refl _, Eq.refl _, Eq.refl _, Eq.refl _, Eq.refl _⟩, Eq.refl _⟩

end Session.Onward

theorem Session.rowsPast_onward (x : Session) (num : Nat) : x.Onward (x.rowsPast num) := by
  obtain ⟨a, b, eq⟩ := x.rowsPast_eq num
  rw [eq]
  exact ⟨⟨rfl, rfl, rfl, rfl, rfl, rfl⟩, rfl⟩

/-- `t` follows `s` on the way of a picture of session `n`. -/
def Follows (n : Nat) (s t : State) : Prop := Within n s t ∧ (s.ses n).Onward (t.ses n)

namespace Follows
variable {n : Nat} {s t u : State}

protected theorem rfl : Follows n s s := ⟨.rfl, .rfl⟩

theorem trans (h : Follows n s t) (k : Follows n t u) : Follows n s u := ⟨h.1.trans k.1, h.2.trans k.2⟩

theorem of_posted (h : Posted s t) : Follows n s t :=
  ⟨.of_path (.of_posted h), by rw [State.ses_of_sessions h.sessions]; exact .rfl⟩

theorem setSes {x : Session} (keeps : (s.ses n).Onward x) : Follows n s (s.setSes n x) :=
  ⟨.of_path (.of_records (s.setSes_recordsOnly n x)), by rw [State.setSes_ses, if_pos rfl]; exact keeps⟩

theorem modSes {f : Session → Session} (keeps : ∀ x : Session, x.Onward (f x)) : Follows n s (s.modSes n f) := setSes (keeps _)

end Follows

theorem State.sourceIn_follows (s : State) (n : Nat) (p : Pic) : Follows n s (s.sourceIn n p) := by
  unfold State.sourceIn
  extract_lets s1 s2
  have marked : Follows n s s1 := .modSes fun x => .of_modPic x p.num fun _ => rfl
  have freed : Follows n s1 s2 := by
    dsimp only [s2]
    split
    · exact .rfl
    · exact .of_posted (s1.emit_posted _)
  refine marked.trans (freed.trans ?_)
  split
  · split
    · exact .rfl
    · exact .of_posted (s2.emit_posted _)
  · exact .rfl

theorem State.fetchRows_follows (s : State) (n fuel : Nat) : Follows n s (s.fetchRows n fuel) := by
  induction fuel generalizing s with
  | zero => exact .rfl
  | succ fuel ih =>
    unfold State.fetchRows
    extract_lets x h after s1 s2
    split
    · exact .rfl
    · next p _ =>
      have posted : Follows n s s1 := .modSes fun x =>
        (Session.Onward.of_modPic x h (f := (·.tokens true x.rows0)) fun _ => rfl).trans
          (.of_modPic _ after (f := (·.tokens true x.rows1)) fun _ => rfl)
      split
      · have passed : Follows n s1 s2 := .modSes fun x => ⟨⟨rfl, rfl, rfl, rfl, rfl, rfl⟩, rfl⟩
        refine posted.trans (passed.trans (.trans ?_ (ih _)))
        split
        · exact s2.sourceIn_follows n p
        · exact .rfl
      · exact posted

theorem State.takeHint_follows (s : State) (n : Nat) (a : AdmitIn) (p : Pic) : Follows n s (s.takeHint n a p).1 := by
  unfold State.takeHint
  extract_lets x d
  split
  · exact .rfl
  split
  · exact .setSes ⟨⟨rfl, rfl, rfl, rfl, rfl, rfl⟩, rfl⟩
  split
  · exact .rfl
  · exact .setSes ⟨⟨rfl, rfl, rfl, rfl, rfl, rfl⟩, rfl⟩

theorem State.consumeHint_follows (s : State) (n : Nat) : Follows n s (s.consumeHint n) := by
  obtain ⟨path, h, o, record⟩ := s.consumeHint_path n []
  exact ⟨.of_path path, by rw [record]; exact ⟨⟨rfl, rfl, rfl, rfl, rfl, rfl⟩, rfl⟩⟩

theorem State.foldl_allocPage (l : List Nat) (s : State) :
    l.foldl State.allocPage s = { s with pages := (l.foldl State.allocPage s).pages } := by
  induction l generalizing s with
  | nil => rfl
  | cons i rest ih => exact Eq.trans (ih (s.allocPage i)) rfl

theorem State.checkLow_posted (s : State) : ∃ b, Posted { s with lowArmed := b } s.checkLow := by
  unfold State.checkLow
  extract_lets low
  split
  · split
    · exact ⟨false, State.post_posted _ _ _ _⟩
    · exact ⟨_, .rfl⟩
  · exact ⟨true, .rfl⟩

/-- A reservation takes pages and posts at most the event of a low hamper (R164, R172). -/
theorem State.reserve_within (s : State) (k n : Nat) : Within n s (s.reserve k).1 ∧ (s.reserve k).1.sessions = s.sessions := by
  unfold State.reserve
  split
  · exact ⟨⟨fun _ _ => rfl, rfl, rfl, by rw [State.bump_reg]; rfl⟩, rfl⟩
  · extract_lets ps
    have taken := State.foldl_allocPage ps s
    generalize ps.foldl State.allocPage s = u at taken
    obtain ⟨b, posted⟩ := u.checkLow_posted
    have sessions : u.checkLow.sessions = s.sessions := posted.sessions.trans (congrArg State.sessions taken :)
    exact ⟨⟨.of_eq sessions _, Eq.trans (congrArg State.tiles posted :) (congrArg State.tiles taken :),
      Eq.trans (congrArg State.admitted posted :) (congrArg State.admitted taken :),
      Eq.trans (congrArg (State.reg · 0x20018) posted :) (congrArg (State.reg · 0x20018) taken :)⟩, sessions⟩

/-- The decisions on a picture leave what admission has counted (R106, R148). -/
theorem Session.decide_onward (x : Session) (p : Pic) (fk : Bool) (top : Option Pic) :
    x.Onward (x.decide_ p fk top).1 ∧ (x.decide_ p fk top).2.num = p.num ∧ (x.decide_ p fk top).1.dec = x.dec ∧
      (x.decide_ p fk top).1.pics = x.pics :=
  ⟨⟨⟨rfl, rfl, rfl, rfl, rfl, rfl⟩, rfl⟩, rfl, rfl, rfl⟩

end Sys2Proof.Machine
end

section
/-!
O27: PICTURE_ADMISSION (R66, R78 to R81, R94, R95, R102, R177, R182).
-/
namespace Sys2Proof.Machine

/-- A picture has joined session `n`: it is the last in flight, and SCH_ADMITTED counts it. -/
structure Joined (n num : Nat) (s t : State) : Prop where
  others : OtherSessions s t (· = n)
  tiles : t.tiles = s.tiles
  admitted : t.admitted = s.admitted + 1
  reg : t.reg 0x20018 = satIncW (s.reg 0x20018) 1
  nums : (t.ses n).pics.map (·.num) = (s.ses n).pics.map (·.num) ++ [num]
  next : (t.ses n).nextPic = (num + 1) % 2 ^ 24
  adm : (t.ses n).lastAdm = some num
  head : (t.ses n).inHead = (s.ses n).inHead
  dropped : (t.ses n).dropped = (s.ses n).dropped
  group : (t.ses n).group = (s.ses n).group
  force : (t.ses n).force = (s.ses n).force

theorem Joined.after {n num : Nat} {s t u : State} (h : Follows n s t) (k : Joined n num t u) : Joined n num s u := by
  obtain ⟨within, on⟩ := h
  exact ⟨within.others.trans k.others, k.tiles.trans within.tiles, k.admitted.trans (by rw [within.admitted]),
    k.reg.trans (by rw [within.reg]), k.nums.trans (by rw [on.nums]), k.next, k.adm, k.head.trans on.head, k.dropped.trans on.dropped,
    k.group.trans on.group, k.force.trans on.force⟩

theorem Joined.then {n num : Nat} {s t u : State} (h : Joined n num s t) (k : Follows n t u) : Joined n num s u := by
  obtain ⟨within, on⟩ := k
  exact ⟨h.others.trans within.others, within.tiles.trans h.tiles, within.admitted.trans h.admitted, within.reg.trans h.reg,
    on.nums.trans h.nums, on.next.trans h.next, on.adm.trans h.adm, on.head.trans h.head, on.dropped.trans h.dropped,
    on.group.trans h.group, on.force.trans h.force⟩

/-- What the record that a picture joins becomes: `y` is the record before, with the decisions on the picture taken. -/
theorem State.joins {s u : State} {n : Nat} {y z : Session} {q : Pic} (on : (s.ses n).Onward y) (within : Within n s u)
    (pics : z.pics = y.pics ++ [q]) (next : z.nextPic = (q.num + 1) % 2 ^ 24) (adm : z.lastAdm = some q.num)
    (rest : z.inHead = y.inHead ∧ z.dropped = y.dropped ∧ z.group = y.group ∧ z.force = y.force) (c k : Nat) :
    Joined n q.num s ((({ u.setSes n z with admitted := u.admitted + 1, freeCtr := c }).bump 0x20018).count 2 0 k) := by
  obtain ⟨head, dropped, group, force⟩ := rest
  generalize joined : ({ u.setSes n z with admitted := u.admitted + 1, freeCtr := c } : State).bump 0x20018 = v
  have ses : ∀ m, ((v.count 2 0 k).ses m) = if m = n then z else u.ses m := fun m => by
    rw [State.ses_of_sessions (v.count_sessions 2 0 k), ← joined]
    exact u.setSes_ses n z m
  have own : (v.count 2 0 k).ses n = z := (ses n).trans (if_pos rfl)
  have counted : PicturePath n [] v (v.count 2 0 k) := v.count_path n [] 2 0 k
  refine ⟨fun m ne => ?_, ?_, ?_, ?_, ?_, ?_, ?_, ?_, ?_, ?_, ?_⟩
  · rw [ses, if_neg ne]
    exact within.others m ne
  · exact counted.tiles.trans (by rw [← joined]; exact within.tiles)
  · refine Eq.trans (congrArg State.admitted counted.frame :) ?_
    rw [← joined, ← within.admitted]
    rfl
  · rw [State.count_reg, ← joined, State.bump_reg, if_pos rfl, ← within.reg]
    rfl
  · rw [own, pics, List.map_append, on.nums]
    rfl
  · rw [own, next]
  · rw [own, adm]
  · rw [own, head, on.head]
  · rw [own, dropped, on.dropped]
  · rw [own, group, on.group]
  · rw [own, force, on.force]

/-- A picture of an encode session that is admitted (R78 to R80, R164). -/
theorem State.admitPic_enc {s : State} {n : Nat} (enc : (s.ses n).cls ≠ clsDecode) (p : Pic) (fk ready late : Bool) (top : Option Pic) :
    Joined n p.num s (s.admitPic n p fk ready late top) := by
  have reserved := fun k => s.reserve_within k n
  unfold State.admitPic
  extract_lets x d0 dp y q0 p1 g t tc r u slot p2 z1 z2 v
  have dec : dp = x.decide_ p fk top := if_neg enc
  obtain ⟨on, num, -, -⟩ := x.decide_onward p fk top
  have on : x.Onward y := by dsimp only [y]; rw [dec]; exact on
  have num : p2.num = p.num := by dsimp only [p2, p1, q0]; rw [dec]; exact num
  have cls : y.cls ≠ clsDecode := by dsimp only [y]; rw [dec]; exact enc
  have last : z2 = z1 := if_neg cls
  have within : Within n s u := by
    have eq : r = s.reserve (pagesFor y.cls p1.cfg t.cap) := if_neg cls
    dsimp only [u]
    rw [eq]
    exact (reserved _).1
  rw [← num]
  exact State.joins on within (y := y) (q := p2) (by rw [last]) (by rw [last]) (by rw [last]) (by rw [last]; exact ⟨rfl, rfl, rfl, rfl⟩)
    _ _

/-- An access unit that is admitted takes the lowest free slot and no page (R182). -/
theorem State.admitPic_dec {s : State} {n slot : Nat} {p : Pic} (dec : (s.ses n).cls = clsDecode)
    (free : (s.ses n).freeSlot p.cfg = some slot) (fk ready late : Bool) (top : Option Pic) :
    let t := s.admitPic n p fk ready late top
    Joined n p.num s t ∧ t.pages = s.pages ∧ tget 0 (t.ses n).dec.slots slot = 1 ∧
      ∀ k, k ≠ slot → tget 0 (t.ses n).dec.slots k = tget 0 (s.ses n).dec.slots k := by
  unfold State.admitPic
  extract_lets x d0 dp y q0 p1 g t tc r u slot' p2 z1 z2 v joined
  have on : x.Onward y ∧ y.dec.slots = x.dec.slots ∧ y.cls = x.cls ∧ p1.num = p.num ∧ p1.cfg = p.cfg := by
    dsimp only [y, p1, q0]
    rw [show dp = _ from if_pos dec]
    exact ⟨⟨⟨rfl, rfl, rfl, rfl, rfl, rfl⟩, rfl⟩, rfl, rfl, rfl, rfl⟩
  obtain ⟨on, slots, cls, num, cfg⟩ := on
  have cls : y.cls = clsDecode := cls.trans dec
  have here : u = s := by
    dsimp only [u]
    rw [show r = _ from if_pos cls]
  have taken : slot' = slot := by
    dsimp only [slot']
    rw [Session.freeSlot, slots, cfg, ← Session.freeSlot, free, Option.getD_some]
  have last : z2 = { z1 with dec := z1.dec.reserve slot' } := if_pos cls
  have num : p2.num = p.num := num
  have join : Joined n p2.num s joined :=
    State.joins (u := u) on (by rw [here]; exact .rfl) (y := y) (q := p2) (by rw [last]) (by rw [last]) (by rw [last])
      (by rw [last]; exact ⟨rfl, rfl, rfl, rfl⟩) _ _
  rw [num] at join
  have path : PicturePath n [] ({ v with admitted := v.admitted + 1, freeCtr := v.freeCtr + 1 }.bump 0x20018) joined :=
    State.count_path _ _ _ _ _ _
  have own : (joined.ses n).dec.slots = tset 0 slot 1 x.dec.slots := by
    have ses : joined.ses n = z2 := by
      dsimp only [joined]
      rw [State.ses_of_sessions (State.count_sessions _ _ _ _)]
      exact (u.setSes_ses n z2 n).trans (if_pos rfl)
    rw [ses, last, taken, ← slots]
    rfl
  refine ⟨join, path.pages.trans (congrArg State.pages here :), ?_, fun k ne => ?_⟩
  · rw [own, tget_tset_self]
  · rw [own, tget_tset_ne _ _ ne]

theorem Session.member_of_group {x y : Session} (h : y.group = x.group) : y.member = x.member := congrArg (bit · 12) h

/-- An entry has been consumed: the input head has moved one on, and nothing else that admission counts (R94). -/
structure Moved (n : Nat) (s t : State) : Prop extends Within n s t where
  nums : (t.ses n).pics.map (·.num) = (s.ses n).pics.map (·.num)
  next : (t.ses n).nextPic = (s.ses n).nextPic
  adm : (t.ses n).lastAdm = (s.ses n).lastAdm
  dropped : (t.ses n).dropped = (s.ses n).dropped
  group : (t.ses n).group = (s.ses n).group
  head : (t.ses n).inHead = ((s.ses n).inHead % ringSize (s.ses n).cfg 0x2C0 + 1) % ringSize (s.ses n).cfg 0x2C0

theorem State.consumeInput_moved (s : State) (n : Nat) (free : Bool) : Moved n s (s.consumeInput n free) := by
  obtain ⟨path, g, record⟩ := s.consumeInput_path n free []
  refine ⟨.of_path path, ?_, ?_, ?_, ?_, ?_, ?_⟩ <;> rw [record]

/-- An encode picture that passes its tests joins its session, and its entry is consumed (R78, R94). -/
theorem State.admitEnc_spec {s : State} {n : Nat} (enc : (s.ses n).cls ≠ clsDecode) (alone : (s.ses n).member = false)
    (a : AdmitIn) (p : Pic) (late : Bool) :
    let t := s.admitEnc n a p none late
    OtherSessions s t (· = n) ∧ t.tiles = s.tiles ∧ t.admitted = s.admitted + 1 ∧ t.reg 0x20018 = satIncW (s.reg 0x20018) 1 ∧
      (t.ses n).pics.map (·.num) = (s.ses n).pics.map (·.num) ++ [p.num] ∧ (t.ses n).nextPic = (p.num + 1) % 2 ^ 24 ∧
      (t.ses n).lastAdm = some p.num ∧ (t.ses n).dropped = (s.ses n).dropped ∧
      (t.ses n).inHead = ((s.ses n).inHead % ringSize (s.ses n).cfg 0x2C0 + 1) % ringSize (s.ses n).cfg 0x2C0 := by
  unfold State.admitEnc
  extract_lets x d open_ slow s1 s2 q h s3 hi keep s4 now s5 s6 s7 t
  have first : Follows n s s1 ∧ (s1.ses n).cls ≠ clsDecode := by
    dsimp only [s1]
    split
    · exact ⟨.rfl, enc⟩
    · obtain ⟨b, c, past⟩ := (s.ses n).rowsPast_eq p.num
      refine ⟨.modSes fun x => x.rowsPast_onward p.num, ?_⟩
      rw [State.modSes_ses, if_pos rfl, past]
      exact enc
  clear_value s1
  have joined : Joined n p.num s s2 := (State.admitPic_enc first.2 p d.forceKey (!slow) late none).after first.1
  clear_value s2
  have read : Follows n s2 s3 := s2.takeHint_follows n a q
  clear_value h s3
  have hinted : Follows n s3 s4 := by
    dsimp only [s4]
    split
    · exact .modSes fun x => ⟨⟨rfl, rfl, rfl, rfl, rfl, rfl⟩, rfl⟩
    · exact s3.consumeHint_follows n
  clear_value s4
  have joined : Joined n p.num s s4 := joined.then (read.trans hinted)
  have moved : Moved n s4 s5 := s4.consumeInput_moved n now
  clear_value s5
  have marked : Follows n s5 s6 := .modSes fun x => .of_modPic x p.num fun _ => rfl
  have fetched : Follows n s6 s7 := by
    dsimp only [s7]
    split
    · exact s6.fetchRows_follows n _
    · exact .rfl
  clear_value s6 s7
  have lone : (s7.ses n).member = false :=
    (Session.member_of_group ((marked.trans fetched).2.group.trans (moved.group.trans joined.group))).trans alone
  have last : t = s7 := by
    dsimp only [t]
    split
    · simp [State.admitLower, lone]
    · rfl
  obtain ⟨rest, on⟩ := marked.trans fetched
  rw [last]
  refine ⟨(joined.others.trans moved.others).trans rest.others, rest.tiles.trans (moved.tiles.trans joined.tiles),
    rest.admitted.trans (moved.admitted.trans joined.admitted), rest.reg.trans (moved.reg.trans joined.reg),
    on.nums.trans (moved.nums.trans joined.nums), on.next.trans (moved.next.trans joined.next), on.adm.trans (moved.adm.trans joined.adm),
    on.dropped.trans (moved.dropped.trans joined.dropped), on.head.trans (moved.head.trans ?_)⟩
  rw [joined.head, Session.cfg, joined.force, ← Session.cfg]

end Sys2Proof.Machine
end

section
/-!
O27: what an encode session's descriptor and a DECODE session's access unit come to (R78, R177).
-/
namespace Sys2Proof.Machine

/-- What admission keeps of a descriptor that it first considers: the hint entry counts where it is posted (R117). -/
def Session.fresh (x : Session) (a : AdmitIn) : AdmitIn := { a with hint := if x.hintPosted a.hint then a.hint else [] }

/-- The picture does not depend on the hint entry. -/
theorem State.encPic_hint (s : State) (n : Nat) (a : AdmitIn) (hint : List Byte) (ing : Option (Nat × IngPic)) :
    s.encPic n { a with hint := hint } ing = s.encPic n a ing := (rfl)

theorem State.encPic_num (s : State) (n : Nat) (a : AdmitIn) (ing : Option (Nat × IngPic)) : (s.encPic n a ing).num = (s.ses n).nextPic := (rfl)

theorem State.encPic_cfg (s : State) (n : Nat) (a : AdmitIn) (ing : Option (Nat × IngPic)) : (s.encPic n a ing).cfg = (s.ses n).cfg := (rfl)

/-- A descriptor of the form that the session's format asks for. -/
def State.formOk (s : State) (n : Nat) (a : AdmitIn) : Bool :=
  s.srcOk (s.owner n) (s.ses n).cls (fld (cget (s.ses n).cfg 0x048) 3 0) (cW (s.ses n).cls (s.ses n).cfg) (cH (s.ses n).cls (s.ses n).cfg)
    (srcDesc a.entry)

/-- The session reads its descriptor for the first time: the entry is there, and no earlier picture waits. -/
structure FirstLook (s : State) (n : Nat) (a : AdmitIn) : Prop where
  fresh : (s.ses n).seen = none
  more : (s.ses n).inputDone = false
  go : (s.ses n).inStall = false
  whole : a.entry.length = 64

section
variable {s : State} {n : Nat} {a : AdmitIn}

theorem State.considerEnc_stalls (look : FirstLook s n a) (clear : ownerBit a.entry = false) :
    s.considerEnc n a = s.setSes n { s.ses n with inStall := true } := by
  obtain ⟨fresh, more, go, whole⟩ := look
  simp [State.considerEnc, fresh, more, go, whole, clear]

theorem State.considerEnc_short (look : FirstLook s n a) (owned : ownerBit a.entry = true) (short : (s.ses n).lookaheadOk a = false) :
    s.considerEnc n a = s := by
  obtain ⟨fresh, more, go, whole⟩ := look
  simp [State.considerEnc, fresh, more, go, whole, owned, short]

variable (look : FirstLook s n a) (owned : ownerBit a.entry = true) (ahead : (s.ses n).lookaheadOk a = true)
include look owned ahead

theorem State.considerEnc_malformed (bad : s.formOk n a = false) :
    ∃ p, p.num = (s.ses n).nextPic ∧ s.considerEnc n a = ((s.consumeHint n).consumeInput n true).dropNew n p 4 := by
  obtain ⟨fresh, more, go, whole⟩ := look
  rw [State.formOk] at bad
  refine ⟨s.encPic n a (if (srcDesc a.entry).space = 2 then s.ingestNext n else none), s.encPic_num n a _, ?_⟩
  simp only [State.considerEnc, fresh, more, go, whole, owned, ahead, State.encPic_hint, State.encPic_cfg,
    Bool.false_or, bne_self_eq_false, Bool.false_eq_true, if_false, Bool.not_true, Bool.and_false]
  exact if_pos (by simp [bad])

theorem State.considerEnc_ingest (good : s.formOk n a = true) (space : (srcDesc a.entry).space = 2) (none : s.ingestNext n = none) :
    s.considerEnc n a = s.setSes n { s.ses n with seen := some ((s.ses n).fresh a), seenWait := false } := by
  obtain ⟨fresh, more, go, whole⟩ := look
  rw [State.formOk] at good
  simp only [State.considerEnc, fresh, more, go, whole, owned, ahead, State.encPic_hint, State.encPic_cfg,
    Bool.false_or, bne_self_eq_false, Bool.false_eq_true, if_false, Bool.not_true, Bool.and_false, good]
  exact if_pos (by simp [space, none])

theorem State.considerEnc_judged (good : s.formOk n a = true) (space : (srcDesc a.entry).space ≠ 2) :
    (∀ late, s.judge n (s.encPic n a none) false = .accept late →
      s.considerEnc n a = s.admitEnc n ((s.ses n).fresh a) (s.encPic n a none) none late) ∧
    (s.judge n (s.encPic n a none) false = .waitPages →
      s.considerEnc n a = (s.setSes n { s.ses n with seen := some ((s.ses n).fresh a), seenWait := true }).bump 0xB0010) := by
  obtain ⟨fresh, more, go, whole⟩ := look
  rw [State.formOk] at good
  refine ⟨fun late accepts => ?_, fun waits => ?_⟩
  · simp only [State.considerEnc, fresh, more, go, whole, owned, ahead, State.encPic_hint, State.encPic_cfg,
    Bool.false_or, bne_self_eq_false, Bool.false_eq_true, if_false, Bool.not_true, Bool.and_false, good, space, false_and,
      Option.isSome_none, Bool.false_and, accepts]
    rfl
  · simp only [State.considerEnc, fresh, more, go, whole, owned, ahead, State.encPic_hint, State.encPic_cfg,
    Bool.false_or, bne_self_eq_false, Bool.false_eq_true, if_false, Bool.not_true, Bool.and_false, good, space, false_and,
      Option.isSome_none, Bool.false_and, waits]
    rfl

end

end Sys2Proof.Machine
end

section
/-!
O27: the statement.
-/
namespace Sys2Proof.Machine

theorem State.copyChunks_posted (s : State) (n sz idx : Nat) (l : List (List Byte)) : Posted s (s.copyChunks n sz idx l) := by
  induction l generalizing s idx with
  | nil => exact .rfl
  | cons e rest ih =>
    unfold State.copyChunks
    extract_lets t
    have step : Posted s t := by
      dsimp only [t]
      split
      · exact .rfl
      · exact s.emit_posted _
    exact step.trans (ih t (idx + 1))

/-- PICTURE_ADMISSION of an encode session outside a group is that of its descriptor. -/
theorem State.consider_enc {s : State} {n : Nat} {a : AdmitIn} (may : s.mayAdmit n = true) (enc : (s.ses n).cls ≠ clsDecode)
    (alone : (s.ses n).member = false) : s.consider n a = s.considerEnc n a := by
  simp [State.consider, may, enc, Session.lower_alone alone]

/-- The chunks of an access unit are taken: `bad` of them are malformed (R177, R180). -/
def Session.tookChunks (len sz bad : Nat) (x : Session) : Session :=
  { x with inHead := (x.inHead + len) % sz, seen := none, dec := { x.dec with badChunks := x.dec.badChunks + bad } }

section
variable {s : State} {n : Nat} {a : AdmitIn} {au : List (List Byte)}
variable (may : s.mayAdmit n = true) (dec : (s.ses n).cls = clsDecode) (fresh : (s.ses n).seen = none)
variable (more : (s.ses n).inputDone = false) (go : (s.ses n).inStall = false) (unit : (s.ses n).accessUnit a.chunks = some au)
include may dec fresh more go unit

/-- An access unit that passes its tests: what admission does with it. -/
theorem State.consider_takes {late : Bool} (accepts : s.judge n (s.decPic n au a.chunkBytes) false = .accept late) :
    ∃ held bad idx, s.consider n a =
      ((s.admitPic n { s.decPic n au a.chunkBytes with heldIn := held } false true late none).modSes n
        (Session.tookChunks au.length (ringSize (s.ses n).cfg 0x2C0) bad)).copyChunks n (ringSize (s.ses n).cfg 0x2C0) idx au := by
  refine ⟨(List.range au.length).filterMap fun i =>
      if (chunkDesc (au.getD i [])).space = 1 ∧ s.chunkOk (s.owner n) (au.getD i []) then
        some (((s.decPic n au a.chunkBytes).inIdx + i) % ringSize (s.ses n).cfg 0x2C0) else none,
    (au.filter fun e => !s.chunkOk (s.owner n) e).length, (s.decPic n au a.chunkBytes).inIdx, ?_⟩
  simp only [State.consider, may, dec, State.considerDec, fresh, more, go, unit, Option.getD_none, Option.isSome_none, accepts,
    Bool.not_true, Bool.false_eq_true, if_false, if_true, Bool.or_false]
  rfl

/-- An access unit that passes its tests takes a slot and its chunks (R177, R182). -/
theorem State.consider_accepts {late : Bool} {slot : Nat} (accepts : s.judge n (s.decPic n au a.chunkBytes) false = .accept late)
    (free : (s.ses n).freeSlot (s.decPic n au a.chunkBytes).cfg = some slot) :
    let t := s.consider n a
    OtherSessions s t (· = n) ∧ t.tiles = s.tiles ∧ t.pages = s.pages ∧ t.admitted = s.admitted + 1 ∧
      (t.ses n).pics.map (·.num) = (s.ses n).pics.map (·.num) ++ [(s.ses n).nextPic] ∧
      (t.ses n).inHead = ((s.ses n).inHead + au.length) % ringSize (s.ses n).cfg 0x2C0 ∧ tget 0 (t.ses n).dec.slots slot = 1 ∧
      ∀ k, k ≠ slot → tget 0 (t.ses n).dec.slots k = tget 0 (s.ses n).dec.slots k := by
  obtain ⟨held, bad, idx, eq⟩ := State.consider_takes may dec fresh more go unit accepts
  obtain ⟨joined, pages, taken, others⟩ :=
    State.admitPic_dec (p := { s.decPic n au a.chunkBytes with heldIn := held }) dec free false true late none
  rw [eq]
  generalize s.admitPic n { s.decPic n au a.chunkBytes with heldIn := held } false true late none = u at *
  have copied := (u.modSes n (Session.tookChunks au.length (ringSize (s.ses n).cfg 0x2C0) bad)).copyChunks_posted n
    (ringSize (s.ses n).cfg 0x2C0) idx au
  generalize (u.modSes n (Session.tookChunks au.length (ringSize (s.ses n).cfg 0x2C0) bad)).copyChunks n
    (ringSize (s.ses n).cfg 0x2C0) idx au = t at *
  have own : t.ses n = (u.ses n).tookChunks au.length (ringSize (s.ses n).cfg 0x2C0) bad := by
    rw [State.ses_of_sessions copied.sessions, State.modSes_ses, if_pos rfl]
  refine ⟨joined.others.trans ((u.modSes_others n _).trans (.of_eq copied.sessions _)), Eq.trans (congrArg State.tiles copied :) joined.tiles,
    Eq.trans (congrArg State.pages copied :) pages, Eq.trans (congrArg State.admitted copied :) joined.admitted, ?_, ?_, ?_, fun k ne => ?_⟩
  · rw [own]
    exact joined.nums
  · rw [own, ← joined.head]
    rfl
  · rw [own]
    exact taken
  · rw [own]
    exact others k ne

theorem State.consider_waits (waits : s.judge n (s.decPic n au a.chunkBytes) false = .waitSlot) :
    s.consider n a = s.setSes n { s.ses n with
      seen := some a
      dec := { (s.ses n).dec with slotWait := true, slotWaits := (s.ses n).dec.slotWaits + b2n (!(s.ses n).dec.slotWait) } } := by
  simp only [State.consider, may, dec, State.considerDec, fresh, more, go, unit, Option.getD_none, Option.isSome_none, waits,
    Bool.not_true, Bool.false_eq_true, if_false, if_true, Bool.or_false]

end

/-- Settles O27: an encode session by what its descriptor comes to, a DECODE session by what its access unit comes to. -/
theorem pictureAdmission : Obligations.PictureAdmission := by
  unfold Obligations.PictureAdmission
  constructor
  · intro s n a x d p posted fmtOk
    have form : fmtOk = s.formOk n a := by
      dsimp only [fmtOk, p, x]
      rw [State.encPic_cfg, State.formOk]
    refine ⟨fun may => ?_, fun may enc alone fresh more go whole => ?_⟩
    · exact congrArg Host.Outcome.next (if_pos (by simp [may]))
    · have look : FirstLook s n a := ⟨fresh, more, go, whole⟩
      have run : exec (.pictureAdmission n a) s = .next (s.considerEnc n a) :=
        congrArg Host.Outcome.next (State.consider_enc may enc alone)
      rw [form]
      refine ⟨fun clear => ?_, fun owned short => ?_, fun owned ahead space none good => ?_, fun owned ahead bad => ?_,
        fun owned ahead space good late accepts => ?_, fun owned ahead space good waits => ?_⟩
      · rw [run, State.considerEnc_stalls look clear]
      · rw [run, State.considerEnc_short look owned short]
      · rw [run, State.considerEnc_ingest look owned ahead good space none]
        rfl
      · obtain ⟨q, num, eq⟩ := State.considerEnc_malformed look owned ahead bad
        obtain ⟨hinted, on⟩ := s.consumeHint_follows n
        have hint := (s.consumeHint_path n []).1
        have input := ((s.consumeHint n).consumeInput_path n true []).1
        have moved := (s.consumeHint n).consumeInput_moved n true
        generalize (s.consumeHint n).consumeInput n true = u at *
        obtain ⟨drop, reg, count, next, head, nums, -⟩ :=
          State.dropNew_spec ((Session.member_of_group (moved.group.trans on.group)).trans alone) q 4
        have entry := hint.trans input
        have path := entry.mono.trans drop
        refine ⟨_, run.trans (congrArg Host.Outcome.next eq), ?_, ?_, ?_, ?_, ?_, path.others, path.tiles, path.pages⟩
        · rw [count, moved.dropped, on.dropped]
        · rw [next, num]
        · rw [head, moved.head, on.head, on.cfg]
        · rw [nums, moved.nums, on.nums]
        · rw [reg, satIncW_toNat, entry.regs _ (by decide) List.not_mem_nil]
      · obtain ⟨others, tiles, admitted, reg, nums, next, adm, dropped, head⟩ :=
          State.admitEnc_spec enc alone ((s.ses n).fresh a) p late
        refine ⟨_, run.trans (congrArg Host.Outcome.next ((State.considerEnc_judged look owned ahead good space).1 late accepts)),
          nums, next, adm, admitted, dropped, head, ?_, others, tiles⟩
        rw [reg, satIncW_toNat]
      · refine ⟨_, run.trans (congrArg Host.Outcome.next ((State.considerEnc_judged look owned ahead good space).2 waits)), ?_⟩
        have ses : ∀ m, ((s.setSes n { s.ses n with seen := some ((s.ses n).fresh a), seenWait := true }).bump 0xB0010).ses m =
            if m = n then { s.ses n with seen := some ((s.ses n).fresh a), seenWait := true } else s.ses m := s.setSes_ses n _
        dsimp only
        rw [ses, if_pos rfl]
        refine ⟨rfl, rfl, rfl, ?_, fun o out => ?_, fun m ne => (ses m).trans (if_neg ne), rfl, rfl⟩
        · rw [State.bump_reg, if_pos rfl, satIncW_toNat]
          rfl
        · rw [State.bump_reg, if_neg (by simpa using out)]
          rfl
  · intro s n a au x p may dec fresh more go unit
    refine ⟨fun late slot accepts free => ⟨_, rfl, ?_⟩, fun waits => ⟨_, rfl, ?_⟩⟩
    · obtain ⟨others, tiles, pages, admitted, nums, head, taken, slots⟩ :=
        State.consider_accepts may dec fresh more go unit accepts free
      exact ⟨nums, taken, slots, head, admitted, others, tiles, pages⟩
    · rw [State.consider_waits may dec fresh more go unit waits]
      refine ⟨rfl, (s.setSes_recordsOnly n _).others, ?_⟩
      rw [State.setSes_ses, if_pos rfl]
      exact ⟨rfl, rfl, by cases x.dec.slotWait <;> rfl, rfl⟩

end Sys2Proof.Machine
end

section
/-!
SUPPORT. An event that the device reports, and one that it reacts to, leaves what each session has still to deliver, the pictures that
wait, what was sent before, and the count of aborted descriptors.
-/
namespace Sys2Proof.Machine

/-- What a session has still to deliver, and where it goes. -/
structure Outgoing where
  outq : List OutItem
  outTail : Nat
  bufFill : Nat
  cfg : Tbl Word

def Session.outgoing (x : Session) : Outgoing := ⟨x.outq, x.outTail, x.bufFill, x.cfg⟩

/-- `t` delivers what `s` does, no picture waits in it that did not, nothing sent is lost, no function begins a reset, DMA_ABORTED
stays and no pattern command begins. -/
structure Alarmed (s t : State) : Prop where
  outgoing : ∀ n, (t.ses n).outgoing = (s.ses n).outgoing
  waits : NoneWaits s → NoneWaits t
  sent : ∀ e ∈ s.outbox, e ∈ t.outbox
  flr : t.hif.flr = s.hif.flr
  aborted : t.reg 0xA0010 = s.reg 0xA0010
  busy : s.ldr.busy = false → t.ldr.busy = false

theorem Alarmed.rfl {s : State} : Alarmed s s := ⟨fun _ => Eq.refl _, id, fun _ => id, Eq.refl _, Eq.refl _, id⟩

theorem Alarmed.trans {s t u : State} (h : Alarmed s t) (k : Alarmed t u) : Alarmed s u :=
  ⟨fun n => (k.outgoing n).trans (h.outgoing n), k.waits ∘ h.waits, fun e mem => k.sent e (h.sent e mem), k.flr.trans h.flr,
    k.aborted.trans h.aborted, k.busy ∘ h.busy⟩

theorem Alarmed.foldl {α : Type} (f : State → α → State) {l : List α} (h : ∀ s, ∀ a ∈ l, Alarmed s (f s a)) (s : State) :
    Alarmed s (l.foldl f s) := by
  induction l generalizing s with
  | nil => exact .rfl
  | cons a t ih => exact (h s a List.mem_cons_self).trans (ih (fun s b mem => h s b (List.mem_cons_of_mem a mem)) _)

/-- A step that writes no session, sends nothing, and leaves the register alone. -/
theorem Alarmed.of_parts {s t : State} (sessions : t.sessions = s.sessions) (outbox : t.outbox = s.outbox)
    (flr : t.hif.flr = s.hif.flr) (aborted : t.reg 0xA0010 = s.reg 0xA0010) (busy : t.ldr.busy = s.ldr.busy) : Alarmed s t :=
  ⟨fun n => by rw [State.ses_of_sessions sessions], fun h => by rwa [NoneWaits, sessions], fun e mem => by rwa [outbox], flr, aborted,
    fun h => busy.trans h⟩

/-- A step that writes no register either. -/
theorem Alarmed.of_regs {s t : State} (sessions : t.sessions = s.sessions) (outbox : t.outbox = s.outbox)
    (flr : t.hif.flr = s.hif.flr) (regs : t.regs = s.regs) (busy : t.ldr.busy = s.ldr.busy) : Alarmed s t :=
  .of_parts sessions outbox flr (by rw [State.reg, regs, ← State.reg]) busy

theorem State.setReg_alarmed (s : State) {off : Nat} (v : Word) (away : off ≠ 0xA0010) : Alarmed s (s.setReg off v) :=
  .of_parts rfl rfl rfl (by rw [State.setReg_reg, if_neg (Ne.symm away)]) rfl

theorem State.bump_alarmed (s : State) {off : Nat} (k : Nat) (away : off ≠ 0xA0010) : Alarmed s (s.bump off k) :=
  s.setReg_alarmed _ away

theorem State.setFn_alarmed (s : State) (fn : Nat) (f : Func) : Alarmed s (s.setFn fn f) := .of_regs rfl rfl rfl rfl rfl

theorem State.emit_alarmed (s : State) (e : Emit) : Alarmed s (s.emit e) := by
  unfold State.emit
  split
  · exact .rfl
  · exact ⟨fun _ => Eq.refl _, id, fun _ mem => List.mem_append_left _ mem, Eq.refl _, Eq.refl _, id⟩

theorem State.message_alarmed (s : State) (fn : Nat) : Alarmed s (s.message fn) := by
  unfold State.message
  extract_lets f wait
  split
  · exact s.setFn_alarmed fn _
  split
  · exact (s.setFn_alarmed fn _).trans (State.emit_alarmed _ _)
  · exact s.setFn_alarmed fn _

theorem State.writeRec_alarmed (s : State) (fn : Nat) (r : BktRec) : Alarmed s (s.writeRec fn r) := by
  have written (f : Func) (e : Emit) : Alarmed s ((s.emit e).setFn fn f) := (s.emit_alarmed e).trans (State.setFn_alarmed _ fn f)
  unfold State.writeRec
  dsimp only
  split
  · exact (written _ _).trans (State.message_alarmed _ fn)
  · exact written _ _

theorem State.post_alarmed (s : State) (fn : Nat) (grp : Option Nat) (r : BktRec) : Alarmed s (s.post fn grp r) := by
  unfold State.post
  extract_lets f masked
  split
  · exact s.setFn_alarmed fn _
  split
  · exact s.setFn_alarmed fn _
  split
  · exact s.writeRec_alarmed fn r
  split
  · exact s.setFn_alarmed fn _
  split <;> exact s.setFn_alarmed fn _

theorem State.assertSrc_alarmed (s : State) {n : Nat} (small : n < 8) (detail : Word) (ses : Nat) :
    Alarmed s (s.assertSrc n detail ses) := by
  unfold State.assertSrc
  extract_lets s1 old i hif s2
  have counted : Alarmed s s1 := s.bump_alarmed 1 (by omega)
  have held : Alarmed s s2 := counted.trans (.of_regs rfl rfl rfl rfl rfl)
  split
  · exact counted
  split
  · exact held.trans (s2.post_alarmed _ _ _)
  · exact held

theorem State.sendFrame_alarmed (s : State) (p : Nat) (f : LFrame) : Alarmed s (s.sendFrame p f) := by
  have port (x : LinePortSt) : Alarmed s (s.setLport p x) := .of_regs rfl rfl rfl rfl rfl
  unfold State.sendFrame
  extract_lets x
  split
  · exact s.bump_alarmed 1 (by decide)
  split
  · exact (port _).trans (State.emit_alarmed _ _)
  · exact port _

theorem State.note_alarmed (s : State) (a kind fig : Nat) : Alarmed s (s.note a kind fig) := by
  unfold State.note
  extract_lets d mgr go
  have told (s : State) (dst : Nat) : Alarmed s (go s dst) := by
    dsimp only [go]
    split
    · exact s.assertSrc_alarmed (by decide) d 0
    · exact s.sendFrame_alarmed _ _
  split
  · exact .rfl
  split
  · exact told s mgr
  · exact (told s mgr).trans (told _ 0)

theorem State.safeNotice_alarmed (s : State) : Alarmed s s.safeNotice := by
  unfold State.safeNotice
  extract_lets s1
  have moved : Alarmed s s1 := s.note_alarmed _ _ _
  split
  · exact moved
  · exact moved.trans (s1.note_alarmed _ _ _)

/-- A change of one session's record that keeps what it delivers and what waits. -/
theorem State.setSes_alarmed {s : State} {n : Nat} {x : Session} (out : x.outgoing = (s.ses n).outgoing)
    (waits : x.waits = (s.ses n).waits) : Alarmed s (s.setSes n x) := by
  refine ⟨fun m => ?_, fun h => h.setSes n (waits.trans (h.ses n)), fun _ => id, Eq.refl _, Eq.refl _, id⟩
  rw [State.setSes_ses]
  split
  next same => rw [out, same]
  next => exact Eq.refl _

theorem State.publish_alarmed (s : State) (n : Nat) : Alarmed s (s.publish n) := by
  unfold State.publish
  extract_lets x g f f'
  exact State.setSes_alarmed rfl rfl

theorem State.toMigrating_alarmed (s : State) (n : Nat) (auto : Bool) : Alarmed s (s.toMigrating n auto) := by
  unfold State.toMigrating
  extract_lets x s1
  have entered : Alarmed s s1 := State.setSes_alarmed rfl rfl
  exact entered.trans (s1.publish_alarmed n)

theorem State.migrateOut_alarmed (s : State) (n : Nat) (auto : Bool) : Alarmed s (s.migrateOut n auto) := by
  unfold State.migrateOut
  extract_lets x
  split
  · refine .foldl _ (fun s m _ => ?_) s
    split
    · exact .rfl
    · exact s.toMigrating_alarmed m auto
  · exact s.toMigrating_alarmed n auto

theorem State.askAbandon_alarmed (s : State) (c t : Nat) : Alarmed s (s.askAbandon c t) := by
  unfold State.askAbandon
  split
  · exact .of_regs rfl rfl rfl rfl rfl
  · exact .rfl

theorem State.enterSafe_alarmed (s : State) : Alarmed s s.enterSafe := by
  unfold State.enterSafe
  extract_lets pwr ldr s1 s2 l lin s3 s4
  have safe : Alarmed s s1 := ⟨fun _ => Eq.refl _, id, fun _ => id, Eq.refl _, Eq.refl _, fun _ => Eq.refl _⟩
  have asked : Alarmed s1 s2 := .foldl _ (fun s t _ => s.askAbandon_alarmed 1 t) s1
  have listed : Alarmed s2 s3 := .of_regs rfl rfl rfl rfl rfl
  have sent : Alarmed s3 s4 := .foldl _ (fun s n _ => s.migrateOut_alarmed n true) s3
  have entered := ((safe.trans asked).trans listed).trans sent
  split
  · exact entered.trans s4.safeNotice_alarmed
  · exact entered

theorem State.reactDev_alarmed (s : State) (e : Settled) : Alarmed s (s.reactDev e) := by
  unfold State.reactDev
  split
  · split
    · exact .rfl
    · exact s.enterSafe_alarmed
  split
  · exact .of_regs rfl rfl rfl rfl rfl
  · exact .rfl

theorem State.signal_alarmed (s : State) (e : Settled) : Alarmed s (s.signal e) := by
  unfold State.signal
  extract_lets cfg
  split
  · exact s.assertSrc_alarmed (by decide) _ _
  · exact .rfl

theorem State.fireSlot_alarmed (s : State) {n : Nat} (small : n < 16) : Alarmed s (s.fireSlot n) := by
  unfold State.fireSlot
  extract_lets w
  split
  · exact s.setReg_alarmed _ (by unfold trigReg; omega)
  · exact .rfl

theorem State.lintPush_alarmed (s : State) (t : LintTrig) : Alarmed s (s.lintPush t) := by
  unfold State.lintPush
  split
  · exact s.bump_alarmed 1 (by decide)
  · exact .of_regs rfl rfl rfl rfl rfl

theorem State.faultSlots_small {s : State} {e : Settled} {n : Nat} (h : n ∈ s.faultSlots e) : n < 16 :=
  mem_upto.1 (List.mem_filter.1 h).1

theorem State.lintFault_alarmed (s : State) (e : Settled) : Alarmed s (s.lintFault e) := by
  unfold State.lintFault
  extract_lets slots word mk f s1 lnt s2
  have small : ∀ n ∈ slots, n < 16 := fun n mem => State.faultSlots_small mem
  have fired (l : List Nat) (sub : ∀ n ∈ l, n < 16) (s : State) :
      Alarmed s (l.foldl (fun s n => (s.lintPush (mk s n)).fireSlot n) s) :=
    .foldl _ (fun s n mem => (s.lintPush_alarmed _).trans (State.fireSlot_alarmed _ (sub n mem))) s
  have first : Alarmed s s1 := by
    dsimp only [s1]
    split
    next n head => exact s.fireSlot_alarmed (small n (List.mem_of_mem_head? head))
    next => exact .rfl
  have queued : Alarmed s1 s2 := .of_regs rfl rfl rfl rfl rfl
  split
  · exact (first.trans queued).trans (fired _ (fun n mem => small n (List.mem_of_mem_tail mem)) s2)
  · exact fired slots small s

theorem State.recordFirst_alarmed (s : State) (e : Settled) : Alarmed s (s.recordFirst e) := by
  unfold State.recordFirst
  split
  · exact .rfl
  · exact .of_regs rfl rfl rfl rfl rfl

/-- A device fault, whatever its class becomes. -/
theorem State.raiseDev_alarmed (s : State) (k : Nat) (detail : Word) (ses : Nat) : Alarmed s (s.raiseDev k detail ses) := by
  unfold State.raiseDev
  extract_lets r e
  have settled : Alarmed s r.1 := .of_regs rfl rfl rfl rfl rfl
  exact ((((settled.trans (r.1.recordFirst_alarmed e)).trans (State.lintFault_alarmed _ e)).trans (State.signal_alarmed _ e)).trans
    (State.reactDev_alarmed _ e))

end Sys2Proof.Machine
end

section
/-!
SUPPORT. So do a line's access, its decoding and its write, a DMA channel's move, and the release of pages.
-/
namespace Sys2Proof.Machine

theorem State.count_alarmed (s : State) (code unit k : Nat) : Alarmed s (s.count code unit k) :=
  have same := s.count_offPmu code unit k
  .of_regs (congrArg State.sessions same :) (congrArg State.outbox same :) (congrArg (·.hif.flr) same :) (congrArg State.regs same :)
    (congrArg (·.ldr.busy) same :)

theorem State.setStack_alarmed (s : State) (k : Nat) (x : Stack) : Alarmed s (s.setStack k x) := .of_regs rfl rfl rfl rfl rfl

theorem State.access_alarmed (s : State) (p : LinePos) : Alarmed s (s.access p) := by
  unfold State.access
  extract_lets x y k b hit n mode keep b' x' clr t
  have moved : Alarmed s t := s.setStack_alarmed _ _
  split
  · exact moved.trans (t.count_alarmed _ _ _)
  · exact moved

theorem State.setBytes_alarmed (s : State) (a : Nat) (bs : List Byte) : Alarmed s (s.setBytes a bs) := by
  induction bs generalizing s a with
  | nil => exact .rfl
  | cons b t ih => exact .trans (.of_regs rfl rfl rfl rfl rfl : Alarmed s (s.setByte a b)) (ih _ _)

theorem State.setSide_alarmed (s : State) (line i : Nat) (bs : List Byte) : Alarmed s (s.setSide line i bs) := by
  induction bs generalizing s i with
  | nil => exact .rfl
  | cons b t ih =>
    exact .trans (.of_regs rfl rfl rfl rfl rfl : Alarmed s { s with side := tset 0 (line * 8 + i) b s.side }) (ih _ _)

theorem State.storeLine_alarmed (s : State) (a : Nat) (cs : List Byte) : Alarmed s (s.storeLine a cs) :=
  (s.setBytes_alarmed _ _).trans (State.setSide_alarmed _ _ _ _)

theorem State.writeLine_alarmed (s : State) (a : Nat) (data : List Byte) (label : Word) : Alarmed s (s.writeLine a data label) :=
  (s.count_alarmed _ _ _).trans (State.storeLine_alarmed _ _ _)

/-- A line channel's counters lie behind the DMA block. -/
theorem chanBase_high (k c : Nat) : 0x100000 ≤ chanBase k c := by
  unfold chanBase memBase
  omega

theorem State.readLine_alarmed (s : State) (a : Nat) (errs : List (Nat × Byte)) (scrub : Bool) : Alarmed s (s.readLine a errs scrub) := by
  unfold State.readLine
  extract_lets p got t u
  have high := chanBase_high p.stack p.chan
  have counted : Alarmed s t := s.count_alarmed _ _ _
  split
  · exact counted
  next es _ =>
    extract_lets u
    have marked : Alarmed t u := by
      dsimp only [u]
      exact ((t.bump_alarmed 1 (by decide)).trans (State.bump_alarmed _ 1 (by omega))).trans (State.setStack_alarmed _ _ _)
    clear_value u
    have fixed := (counted.trans marked).trans (u.raiseDev_alarmed 22 0 0)
    split
    · exact fixed.trans (State.storeLine_alarmed _ _ _)
    · exact fixed
  next =>
    have marked : Alarmed t u := (t.bump_alarmed 1 (by decide)).trans (State.bump_alarmed _ 1 (by omega))
    clear_value u
    have recorded : Alarmed u { u with lastUnc := uncRecord a scrub } := .of_regs rfl rfl rfl rfl rfl
    exact ((counted.trans marked).trans recorded).trans (State.raiseDev_alarmed _ 23 0 0)

theorem State.fetchLine_alarmed (s : State) (a gen : Nat) : Alarmed s (s.fetchLine a gen).1 := by
  have read : Alarmed s ((s.access (decodeLine a)).readLine a [] false) :=
    (s.access_alarmed _).trans (State.readLine_alarmed _ _ _ _)
  unfold State.fetchLine
  extract_lets t got cs u
  clear_value cs
  split
  · extract_lets label
    split <;> exact read
  · exact read

theorem State.refused_alarmed (s : State) (a : Nat) : Alarmed s (s.bump (memBase (s.decErrStack a) + 0x2C)) :=
  s.bump_alarmed 1 (by unfold memBase; omega)

theorem State.readBeat_alarmed (s : State) (x : Chan) (d : Desc) (i j : Nat) : Alarmed s (s.readBeat x d i j).1 := by
  unfold State.readBeat
  split
  · extract_lets a
    split
    · exact s.refused_alarmed a
    · exact s.fetchLine_alarmed _ _
  · exact .rfl

theorem State.writeBeat_alarmed (s : State) (n : Nat) (d : Desc) (i j : Nat) (b : List Byte × Nat × Word) :
    Alarmed s (s.writeBeat n d i j b) := by
  unfold State.writeBeat
  extract_lets a m
  split
  · split
    · exact s.refused_alarmed a
    · exact (s.access_alarmed _).trans (State.writeLine_alarmed _ _ _ _)
  · exact s.emit_alarmed _

theorem Mover.beat_alarmed (m : Mover) (n : Nat) (x : Chan) (d : Desc) (e : MoveEnd) (i j : Nat) : Alarmed m.s (m.beat n x d e i j).s := by
  have go (k : Nat) : Alarmed m.s (Mover.beat.go m n x d i j k).s := by
    unfold Mover.beat.go
    extract_lets r
    have read : Alarmed m.s r.1 := m.s.readBeat_alarmed x d i j
    split
    · exact read.trans (State.writeBeat_alarmed _ _ _ _ _ _)
    · exact read
  unfold Mover.beat
  extract_lets k
  split
  · exact .rfl
  split
  · split
    · exact .rfl
    · exact go k
  · split
    · split
      · exact .rfl
      · exact go k
    · exact go k

theorem State.moveAll_alarmed (s : State) (n : Nat) (d : Desc) (e : MoveEnd) : Alarmed s (s.moveAll n d e).s := by
  have fold {α : Type} (f : Mover → α → Mover) (step : ∀ m a, Alarmed m.s (f m a).s) (l : List α) (m : Mover) :
      Alarmed m.s (l.foldl f m).s := by
    induction l generalizing m with
    | nil => exact .rfl
    | cons a t ih => exact (step m a).trans (ih (f m a))
  unfold State.moveAll
  extract_lets x
  exact fold _ (fun m i => fold _ (fun m j => m.beat_alarmed n x d e i j) _ m) _ { s := s }

theorem State.checkLow_alarmed (s : State) : Alarmed s s.checkLow := by
  have armed (b : Bool) : Alarmed s { s with lowArmed := b } := .of_regs rfl rfl rfl rfl rfl
  unfold State.checkLow
  extract_lets low
  split
  · split
    · exact (armed false).trans (State.post_alarmed _ _ _ _)
    · exact .rfl
  · exact armed true

theorem State.dropRef_alarmed (s : State) (i : Nat) : Alarmed s (s.dropRef i) := by
  unfold State.dropRef
  extract_lets p
  split <;> exact .of_regs rfl rfl rfl rfl rfl

theorem State.releasePages_alarmed (s : State) (consumer : Nat) (ps : List (Nat × Nat)) : Alarmed s (s.releasePages consumer ps) := by
  have one (s : State) (pg : Nat × Nat) : Alarmed s (s.releasePage consumer pg).1 := by
    unfold State.releasePage
    extract_lets p
    split
    · exact (s.dropRef_alarmed _).trans (State.checkLow_alarmed _)
    · have noted (w : Word) : Alarmed s { s with lastDfree := w } := .of_regs rfl rfl rfl rfl rfl
      exact (noted _).trans (State.bump_alarmed _ (off := 0xB0014) 1 (by decide))
  unfold State.releasePages
  refine .foldl _ (fun s p _ => ?_) s
  extract_lets r
  have gone : Alarmed s r.1 := one s p
  split
  · exact gone.trans (State.raiseDev_alarmed _ _ _ _)
  · exact gone

end Sys2Proof.Machine
end

section
/-!
O45: the DMA rings' indices, enables and aborts (R67, R308, R314, R317), and what an aborted descriptor leaves (R315, R316).
-/
namespace Sys2Proof.Machine

/-- A write of channel `n`'s register at `o`, where the host drives the channel or not. -/
theorem State.onChan_device {s : State} (live : s.live = true) {n : Nat} (small : n < 64) (host : s.hostChan n = false) (o : Nat) (v : Word) :
    s.onChan n o v = s.ignored (0xA1000 + 0x40 * n + o) v := by
  simp [State.onChan, live, small, State.chanWrite, host]

theorem State.onChan_tail {s : State} (live : s.live = true) {n : Nat} (small : n < 64) (host : s.hostChan n = true) (v : Word) :
    s.onChan n 0x10 v = s.dmaTail n v := by
  simp [State.onChan, live, small, State.chanWrite, host]

theorem State.onChan_ctl {s : State} (live : s.live = true) {n : Nat} (small : n < 64) (host : s.hostChan n = true) (v : Word) :
    s.onChan n 0 v = s.dmaCtl n v := by
  simp [State.onChan, live, small, State.chanWrite, host]

/-- TAIL moves forward within the ring (R67). -/
theorem State.dmaTail_forward {s : State} {n : Nat} {v : Word} (within : v.toNat % 65536 < (s.chan n).entries)
    (ahead : ((s.chan n).tail + (s.chan n).entries - (s.chan n).head % (s.chan n).entries) % (s.chan n).entries ≤
      (v.toNat % 65536 + (s.chan n).entries - (s.chan n).head % (s.chan n).entries) % (s.chan n).entries) :
    s.dmaTail n v = s.setChan n
      { s.chan n with tail := v.toNat % 65536, state := if (s.chan n).state = 4 then 0 else (s.chan n).state } := by
  have size : max 1 (s.chan n).entries = (s.chan n).entries := by omega
  simp only [State.dmaTail, fld_low, size]
  exact if_pos ⟨within, ahead⟩

theorem State.dmaTail_ignored {s : State} {n : Nat} {v : Word} (not : ¬ (v.toNat % 65536 < (s.chan n).entries ∧
      ((s.chan n).tail + (s.chan n).entries - (s.chan n).head % (s.chan n).entries) % (s.chan n).entries ≤
      (v.toNat % 65536 + (s.chan n).entries - (s.chan n).head % (s.chan n).entries) % (s.chan n).entries)) :
    s.dmaTail n v = s.ignored (0xA1000 + 0x40 * n + 0x10) v := by
  simp only [State.dmaTail, fld_low]
  refine if_neg fun ⟨within, ahead⟩ => not ⟨within, ?_⟩
  have size : max 1 (s.chan n).entries = (s.chan n).entries := by omega
  rwa [size] at ahead

/-- A channel as a write of its CTL sets its class and the place of its ring. -/
def Chan.written (x : Chan) (n : Nat) (v : Word) : Chan :=
  { x with live := v.getLsbD 2 && decide (56 ≤ n) && decide (n ≤ 61), ringSpace := if x.enable then x.ringSpace else v.getLsbD 3 }

theorem Chan.written_congr (x : Chan) (n : Nat) {v w : Word} (live : w.getLsbD 2 = v.getLsbD 2) (space : w.getLsbD 3 = v.getLsbD 3) :
    x.written n w = x.written n v := by
  rw [Chan.written, Chan.written, live, space]

/-- The word of DMA_ENABLE, without abort, and that of DMA_ABORT, with it, have the other bits of the word given. -/
theorem getLsbD_noAbort (v : Word) : (v &&& 0xFFFFFFFD).getLsbD 1 = false ∧ (v &&& 0xFFFFFFFD).getLsbD 0 = v.getLsbD 0 ∧
    (v &&& 0xFFFFFFFD).getLsbD 2 = v.getLsbD 2 ∧ (v &&& 0xFFFFFFFD).getLsbD 3 = v.getLsbD 3 := by
  refine ⟨?_, ?_, ?_, ?_⟩ <;> rw [BitVec.getLsbD_and]
  · rw [show (0xFFFFFFFD : Word).getLsbD 1 = false by decide, Bool.and_false]
  · rw [show (0xFFFFFFFD : Word).getLsbD 0 = true by decide, Bool.and_true]
  · rw [show (0xFFFFFFFD : Word).getLsbD 2 = true by decide, Bool.and_true]
  · rw [show (0xFFFFFFFD : Word).getLsbD 3 = true by decide, Bool.and_true]

theorem getLsbD_abort (v : Word) : (v ||| 2).getLsbD 1 = true ∧ (v ||| 2).getLsbD 2 = v.getLsbD 2 ∧
    (v ||| 2).getLsbD 3 = v.getLsbD 3 := by
  refine ⟨?_, ?_, ?_⟩ <;> rw [BitVec.getLsbD_or]
  · rw [show (2 : Word).getLsbD 1 = true by decide, Bool.or_true]
  · rw [show (2 : Word).getLsbD 2 = false by decide, Bool.or_false]
  · rw [show (2 : Word).getLsbD 3 = false by decide, Bool.or_false]

/-- A write of CTL without abort (R317): enable, and disable at a descriptor boundary. -/
theorem State.dmaCtl_enable {s : State} {n : Nat} {v : Word} (abort : v.getLsbD 1 = false) : s.dmaCtl n v =
    let x := s.chan n
    let y := x.written n v
    if v.getLsbD 0 then
      if x.entries = 0 then s.ignored (0xA1000 + 0x40 * n) v
      else s.setChan n { y with enable := true, stopping := false, state := if x.enable then x.state else 0 }
    else if x.enable then
      if x.desc.isSome then s.setChan n { y with stopping := true } else s.setChan n { y with enable := false, order := none, state := 6 }
    else s.setChan n y := by
  simp only [State.dmaCtl, bit, abort, Bool.false_eq_true, if_false]
  rfl

/-- A write of CTL with abort (R317): the channel stops, and is disabled. -/
theorem State.dmaCtl_abort {s : State} {n : Nat} {v : Word} (abort : v.getLsbD 1 = true) : s.dmaCtl n v =
    let t := (s.setChan n ((s.chan n).written n v)).stopChan n
    t.setChan n { t.chan n with enable := false, stopping := false, order := none, state := 6 } := by
  simp only [State.dmaCtl, bit, abort, if_true]
  rfl

theorem State.stopChan_idle {s : State} {n : Nat} (idle : (s.chan n).desc = none) : s.stopChan n = s := by
  simp [State.stopChan, idle]

/-- A channel that ends a descriptor with `status` (R315). -/
structure Ended (n status : Nat) (s t : State) : Prop where
  desc : (t.chan n).desc = none
  last : (t.chan n).last = status
  head : (t.chan n).head = ((s.chan n).head + 1) % max 1 (s.chan n).entries
  others : ∀ m, m ≠ n → t.chan m = s.chan m
  pat : t.pat = s.pat
  written : ∃ done, .writeback n (s.chan n).head status done ∈ t.outbox

/-- A host channel whose descriptor ends with `status` (R315): a waiting disable applies. -/
def Chan.finished (x : Chan) (status : Nat) : Chan :=
  { x with
    head := (x.head + 1) % max 1 x.entries, count := x.count - 1, last := status, desc := none, raw := [], data := [], moved := 0, order := none
    state := if x.stopping then 6 else 0, enable := x.enable && !x.stopping, stopping := false }

theorem State.descEnd_eq {s : State} {n : Nat} (host : s.hostChan n = true) (b : List Byte) (status done : Nat) :
    s.descEnd n b status done =
      let t := s.sendWriteback n b status done
      let u := t.setChan n ((t.chan n).finished status)
      if (t.chan n).count = 1 then u.post 0 (some 0) (u.evRec n 1 (mkWord [(0, status), (16, ((t.chan n).finished status).head)]))
      else u := if_pos host

/-- The end of a descriptor of a ring in host memory (R315, R316). -/
theorem State.descEnd_host {s : State} {n : Nat} (host : s.hostChan n = true) (space : (s.chan n).ringSpace = false) (b : List Byte)
    (status done : Nat) : Ended n status s (s.descEnd n b status done) ∧ Alarmed s (s.descEnd n b status done) := by
  let t := s.emit (.writeback n (s.chan n).head status done)
  have sent : s.sendWriteback n b status done = t := by simp [State.sendWriteback, space, t]
  have quiet : s.emitFn (.writeback n (s.chan n).head status done) = 0 := rfl
  have out : t = { s with outbox := s.outbox ++ [.writeback n (s.chan n).head status done] } := by simp [t, State.emit, quiet]
  have chan (m : Nat) : t.chan m = s.chan m := by rw [out]; rfl
  have first : Alarmed s t := s.emit_alarmed _
  have there : .writeback n (s.chan n).head status done ∈ t.outbox := by simp [out]
  have pat : t.pat = s.pat := by rw [out]
  rw [State.descEnd_eq host, sent]
  clear_value t
  extract_lets t' u
  have set : Alarmed t u := .of_regs rfl rfl rfl rfl rfl
  have own : u.chan n = (s.chan n).finished status := (t.setChan_chan n _ n).trans (by rw [if_pos rfl, chan])
  have other (m : Nat) (ne : m ≠ n) : u.chan m = s.chan m := (t.setChan_chan n _ m).trans (by rw [if_neg ne, chan])
  have ends : Ended n status s u := ⟨by rw [own]; rfl, by rw [own]; rfl, by rw [own]; rfl, other, pat, done, there⟩
  clear_value u
  split
  · generalize u.evRec n 1 _ = r
    have posted := u.post_posted 0 (some 0) r
    have alarmed := u.post_alarmed 0 (some 0) r
    have same (m : Nat) : (u.post 0 (some 0) r).chan m = u.chan m := State.chan_of_still (congrArg State.chans posted :) m
    obtain ⟨desc, last, head, others, pat, done, written⟩ := ends
    refine ⟨⟨by rw [same, desc], by rw [same, last], by rw [same, head], fun m ne => by rw [same, others m ne], ?_, done,
      alarmed.sent _ written⟩, (first.trans set).trans alarmed⟩
    have unmoved : (u.post 0 (some 0) r).pat = u.pat := (congrArg State.pat posted :)
    exact unmoved.trans pat
  · exact ⟨ends, first.trans set⟩

theorem State.stopChan_moving {s : State} {n : Nat} {d : Desc} (desc : (s.chan n).desc = some d) : ∃ (c : Desc) (e : MoveEnd),
    let m := s.fresh.1.moveAll n c e
    s.stopChan n = ((m.s.count 6 0 m.beats).descEnd n (s.chan n).raw 3 m.done).bump 0xA0010 := by
  refine ⟨{ d with lines := min d.lines (s.chan n).moved },
    { beats := some (min (Config.beatsMoved s.fresh.2) ((s.chan n).moved * ceilDiv d.len 64), 3) }, ?_⟩
  simp only [State.stopChan, desc]

/-- A moving channel of the host that stops writes its descriptor back with status 3, and is counted (R317, R319). -/
theorem State.stopChan_host {s : State} {n : Nat} {d : Desc} (host : s.hostChan n = true) (desc : (s.chan n).desc = some d)
    (space : (s.chan n).ringSpace = false) : Ended n 3 s (s.stopChan n) ∧
      ((s.stopChan n).reg 0xA0010).toNat = min 0xFFFFFFFF ((s.reg 0xA0010).toNat + 1) := by
  obtain ⟨c, e, eq⟩ := s.stopChan_moving desc
  extract_lets m at eq
  rw [eq]
  have moved : Latches s m.s := (Latches.of_still (s := s) (t := s.fresh.1) rfl).trans (State.moveAll_latches _ _ _ _)
  have carried : Alarmed s m.s := .trans (.of_regs rfl rfl rfl rfl rfl : Alarmed s s.fresh.1) (State.moveAll_alarmed _ _ _ _)
  clear_value m
  obtain ⟨mask, still⟩ := moved.trans (.of_still (m.s.count_still 6 0 m.beats))
  have counted : Alarmed s (m.s.count 6 0 m.beats) := carried.trans (m.s.count_alarmed 6 0 m.beats)
  generalize m.s.count 6 0 m.beats = t at *
  have chan (j : Nat) : t.chan j = s.chan j := State.chan_of_still (congrArg Still.chans still :) j
  have pat : t.pat = s.pat := (congrArg Still.pat still :)
  have drives : t.hostChan n = true := by
    have busy := counted.busy
    unfold State.hostChan at *
    grind
  obtain ⟨⟨gone, last, head, others, kept, done, written⟩, alarmed⟩ :=
    t.descEnd_host drives (by rw [chan, space]) (s.chan n).raw 3 m.done
  generalize t.descEnd n (s.chan n).raw 3 m.done = u at *
  refine ⟨⟨gone, last, by rw [← chan]; exact head, fun j ne => (others j ne).trans (chan j), kept.trans pat, done, by rwa [← chan]⟩, ?_⟩
  rw [State.bump_reg, if_pos rfl, satIncW_toNat, alarmed.aborted, counted.aborted]

/-- DMA_ABORT of a channel without a descriptor disables it (R317). -/
theorem State.dmaCtl_abort_idle {s : State} {n : Nat} {v : Word} (abort : v.getLsbD 1 = true) (idle : (s.chan n).desc = none) :
    let t := s.dmaCtl n v
    t = { s with chans := t.chans } ∧ (∀ m, m ≠ n → t.chan m = s.chan m) ∧ t.chan n =
      { (s.chan n).written n v with enable := false, stopping := false, order := none, state := 6 } := by
  have stays : ((s.setChan n ((s.chan n).written n v)).chan n).desc = none := by
    rw [State.setChan_chan, if_pos rfl]
    exact idle
  rw [State.dmaCtl_abort abort, State.stopChan_idle stays]
  refine ⟨rfl, fun m ne => ?_, ?_⟩
  · rw [State.setChan_chan, if_neg ne, State.setChan_chan, if_neg ne]
  · rw [State.setChan_chan, if_pos rfl, State.setChan_chan, if_pos rfl]

/-- DMA_ABORT of a channel that moves a descriptor of a ring in host memory ends it with status 3 (R317, R319). -/
theorem State.dmaCtl_abort_moving {s : State} {n : Nat} {v : Word} {d : Desc} (host : s.hostChan n = true) (abort : v.getLsbD 1 = true)
    (desc : (s.chan n).desc = some d) (enabled : (s.chan n).enable = true) (space : (s.chan n).ringSpace = false) :
    let t := s.dmaCtl n v
    Ended n 3 s t ∧ (t.chan n).enable = false ∧ (t.chan n).state = 6 ∧
      (t.reg 0xA0010).toNat = min 0xFFFFFFFF ((s.reg 0xA0010).toNat + 1) := by
  rw [State.dmaCtl_abort abort]
  let x := (s.chan n).written n v
  let a := s.setChan n x
  have own : a.chan n = x := (s.setChan_chan n x n).trans (if_pos rfl)
  have desc' : (a.chan n).desc = some d := by rw [own]; exact desc
  have space' : (a.chan n).ringSpace = false := by rw [own]; exact (if_pos enabled).trans space
  have drives : a.hostChan n = true := host
  obtain ⟨⟨gone, last, head, others, pat, done, written⟩, count⟩ := State.stopChan_host drives desc' space'
  have entries : x.entries = (s.chan n).entries := rfl
  have at_ : x.head = (s.chan n).head := rfl
  rw [own, entries, at_] at head
  rw [own, at_] at written
  change _ ∧ _
  generalize State.stopChan _ n = t at *
  dsimp only
  refine ⟨⟨?_, ?_, ?_, fun m ne => ?_, pat, done, written⟩, ?_, ?_, count⟩
  · rw [State.setChan_chan, if_pos rfl, gone]
  · rw [State.setChan_chan, if_pos rfl, last]
  · rw [State.setChan_chan, if_pos rfl, head]
  · rw [State.setChan_chan, if_neg ne, others m ne, State.setChan_chan, if_neg ne]
  · rw [State.setChan_chan, if_pos rfl]
  · rw [State.setChan_chan, if_pos rfl]

/-- The window of a tile's inbox answers where the part has the tile and its quadrant runs (R2, R338). -/
theorem State.inboxWindow {s : State} {k : Nat} (has : k < s.nTiles) (runs : (s.quad (quadOf k)).pll = true) :
    s.present (0x200000 + 0x8000 * k + 0x100) = true ∧ s.stopped (0x200000 + 0x8000 * k + 0x100) = false := by
  have few := s.nTiles_le
  have number : (0x200000 + 0x8000 * k + 0x100 - 0x200000) / 0x8000 = k := by omega
  constructor
  · rw [State.present, if_neg (by omega), if_neg (by omega), if_pos (by omega), number, decide_eq_true has]
  · rw [State.stopped, if_neg (by omega), if_pos (by omega), number, runs, Bool.not_true]

theorem State.inboxWindow_absent {s : State} {k : Nat} (absent : s.nTiles ≤ k) (small : k < 64) :
    s.present (0x200000 + 0x8000 * k + 0x100) = false := by
  have number : (0x200000 + 0x8000 * k + 0x100 - 0x200000) / 0x8000 = k := by omega
  rw [State.present, if_neg (by omega), if_neg (by omega), if_pos (by omega), number, decide_eq_false (by omega)]

/-- A flush that empties an inbox counts itself and what it drops (R321). -/
theorem State.flushInbox_counts (s : State) (k : Nat) :
    ((s.flushInbox k).reg (0x200000 + 0x8000 * k + 0x108)).toNat =
        min 0xFFFFFFFF ((s.reg (0x200000 + 0x8000 * k + 0x108)).toNat + 1) ∧
      ((s.flushInbox k).reg (0x200000 + 0x8000 * k + 0x10C)).toNat =
        min 0xFFFFFFFF ((s.reg (0x200000 + 0x8000 * k + 0x10C)).toNat + (s.tile k).inbox.length) := by
  unfold State.flushInbox tileBase
  extract_lets x s1
  have before (o : Nat) : s1.reg o = s.reg o := rfl
  constructor
  · rw [State.bump_reg, if_neg (by omega), State.bump_reg, if_pos rfl, satIncW_toNat, before]
  · rw [State.bump_reg, if_pos rfl, State.bump_reg, if_neg (by omega), satIncW_toNat, before]

/-- A patch move of any unit, held or not, leaves the device but for its sessions, registers and performance counters. -/
theorem State.patchMove_rest (s : State) (u : UnitRef) (avoid : Option Nat) :
    (s.patchMove u avoid).offUnits = s.offUnits ∧ RegsKept s (s.patchMove u avoid) [0xF0014] := by
  rw [State.patchMove_eq]
  constructor
  · rw [State.count_offUnits, State.bump_offUnits, State.modSes_offUnits]
    exact s.modSes_offUnits _ _
  · intro o away
    rw [State.count_reg, State.bump_reg, if_neg (List.ne_of_not_mem_cons away)]
    rfl

/-- What INBOX_FLUSH leaves of tile `k` (R321). -/
structure Flushed (k : Nat) (s t : State) : Prop where
  inbox : (t.tile k).inbox = []
  midItem : (t.tile k).midItem = false
  others : OtherTiles s t (· = k)
  pat : t.pat = s.pat
  flushes : (t.reg (0x200000 + 0x8000 * k + 0x108)).toNat = min 0xFFFFFFFF ((s.reg (0x200000 + 0x8000 * k + 0x108)).toNat + 1)
  drops : (t.reg (0x200000 + 0x8000 * k + 0x10C)).toNat =
    min 0xFFFFFFFF ((s.reg (0x200000 + 0x8000 * k + 0x10C)).toNat + (s.tile k).inbox.length)

theorem State.flushInbox_flushed (s : State) (k : Nat) : Flushed k s (s.flushInbox k) := by
  obtain ⟨tile, others, -, -⟩ := s.flushInbox_spec k
  obtain ⟨flushes, drops⟩ := s.flushInbox_counts k
  exact ⟨by rw [tile], by rw [tile], others, rfl, flushes, drops⟩

/-- A dispatch order in the inbox goes back with its unit (R248, R321). -/
theorem State.inboxCtl_returns {s : State} {k : Nat} {v : Word} (flush : v.getLsbD 0 = true) {u : UnitRef}
    (work : (s.tile k).work = some u) (queued : (s.tile k).inbox ≠ []) :
    s.inboxCtl k v = ((s.flushInbox k).modTile k fun y => y.rest s.now).patchMove u none := by
  have some_ : (s.tile k).inbox.isEmpty = false := by simpa using queued
  simp only [State.inboxCtl, bit, flush, work, some_, if_true, Bool.false_eq_true, if_false]
  rfl

theorem State.inboxCtl_empties {s : State} {k : Nat} {v : Word} (flush : v.getLsbD 0 = true)
    (none_ : (s.tile k).work = none ∨ (s.tile k).inbox = []) : s.inboxCtl k v = s.flushInbox k := by
  simp only [State.inboxCtl, bit, flush, if_true]
  split
  next u work =>
    obtain idle | empty := none_
    · rw [work] at idle
      cases idle
    · simp [empty]
  next => rfl

theorem State.inboxCtl_flushed (s : State) (k : Nat) {v : Word} (flush : v.getLsbD 0 = true) : Flushed k s (s.inboxCtl k v) := by
  by_cases none_ : (s.tile k).work = none ∨ (s.tile k).inbox = []
  · rw [State.inboxCtl_empties flush none_]
    exact s.flushInbox_flushed k
  · obtain ⟨busy, queued⟩ := not_or.1 none_
    obtain ⟨u, work⟩ := Option.ne_none_iff_exists'.1 busy
    rw [State.inboxCtl_returns flush work queued]
    obtain ⟨inbox, midItem, others, pat, flushes, drops⟩ := s.flushInbox_flushed k
    generalize s.flushInbox k = a at *
    obtain ⟨rest, regs⟩ := (a.modTile k fun y => y.rest s.now).patchMove_rest u none
    have tile (j : Nat) : (((a.modTile k fun y => y.rest s.now).patchMove u none).tile j) =
        (a.modTile k fun y => y.rest s.now).tile j := (congrArg (State.tile · j) rest :)
    have pat' : ((a.modTile k fun y => y.rest s.now).patchMove u none).pat = a.pat := (congrArg State.pat rest :)
    have reg (o : Nat) (away : o ≠ 0xF0014) := regs o (by simpa using away)
    generalize State.patchMove _ u none = t at *
    refine ⟨?_, ?_, fun j ne => ?_, pat'.trans pat, ?_, ?_⟩
    · rw [tile, State.modTile_tile, if_pos rfl]
      exact inbox
    · rw [tile, State.modTile_tile, if_pos rfl]
      exact midItem
    · rw [tile, State.modTile_tile, if_neg ne, others j ne]
    · rw [reg _ (by omega)]
      exact flushes
    · rw [reg _ (by omega)]
      exact drops

/-- The unit of a dispatch order that a flush removes is dispatched again (R248, R321). -/
theorem State.inboxCtl_unit {s : State} {k : Nat} {v : Word} (flush : v.getLsbD 0 = true) {u : UnitRef} {p : Pic} {w : WUnit}
    (work : (s.tile k).work = some u) (unit : s.unitOf u = some (p, w)) (queued : (s.tile k).inbox ≠ []) :
    ((s.inboxCtl k v).tile k).work = none ∧ ∃ q r, (s.inboxCtl k v).unitOf u = some (q, r) ∧ r.st = .ready ∧ r.replay = true := by
  rw [State.inboxCtl_returns flush work queued]
  have held : ((s.flushInbox k).modTile k fun y => y.rest s.now).unitOf u = some (p, w) := unit
  obtain ⟨rest, -, -, -, q, moved⟩ := State.patchMove_spec held none
  refine ⟨?_, q, _, moved, rfl, rfl⟩
  have tile : ((((s.flushInbox k).modTile k fun y => y.rest s.now).patchMove u none).tile k) =
      ((s.flushInbox k).modTile k fun y => y.rest s.now).tile k := (congrArg (State.tile · k) rest :)
  rw [tile, State.modTile_tile, if_pos rfl]
  rfl

/-- Settles O45, by the rule of each write. -/
theorem dmaRings : Obligations.DmaRings := by
  intro s n k v live small
  extract_lets x e tail forward y off base
  refine ⟨fun host => ?_, fun host => ?_, ?_, ?_, fun has runs => ?_, fun absent below => ?_⟩
  · obtain ⟨no1, no0, no2, no3⟩ := getLsbD_noAbort v
    obtain ⟨ab1, ab2, ab3⟩ := getLsbD_abort v
    have enable : exec (.dmaEnable n v) s = .next (s.dmaCtl n (v &&& 0xFFFFFFFD)) :=
      congrArg Host.Outcome.next (State.onChan_ctl live small host _)
    have abort : exec (.dmaAbort n v) s = .next (s.dmaCtl n (v ||| 2)) :=
      congrArg Host.Outcome.next (State.onChan_ctl live small host _)
    have tailWrite : exec (.dmaTailWrite n v) s = .next (s.dmaTail n v) :=
      congrArg Host.Outcome.next (State.onChan_tail live small host v)
    have enabled : x.written n (v &&& 0xFFFFFFFD) = y := x.written_congr n no2 no3
    have aborted : x.written n (v ||| 2) = y := x.written_congr n ab2 ab3
    refine ⟨fun go => ?_, fun stay => ?_, fun on ring => ?_, fun on ring => ?_, fun clear was idle => ?_, fun clear was moves => ?_,
      fun idle => ⟨_, abort, ?_⟩, fun d desc was space => ⟨_, abort, ?_⟩⟩
    · rw [tailWrite, State.dmaTail_forward go.1 go.2]
    · rw [tailWrite, State.dmaTail_ignored stay]
    · rw [enable, State.dmaCtl_enable no1]
      dsimp only
      rw [if_pos (no0.trans on), if_neg ring, enabled]
    · rw [enable, State.dmaCtl_enable no1]
      dsimp only
      rw [if_pos (no0.trans on), if_pos ring]
    · rw [enable, State.dmaCtl_enable no1]
      dsimp only
      rw [if_neg (by rw [no0, clear]; decide), if_pos was, if_neg (by rw [idle]; decide : ¬ x.desc.isSome = true), enabled]
    · rw [enable, State.dmaCtl_enable no1]
      dsimp only
      rw [if_neg (by rw [no0, clear]; decide), if_pos was, if_pos (Option.isSome_iff_ne_none.2 moves), enabled]
    · obtain ⟨frame, others, own⟩ := State.dmaCtl_abort_idle ab1 idle
      exact ⟨frame, others, own.trans (by rw [aborted])⟩
    · obtain ⟨⟨gone, last, head, others, pat, written⟩, off, state, count⟩ := State.dmaCtl_abort_moving host ab1 desc was space
      exact ⟨off, state, gone, last, head, others, pat, count, written⟩
  · exact ⟨congrArg Host.Outcome.next (State.onChan_device live small host 0x10 v),
      congrArg Host.Outcome.next (State.onChan_device live small host 0 _),
      congrArg Host.Outcome.next (State.onChan_device live small host 0 _)⟩
  · have set : s.reqSet v = { s with dmaReq := s.dmaReq ||| v.toNat % 65536 } := by rw [State.reqSet, fld_low]; rfl
    exact congrArg Host.Outcome.next ((if_pos live).trans set)
  · have clear : s.reqClear v = { s with dmaReq := s.dmaReq &&& (65535 - v.toNat % 65536) } := by rw [State.reqClear, fld_low]; rfl
    exact congrArg Host.Outcome.next ((if_pos live).trans clear)
  · obtain ⟨present, running⟩ := State.inboxWindow has runs
    have flush : (v ||| 1).getLsbD 0 = true := by simp
    have run : exec (.inboxFlush k v) s = .next (s.inboxCtl k (v ||| 1)) :=
      congrArg Host.Outcome.next ((if_pos live).trans (if_pos (by rw [tileBase, present, running]; rfl)))
    obtain ⟨inbox, midItem, others, pat, flushes, drops⟩ := s.inboxCtl_flushed k flush
    refine ⟨_, run, inbox, midItem, others, pat, flushes, drops, fun idle => ?_, fun u p w work unit queued => ?_⟩
    · rw [State.inboxCtl_empties flush (.inl idle)]
      exact (s.flushInbox_spec k).2.2.1
    · exact State.inboxCtl_unit flush work unit queued
  · have gone := State.inboxWindow_absent absent below
    exact congrArg Host.Outcome.next ((if_pos live).trans (if_neg (by simp [tileBase, gone])))

end Sys2Proof.Machine
end

section
/-!
O34: HOST_UNIT_DELIVERY (R66, R67, R169 to R171, R182, R183).
-/
namespace Sys2Proof.Machine

/-- Where no function is under reset, everything goes out (R335). -/
theorem State.emit_quiet {s : State} (quiet : s.hif.flr = []) (e : Emit) : s.emit e = { s with outbox := s.outbox ++ [e] } := by
  simp [State.emit, quiet]

/-- A record at the output tail (R66): the tail advances, and nothing else changes. -/
theorem State.writeOut_spec {s : State} (quiet : s.hif.flr = []) (n : Nat) (bytes : List Byte) :
    let t := s.writeOut n bytes
    t = { s with
      sessions := t.sessions, outbox := s.outbox ++ [.record n ((s.ses n).outTail % ringSize (s.ses n).cfg 0x2E0) bytes] } ∧
    t.ses n = { s.ses n with outTail := ((s.ses n).outTail + 1) % ringSize (s.ses n).cfg 0x2E0 } ∧
    OtherSessions s t (· = n) ∧ (NoneWaits s → NoneWaits t) := by
  let x : Session := { s.ses n with outTail := ((s.ses n).outTail + 1) % ringSize (s.ses n).cfg 0x2E0 }
  have eq : s.writeOut n bytes = { s.setSes n x with
      outbox := s.outbox ++ [.record n ((s.ses n).outTail % ringSize (s.ses n).cfg 0x2E0) bytes] } :=
    State.emit_quiet (s := s.setSes n x) quiet _
  rw [eq]
  exact ⟨rfl, (s.setSes_ses n x n).trans (if_pos rfl), fun m ne => (s.setSes_ses n x m).trans (if_neg ne),
    fun h => h.setSes n (x := x) (h.ses n)⟩

/-- Kept pictures that no page needs go, and nothing else changes (R171). -/
theorem State.pruneKept_spec (s : State) (n : Nat) :
    let t := s.pruneKept n
    t = { s with sessions := t.sessions } ∧ (∃ l, t.ses n = { s.ses n with kept := l }) ∧ (NoneWaits s → NoneWaits t) :=
  ⟨rfl, ⟨_, (s.modSes_ses n _ n).trans (if_pos rfl)⟩, fun h => h.setSes n (h.ses n)⟩

/-- The oldest delivery of a session that goes out now: nothing holds it. -/
structure Delivering (s : State) (n : Nat) (o : OutItem) (rest : List OutItem) : Prop where
  live : s.live = true
  oldest : (s.ses n).outq = o :: rest
  room : (s.ses n).outFull = false
  whole : s.beingRecoded n o = false

/-- A full output ring holds the delivery (R67). -/
theorem State.deliveryOp_held {s : State} {n : Nat} {o : OutItem} {rest : List OutItem} (oldest : (s.ses n).outq = o :: rest)
    (record : o.record = true) (full : (s.ses n).outFull = true) (bad : Option Nat) : s.deliveryOp n bad = s := by
  simp [State.deliveryOp, oldest, record, full]

theorem Delivering.copies {s : State} {n : Nat} {o : OutItem} {rest : List OutItem} (h : Delivering s n o rest) (enc : o.dec = none)
    (copy : o.copy = true) (parts : o.parts ≠ []) (bad : Option Nat) :
    s.deliveryOp n bad = (s.deliverCopy n o rest bad).retestAll := by
  simp [State.deliveryOp, h.oldest, h.live, h.room, h.whole, enc, copy, parts]

theorem Delivering.decodes {s : State} {n : Nat} {o : OutItem} {rest : List OutItem} (h : Delivering s n o rest) {d : DecOut}
    (dec : o.dec = some d) (bad : Option Nat) : s.deliveryOp n bad = s.deliverDec n o d rest bad.isSome := by
  simp [State.deliveryOp, h.oldest, h.live, h.room, h.whole, dec]

/-- Where a delivery of session `n` goes in its byte buffer: offset and wrap flag (R169). -/
def Session.placeOf (x : Session) (o : OutItem) : Nat × Bool := place (bufSize x.cfg) x.bufFill o.bytes

/-- The delivery fits in the byte buffer (R169). -/
def Session.fits (x : Session) (o : OutItem) : Bool := roomFor (bufSize x.cfg) x.bufHead (x.placeOf o).1 o.bytes

/-- A full buffer holds the delivery (R169). -/
theorem State.deliverCopy_held {s : State} {n : Nat} {o : OutItem} (full : (s.ses n).fits o = false) (rest : List OutItem)
    (bad : Option Nat) : s.deliverCopy n o rest bad = s := by
  unfold Session.fits Session.placeOf at full
  simp [State.deliverCopy, full]

/-- A delivery whose pages read clean (R169). -/
theorem State.deliverCopy_clean {s : State} {n : Nat} {o : OutItem} (fits : (s.ses n).fits o = true) (rest : List OutItem)
    {bytes : List Byte} (clean : (s.readParts o.parts).2 = .ok bytes) :
    s.deliverCopy n o rest none = (s.readParts o.parts).1.deliverUnit n o rest ((s.ses n).placeOf o) bytes := by
  unfold Session.fits Session.placeOf at *
  simp [State.deliverCopy, fits, clean]

/-- A reported label failure of a page (R171). -/
theorem State.deliverCopy_bad {s : State} {n : Nat} {o : OutItem} (fits : (s.ses n).fits o = true) (rest : List OutItem) (byte : Nat) :
    s.deliverCopy n o rest (some byte) =
      ((s.readParts o.parts).1.pageFailed { ses := n, pic := o.pic, idx := partAt o.parts byte }).raiseDev 17 0 n := by
  unfold Session.fits Session.placeOf at *
  simp [State.deliverCopy, fits]

/-- The memory is one of the components that most operations keep. -/
theorem mem_of_kept {s t : State} (h : t.kept = s.kept) : t.mem = s.mem := congrArg (·.2.2.2.1) h

/-- A delivery that goes out: its bytes in the buffer, then its record in the ring (R66, R169). -/
theorem State.deliverUnit_spec {s : State} {n : Nat} {o : OutItem} (quiet : s.hif.flr = []) (none : NoneWaits s) (enc : o.dec = .none)
    (record : o.record = true) (rest : List OutItem) (place : Nat × Bool) (bytes : List Byte) :
    let t := s.deliverUnit n o rest place bytes
    (t.ses n).outq = rest ∧ (t.ses n).bufFill = place.1 + o.bytes ∧
      (t.ses n).outTail = ((s.ses n).outTail + 1) % ringSize (s.ses n).cfg 0x2E0 ∧
      .unitData n place.1 (hostForm (s.ses n).cfg bytes) ∈ t.outbox ∧
      .record n ((s.ses n).outTail % ringSize (s.ses n).cfg 0x2E0) (encRecord o place.1 (o.flags + 64 * b2n place.2)) ∈ t.outbox ∧
      t.pat = s.pat ∧ t.mem = s.mem ∧ NoneWaits t := by
  let x : Session := { s.ses n with outq := rest, bufFill := place.1 + o.bytes }
  let a := (s.setSes n x).emit (.unitData n place.1 (hostForm (s.ses n).cfg bytes))
  let b := a.releasePages 0 o.pages
  have eq : s.deliverUnit n o rest place bytes = (b.writeOut n (encRecord o place.1 (o.flags + 64 * b2n place.2))).pruneKept n := by
    simp only [State.deliverUnit, State.recordOf, record, enc, if_true]
    rfl
  have out : a = { s.setSes n x with outbox := s.outbox ++ [.unitData n place.1 (hostForm (s.ses n).cfg bytes)] } :=
    State.emit_quiet (s := s.setSes n x) quiet _
  have own : a.ses n = x := by
    rw [out]
    exact (s.setSes_ses n x n).trans (if_pos rfl)
  have sent : .unitData n place.1 (hostForm (s.ses n).cfg bytes) ∈ a.outbox := by simp [out]
  have waits : NoneWaits a := by
    rw [out]
    exact none.setSes n (none.ses n)
  have flr : a.hif.flr = [] := by rw [out]; exact quiet
  have pat : a.pat = s.pat := by rw [out]; rfl
  have mem : a.mem = s.mem := by rw [out]; rfl
  have released : Alarmed a b := a.releasePages_alarmed 0 o.pages
  have pat' : b.pat = s.pat := (a.releasePages_freed 0 o.pages).pat.trans pat
  have mem' : b.mem = s.mem := (mem_of_kept (a.releasePages_kept 0 o.pages)).trans mem
  have kept := released.outgoing n
  rw [own] at kept
  have outq : (b.ses n).outq = rest := congrArg Outgoing.outq kept
  have fill : (b.ses n).bufFill = place.1 + o.bytes := congrArg Outgoing.bufFill kept
  have tail : (b.ses n).outTail = (s.ses n).outTail := congrArg Outgoing.outTail kept
  have cfg : (b.ses n).cfg = (s.ses n).cfg := congrArg Outgoing.cfg kept
  have flr' : b.hif.flr = [] := released.flr.trans flr
  have sent' := released.sent _ sent
  have waits' := released.waits waits
  obtain ⟨frame, own', -, still⟩ := State.writeOut_spec flr' n (encRecord o place.1 (o.flags + 64 * b2n place.2))
  rw [tail, cfg] at frame own'
  rw [eq]
  clear_value b
  generalize b.writeOut n (encRecord o place.1 (o.flags + 64 * b2n place.2)) = c at *
  obtain ⟨frame', ⟨l, own''⟩, still'⟩ := c.pruneKept_spec n
  generalize c.pruneKept n = t at *
  have outbox : t.outbox = b.outbox ++ [.record n ((s.ses n).outTail % ringSize (s.ses n).cfg 0x2E0)
      (encRecord o place.1 (o.flags + 64 * b2n place.2))] :=
    (congrArg State.outbox frame' :).trans (congrArg State.outbox frame :)
  dsimp only
  rw [own'', own', outbox]
  refine ⟨outq, fill, rfl, List.mem_append_left _ sent', List.mem_append_right _ List.mem_cons_self, ?_, ?_, still' (still waits')⟩
  · exact ((congrArg State.pat frame' :).trans (congrArg State.pat frame :)).trans pat'
  · exact ((congrArg State.mem frame' :).trans (congrArg State.mem frame :)).trans mem'

/-- A unit that is coded again from its kept inputs (R171). -/
def WUnit.recoding (w : WUnit) : WUnit := { w with st := .ready, recode := true, replay := true, failedOn := [] }

/-- A picture whose units that share bytes with unit `idx` are coded again (R165, R171). -/
def Pic.recoding (p : Pic) (idx : Nat) : Pic :=
  { p with units := p.units.map fun w => if (p.sharing idx).contains w.idx then w.recoding else w }

theorem State.count_flt (s : State) (code unit k : Nat) : (s.count code unit k).flt = s.flt :=
  (congrArg State.flt (s.count_offPmu code unit k) :)

/-- A session that counts a replay. -/
def Session.replayed (x : Session) : Session := { x with replays := min 0xFFFFFFFF (x.replays + 1) }

theorem State.recodeUnit_eq (s : State) (u : UnitRef) : s.recodeUnit u =
    (((s.modSes u.ses fun x => x.modPic u.pic (·.recoding u.idx)).modSes u.ses Session.replayed).bump 0xF0010).count 5 0 := rfl

theorem Pic.sharing_self {p : Pic} {idx : Nat} {w : WUnit} (h : p.unit? idx = some w) : idx ∈ p.sharing idx := by
  have here : w.idx = idx := by simpa using List.find?_some h
  unfold Pic.sharing
  rw [h]
  dsimp only
  split
  · exact List.mem_map.2 ⟨w, List.mem_of_find?_eq_some h, here⟩
  · simp [here]

theorem Pic.recoding_unit? {p : Pic} {idx : Nat} {w : WUnit} (h : p.unit? idx = some w) :
    (p.recoding idx).unit? idx = some w.recoding := by
  have here : w.idx = idx := by simpa using List.find?_some h
  have shared : (p.sharing idx).contains w.idx = true := by simpa [here] using Pic.sharing_self h
  have keeps : ((fun v : WUnit => v.idx == idx) ∘ fun w : WUnit => if (p.sharing idx).contains w.idx then w.recoding else w) =
      fun v => v.idx == idx := by
    funext v
    dsimp only [Function.comp]
    split <;> rfl
  unfold Pic.unit? at h ⊢
  rw [Pic.recoding, List.find?_map, keeps, h, Option.map_some, if_pos shared]

/-- A committed unit is coded again (R171): it is ready, what its session delivers stays, and no picture waits that did not. -/
theorem State.recodeUnit_spec {s : State} {u : UnitRef} {p : Pic} {w : WUnit} (h : s.unitOf u = some (p, w)) :
    let t := s.recodeUnit u
    t.unitOf u = some (p.recoding u.idx, w.recoding) ∧ (t.ses u.ses).outq = (s.ses u.ses).outq ∧ t.flt = s.flt ∧
      (NoneWaits s → NoneWaits t) := by
  obtain ⟨-, unit⟩ := State.unitOf_eq_some.1 h
  let a := s.modSes u.ses fun x => x.modPic u.pic (·.recoding u.idx)
  let b := a.modSes u.ses Session.replayed
  have eq : s.recodeUnit u = (b.bump 0xF0010).count 5 0 := s.recodeUnit_eq u
  have first : a.unitOf u = some (p.recoding u.idx, w.recoding) :=
    State.modPic_unitOf h (fun _ => rfl) (Pic.recoding_unit? unit)
  have changed : Alarmed s a := State.setSes_alarmed rfl rfl
  have own : (s.recodeUnit u).ses u.ses = (a.ses u.ses).replayed := by
    rw [eq, State.ses_of_sessions (State.count_sessions _ _ _ _), State.bump_ses]
    exact (a.modSes_ses u.ses _ u.ses).trans (if_pos rfl)
  have counted : Alarmed a (s.recodeUnit u) := by
    rw [eq]
    exact (State.setSes_alarmed rfl rfl : Alarmed a b).trans ((b.bump_alarmed 1 (by decide)).trans (State.count_alarmed _ 5 0 1))
  have both := changed.trans counted
  refine ⟨?_, congrArg Outgoing.outq (both.outgoing u.ses), ?_, both.waits⟩
  · rw [State.unitOf_congr (s := a) (congrArg Session.pics own :) (congrArg Session.kept own :), first]
  · rw [eq, State.count_flt, State.bump_flt]
    exact (a.modSes_flt _ _).trans (s.modSes_flt _ _)

/-- A page of a unit that was never coded again fails its label (R171). -/
theorem State.pageFailed_recodes {s : State} {u : UnitRef} {p : Pic} {w : WUnit} (h : s.unitOf u = some (p, w))
    (first : w.recoded = false) (idle : w.recode = false) : s.pageFailed u = s.recodeUnit u := by
  simp [State.pageFailed, h, first, idle]

/-- A page's label failure that a delivery meets (R171): class 17 latches, the delivery waits, and its unit is coded again. -/
theorem State.deliverCopy_recodes {s : State} {n : Nat} {o : OutItem} (fits : (s.ses n).fits o = true) (none : NoneWaits s)
    (calm : NotFatal s 17) (clean : (s.readParts o.parts).1 =
      { s with hbm := (s.readParts o.parts).1.hbm, pmu := (s.readParts o.parts).1.pmu }) (rest : List OutItem) {byte : Nat} {p : Pic}
    {w : WUnit} (unit : s.unitOf { ses := n, pic := o.pic, idx := partAt o.parts byte } = some (p, w)) (first : w.recoded = false)
    (idle : w.recode = false) :
    let t := s.deliverCopy n o rest (some byte)
    t.flt.status.getLsbD 17 = true ∧ (t.ses n).outq = (s.ses n).outq ∧ t.mem = s.mem ∧ NoneWaits t ∧
      t.unitOf { ses := n, pic := o.pic, idx := partAt o.parts byte } = some (p.recoding (partAt o.parts byte), w.recoding) := by
  let u : UnitRef := { ses := n, pic := o.pic, idx := partAt o.parts byte }
  rw [State.deliverCopy_bad fits]
  generalize (s.readParts o.parts).1 = a at *
  have unit' : a.unitOf u = some (p, w) := by rw [clean]; exact unit
  have waits : NoneWaits a := by rw [clean]; exact none
  have same : a.sessions = s.sessions := (congrArg State.sessions clean :)
  have mem : a.mem = s.mem := (congrArg State.mem clean :)
  have flt : a.flt = s.flt := (congrArg State.flt clean :)
  rw [State.pageFailed_recodes unit' first idle]
  obtain ⟨held, outq, flt', waits'⟩ := State.recodeUnit_spec unit'
  have mem' : (a.recodeUnit u).mem = a.mem := mem_of_kept (a.recodeUnit_kept u)
  generalize a.recodeUnit u = b at *
  have told : Signalled b (b.raiseDev 17 0 n) :=
    (b.raiseDev_footed (by decide) 0 n).2 (calm.of_cfg (by rw [flt', flt]))
  have status : (b.raiseDev 17 0 n).flt.status = b.flt.status ||| BitVec.ofNat 64 (2 ^ 17) :=
    (congrArg Still.status (b.raiseDev_still 17 0 n) :)
  have sessions : (b.raiseDev 17 0 n).sessions = b.sessions := (congrArg State.sessions told :)
  have mem'' : (b.raiseDev 17 0 n).mem = b.mem := mem_of_kept (b.raiseDev_kept 17 0 n)
  generalize b.raiseDev 17 0 n = t at *
  have ses := State.ses_of_sessions sessions n
  refine ⟨?_, ?_, mem''.trans (mem'.trans mem), ?_, ?_⟩
  · rw [status, BitVec.getLsbD_or]
    simp
  · rw [ses]
    exact outq.trans (congrArg Session.outq (State.ses_of_sessions same n))
  · rw [NoneWaits, sessions]
    exact waits' waits
  · rw [← held]
    exact State.unitOf_congr (congrArg Session.pics ses) (congrArg Session.kept ses)

/-- A session whose slot `k` the host holds (R182). -/
def Session.holding (x : Session) (k : Nat) : Session := { x with dec := { x.dec with slots := tset 0 k 3 x.dec.slots } }

theorem Session.holding_slot (x : Session) (k : Nat) : tget 0 (x.holding k).dec.slots k = 3 :=
  tget_tset_self x.dec.slots k 3

/-- A decoded picture goes out: its window copy, then its record, and the host holds its slot (R182, R183). -/
theorem State.deliverDec_spec {s : State} {n : Nat} {o : OutItem} {d : DecOut} (quiet : s.hif.flr = []) (dec : o.dec = some d)
    (record : o.record = true) (copy : o.copy = true) (slot : d.slot ≠ 0xFFFF) (rest : List OutItem) :
    let t := s.deliverDec n o d rest false
    (t.ses n).outq = rest ∧ (t.ses n).outTail = ((s.ses n).outTail + 1) % ringSize (s.ses n).cfg 0x2E0 ∧
      tget 0 (t.ses n).dec.slots d.slot = 3 ∧ .windowCopy n d.slot d.stage ∈ t.outbox ∧
      .record n ((s.ses n).outTail % ringSize (s.ses n).cfg 0x2E0) (decRecord (s.ses n).cfg o d) ∈ t.outbox ∧
      OtherSessions s t (· = n) ∧ t.tiles = s.tiles ∧ t.mem = s.mem := by
  let x : Session := { s.ses n with outq := rest }
  let a := (s.setSes n x).emit (.windowCopy n d.slot d.stage)
  have eq : s.deliverDec n o d rest false = (a.writeOut n (decRecord (a.ses n).cfg o d)).modSes n (·.holding d.slot) := by
    simp only [State.deliverDec, State.recordOf, record, dec, copy, slot, Bool.false_and, Bool.false_eq_true, if_false, if_true,
      ne_eq, not_false_eq_true, and_self]
    rfl
  have out : a = { s.setSes n x with outbox := s.outbox ++ [.windowCopy n d.slot d.stage] } :=
    State.emit_quiet (s := s.setSes n x) quiet _
  have own : a.ses n = x := by
    rw [out]
    exact (s.setSes_ses n x n).trans (if_pos rfl)
  have others : OtherSessions s a (· = n) := by
    rw [out]
    exact fun m ne => (s.setSes_ses n x m).trans (if_neg ne)
  have sent : .windowCopy n d.slot d.stage ∈ a.outbox := by simp [out]
  have flr : a.hif.flr = [] := by rw [out]; exact quiet
  have tiles : a.tiles = s.tiles := by rw [out]; rfl
  have mem : a.mem = s.mem := by rw [out]; rfl
  have cfg : x.cfg = (s.ses n).cfg := rfl
  have tail : x.outTail = (s.ses n).outTail := rfl
  obtain ⟨frame, own', others', -⟩ := State.writeOut_spec flr n (decRecord (a.ses n).cfg o d)
  rw [own, tail, cfg] at frame own'
  rw [own, cfg] at eq others'
  rw [eq]
  clear_value a
  generalize a.writeOut n (decRecord (s.ses n).cfg o d) = b at *
  have outbox : b.outbox = a.outbox ++ [.record n ((s.ses n).outTail % ringSize (s.ses n).cfg 0x2E0)
      (decRecord (s.ses n).cfg o d)] := (congrArg State.outbox frame :)
  dsimp only
  have held : (b.modSes n (·.holding d.slot)).ses n = (b.ses n).holding d.slot := (b.modSes_ses n _ n).trans (if_pos rfl)
  have outq : ((b.ses n).holding d.slot).outq = rest := (congrArg Session.outq own' :)
  have outTail : ((b.ses n).holding d.slot).outTail = ((s.ses n).outTail + 1) % ringSize (s.ses n).cfg 0x2E0 :=
    (congrArg Session.outTail own' :)
  rw [held, State.modSes_outbox, outbox, State.modSes_tiles, State.modSes_mem]
  exact ⟨outq, outTail, Session.holding_slot _ _, List.mem_append_left _ sent, List.mem_append_right _ List.mem_cons_self,
    (others.trans others').trans (b.modSes_others n _), (congrArg State.tiles frame :).trans tiles,
    (congrArg State.mem frame :).trans mem⟩

/-- Settles O34, by what the first delivery of the session copies. -/
theorem hostUnitDelivery : Obligations.HostUnitDelivery := by
  intro s n o rest live quiet oldest none
  extract_lets x read size off wrap
  have run (bad : Option Nat) : exec (.hostUnitDelivery n bad) s = .next (s.deliveryOp n bad) := rfl
  have start : (x.placeOf o).1 = off := by
    unfold Session.placeOf place
    by_cases wraps : size - x.bufFill < o.bytes <;> simp [off, wraps, size]
  have flag : 64 * b2n (x.placeOf o).2 = wrap := by
    unfold Session.placeOf place
    by_cases wraps : size - x.bufFill < o.bytes <;> simp [wrap, wraps, size, b2n]
  have room : x.fits o = decide (o.bytes ≤ (x.bufHead + 2 * size - off - 1) % size) := by
    rw [Session.fits, start]
    rfl
  refine ⟨fun record full => ?_, fun free whole enc copy record parts fits bs clean same => ?_,
    fun free whole enc copy parts full => ?_, fun free whole enc copy parts calm fits same byte p w unit first idle => ?_,
    fun free whole copy record d dec slot => ?_⟩
  · rw [run, State.deliveryOp_held oldest record full]
  · have go : Delivering s n o rest := ⟨live, oldest, free, whole⟩
    have fits' : x.fits o = true := by rw [room, decide_eq_true fits]
    have quiet' : read.1.hif.flr = [] := by rw [same]; exact quiet
    have waits : NoneWaits read.1 := by rw [same]; exact none
    have ses : read.1.ses n = x := by rw [same]; rfl
    obtain ⟨outq, fill, tail, sent, recorded, pat, mem, still⟩ := State.deliverUnit_spec quiet' waits enc record rest (x.placeOf o) bs
    have eq : s.deliveryOp n .none = read.1.deliverUnit n o rest (x.placeOf o) bs := by
      rw [go.copies enc copy parts, State.deliverCopy_clean fits' rest clean, still.retestAll]
    rw [ses, start] at recorded sent
    rw [flag] at recorded
    rw [start] at fill
    rw [ses] at tail
    refine ⟨_, run .none, ?_⟩
    rw [eq]
    refine ⟨outq, fill, tail, sent, recorded, pat.trans ?_, mem.trans ?_⟩ <;> rw [same]
  · have go : Delivering s n o rest := ⟨live, oldest, free, whole⟩
    have full' : x.fits o = false := by rw [room, decide_eq_false (by omega)]
    rw [run, go.copies enc copy parts, State.deliverCopy_held full', none.retestAll]
  · have go : Delivering s n o rest := ⟨live, oldest, free, whole⟩
    have fits' : x.fits o = true := by rw [room, decide_eq_true fits]
    obtain ⟨latched, outq, mem, still, held⟩ := State.deliverCopy_recodes fits' none calm same rest unit first idle
    have eq : s.deliveryOp n (some byte) = s.deliverCopy n o rest (some byte) := by rw [go.copies enc copy parts, still.retestAll]
    refine ⟨_, run (some byte), ?_⟩
    rw [eq]
    exact ⟨latched, outq.trans oldest, mem, _, _, held, rfl, rfl⟩
  · have go : Delivering s n o rest := ⟨live, oldest, free, whole⟩
    refine ⟨_, run .none, ?_⟩
    rw [go.decodes dec]
    exact State.deliverDec_spec quiet dec record copy slot rest

end Sys2Proof.Machine
end

section
/-!
SUPPORT. What raising a fault leaves of a tile out of work, of the counts of DEP_TESTFAIL and DEP_RETIRED and of the panels that reset
(R254, R261, R267): the collector tells of the event and SAFE asks for work that runs, and no more.
-/
namespace Sys2Proof.Machine

/-- The counts of failed self-tests and of retirements (R261). -/
def repairCounts : List Nat := [0xF0024, 0xF0028]

/-- No routine runs on the tile: it has no unit and is in no self-test. -/
def Tile.AtRest (x : Tile) : Prop := x.work = none ∧ x.role ≠ .selfTest

/-- `t` leaves the pattern, the repair counts and tile `k`, if it is at rest, as they are in `s`, and begins no panel reset. -/
structure Aside (k : Nat) (s t : State) : Prop where
  pat : t.pat = s.pat
  counts : ∀ o ∈ repairCounts, t.reg o = s.reg o
  tile : (s.tile k).AtRest → t.tile k = s.tile k
  resetting : ∀ p, nbit s.resetting p = false → nbit t.resetting p = false

theorem Aside.rfl {k : Nat} {s : State} : Aside k s s := ⟨Eq.refl _, fun _ _ => Eq.refl _, fun _ => Eq.refl _, fun _ => id⟩

theorem Aside.trans {k : Nat} {s t u : State} (h : Aside k s t) (g : Aside k t u) : Aside k s u :=
  ⟨g.pat.trans h.pat, fun o mem => (g.counts o mem).trans (h.counts o mem),
    fun rest => (g.tile (by rwa [h.tile rest])).trans (h.tile rest), fun p off => g.resetting p (h.resetting p off)⟩

theorem Aside.foldl {α : Type} {k : Nat} (f : State → α → State) {l : List α} (h : ∀ s, ∀ a ∈ l, Aside k s (f s a)) (s : State) :
    Aside k s (l.foldl f s) := by
  induction l generalizing s with
  | nil => exact .rfl
  | cons a t ih => exact (h s a List.mem_cons_self).trans (ih (fun s b mem => h s b (List.mem_cons_of_mem a mem)) _)

/-- A step that writes no tile and neither count. -/
theorem Aside.of_parts {k : Nat} {s t : State} (pat : t.pat = s.pat) (tiles : t.tiles = s.tiles) (resetting : t.resetting = s.resetting)
    (counts : ∀ o ∈ repairCounts, t.reg o = s.reg o) : Aside k s t :=
  ⟨pat, counts, fun _ => by rw [State.tile, tiles, ← State.tile], fun p off => by rwa [resetting]⟩

/-- A step that writes no register either. -/
theorem Aside.of_regs {k : Nat} {s t : State} (pat : t.pat = s.pat) (tiles : t.tiles = s.tiles) (resetting : t.resetting = s.resetting)
    (regs : t.regs = s.regs) : Aside k s t :=
  .of_parts pat tiles resetting fun o _ => by rw [State.reg, regs, ← State.reg]

theorem RecordsOnly.aside {p : Nat → Prop} {s t : State} (h : RecordsOnly p s t) (k : Nat) : Aside k s t := by
  rw [h.frame]
  exact .of_regs (Eq.refl _) (Eq.refl _) (Eq.refl _) (Eq.refl _)

theorem Posted.aside {s t : State} (h : Posted s t) (k : Nat) : Aside k s t := by
  rw [h]
  exact .of_regs (Eq.refl _) (Eq.refl _) (Eq.refl _) (Eq.refl _)

theorem State.setReg_aside (s : State) (k : Nat) {off : Nat} (v : Word) (away : off ∉ repairCounts) : Aside k s (s.setReg off v) :=
  .of_parts rfl rfl rfl fun o mem => by rw [State.setReg_reg, if_neg (ne_of_mem_of_not_mem mem away)]

theorem State.bump_aside (s : State) (k : Nat) {off : Nat} (n : Nat) (away : off ∉ repairCounts) : Aside k s (s.bump off n) :=
  s.setReg_aside k _ away

theorem not_mem_repairCounts_of_lt {o : Nat} (low : o < 0xF0000) : o ∉ repairCounts := by simp [repairCounts]; omega

theorem State.assertSrc_aside (s : State) (k : Nat) {n : Nat} (small : n < 8) (detail : Word) (ses : Nat) :
    Aside k s (s.assertSrc n detail ses) := by
  unfold State.assertSrc
  extract_lets s1 old i hif s2
  have counted : Aside k s s1 := s.bump_aside k 1 (not_mem_repairCounts_of_lt (by omega))
  have held : Aside k s s2 := counted.trans (.of_regs rfl rfl rfl rfl)
  split
  · exact counted
  split
  · exact held.trans ((s2.post_posted _ _ _).aside k)
  · exact held

theorem State.sendFrame_aside (s : State) (k p : Nat) (f : LFrame) : Aside k s (s.sendFrame p f) := by
  have port (x : LinePortSt) : Aside k s (s.setLport p x) := .of_regs rfl rfl rfl rfl
  unfold State.sendFrame
  extract_lets x
  split
  · exact s.bump_aside k 1 (by decide)
  split
  · exact (port _).trans ((State.emit_posted _ _).aside k)
  · exact port _

theorem State.note_aside (s : State) (k a kind fig : Nat) : Aside k s (s.note a kind fig) := by
  unfold State.note
  extract_lets d mgr go
  have told (s : State) (dst : Nat) : Aside k s (go s dst) := by
    dsimp only [go]
    split
    · exact s.assertSrc_aside k (by decide) d 0
    · exact s.sendFrame_aside k _ _
  split
  · exact .rfl
  split
  · exact told s mgr
  · exact (told s mgr).trans (told _ 0)

theorem State.safeNotice_aside (s : State) (k : Nat) : Aside k s s.safeNotice := by
  unfold State.safeNotice
  extract_lets s1
  have moved : Aside k s s1 := s.note_aside k _ _ _
  split
  · exact moved
  · exact moved.trans (s1.note_aside k _ _ _)

theorem State.migrateOut_aside (s : State) (k n : Nat) (auto : Bool) : Aside k s (s.migrateOut n auto) := by
  by_cases member : (s.ses n).member = true
  · rw [s.migrateOut_group n auto member]
    exact ((State.foldl_joinMigrating_spec auto _ s).1).aside k
  · rw [s.migrateOut_alone n auto (Bool.eq_false_of_not_eq_true member)]
    exact ((s.toMigrating_spec n auto).1).aside k

/-- A tile at rest is asked for nothing (R281). -/
theorem State.askAbandon_aside (s : State) (k c t : Nat) : Aside k s (s.askAbandon c t) := by
  unfold State.askAbandon
  split
  next runs =>
    refine ⟨rfl, fun _ _ => rfl, fun ⟨idle, out⟩ => ?_, fun _ => id⟩
    rw [State.modTile_tile, if_neg]
    rintro rfl
    simp [idle, out] at runs
  next => exact .rfl

theorem State.enterSafe_aside (s : State) (k : Nat) : Aside k s s.enterSafe := by
  unfold State.enterSafe
  extract_lets pwr ldr s1 s2 l lin s3 s4
  have ended : Aside k s s1 := ⟨rfl, fun _ _ => rfl, fun _ => rfl, fun p _ => Nat.zero_testBit p⟩
  have asked : Aside k s1 s2 := .foldl _ (fun s t _ => s.askAbandon_aside k 1 t) s1
  have listed : Aside k s2 s3 := .of_regs rfl rfl rfl rfl
  have sent : Aside k s3 s4 := .foldl _ (fun s n _ => s.migrateOut_aside k n true) s3
  have entered := ((ended.trans asked).trans listed).trans sent
  split
  · exact entered.trans (s4.safeNotice_aside k)
  · exact entered

theorem State.reactDev_aside (s : State) (k : Nat) (e : Settled) : Aside k s (s.reactDev e) := by
  unfold State.reactDev
  split
  · split
    · exact .rfl
    · exact s.enterSafe_aside k
  split
  · exact .of_regs rfl rfl rfl rfl
  · exact .rfl

theorem State.signal_aside (s : State) (k : Nat) (e : Settled) : Aside k s (s.signal e) := by
  unfold State.signal
  extract_lets cfg
  split
  · exact s.assertSrc_aside k (by decide) _ _
  · exact .rfl

theorem State.fireSlot_aside (s : State) (k : Nat) {n : Nat} (small : n < 16) : Aside k s (s.fireSlot n) := by
  unfold State.fireSlot
  extract_lets w
  split
  · exact s.setReg_aside k _ (not_mem_repairCounts_of_lt (by unfold trigReg; omega))
  · exact .rfl

theorem State.lintPush_aside (s : State) (k : Nat) (t : LintTrig) : Aside k s (s.lintPush t) := by
  unfold State.lintPush
  split
  · exact s.bump_aside k 1 (by decide)
  · exact .of_regs rfl rfl rfl rfl

theorem State.lintFault_aside (s : State) (k : Nat) (e : Settled) : Aside k s (s.lintFault e) := by
  unfold State.lintFault
  extract_lets slots word mk f s1 lnt s2
  have small : ∀ n ∈ slots, n < 16 := fun n mem => State.faultSlots_small mem
  have fired (l : List Nat) (sub : ∀ n ∈ l, n < 16) (s : State) :
      Aside k s (l.foldl (fun s n => (s.lintPush (mk s n)).fireSlot n) s) :=
    .foldl _ (fun s n mem => (s.lintPush_aside k _).trans (State.fireSlot_aside _ k (sub n mem))) s
  have first : Aside k s s1 := by
    dsimp only [s1]
    split
    next n head => exact s.fireSlot_aside k (small n (List.mem_of_mem_head? head))
    next => exact .rfl
  have queued : Aside k s1 s2 := .of_regs rfl rfl rfl rfl
  split
  · exact (first.trans queued).trans (fired _ (fun n mem => small n (List.mem_of_mem_tail mem)) s2)
  · exact fired slots small s

/-- An event told: settled, recorded, traced and signalled (R263 to R266). -/
def State.told (s : State) (e : FaultEv) : State :=
  let r := s.settle e
  ((r.1.recordFirst r.2).lintFault r.2).signal r.2

theorem State.told_aside (s : State) (k : Nat) (e : FaultEv) : Aside k s (s.told e) := by
  unfold State.told
  extract_lets r
  have settled : Aside k s r.1 := .of_regs rfl rfl rfl rfl
  have recorded : Aside k r.1 (r.1.recordFirst r.2) := by
    unfold State.recordFirst
    split
    · exact .rfl
    · exact .of_regs rfl rfl rfl rfl
  exact ((settled.trans recorded).trans (State.lintFault_aside _ k _)).trans (State.signal_aside _ k _)

theorem State.told_still (s : State) (e : FaultEv) :
    (s.told e).still = { s.still with status := s.flt.status ||| BitVec.ofNat 64 (2 ^ e.cls) } := by
  unfold State.told
  rw [State.signal_still, State.lintFault_still, State.recordFirst_still]
  exact s.settle_still e

theorem State.raiseDev_aside (s : State) (k cls : Nat) (detail : Word) (ses : Nat) : Aside k s (s.raiseDev cls detail ses) :=
  (s.told_aside k { cls := cls, unit := 0, n := 1, detail := detail, ses := ses }).trans (State.reactDev_aside _ k _)

theorem State.refloor_aside (s : State) (k p : Nat) : Aside k s (s.refloor p) := by
  unfold State.refloor
  split
  · exact s.setReg_aside k _ (not_mem_repairCounts_of_lt (by omega))
  · exact .rfl

theorem State.spareCheck_aside (s : State) (k p : Nat) : Aside k s (s.spareCheck p) := by
  unfold State.spareCheck
  extract_lets a
  have floor : Aside k s a := s.refloor_aside k p
  split
  · exact floor.trans (a.raiseDev_aside k 14 0 0)
  · exact floor

end Sys2Proof.Machine
end

section
/-!
SUPPORT. A tile retires (R254), from its service or a self-test, and with the unit that it runs or without one.
-/
namespace Sys2Proof.Machine

/-- Tile `k` leaves the unit that it runs, which moves unless it had committed (R248, R254). -/
def State.leftUnit (s : State) (k : Nat) : State :=
  match (s.tile k).work with
  | some u => if (s.tile k).ndl.committed then s.stopRoutine k 2 else (s.stopRoutine k 2).patchMove u (some k)
  | none => s

theorem State.stopRoutine_counts (s : State) (k c : Nat) : ∀ o ∈ repairCounts, (s.stopRoutine k c).reg o = s.reg o := by
  obtain ⟨-, -, -, regs, -⟩ := s.stopRoutine_spec k c
  intro o mem
  refine regs o ?_
  simp only [repairCounts, stopCounters, List.mem_cons, List.not_mem_nil, or_false] at mem ⊢
  omega

/-- Leaving the unit touches neither the pattern nor the panels that reset, and neither count. -/
theorem State.leftUnit_keeps (s : State) (k : Nat) :
    (s.leftUnit k).pat = s.pat ∧ (s.leftUnit k).resetting = s.resetting ∧ ∀ o ∈ repairCounts, (s.leftUnit k).reg o = s.reg o := by
  obtain ⟨-, -, rest, -, -⟩ := s.stopRoutine_spec k 2
  have counts := s.stopRoutine_counts k 2
  have pat : (s.stopRoutine k 2).pat = s.pat := (congrArg State.pat rest :)
  have resetting : (s.stopRoutine k 2).resetting = s.resetting := (congrArg State.resetting rest :)
  unfold State.leftUnit
  split
  next u _ =>
    split
    · exact ⟨pat, resetting, counts⟩
    · obtain ⟨same, kept⟩ := (s.stopRoutine k 2).patchMove_rest u (some k)
      refine ⟨(congrArg State.pat same :).trans pat, (congrArg State.resetting same :).trans resetting, fun o mem => ?_⟩
      exact (kept o fun e => absurd (List.mem_singleton.1 e ▸ mem) (by decide)).trans (counts o mem)
  next => exact ⟨rfl, rfl, fun _ _ => rfl⟩

/-- A tile that takes work or tests itself retires (R254): a spare is promoted, one that is busy is waited for, or none is left. -/
theorem State.retireTile_outcomes {s : State} {k : Nat} (retired : (s.tile k).role ≠ .retired) (unused : (s.tile k).role ≠ .unused) :
    let a := (s.leftUnit k).takenOut k
    let p := (s.tile k).panel
    s.retireTile k = a.spareCheck p ∨ (∃ j ∈ a.spares p, s.retireTile k = (a.promote j).spareCheck p) ∨
      s.retireTile k = (a.modTile k fun y => { y with back := .active }).refloor p := by
  intro a p
  have inService : ¬ ((s.tile k).role == .retired || (s.tile k).role == .unused) = true := by simp [retired, unused]
  unfold State.retireTile
  extract_lets x stopped b was c d sp free
  have taken : d = a := rfl
  clear_value d
  subst taken
  rw [if_neg inService]
  split
  · split
    next j found =>
      have among : j ∈ (a.spares p).filter fun k => (a.tile k).idle := by
        obtain napping | other := (Option.orElse_eq_some _ _ _).1 found
        · exact List.mem_of_mem_filter (nearest_mem napping)
        · exact nearest_mem other.2
      exact .inr (.inl ⟨j, List.mem_of_mem_filter among, rfl⟩)
    next =>
      split
      · exact .inl rfl
      · exact .inr (.inr rfl)
  · exact .inl rfl

/-- A retired tile is another one than the spare promoted for it. -/
theorem State.promote_aside {s : State} {k j : Nat} (ne : k ≠ j) : Aside k s (s.promote j) := by
  have up : Aside k s (s.modTile j fun x => { x with role := .active, promoted := true }) :=
    ⟨rfl, fun _ _ => rfl, fun _ => by rw [State.modTile_tile, if_neg ne], fun _ => id⟩
  exact up.trans (State.bump_aside _ k 1 (by decide))

/-- What a retirement leaves of tile `k` and of the device around it (R254). -/
structure Retires (k : Nat) (s t : State) : Prop where
  role : (t.tile k).role = .retired
  power : (t.tile k).power = .off
  work : (t.tile k).work = none
  pat : t.pat = s.pat
  fails : t.reg 0xF0024 = s.reg 0xF0024
  count : t.reg 0xF0028 = satIncW (s.reg 0xF0028) 1
  resetting : ∀ p, nbit s.resetting p = false → nbit t.resetting p = false

/-- What follows a retirement leaves the tile alone. -/
theorem Retires.then {k : Nat} {s t u : State} (h : Retires k s t) (g : Aside k t u) : Retires k s u := by
  have same : u.tile k = t.tile k := g.tile ⟨h.work, by rw [h.role]; decide⟩
  exact ⟨same ▸ h.role, same ▸ h.power, same ▸ h.work, g.pat.trans h.pat, (g.counts _ (by decide)).trans h.fails,
    (g.counts _ (by decide)).trans h.count, fun p off => g.resetting p (h.resetting p off)⟩

theorem State.takenOut_retires (s : State) (k : Nat) : Retires k s ((s.leftUnit k).takenOut k) := by
  obtain ⟨pat, resetting, counts⟩ := s.leftUnit_keeps k
  have own := (s.leftUnit k).takenOut_tile k
  have regs (o : Nat) : ((s.leftUnit k).takenOut k).reg o =
      if o = 0xF0028 then satIncW ((s.leftUnit k).reg 0xF0028) 1 else (s.leftUnit k).reg o := State.bump_reg _ _ _ _
  refine ⟨congrArg Tile.role own, congrArg Tile.power own, congrArg Tile.work own, pat, ?_, ?_, fun p off => ?_⟩
  · rw [regs, if_neg (by decide), counts _ (by decide)]
  · rw [regs, if_pos rfl, counts _ (by decide)]
  · exact resetting ▸ off

theorem State.retireTile_retires {s : State} {k : Nat} (retired : (s.tile k).role ≠ .retired) (unused : (s.tile k).role ≠ .unused) :
    Retires k s (s.retireTile k) := by
  have out := s.takenOut_retires k
  obtain none | ⟨j, spare, promoted⟩ | waits := State.retireTile_outcomes retired unused
  · rw [none]
    exact out.then (State.spareCheck_aside _ k _)
  · have role := (List.mem_filter.1 spare).2
    simp only [Bool.and_eq_true, beq_iff_eq] at role
    have ne : k ≠ j := by
      rintro rfl
      exact absurd (out.role.symm.trans role.1) (by decide)
    rw [promoted]
    exact out.then ((State.promote_aside ne).trans (State.spareCheck_aside _ k _))
  · rw [waits]
    have marked : Retires k s (((s.leftUnit k).takenOut k).modTile k fun y => { y with back := .active }) := by
      have own := ((s.leftUnit k).takenOut k).modTile_tile k (fun y => { y with back := .active }) k
      rw [if_pos rfl] at own
      exact ⟨(congrArg Tile.role own).trans out.role, (congrArg Tile.power own).trans out.power,
        (congrArg Tile.work own).trans out.work, out.pat, out.fails, out.count, out.resetting⟩
    exact marked.then (State.refloor_aside _ k _)

/-- A tile out of service stays so. -/
theorem State.retireTile_retired {s : State} {k : Nat} (retired : (s.tile k).role = .retired) : s.retireTile k = s := by
  simp [State.retireTile, retired]

/-- Telling of an event touches no tile (R263 to R266). -/
theorem State.told_tile (s : State) (e : FaultEv) (k : Nat) : (s.told e).tile k = s.tile k := by
  let r := s.settle e
  have told : Signalled s (s.told e) := .trans (Eq.refl _ : Signalled s r.1) (.trans (r.1.recordFirst_signalled r.2)
    (.trans (State.lintFault_signalled _ r.2) (State.signal_signalled _ r.2)))
  exact (congrArg (State.tile · k) told :)

/-- A tile's fault on a tile that is out of service is told alone: there is nothing left to retire (Table 13.2). -/
theorem State.raise_retired {s : State} {cls k : Nat} (scope : scopeOf cls = .tile) (small : k < s.nTiles)
    (retired : (s.tile k).role = .retired) (detail : Word) (ses : Nat) :
    s.raise cls k detail ses = s.told { cls := cls, unit := k, n := 1, detail := detail, ses := ses } := by
  have ok : s.unitOk cls k = true := by simp [State.unitOk, scope, small]
  rw [State.raise_eq ok]
  generalize event : ({ cls := cls, unit := k, n := 1, detail := detail, ses := ses } : FaultEv) = e
  have mine : (s.settle e).2.cls = cls ∧ (s.settle e).2.unit = k := by rw [← event]; exact ⟨rfl, rfl⟩
  have out : ((s.told e).tile k).role = .retired := by rw [State.told_tile, retired]
  show (s.told e).react (s.settle e).2 = s.told e
  rw [State.react, mine.1, scope, mine.2]
  dsimp only
  rw [State.retireTile_retired out, ite_self]

end Sys2Proof.Machine
end

section
/-!
O33: self-test, RETIRE and RETEST, the end of a panel reset, and the decode budget (R185, R252, R254, R255, R267).
-/
namespace Sys2Proof.Machine

theorem State.refloor_tile (s : State) (p k : Nat) : (s.refloor p).tile k = s.tile k := by
  unfold State.refloor
  split <;> rfl

theorem State.refloor_offTiles (s : State) (p : Nat) : (s.refloor p).offTiles = s.offTiles := by
  unfold State.refloor
  split
  · exact s.setReg_offTiles _ _
  · rfl

theorem State.loadTile_offTiles (s : State) (pan : Panel) (k : Nat) : (s.loadTile pan k).offTiles = s.offTiles := s.setTile_offTiles _ _

/-- A device that differs in its tiles and registers alone. -/
theorem eq_of_offTiles {s t : State} (h : t.offTiles = s.offTiles) : t = { s with tiles := t.tiles, regs := t.regs } :=
  congrArg (fun x : State => { x with tiles := t.tiles, regs := t.regs }) h

/-- A load writes the stores of one tile (R284). -/
theorem State.loadTile_spec (s : State) (pan : Panel) (k : Nat) :
    ((s.loadTile pan k).tile k).store = tblOf pan.words ∧ ((s.loadTile pan k).tile k).role = (s.tile k).role ∧
      OtherTiles s (s.loadTile pan k) (· = k) := by
  have own (j : Nat) : (s.loadTile pan k).tile j = if j = k then _ else s.tile j := State.setTile_tile _ _ _ _
  exact ⟨by rw [own, if_pos rfl], by rw [own, if_pos rfl], fun j ne => by rw [own, if_neg ne]⟩

/-- The role to which a self-test returns a tile (R252, R255). -/
def Tile.returnsTo (x : Tile) : Role := if x.retest then .spare else x.back

theorem Tile.returnsTo_used {x : Tile} (h : x.retest = true ∨ x.back = .active ∨ x.back = .spare) : x.returnsTo ≠ .unused := by
  unfold Tile.returnsTo
  split
  · decide
  next new =>
    obtain again | back | back := h
    · exact absurd again new
    · simp [back]
    · simp [back]

/-- The tile `x`, loaded, as a passed self-test leaves it: napping in the role to which `y`, the tile before, returns (R252). -/
def Tile.passed (x y : Tile) (now : Nat) : Tile :=
  { x with
    role := y.returnsTo, back := .unused, retest := false, result := 1, power := .nap
    promoted := if y.retest then false else x.promoted
    since := now, work := none, ndl := { x.ndl with state := 0 } }

/-- A passed self-test loads the program set in force and returns the tile to its role (R252). -/
theorem State.selfTestPass_eq {s : State} {k : Nat} (stays : (s.tile k).retireReq = false) (used : (s.tile k).returnsTo ≠ .unused) :
    s.selfTestPass k =
      ((s.loadTile (s.panel (s.tile k).panel) k).modTile k fun x => x.passed (s.tile k) s.now).refloor (s.tile k).panel := by
  have role : ((s.tile k).returnsTo == .unused) = false := by simp [used]
  unfold State.selfTestPass
  extract_lets y role' a b c t
  have returned : b = a.modTile k fun x => x.passed y s.now := by
    dsimp only [b]
    rw [show role' = y.returnsTo from rfl, role]
    rfl
  have same : c = b := by
    dsimp only [c]
    rw [show role' = y.returnsTo from rfl, role]
    rfl
  have kept : (t.tile k).retireReq = false := by
    rw [State.refloor_tile, same, returned, State.modTile_tile, if_pos rfl]
    exact (congrArg Tile.retireReq ((State.setTile_tile _ _ _ _).trans (if_pos rfl)) :).trans stays
  rw [kept]
  dsimp only [t]
  rw [same, returned]
  rfl

/-- The end of a passed self-test (R252, R255). -/
theorem State.selfTestPass_spec {s : State} {k : Nat} (stays : (s.tile k).retireReq = false) (used : (s.tile k).returnsTo ≠ .unused) :
    let t := s.selfTestPass k
    t = { s with tiles := t.tiles, regs := t.regs } ∧ OtherTiles s t (· = k) ∧ (t.tile k).role = (s.tile k).returnsTo ∧
      (t.tile k).power = .nap ∧ (t.tile k).result = 1 ∧ (t.tile k).work = none ∧
      (t.tile k).store = tblOf (s.panel (s.tile k).panel).words := by
  rw [State.selfTestPass_eq stays used]
  generalize s.panel (s.tile k).panel = pan
  obtain ⟨store, -, others⟩ := s.loadTile_spec pan k
  have load := s.loadTile_offTiles pan k
  generalize s.loadTile pan k = a at *
  intro t
  have tile (j : Nat) : t.tile j = if j = k then (a.tile k).passed (s.tile k) s.now else a.tile j := by
    rw [State.refloor_tile, State.modTile_tile]
  have own := (tile k).trans (if_pos rfl)
  refine ⟨eq_of_offTiles ?_, fun j ne => ?_, congrArg Tile.role own, congrArg Tile.power own, congrArg Tile.result own,
    congrArg Tile.work own, (congrArg Tile.store own).trans store⟩
  · rw [State.refloor_offTiles]
    exact (a.setTile_offTiles _ _).trans load
  · rw [tile, if_neg ne, others j ne]

/-- A tile that fails a RETEST is out of service again. -/
def Tile.outAgain (x : Tile) (now : Nat) : Tile :=
  { x with role := .retired, back := .unused, retest := false, power := .off, since := now, ndl := { x.ndl with state := 5 } }

/-- A tile that fails its self-test leaves service: under RETEST it is counted as retired already (R255). -/
def State.testedOut (s : State) (k : Nat) : State :=
  if (s.tile k).retest then s.modTile k (·.outAgain s.now) else s.retireTile k

/-- The tile records that it failed (R261). -/
def Tile.failed (x : Tile) : Tile := { x with result := 2 }

theorem State.selfTestFail_eq (s : State) (k : Nat) :
    s.selfTestFail k = (((s.bump 0xF0024).testedOut k).modTile k Tile.failed).raise 12 k := rfl

theorem State.testedOut_spec {s : State} {k : Nat} (testing : (s.tile k).role = .selfTest) :
    let t := s.testedOut k
    (t.tile k).role = .retired ∧ (t.tile k).power = .off ∧ t.pat = s.pat ∧ t.reg 0xF0024 = s.reg 0xF0024 ∧ t.nTiles = s.nTiles := by
  unfold State.testedOut
  split
  · have own := (s.modTile_tile k (·.outAgain s.now) k).trans (if_pos rfl)
    exact ⟨congrArg Tile.role own, congrArg Tile.power own, rfl, rfl, rfl⟩
  · obtain ⟨role, power, -, pat, fails, -, -⟩ := State.retireTile_retires (s := s) (k := k) (by simp [testing]) (by simp [testing])
    have part : (s.retireTile k).a144 = s.a144 := congrArg (·.2.1) (s.retireTile_kept k)
    exact ⟨role, power, pat, fails, by rw [State.nTiles, part, ← State.nTiles]⟩

/-- The end of a failed self-test (R252, Table 12.3). -/
theorem State.selfTestFail_spec {s : State} {k : Nat} (small : k < s.nTiles) (testing : (s.tile k).role = .selfTest) :
    let t := s.selfTestFail k
    (t.tile k).role = .retired ∧ (t.tile k).result = 2 ∧ (t.tile k).power = .off ∧ t.flt.status.getLsbD 12 = true ∧
      (t.reg 0xF0024).toNat = min 0xFFFFFFFF ((s.reg 0xF0024).toNat + 1) ∧ t.pat = s.pat := by
  have counted : (s.bump 0xF0024).reg 0xF0024 = satIncW (s.reg 0xF0024) 1 := (s.bump_reg _ _ _).trans (if_pos rfl)
  obtain ⟨role, power, pat, fails, tiles⟩ := State.testedOut_spec ((congrArg Tile.role (s.bump_tile 0xF0024 1 k)).trans testing)
  rw [State.selfTestFail_eq]
  generalize (s.bump 0xF0024).testedOut k = a at *
  have own := (a.modTile_tile k Tile.failed k).trans (if_pos rfl)
  have regs : (a.modTile k Tile.failed).reg 0xF0024 = a.reg 0xF0024 := rfl
  have ok : k < (a.modTile k Tile.failed).nTiles := tiles ▸ small
  have before : (a.modTile k Tile.failed).pat = a.pat := rfl
  generalize a.modTile k Tile.failed = b at *
  rw [State.raise_retired rfl ok ((congrArg Tile.role own).trans role)]
  generalize event : ({ cls := 12, unit := k, n := 1, detail := 0, ses := 0 } : FaultEv) = e
  have aside := b.told_aside k e
  have status : (b.told e).flt.status = b.flt.status ||| BitVec.ofNat 64 (2 ^ 12) := by
    rw [← event]
    exact congrArg Still.status (b.told_still _)
  have same : (b.told e).tile k = (a.tile k).failed := by rw [State.told_tile, own]
  refine ⟨(congrArg Tile.role same).trans role, congrArg Tile.result same, (congrArg Tile.power same).trans power, ?_, ?_,
    aside.pat.trans (before.trans pat)⟩
  · rw [status, BitVec.getLsbD_or]
    simp
  · rw [aside.counts _ (by decide), regs, fails, counted, satIncW_toNat]

/-- The word of a write of DEP_TILE_CMD for tile `k`. -/
theorem mkWord_tileCmd {k : Nat} (small : k < 64) (cmd : Nat) :
    mkWord [(0, k % 64), (8, cmd)] = BitVec.ofNat 32 (k + 256 * cmd) := by
  have apart : k + 256 * cmd = cmd * 2 ^ 8 ||| k := by
    rw [Nat.mul_comm cmd, ← Nat.two_pow_add_eq_or_of_lt (by omega), Nat.add_comm]
  rw [apart, BitVec.ofNat_or, BitVec.or_comm]
  simp [mkWord, Nat.mod_eq_of_lt small]

/-- A panel whose bit is cleared resets no longer. -/
theorem nbit_cleared (m : Nat) {p : Nat} (small : p < 16) : nbit (m &&& (0xFFFF - 2 ^ p)) p = false := by
  have bit : (2 ^ 16 - (2 ^ p + 1)).testBit p = false := by
    rw [Nat.testBit_two_pow_sub_succ (Nat.pow_lt_pow_right (by decide) small)]
    simp
  rw [nbit, Nat.testBit_and, show 0xFFFF - 2 ^ p = 2 ^ 16 - (2 ^ p + 1) by omega, bit, Bool.and_false]

theorem State.retestOp_refused {s : State} {k : Nat} (h : s.nTiles ≤ k ∨ (s.tile k).role ≠ .retired) (v : Word) :
    s.retestOp k v = s.ignored 0xF0008 v := by
  have barred : ¬ (decide (k < s.nTiles) && (s.tile k).role == .retired) = true := by
    simpa only [Bool.and_eq_true, decide_eq_true_eq, beq_iff_eq, not_and_or, Nat.not_lt] using h
  rw [State.retestOp, if_neg barred]

/-- A tile that a RETEST puts into a self-test (R255). Its strikes start again: the model's choice (DEDUCED, log 28). -/
def Tile.retesting (y : Tile) : Tile :=
  { y with
    role := .selfTest, back := .spare, retest := true, strikes := 0, power := .run, retireReq := false
    ndl := { y.ndl with state := 4 } }

/-- A RETEST puts a tile out of service into a self-test, with its quadrant's clock running (R255). -/
theorem State.retestOp_spec {s : State} {k : Nat} (small : k < s.nTiles) (retired : (s.tile k).role = .retired) (v : Word) :
    let t := s.retestOp k v
    t = { s with tiles := t.tiles, pwr := t.pwr } ∧ OtherTiles s t (· = k) ∧ (t.tile k).role = .selfTest ∧
      (t.tile k).strikes = 0 ∧ (t.tile k).power = .run ∧ (t.tile k).retest = true ∧ (t.quad (quadOf k)).pll = true := by
  have run : s.retestOp k v = (s.clocked k).modTile k Tile.retesting := by
    rw [State.retestOp, if_pos (by simp [small, retired])]
    rfl
  have clock : s.clocked k = { s with pwr := (s.clocked k).pwr } := by
    unfold State.clocked
    split <;> rfl
  have tile (j : Nat) : (s.clocked k).tile j = s.tile j := (congrArg (State.tile · j) clock :)
  have pll := s.clocked_pll k
  rw [run]
  generalize s.clocked k = a at *
  have own := (a.modTile_tile k Tile.retesting k).trans (if_pos rfl)
  refine ⟨?_, fun j ne => ?_, congrArg Tile.role own, congrArg Tile.strikes own, congrArg Tile.power own, congrArg Tile.retest own, pll⟩
  · rw [clock]
    rfl
  · rw [State.modTile_tile, if_neg ne, tile]

/-- A tile of the panel reloads at the end of its reset, or retires where its reload failed (R267). -/
def State.reload (fails : List Nat) (p : Nat) (s : State) (t : Nat) : State :=
  if fails.contains t then s.retireTile t else s.loadTile (s.panel p) t

/-- Panel `p` resets no longer. -/
def State.resetEnds (s : State) (p : Nat) : State := { s with resetting := s.resetting &&& (0xFFFF - 2 ^ p) }

/-- The end of a panel reset (R267). -/
theorem State.panelResetDone_eq {s : State} {p : Nat} (live : s.live = true) (resets : nbit s.resetting p = true)
    (drained : s.inFlight p = false) (fails : List Nat) : s.panelResetDone p fails =
      ((s.serving p).foldl (State.reload fails p) (s.resetEnds p)).refloor p := by
  rw [State.panelResetDone, if_pos (by simp [live, resets, drained])]
  rfl

theorem State.panel_of_offTiles {s t : State} (h : t.offTiles = s.offTiles) (p : Nat) : t.panel p = s.panel p :=
  (congrArg (State.panel · p) h :)

/-- A panel whose tiles all reload (R267): each of them holds the panel's program set again. -/
theorem State.panelResetDone_reloads {s : State} {p : Nat} (live : s.live = true) (resets : nbit s.resetting p = true) (small : p < 16)
    (drained : s.inFlight p = false) :
    let t := s.panelResetDone p []
    t = { s with tiles := t.tiles, regs := t.regs, resetting := t.resetting } ∧ nbit t.resetting p = false ∧
      (∀ i ∈ s.serving p, (t.tile i).store = tblOf (s.panel p).words ∧ (t.tile i).role = (s.tile i).role) ∧
      OtherTiles s t (· ∈ s.serving p) := by
  have once : (s.serving p).Nodup := (nodup_upto _).filter _
  have keep (s : State) (t : Nat) : (State.reload [] p s t).offTiles = s.offTiles := s.loadTile_offTiles _ t
  have other (s : State) (t j : Nat) (ne : j ≠ t) : (State.reload [] p s t).tile j = s.tile j := (s.loadTile_spec _ t).2.2 j ne
  rw [State.panelResetDone_eq live resets drained]
  intro t
  have tile (j : Nat) : t.tile j = ((s.serving p).foldl (State.reload [] p) (s.resetEnds p)).tile j := State.refloor_tile _ p j
  have off : t.offTiles = (s.resetEnds p).offTiles := (State.refloor_offTiles _ p).trans (foldl_keeps State.offTiles _ keep _ _)
  have cleared : t.resetting = (s.resetEnds p).resetting := (congrArg State.resetting off :)
  refine ⟨?_, ?_, fun i mem => ?_, fun j away => ?_⟩
  · rw [cleared]
    exact eq_of_offTiles off
  · rw [cleared]
    exact nbit_cleared _ small
  · obtain ⟨b, same, before, after⟩ := foldl_at State.tile State.offTiles _ keep other once mem (s.resetEnds p)
    obtain ⟨store, role, -⟩ := b.loadTile_spec (b.panel p) i
    rw [tile, after]
    refine ⟨store.trans ?_, role.trans (congrArg Tile.role before)⟩
    rw [State.panel_of_offTiles same]
    rfl
  · rw [tile, foldl_other State.tile _ other away]
    rfl

theorem State.retireTile_pat_resetting (s : State) (k : Nat) :
    (s.retireTile k).pat = s.pat ∧ ∀ p, nbit s.resetting p = false → nbit (s.retireTile k).resetting p = false := by
  by_cases out : (s.tile k).role = .retired ∨ (s.tile k).role = .unused
  · rw [State.retireTile, if_pos (by simpa using out)]
    exact ⟨rfl, fun _ => id⟩
  · obtain ⟨retired, unused⟩ := not_or.1 out
    have retires := State.retireTile_retires retired unused
    exact ⟨retires.pat, retires.resetting⟩

theorem State.reload_pat_resetting (fails : List Nat) (p : Nat) (s : State) (t : Nat) :
    (State.reload fails p s t).pat = s.pat ∧
      ∀ q, nbit s.resetting q = false → nbit (State.reload fails p s t).resetting q = false := by
  unfold State.reload
  split
  · exact s.retireTile_pat_resetting t
  · exact ⟨rfl, fun _ => id⟩

/-- The tile whose reload fails retires as its turn comes. -/
theorem State.reload_role (p : Nat) {i : Nat} {s : State} (used : (s.tile i).role ≠ .unused) (t : Nat) :
    ((State.reload [i] p s t).tile i).role = if t = i then .retired else (s.tile i).role := by
  unfold State.reload
  by_cases mine : t = i
  · subst mine
    rw [if_pos (by simp), if_pos rfl]
    by_cases retired : (s.tile t).role = .retired
    · rw [State.retireTile_retired retired, retired]
    · exact (State.retireTile_retires retired used).role
  · rw [if_neg (by simpa using mine), if_neg mine, (s.loadTile_spec _ t).2.2 i (Ne.symm mine)]

theorem State.foldl_reload_role (p : Nat) {i : Nat} (l : List Nat) {s : State} (used : (s.tile i).role ≠ .unused) :
    ((l.foldl (State.reload [i] p) s).tile i).role = if i ∈ l then .retired else (s.tile i).role := by
  induction l generalizing s with
  | nil => rfl
  | cons t rest ih =>
    have step := State.reload_role p used t
    have after : ((State.reload [i] p s t).tile i).role ≠ .unused := by
      rw [step]
      split
      · decide
      · exact used
    rw [List.foldl_cons, ih after, step]
    by_cases mine : t = i
    · simp [mine]
    · simp [mine, Ne.symm mine]

/-- A tile whose reload fails at the end of a panel reset retires (R267). -/
theorem State.panelResetDone_retires {s : State} {p i : Nat} (live : s.live = true) (resets : nbit s.resetting p = true) (small : p < 16)
    (drained : s.inFlight p = false) (mem : i ∈ s.serving p) :
    let t := s.panelResetDone p [i]
    (t.tile i).role = .retired ∧ nbit t.resetting p = false ∧ t.pat = s.pat := by
  have serves := (List.mem_filter.1 mem).2
  have used : ((s.resetEnds p).tile i).role ≠ .unused := by
    show (s.tile i).role ≠ .unused
    intro unused
    simp [unused] at serves
  have role := State.foldl_reload_role p (s.serving p) used
  have pat := foldl_keeps State.pat (State.reload [i] p) (fun s t => (State.reload_pat_resetting [i] p s t).1) (s.serving p)
    (s.resetEnds p)
  have off : nbit ((s.serving p).foldl (State.reload [i] p) (s.resetEnds p)).resetting p = false :=
    List.foldlRecOn (motive := fun s : State => nbit s.resetting p = false) _ _ (nbit_cleared _ small)
      fun s off t _ => (State.reload_pat_resetting [i] p s t).2 p off
  rw [if_pos mem] at role
  rw [State.panelResetDone_eq live resets drained]
  generalize (s.serving p).foldl (State.reload [i] p) (s.resetEnds p) = a at *
  have floor := a.refloor_aside i p
  exact ⟨(congrArg Tile.role (a.refloor_tile p i)).trans role, floor.resetting p off, floor.pat.trans pat⟩

theorem State.used_of_retireOk {s : State} {k : Nat} (ok : s.retireOk k = true) :
    (s.tile k).role ≠ .retired ∧ (s.tile k).role ≠ .unused := by
  simp only [State.retireOk, Tile.inService, Bool.and_eq_true, Bool.or_eq_true, beq_iff_eq] at ok
  obtain ⟨⟨-, active | spare⟩, -⟩ := ok
  · simp [active]
  · simp [spare]

/-- RETIRE of a tile in service without work (R254). -/
theorem State.retireOp_idle {s : State} {k : Nat} (ok : s.retireOk k = true) (idle : (s.tile k).work = none) (v : Word) :
    Retires k s (s.retireOp k v) := by
  obtain ⟨retired, unused⟩ := State.used_of_retireOk ok
  rw [State.retireOp, if_pos ok, if_neg (by simp [idle])]
  exact State.retireTile_retires retired unused

/-- RETIRE of a tile with a unit under way waits for its commit (R254). -/
theorem State.retireOp_busy {s : State} {k : Nat} (ok : s.retireOk k = true) (busy : (s.tile k).work ≠ none) (v : Word) :
    s.retireOp k v = s.setTile k { s.tile k with retireReq := true } := by
  rw [State.retireOp, if_pos ok, if_pos (Option.isSome_iff_ne_none.2 busy)]
  rfl

theorem State.retireOp_refused {s : State} {k : Nat} (refused : s.retireOk k = false) (v : Word) :
    s.retireOp k v = s.ignored 0xF0008 v := by
  rw [State.retireOp, refused, if_neg Bool.false_ne_true]

/-- The tile cycles that a unit of the decode picture `p` may take (R185): of a gang, its part of the coding tree units. -/
def decBudget (p : Pic) (b : BudgetIn) : Nat :=
  let k := cycleBudget (fld (cget p.cfg 0x324) 5 0) b.samples p.auBytes
  if 1 < p.units.length then k * b.part / max 1 b.whole else k

/-- BUDGET_STOP of a decode unit under way (R185). -/
theorem State.budgetOp_eq {s : State} {b : BudgetIn} {u : UnitRef} {p : Pic} {w : WUnit} (live : s.live = true)
    (work : (s.tile b.tile).work = some u) (unit : s.unitOf u = some (p, w)) (dec : (s.ses u.ses).cls = clsDecode)
    (uncommitted : (s.tile b.tile).ndl.committed = false) :
    s.budgetOp b = if decBudget p b ≤ s.cyclesSince b.tile w.woke then s.modUnit u fun w => { w with budget := true } else s := by
  have spent : (s.live && (s.ses u.ses).cls == clsDecode && !(s.tile b.tile).ndl.committed &&
      decide (decBudget p b ≤ s.cyclesSince b.tile w.woke)) = true ↔ decBudget p b ≤ s.cyclesSince b.tile w.woke := by
    simp [live, dec, uncommitted]
  simp only [State.budgetOp, work, unit]
  exact if_congr spent rfl rfl

/-- A unit that is marked changes its session alone. -/
theorem State.modUnit_spec {s : State} {u : UnitRef} {p : Pic} {w : WUnit} (unit : s.unitOf u = some (p, w)) {f : WUnit → WUnit}
    (keeps : ∀ w, (f w).idx = w.idx) :
    let t := s.modUnit u f
    t = { s with sessions := t.sessions } ∧ OtherSessions s t (· = u.ses) ∧ ∃ q, t.unitOf u = some (q, f w) :=
  ⟨rfl, s.modSes_others _ _, _, State.modUnit_unitOf unit keeps⟩

/-- Settles O33, by how a self-test ends, how a tile retires, and what the fold over a panel's tiles does to each. -/
theorem tileRepair : Obligations.TileRepair := by
  refine ⟨fun s k live small testing => ⟨fun stays back => ?_, fun e fails => ?_⟩, fun s k live small => ?_,
    fun s panel k u p w live => ⟨fun resets few drained => ?_, fun resets few drained i mem => ?_, ?_⟩⟩
  · have run : s.selfTestOp k .pass = s.selfTestPass k := if_pos (by simp [live, small, testing])
    refine ⟨_, congrArg Host.Outcome.next run, ?_⟩
    exact State.selfTestPass_spec stays (Tile.returnsTo_used back)
  · have run : s.selfTestOp k e = s.selfTestFail k := by
      unfold State.selfTestOp
      rw [if_pos (by simp [live, small, testing])]
      split
      · exact absurd rfl fails
      · rfl
    exact ⟨_, congrArg Host.Outcome.next run, State.selfTestFail_spec small testing⟩
  · intro ask
    have word (cmd : Nat) : mkWord [(0, k % 64), (8, cmd)] = ask cmd := mkWord_tileCmd small cmd
    have retire : exec (.retire k) s = .next (s.retireOp k (ask 1)) := by
      rw [← word]
      exact congrArg Host.Outcome.next (if_pos live)
    have retest : exec (.retest k) s = .next (s.retestOp k (ask 2)) := by
      rw [← word]
      exact congrArg Host.Outcome.next (if_pos live)
    refine ⟨fun ok idle => ?_, fun ok busy => ?_, fun refused => ?_, fun here retired => ?_, fun barred => ?_⟩
    · have out := State.retireOp_idle ok idle (ask 1)
      exact ⟨_, retire, out.role, out.power, out.work, by rw [out.count, satIncW_toNat], out.pat⟩
    · rw [retire, State.retireOp_busy ok busy]
    · rw [retire, State.retireOp_refused refused]
    · exact ⟨_, retest, State.retestOp_spec here retired _⟩
    · rw [retest, State.retestOp_refused barred]
  · exact ⟨_, rfl, State.panelResetDone_reloads live resets few drained⟩
  · exact ⟨_, rfl, State.panelResetDone_retires live resets few drained mem⟩
  · intro samples part whole work unit dec uncommitted all budget
    have run : exec (.budgetStop ⟨k, samples, part, whole⟩) s =
        .next (if budget ≤ s.cyclesSince k w.woke then s.modUnit u fun w => { w with budget := true } else s) :=
      congrArg Host.Outcome.next (State.budgetOp_eq live work unit dec uncommitted)
    refine ⟨fun spent => ?_, fun left => ?_⟩
    · rw [if_pos spent] at run
      exact ⟨_, run, State.modUnit_spec unit fun _ => rfl⟩
    · rw [run, if_neg (Nat.not_le.2 left)]

end Sys2Proof.Machine
end

section
/-!
SUPPORT. The network side of the device: what a fault that is raised and pages that go back leave of it (R166, R167, R263 to R268).
-/
namespace Sys2Proof.Machine

/-- The pattern, the subscribers, services and buckets of the mangle, the Ethernet ports and ingest flows, the registers of the MGL
block, and how far each function's host packet ring is written. -/
structure Network where
  pat : Pattern
  subs : Tbl Sub
  svcs : Tbl Svc
  portBkt : Tbl Bucket
  eths : Tbl Eth
  ingest : Tbl Ingest
  mgl : Nat → Word
  hprTail : Nat → Nat

def State.network (s : State) : Network where
  pat := s.pat
  subs := s.subs
  svcs := s.svcs
  portBkt := s.portBkt
  eths := s.eths
  ingest := s.ingest
  mgl o := s.reg (0xE0000 + o % 0x10000)
  hprTail n := (s.fn n).hprTail

section
variable {s t : State} (h : t.network = s.network)
include h

theorem pat_of_network : t.pat = s.pat := congrArg Network.pat h
theorem eth_of_network (p : Nat) : t.eth p = s.eth p := congrArg (fun w : Network => tget ({} : Eth) w.eths p) h
theorem sub_of_network (n : Nat) : t.sub n = s.sub n := congrArg (fun w : Network => tget ({} : Sub) w.subs n) h
theorem svc_of_network (k : Nat) : t.svc k = s.svc k := congrArg (fun w : Network => tget ({} : Svc) w.svcs k) h
theorem hprTail_of_network (n : Nat) : (t.fn n).hprTail = (s.fn n).hprTail := congrArg (·.hprTail n) h

theorem reg_of_network {o : Nat} (lo : 0xE0000 ≤ o) (hi : o < 0xF0000) : t.reg o = s.reg o := by
  have same : t.reg (0xE0000 + (o - 0xE0000) % 0x10000) = s.reg (0xE0000 + (o - 0xE0000) % 0x10000) :=
    congrArg (·.mgl (o - 0xE0000)) h
  rwa [show 0xE0000 + (o - 0xE0000) % 0x10000 = o by omega] at same

end

theorem State.setReg_network (s : State) {o : Nat} (v : Word) (away : o < 0xE0000 ∨ 0xF0000 ≤ o) :
    (s.setReg o v).network = s.network := by
  have mgl : (fun k => (s.setReg o v).reg (0xE0000 + k % 0x10000)) = fun k => s.reg (0xE0000 + k % 0x10000) :=
    funext fun k => (s.setReg_reg o v _).trans (if_neg (by omega))
  exact congrArg (fun f => { s.network with mgl := f }) mgl

theorem State.bump_network (s : State) {o : Nat} (k : Nat) (away : o < 0xE0000 ∨ 0xF0000 ≤ o) :
    (s.bump o k).network = s.network := s.setReg_network _ away

theorem State.setFn_network {s : State} {n : Nat} {f : Func} (h : f.hprTail = (s.fn n).hprTail) :
    (s.setFn n f).network = s.network := by
  have tails : (fun j => ((s.setFn n f).fn j).hprTail) = fun j => (s.fn j).hprTail := by
    funext j
    rw [State.setFn_fn]
    split
    next e => rw [h, e]
    next => rfl
  exact congrArg (fun g => { s.network with hprTail := g }) tails

theorem State.emit_network (s : State) (e : Emit) : (s.emit e).network = s.network := by
  unfold State.emit
  split <;> rfl

theorem State.message_network (s : State) (fn : Nat) : (s.message fn).network = s.network := by
  unfold State.message
  extract_lets f wait
  split
  · exact State.setFn_network rfl
  split
  · exact (State.emit_network _ _).trans (State.setFn_network rfl)
  · exact State.setFn_network rfl

theorem State.writeRec_network (s : State) (fn : Nat) (r : BktRec) : (s.writeRec fn r).network = s.network := by
  unfold State.writeRec
  extract_lets f s1 wrap s2
  have sent : s1.network = s.network := s.emit_network _
  have advanced : s2.network = s.network := by
    refine (State.setFn_network ?_).trans sent
    exact (hprTail_of_network sent fn).symm
  split
  · exact (s2.message_network fn).trans advanced
  · exact advanced

theorem State.post_network (s : State) (fn : Nat) (grp : Option Nat) (r : BktRec) : (s.post fn grp r).network = s.network := by
  unfold State.post
  extract_lets f masked
  split
  · exact State.setFn_network rfl
  split
  · exact State.setFn_network rfl
  split
  · exact s.writeRec_network fn r
  split
  · exact State.setFn_network rfl
  split <;> exact State.setFn_network rfl

theorem State.assertSrc_network (s : State) {n : Nat} (small : n < 8) (detail : Word) (ses : Nat) :
    (s.assertSrc n detail ses).network = s.network := by
  unfold State.assertSrc
  extract_lets s1 old i hif s2
  have counted : s2.network = s.network := s.bump_network 1 (by omega)
  split
  · exact counted
  split
  · exact (s2.post_network _ _ _).trans counted
  · exact counted

theorem State.sendFrame_network (s : State) (p : Nat) (f : LFrame) : (s.sendFrame p f).network = s.network := by
  unfold State.sendFrame
  extract_lets x
  split
  · exact s.bump_network 1 (by decide)
  split
  · exact State.emit_network _ _
  · rfl

theorem State.note_network (s : State) (a kind fig : Nat) : (s.note a kind fig).network = s.network := by
  unfold State.note
  extract_lets d mgr go
  have told (s : State) (dst : Nat) : (go s dst).network = s.network := by
    dsimp only [go]
    split
    · exact s.assertSrc_network (by decide) d 0
    · exact s.sendFrame_network _ _
  split
  · rfl
  split
  · exact told s mgr
  · exact (told _ 0).trans (told s mgr)

theorem State.safeNotice_network (s : State) : s.safeNotice.network = s.network := by
  unfold State.safeNotice
  extract_lets s1
  split
  · exact s.note_network _ _ _
  · exact (s1.note_network _ _ _).trans (s.note_network _ _ _)

theorem RecordsOnly.network {p : Nat → Prop} {s t : State} (h : RecordsOnly p s t) : t.network = s.network := by
  rw [h.frame]
  rfl

theorem State.migrateOut_network (s : State) (n : Nat) (auto : Bool) : (s.migrateOut n auto).network = s.network := by
  by_cases member : (s.ses n).member = true
  · rw [s.migrateOut_group n auto member]
    exact (State.foldl_joinMigrating_spec auto _ s).1.network
  · rw [s.migrateOut_alone n auto (Bool.eq_false_of_not_eq_true member)]
    exact (s.toMigrating_spec n auto).1.network

theorem State.askAbandon_network (s : State) (c t : Nat) : (s.askAbandon c t).network = s.network := by
  unfold State.askAbandon
  split <;> rfl

theorem State.enterSafe_network (s : State) : s.enterSafe.network = s.network := by
  unfold State.enterSafe
  extract_lets pwr ldr s1 s2 l lin s3 s4
  have asked : s3.network = s.network := foldl_keeps State.network _ (fun s t => s.askAbandon_network 1 t) _ s1
  have sent : s4.network = s.network := (foldl_keeps State.network _ (fun s n => s.migrateOut_network n true) l s3).trans asked
  split
  · exact s4.safeNotice_network.trans sent
  · exact sent

theorem State.reactDev_network (s : State) (e : Settled) : (s.reactDev e).network = s.network := by
  unfold State.reactDev
  split
  · split
    · rfl
    · exact s.enterSafe_network
  split <;> rfl

theorem State.signal_network (s : State) (e : Settled) : (s.signal e).network = s.network := by
  unfold State.signal
  extract_lets cfg
  split
  · exact s.assertSrc_network (by decide) _ _
  · rfl

theorem State.fireSlot_network (s : State) {n : Nat} (small : n < 16) : (s.fireSlot n).network = s.network := by
  unfold State.fireSlot
  extract_lets w
  split
  · exact s.setReg_network _ (by unfold trigReg; omega)
  · rfl

theorem State.lintPush_network (s : State) (t : LintTrig) : (s.lintPush t).network = s.network := by
  unfold State.lintPush
  split
  · exact s.bump_network 1 (by decide)
  · rfl

/-- A fold whose steps keep the network side for the elements of its list keeps it. -/
theorem foldl_network {α : Type} (f : State → α → State) {l : List α} (h : ∀ s, ∀ a ∈ l, (f s a).network = s.network)
    (s : State) : (l.foldl f s).network = s.network := by
  induction l generalizing s with
  | nil => rfl
  | cons a t ih => exact (ih (fun s b mem => h s b (List.mem_cons_of_mem a mem)) _).trans (h s a List.mem_cons_self)

theorem State.lintFault_network (s : State) (e : Settled) : (s.lintFault e).network = s.network := by
  unfold State.lintFault
  extract_lets slots word mk f s1 lnt s2
  have small : ∀ n ∈ slots, n < 16 := fun n mem => State.faultSlots_small mem
  have fired (l : List Nat) (sub : ∀ n ∈ l, n < 16) (s : State) :
      (l.foldl (fun s n => (s.lintPush (mk s n)).fireSlot n) s).network = s.network :=
    foldl_network _ (fun s n mem => (State.fireSlot_network _ (sub n mem)).trans (s.lintPush_network _)) s
  have first : s2.network = s.network := by
    show s1.network = s.network
    dsimp only [s1]
    split
    next n head => exact s.fireSlot_network (small n (List.mem_of_mem_head? head))
    next => rfl
  split
  · exact (fired _ (fun n mem => small n (List.mem_of_mem_tail mem)) s2).trans first
  · exact fired slots small s

theorem State.recordFirst_network (s : State) (e : Settled) : (s.recordFirst e).network = s.network := by
  unfold State.recordFirst
  split <;> rfl

/-- A device fault, whatever its class becomes. -/
theorem State.raiseDev_network (s : State) (k : Nat) (detail : Word) (ses : Nat) : (s.raiseDev k detail ses).network = s.network := by
  unfold State.raiseDev
  extract_lets r e
  rw [State.reactDev_network, State.signal_network, State.lintFault_network, State.recordFirst_network]
  rfl

theorem State.checkLow_network (s : State) : s.checkLow.network = s.network := by
  unfold State.checkLow
  extract_lets low
  split
  · split
    · exact State.post_network _ _ _ _
    · rfl
  · rfl

theorem State.dropRef_network (s : State) (i : Nat) : (s.dropRef i).network = s.network := by
  unfold State.dropRef
  extract_lets p
  split <;> rfl

theorem State.releasePage_network (s : State) (consumer : Nat) (pg : Nat × Nat) :
    (s.releasePage consumer pg).1.network = s.network := by
  unfold State.releasePage
  extract_lets p
  split
  · exact (State.checkLow_network _).trans (s.dropRef_network _)
  · exact State.bump_network _ 1 (.inl (by decide))

/-- Pages that go back, one twice or not (R166, R167). -/
theorem State.releasePages_network (s : State) (consumer : Nat) (ps : List (Nat × Nat)) :
    (s.releasePages consumer ps).network = s.network := by
  refine foldl_keeps State.network _ (fun s p => ?_) ps s
  extract_lets r
  split
  · exact (State.raiseDev_network _ _ _ _).trans (s.releasePage_network consumer p)
  · exact s.releasePage_network consumer p

theorem State.dropUnit_network (s : State) (q : QUnit) : (s.dropUnit q).network = s.network := s.releasePages_network _ _

end Sys2Proof.Machine
end

section
/-!
SUPPORT. An ingest picture closes (R205, R206): what it changes, and of which sessions.
-/
namespace Sys2Proof.Machine

/-- `t` differs from `s` in the ingest flows, the sessions that they feed, plain registers and what is sent. -/
def IngestOnly (s t : State) : Prop :=
  t = { s with ingest := t.ingest, regs := t.regs, sessions := t.sessions, outbox := t.outbox }

theorem IngestOnly.rfl {s : State} : IngestOnly s s := Eq.refl _

theorem IngestOnly.trans {s t u : State} (h : IngestOnly s t) (k : IngestOnly t u) : IngestOnly s u := by
  unfold IngestOnly at *
  exact Eq.trans k (by rw [h])

theorem IngestOnly.foldl {α : Type} (f : State → α → State) (h : ∀ s a, IngestOnly s (f s a)) (l : List α) (s : State) :
    IngestOnly s (l.foldl f s) := by
  induction l generalizing s with
  | nil => exact .rfl
  | cons a t ih => exact (h s a).trans (ih _)

theorem State.modSes_ingestOnly (s : State) (n : Nat) (f : Session → Session) : IngestOnly s (s.modSes n f) := Eq.refl _

theorem State.emit_ingestOnly (s : State) (e : Emit) : IngestOnly s (s.emit e) := by
  unfold State.emit
  split <;> exact Eq.refl _

theorem State.sourceIn_ingestOnly (s : State) (n : Nat) (p : Pic) : IngestOnly s (s.sourceIn n p) := by
  unfold State.sourceIn
  extract_lets s1 s2
  have freed : IngestOnly s s2 := by
    refine (s.modSes_ingestOnly n _ : IngestOnly s s1).trans ?_
    dsimp only [s2]
    split
    · exact .rfl
    · exact s1.emit_ingestOnly _
  split
  · split
    · exact freed
    · exact freed.trans (s2.emit_ingestOnly _)
  · exact freed

theorem State.ingestSource_ingestOnly (s : State) (k : Nat) (q : IngPic) : IngestOnly s (s.ingestSource k q) := by
  unfold State.ingestSource
  extract_lets e n x
  split
  · exact .rfl
  · extract_lets w h src f coded lower
    exact .trans (s.modSes_ingestOnly n _) (.foldl _ (fun s m => s.modSes_ingestOnly m _) _ _)

theorem State.closeIng_ingestOnly (s : State) (k : Nat) (q : IngPic) : IngestOnly s (s.closeIng k q) := by
  unfold State.closeIng
  extract_lets f n lost s1 s2 x
  have marked : IngestOnly s (if lost = 0 then s1 else s1.bump (ethCnt (inPort f.entry) 9) lost) := by
    split <;> exact Eq.refl _
  have sourced : IngestOnly s s2 := marked.trans (State.ingestSource_ingestOnly _ k q)
  split
  · exact sourced
  · exact (sourced.trans (s2.modSes_ingestOnly n _)).trans (State.sourceIn_ingestOnly _ n _)

theorem State.closeWhere_ingestOnly (s : State) (k : Nat) (due : IngPic → Bool) : IngestOnly s (s.closeWhere k due) :=
  .foldl _ (fun s q => s.closeIng_ingestOnly k q) _ s

end Sys2Proof.Machine
end

section
/-!
O35: Ethernet links (R200, R216 to R219).
-/
namespace Sys2Proof.Machine

/-- A link's change of state is told, and nothing else changes. -/
theorem State.postLink_posted (s : State) (p : Nat) (up : Bool) : Posted s (s.postLink p up) := s.post_posted _ _ _

/-- A queue that loses packets (R239): the subscriber keeps all but its queue, and the ports stay. -/
theorem State.trimQueue_spec (s : State) (n : Nat) : let t := s.trimQueue n
    t.eths = s.eths ∧ t.pat = s.pat ∧ ∃ l, t.subs = (s.setSub n { s.sub n with queue := l }).subs := by
  unfold State.trimQueue
  extract_lets p b x lost q gone s1
  have counted : (if lost = 0 then s1 else s1.bump (ethCnt p 6) lost).eths = s.eths ∧
      (if lost = 0 then s1 else s1.bump (ethCnt p 6) lost).pat = s.pat ∧
      (if lost = 0 then s1 else s1.bump (ethCnt p 6) lost).subs = s1.subs := by
    split <;> exact ⟨rfl, rfl, rfl⟩
  obtain ⟨eths, pat, subs⟩ := counted
  have freed := foldl_keeps State.network State.dropUnit State.dropUnit_network gone
    (if lost = 0 then s1 else s1.bump (ethCnt p 6) lost)
  exact ⟨(congrArg Network.eths freed :).trans eths, (congrArg Network.pat freed :).trans pat, _,
    (congrArg Network.subs freed :).trans subs⟩

/-- A flow with nothing queued loses nothing. -/
theorem State.trimQueue_empty {s : State} {n : Nat} (empty : (s.sub n).queue = []) : s.trimQueue n = s.setSub n (s.sub n) := by
  have same : ({ s.sub n with queue := [] } : Sub) = s.sub n := by rw [← empty]
  simp [State.trimQueue, empty, same]

/-- `t` may have moved flows of `s`: no port changes, no flow moves back, and none has another entry. -/
structure FailingOver (s t : State) : Prop where
  eths : t.eths = s.eths
  pat : t.pat = s.pat
  moved : ∀ m, (s.sub m).moved = true → (t.sub m).moved = true
  entry : ∀ m, (t.sub m).entry = (s.sub m).entry

theorem FailingOver.rfl {s : State} : FailingOver s s := ⟨Eq.refl _, Eq.refl _, fun _ => id, fun _ => Eq.refl _⟩

theorem FailingOver.trans {s t u : State} (h : FailingOver s t) (k : FailingOver t u) : FailingOver s u :=
  ⟨k.eths.trans h.eths, k.pat.trans h.pat, fun m => k.moved m ∘ h.moved m, fun m => (k.entry m).trans (h.entry m)⟩

/-- Failover of one flow (R217). -/
def State.failFlow (s : State) (n : Nat) : State :=
  if (s.sub n).moved ∨ flBackup (s.sub n).entry = 0xFF then s else (s.setSub n { s.sub n with moved := true }).trimQueue n

theorem State.failFlow_spec (s : State) (n : Nat) :
    FailingOver s (s.failFlow n) ∧ (flBackup (s.sub n).entry ≠ 0xFF → ((s.failFlow n).sub n).moved = true) := by
  unfold State.failFlow
  split
  next stays => exact ⟨.rfl, fun backup => stays.resolve_right backup⟩
  next =>
    obtain ⟨eths, pat, l, subs⟩ := (s.setSub n { s.sub n with moved := true }).trimQueue_spec n
    have sub (m : Nat) : (((s.setSub n { s.sub n with moved := true }).trimQueue n).sub m) =
        if m = n then { s.sub n with moved := true, queue := l } else s.sub m := by
      rw [State.sub, subs]
      change ((State.setSub _ n _).sub m) = _
      simp only [State.setSub_sub, if_true]
      split <;> rfl
    refine ⟨⟨eths, pat, fun m was => ?_, fun m => ?_⟩, fun _ => by rw [sub, if_pos rfl]⟩
    · rw [sub]
      split
      · rfl
      · exact was
    · rw [sub]
      split
      next same => subst same; rfl
      next => rfl

theorem State.foldl_failFlow_spec (l : List Nat) (s : State) : FailingOver s (l.foldl State.failFlow s) ∧
    ∀ m ∈ l, flBackup (s.sub m).entry ≠ 0xFF → ((l.foldl State.failFlow s).sub m).moved = true := by
  induction l generalizing s with
  | nil => exact ⟨.rfl, fun m mem => absurd mem List.not_mem_nil⟩
  | cons n l ih =>
    obtain ⟨first, own⟩ := s.failFlow_spec n
    obtain ⟨rest, others⟩ := ih (s.failFlow n)
    refine ⟨first.trans rest, fun m mem backup => ?_⟩
    rcases List.mem_cons.1 mem with rfl | mem
    · exact rest.moved m (own backup)
    · exact others m mem (by rwa [first.entry])

/-- ETH_LINK_UP (R200). -/
theorem State.linkUpOp_spec {s : State} {p : Nat} (live : s.live = true) (small : p < 2) (on : s.laneMode p ≠ 0)
    (down : (s.eth p).link = false) : let t := s.linkUpOp p
    t = { s with eths := t.eths, hif := t.hif, outbox := t.outbox } ∧ t.eth (1 - p) = s.eth (1 - p) ∧
      t.eth p = { s.eth p with link := true, fec := true, anDone := (s.reg (ethBase p)).getLsbD 0, upAt := s.now } := by
  let a := s.setEth p { s.eth p with link := true, fec := true, anDone := (s.reg (ethBase p)).getLsbD 0, upAt := s.now }
  have run : s.linkUpOp p = a.postLink p true := if_pos (by simp [live, small, on, down])
  have posted : Posted a (s.linkUpOp p) := run ▸ a.postLink_posted p true
  have eth (j : Nat) : (s.linkUpOp p).eth j = a.eth j := (congrArg (State.eth · j) posted :)
  have eths : (s.linkUpOp p).eths = a.eths := (congrArg State.eths posted :)
  refine ⟨?_, ?_, ?_⟩
  · rw [eths]
    exact posted
  · rw [eth, State.setEth_eth, if_neg (by omega)]
  · rw [eth, State.setEth_eth, if_pos rfl]

/-- ETH_LINK_DOWN of a port that is up (R200, R217, R218). -/
theorem State.linkDownOp_spec {s : State} {p : Nat} (live : s.live = true) (small : p < 2) (up : (s.eth p).link = true) :
    let t := s.linkDownOp p
    t.eth p = { s.eth p with link := false, fec := false, anDone := false } ∧ t.eth (1 - p) = s.eth (1 - p) ∧
      t.flt.status.getLsbD 26 = true ∧ t.pat = s.pat ∧ t.now = s.now ∧
      ∀ m ∈ s.flowsOf p, flBackup (s.sub m).entry ≠ 0xFF → (t.sub m).moved = true := by
  let a := s.setEth p { s.eth p with link := false, fec := false, anDone := false }
  let b := a.postLink p false
  let c := b.failover p
  let d := (c.ingest.filter fun e => inEnable e.2.entry && inPort e.2.entry == p).foldl (fun s e => s.closeWhere e.1 fun _ => true) c
  have run : s.linkDownOp p = d.raiseDev 26 := if_pos (by simp [live, small, up])
  have told : Posted a b := a.postLink_posted p false
  have subs : b.subs = s.subs := (congrArg State.subs told :)
  have moves : FailingOver b c ∧ ∀ m ∈ b.flowsOf p, flBackup (b.sub m).entry ≠ 0xFF → (c.sub m).moved = true :=
    State.foldl_failFlow_spec (b.flowsOf p) b
  have closes : IngestOnly c d := .foldl _ (fun s (e : Nat × Ingest) => s.closeWhere_ingestOnly e.1 _) _ c
  have raised : (s.linkDownOp p).network = d.network := run ▸ d.raiseDev_network 26 0 0
  have status : (d.raiseDev 26).flt.status = d.flt.status ||| BitVec.ofNat 64 (2 ^ 26) :=
    (congrArg Still.status (d.raiseDev_still 26 0 0) :)
  have now : (s.linkDownOp p).now = s.now := now_of_kept (s.linkDownOp_kept p)
  have eth (j : Nat) : (s.linkDownOp p).eth j = a.eth j := by
    have closed : d.eth j = c.eth j := (congrArg (State.eth · j) closes :)
    have moved : c.eth j = b.eth j := congrArg (tget ({} : Eth) · j) moves.1.eths
    have posted : b.eth j = a.eth j := (congrArg (State.eth · j) told :)
    rw [eth_of_network raised, closed, moved, posted]
  have pat : (s.linkDownOp p).pat = s.pat := by
    have closed : d.pat = c.pat := (congrArg State.pat closes :)
    have posted : b.pat = s.pat := (congrArg State.pat told :)
    rw [pat_of_network raised, closed, moves.1.pat, posted]
  refine ⟨?_, ?_, ?_, pat, now, fun m mem backup => ?_⟩
  · rw [eth, State.setEth_eth, if_pos rfl]
  · rw [eth, State.setEth_eth, if_neg (by omega)]
  · rw [run, status, BitVec.getLsbD_or]
    simp
  · have closed : d.sub m = c.sub m := (congrArg (State.sub · m) closes :)
    rw [sub_of_network raised, closed]
    refine moves.2 m ?_ ?_
    · rwa [State.flowsOf, subs]
    · rwa [State.sub, subs]

/-- FAILBACK of a flow with nothing queued (R217). -/
theorem State.failbackOp_returns {s : State} {n : Nat} (live : s.live = true) (moved : (s.sub n).moved = true)
    (auto : bit (s.reg (ethBase (s.subPort n))) 2 = true) (up : (s.eth (s.subPort n)).link = true)
    (held : (s.eth (s.subPort n)).upAt + (s.reg (ethBase (s.subPort n) + 0x2C)).toNat ≤ s.now) (empty : (s.sub n).queue = []) :
    let t := s.failbackOp n
    t = { s with subs := t.subs } ∧ t.sub n = { s.sub n with moved := false } ∧ ∀ m, m ≠ n → t.sub m = s.sub m := by
  let a := s.setSub n { s.sub n with moved := false }
  have own : a.sub n = { s.sub n with moved := false } := by rw [State.setSub_sub, if_pos rfl]
  have run : s.failbackOp n = a.setSub n (a.sub n) := by
    rw [← State.trimQueue_empty (by rw [own]; exact empty)]
    exact if_pos (by simp [live, moved, auto, up, held, empty])
  rw [run]
  refine ⟨rfl, ?_, fun m ne => ?_⟩
  · rw [State.setSub_sub, if_pos rfl, own]
  · rw [State.setSub_sub, if_neg ne, State.setSub_sub, if_neg ne]

/-- FAILBACK of a flow that has not moved, or may not return (R217). -/
theorem State.failbackOp_stays {s : State} {n : Nat} (stays : (s.sub n).moved = false ∨ (s.eth (s.subPort n)).link = false ∨
    bit (s.reg (ethBase (s.subPort n))) 2 = false) : s.failbackOp n = s := by
  refine if_neg ?_
  rcases stays with h | h | h <;> simp [h]

/-- Settles O35, by what each of the port's commands does. -/
theorem ethernetLinks : Obligations.EthernetLinks := by
  intro s p n v live small
  refine ⟨fun down on => ⟨_, rfl, State.linkUpOp_spec live small on down⟩,
    fun up => ⟨_, rfl, State.linkDownOp_spec live small up⟩, fun down => ?_, ?_, ?_, fun within => ?_, fun beyond => ?_⟩
  · exact congrArg Host.Outcome.next (if_neg (by simp [down]))
  · rintro rfl moved auto up held empty
    exact ⟨_, rfl, State.failbackOp_returns live moved auto up held empty⟩
  · rintro rfl stays
    exact congrArg Host.Outcome.next (State.failbackOp_stays stays)
  · have low : ¬ s.ethRing p 0x48 ≤ fld v 11 0 := by rw [fld_low]; omega
    refine congrArg Host.Outcome.next ((if_pos (by simp [live, small])).trans ?_)
    exact if_neg low
  · have high : s.ethRing p 0x48 ≤ fld v 11 0 := by rw [fld_low]; omega
    refine congrArg Host.Outcome.next ((if_pos (by simp [live, small])).trans ?_)
    exact if_pos high

end Sys2Proof.Machine
end

section
/-!
SUPPORT. The counters of an Ethernet port, and the first packet of an ingest flow (R201, R205, R206).
-/
namespace Sys2Proof.Machine

/-- `t` differs from `s` in plain registers and counters alone. -/
def RegsOnly (s t : State) : Prop := t = { s with regs := t.regs }

theorem RegsOnly.rfl {s : State} : RegsOnly s s := Eq.refl _

theorem RegsOnly.trans {s t u : State} (h : RegsOnly s t) (k : RegsOnly t u) : RegsOnly s u := by
  unfold RegsOnly at *
  exact Eq.trans k (by rw [h])

theorem State.setReg_regsOnly (s : State) (o : Nat) (v : Word) : RegsOnly s (s.setReg o v) := Eq.refl _

theorem State.bump_regsOnly (s : State) (o k : Nat) : RegsOnly s (s.bump o k) := s.setReg_regsOnly o _

/-- From `s` to `t` the counters `l` of port `p` count one more each, and no other register changes. -/
def Tallied (p : Nat) (s t : State) (l : List Nat) : Prop :=
  (∀ i ∈ l, (t.reg (ethCnt p i)).toNat = min 0xFFFFFFFF ((s.reg (ethCnt p i)).toNat + 1)) ∧ RegsKept s t (l.map (ethCnt p))

theorem ethCnt_inj {p i j : Nat} : ethCnt p i = ethCnt p j ↔ i = j := by
  unfold ethCnt
  omega

theorem State.bump_tallied (s : State) (p i : Nat) : Tallied p s (s.bump (ethCnt p i)) [i] := by
  constructor
  · intro j mem
    rw [List.mem_singleton.1 mem, State.bump_reg, if_pos rfl, satIncW_toNat]
  · intro o away
    rw [State.bump_reg, if_neg (by simpa using away)]

theorem Tallied.then {p j : Nat} {s t u : State} {l : List Nat} (h : Tallied p s t l) (k : Tallied p t u [j]) (new : j ∉ l) :
    Tallied p s u (l ++ [j]) := by
  obtain ⟨counts, kept⟩ := h
  obtain ⟨count, kept'⟩ := k
  refine ⟨fun i mem => ?_, fun o away => ?_⟩
  · rcases List.mem_append.1 mem with mem | mem
    · have ne : ethCnt p i ∉ [j].map (ethCnt p) := by
        simp only [List.map_cons, List.map_nil, List.mem_singleton, ethCnt_inj]
        exact ne_of_mem_of_not_mem mem new
      rw [kept' _ ne, counts i mem]
    · have same : t.reg (ethCnt p j) = s.reg (ethCnt p j) := by
        refine kept _ fun mem => ?_
        obtain ⟨i, mem, eq⟩ := List.mem_map.1 mem
        exact new (ethCnt_inj.1 eq ▸ mem)
      rw [List.mem_singleton.1 mem, count j List.mem_cons_self, same]
  · rw [List.map_append, List.mem_append, not_or] at away
    rw [kept' o away.2, kept o away.1]

theorem Tallied.congr {p : Nat} {s t s' t' : State} {l : List Nat} (h : Tallied p s t l) (before : s'.regs = s.regs)
    (after : t'.regs = t.regs) : Tallied p s' t' l := by
  have reg {u u' : State} (same : u'.regs = u.regs) (o : Nat) : u'.reg o = u.reg o := by rw [State.reg, same, ← State.reg]
  obtain ⟨counts, kept⟩ := h
  refine ⟨fun i mem => ?_, fun o away => ?_⟩
  · rw [reg before, reg after, counts i mem]
  · rw [reg before, reg after, kept o away]

/-- A count leaves every register of the port that is no counter. -/
theorem State.bump_portReg (s : State) (p i : Nat) {o : Nat} (low : o < 0x100) :
    (s.bump (ethCnt p i)).reg (ethBase p + o) = s.reg (ethBase p + o) := by
  rw [State.bump_reg, if_neg (by unfold ethCnt; omega)]

theorem State.bump_macOk (s : State) (p i mac : Nat) : (s.bump (ethCnt p i)).macOk p mac = s.macOk p mac := by
  have port : (s.bump (ethCnt p i)).portMac p = s.portMac p := by
    rw [State.portMac, s.bump_portReg p i (by decide), s.bump_portReg p i (by decide), ← State.portMac]
  rw [State.macOk, port, State.bump_ingest, ← State.macOk]

/-- The length of a frame is outside what the port takes (R201). -/
abbrev State.lengthBad (s : State) (p : Nat) (f : EthFrame) : Prop :=
  f.length < 64 ∨ fld (s.reg (ethBase p + 0x24)) 13 0 + 22 < f.length

/-- The tag, IP, UDP or the address filter rejects a frame (R201). -/
def State.headerBad (s : State) (p : Nat) (f : EthFrame) : Prop :=
  f.secondTag = true ∨ f.ipBad = true ∨ f.udpBad = true ∨ s.macOk p f.dstMac.toNat = false

/-- A frame that passes the checks goes to the ingest flow that it belongs to, or to the punt ring (R202, R203). -/
def State.acceptFrame (s : State) (p : Nat) (f : EthFrame) : State :=
  match s.ingest.find? fun e => flowMatch e.2.entry p f with
  | some e => s.ingestPkt e.1 p f
  | none => s.punt p f

theorem State.acceptFrame_flow {s : State} {p : Nat} {f : EthFrame} {e : Nat × Ingest}
    (found : s.ingest.find? (fun e => flowMatch e.2.entry p f) = some e) : s.acceptFrame p f = s.ingestPkt e.1 p f := by
  rw [State.acceptFrame, found]

theorem State.acceptFrame_punt {s : State} {p : Nat} {f : EthFrame} (none : ∀ e ∈ s.ingest, flowMatch e.2.entry p f = false) :
    s.acceptFrame p f = s.punt p f := by
  rw [State.acceptFrame, List.find?_eq_none.2 (by simpa using none)]

section
variable {s : State} {p : Nat} {f : EthFrame} (live : s.live = true) (small : p < 2) (up : (s.eth p).link = true)
include live small up

/-- What a frame meets at a port whose link is up, in order (R201 to R203). -/
theorem State.frameOp_eq : s.frameOp p f =
    let a := s.bump (ethCnt p 0)
    if f.fcsOk = false then a.bump (ethCnt p 1)
    else if s.lengthBad p f then a.bump (ethCnt p 2)
    else if f.isPause = true then a.bump (ethCnt p 3)
    else if (f.secondTag || f.ipBad || f.udpBad || !s.macOk p f.dstMac.toNat) = true then a.bump (ethCnt p 2)
    else a.acceptFrame p f := by
  rw [State.frameOp, if_neg (by simp [live, small, up])]
  simp only [State.bump_macOk, s.bump_portReg p 0 (o := 0x24) (by decide), Bool.not_eq_true']
  rfl

theorem State.frameOp_fcs (bad : f.fcsOk = false) : s.frameOp p f = (s.bump (ethCnt p 0)).bump (ethCnt p 1) := by
  rw [State.frameOp_eq live small up]
  exact if_pos bad

theorem State.frameOp_drop (good : f.fcsOk = true) (bad : s.lengthBad p f ∨ f.isPause = false ∧ s.headerBad p f) :
    s.frameOp p f = (s.bump (ethCnt p 0)).bump (ethCnt p 2) := by
  rw [State.frameOp_eq live small up]
  dsimp only
  rw [if_neg (by simp [good])]
  by_cases long : s.lengthBad p f
  · exact if_pos long
  · obtain ⟨pause, header⟩ := bad.resolve_left long
    rw [if_neg long, if_neg (by simp [pause])]
    exact if_pos (by simpa [State.headerBad, or_assoc] using header)

theorem State.frameOp_pause (good : f.fcsOk = true) (length : ¬ s.lengthBad p f) (pause : f.isPause = true) :
    s.frameOp p f = (s.bump (ethCnt p 0)).bump (ethCnt p 3) := by
  rw [State.frameOp_eq live small up]
  dsimp only
  rw [if_neg (by simp [good]), if_neg length]
  exact if_pos pause

theorem State.frameOp_passes (good : f.fcsOk = true) (length : ¬ s.lengthBad p f) (pause : f.isPause = false)
    (header : ¬ s.headerBad p f) : s.frameOp p f = (s.bump (ethCnt p 0)).acceptFrame p f := by
  rw [State.frameOp_eq live small up]
  dsimp only
  rw [if_neg (by simp [good]), if_neg length, if_neg (by simp [pause])]
  exact if_neg (by simpa [State.headerBad, or_assoc] using header)

end

theorem State.rxStamp_congr {s t : State} (eths : t.eths = s.eths) (pat : t.pat = s.pat) (now : t.now = s.now) (p : Nat) :
    t.rxStamp p = s.rxStamp p := by
  rw [State.rxStamp, State.ethLat, State.eth, State.laneMode, eths, pat, now, ← State.eth, ← State.laneMode, ← State.ethLat,
    ← State.rxStamp]

theorem State.eth_congr {s t : State} (h : t.eths = s.eths) (p : Nat) : t.eth p = s.eth p := by rw [State.eth, h, ← State.eth]

/-- A frame of no flow is punted while the ring has room (R202). -/
theorem State.punt_spec {s : State} {p : Nat} (f : EthFrame) (on : bit (s.reg (ethBase p)) 1 = true) (ring : s.ethRing p 0x30 ≠ 0)
    (room : ((s.eth p).puntTail + 1) % s.ethRing p 0x30 ≠ fld (s.reg (ethBase p + 0x3C)) 11 0 % s.ethRing p 0x30) :
    let t := s.punt p f
    t = { s with regs := t.regs, eths := t.eths, outbox := t.outbox } ∧ Tallied p s t [4] ∧
      t.eth p = { s.eth p with puntTail := ((s.eth p).puntTail + 1) % s.ethRing p 0x30 } ∧ (∀ q, q ≠ p → t.eth q = s.eth q) ∧
      t.outbox = s.outbox ++ [.punt p (s.eth p).puntTail (min (f.length - 4) 2032) (p + 2 * b2n (decide (2032 < f.length - 4)))
        (s.rxStamp p) (f.payload.take (min (f.length - 4) 2032))] := by
  let e : Eth := { s.eth p with puntTail := ((s.eth p).puntTail + 1) % s.ethRing p 0x30 }
  obtain ⟨a, ha⟩ : ∃ a, a = s.setEth p e := ⟨_, rfl⟩
  obtain ⟨b, hb⟩ : ∃ b, b = a.bump (ethCnt p 4) := ⟨_, rfl⟩
  have eth (q : Nat) : a.eth q = if q = p then e else s.eth q := ha ▸ s.setEth_eth p e q
  have only : RegsOnly a b := hb ▸ a.bump_regsOnly _ 1
  have tallied : Tallied p s b [4] := (hb ▸ a.bump_tallied p 4 : Tallied p a b [4]).congr (by rw [ha]; rfl) rfl
  have kept (q : Nat) : b.eth q = a.eth q := State.eth_congr (by rw [only]) q
  have stamp : b.rxStamp p = s.rxStamp p := by
    have lane : b.laneMode p = s.laneMode p := by rw [State.laneMode, only, ha]; rfl
    have now : b.now = s.now := by rw [only, ha]; rfl
    rw [State.rxStamp, State.ethLat, kept, eth, if_pos rfl, lane, now]
    rfl
  let sent : Emit := .punt p (s.eth p).puntTail (min (f.length - 4) 2032) (p + 2 * b2n (decide (2032 < f.length - 4)))
    (s.rxStamp p) (f.payload.take (min (f.length - 4) 2032))
  have run : s.punt p f = { b with outbox := b.outbox ++ [sent] } := by
    rw [State.punt, if_neg (by simp [on, ring, room])]
    dsimp only
    rw [← ha, ← hb, stamp]
    exact if_neg (by simp [State.emitFn])
  have outbox : b.outbox = s.outbox := by rw [only, ha]; rfl
  have frame : b = { s with regs := b.regs, eths := b.eths } := by
    have eths : b.eths = a.eths := by rw [only]
    exact Eq.trans only (by rw [eths, ha]; rfl)
  rw [run]
  refine ⟨?_, tallied.congr rfl rfl, ?_, fun q ne => ?_, by rw [outbox]⟩
  · dsimp only
    rw [frame]
  · exact (State.eth_congr rfl p).trans ((kept p).trans ((eth p).trans (if_pos rfl)))
  · exact (State.eth_congr rfl q).trans ((kept q).trans ((eth q).trans (if_neg ne)))

/-- Flow `k` becomes `y`; the other flows and the rest of the state stay. -/
structure FlowOnly (k : Nat) (y : Ingest) (s t : State) : Prop where
  frame : t = { s with ingest := t.ingest }
  own : t.flow k = y
  others : ∀ j, j ≠ k → t.flow j = s.flow j

theorem State.setFlow_flowOnly (s : State) (k : Nat) (y : Ingest) : FlowOnly k y s (s.setFlow k y) :=
  ⟨rfl, (s.setFlow_flow k y k).trans (if_pos rfl), fun j ne => (s.setFlow_flow k y j).trans (if_neg ne)⟩

theorem FlowOnly.trans {k : Nat} {x y : Ingest} {s t u : State} (h : FlowOnly k x s t) (g : FlowOnly k y t u) : FlowOnly k y s u :=
  ⟨g.frame.trans (by rw [h.frame]), g.own, fun j ne => (g.others j ne).trans (h.others j ne)⟩

theorem State.flow_of_ingest {s t : State} (h : t.ingest = s.ingest) (k : Nat) : t.flow k = s.flow k := by
  rw [State.flow, h, ← State.flow]

theorem FlowOnly.ses {k : Nat} {y : Ingest} {s t : State} (h : FlowOnly k y s t) (n : Nat) : t.ses n = s.ses n := by rw [h.frame]; rfl

/-- A flow whose buffers are free opens a picture with its first packet (R206). -/
theorem State.openIng_first {s : State} {k : Nat} (none : (s.flow k).pics = []) (high : (s.flow k).high = 0)
    (depth : inDepth (s.flow k).entry ≠ 0) (f : EthFrame) (p : Nat) : s.openIng k f p = s.setFlow k
      { s.flow k with pics := [{ rtpTs := f.rtpTs, frame0 := s.rxStamp p, firstSeq := f.seq }], skip := .none } := by
  simp [State.openIng, State.closeWhere, none, high, Nat.pos_of_ne_zero depth]

/-- Picture `q` of flow `k` after packet `f`: its rows, where the packet belongs to it (R205). -/
def State.fedPic (s : State) (k : Nat) (f : EthFrame) (q : IngPic) : IngPic :=
  let e := (s.flow k).entry
  let x := s.ses (inSes e)
  if q.rtpTs = f.rtpTs ∧ ¬ q.closed then q.add (inSampling e) (ingestLine (inSampling e) (cW x.cls x.cfg)) f else q

/-- The rows of a packet where no picture of the session reads the flow yet (R205). -/
theorem State.ingestRows_idle {s : State} {k : Nat} (idle : (s.ses (inSes (s.flow k).entry)).pics = []) (f : EthFrame) :
    s.ingestRows k f = s.setFlow k { s.flow k with pics := (s.flow k).pics.map (s.fedPic k f) } := by
  unfold State.ingestRows
  extract_lets fl n x line t
  split
  next q found =>
    have none : (t.ses n).pics.find? (fun r => r.ing == some (k, q.rtpTs)) = .none := by
      rw [show (t.ses n).pics = [] from idle]
      rfl
    rw [none]
    rfl
  next => rfl

/-- A picture that closes complete, which no picture of the session has taken (R206). -/
theorem State.closeIng_idle {s : State} {k : Nat} {q : IngPic} (idle : (s.ses (inSes (s.flow k).entry)).pics = [])
    (whole : q.lastSeq + 1 - q.firstSeq - q.seqs.length = 0) : s.closeIng k q = s.setFlow k
      { s.flow k with pics := (s.flow k).pics.map fun (r : IngPic) => if r.rtpTs = q.rtpTs then { r with closed := true } else r } := by
  let y : Ingest :=
    { s.flow k with pics := (s.flow k).pics.map fun (r : IngPic) => if r.rtpTs = q.rtpTs then { r with closed := true } else r }
  have own : (s.setFlow k y).flow k = y := (s.setFlow_flowOnly k y).own
  have source : (s.setFlow k y).ingestSource k q = s.setFlow k y := by
    unfold State.ingestSource
    rw [own]
    dsimp only
    rw [show ((s.setFlow k y).ses (inSes y.entry)).pics = [] from idle]
    rfl
  unfold State.closeIng
  dsimp only
  rw [if_pos whole, source, show ((s.setFlow k y).ses (inSes (s.flow k).entry)).pics = [] from idle]
  rfl

/-- The picture that the first packet of a flow opens: its rows, and closed where the packet has the marker. -/
def State.firstPic (s : State) (k p : Nat) (f : EthFrame) : IngPic :=
  let e := (s.flow k).entry
  let x := s.ses (inSes e)
  { ({ rtpTs := f.rtpTs, frame0 := s.rxStamp p, firstSeq := f.seq } : IngPic).add (inSampling e)
      (ingestLine (inSampling e) (cW x.cls x.cfg)) f with closed := f.marker }

/-- A segment of a packet lies within the session's picture and holds whole pixel groups (R205). -/
def Session.holds (x : Session) (g : Nat × Nat) (r : Nat × Nat × List Byte) : Prop :=
  r.2.2 = [] ∨ (r.1 < cH x.cls x.cfg ∧ r.2.1 + r.2.2.length / g.1 * g.2 ≤ cW x.cls x.cfg ∧ r.2.2.length % g.1 = 0)

/-- The first packet of a flow that its session can take (R205, R206). -/
theorem State.ingestPkt_first {s : State} {k : Nat} {f : EthFrame} (none : (s.flow k).pics = []) (high : (s.flow k).high = 0)
    (idle : (s.ses (inSes (s.flow k).entry)).pics = []) (depth : inDepth (s.flow k).entry ≠ 0) (whole : f.srdOverrun = false)
    (source : inCheckSsrc (s.flow k).entry = true → f.ssrc.toNat = inSsrc (s.flow k).entry)
    (inside : ∀ r ∈ f.srd, (s.ses (inSes (s.flow k).entry)).holds (pgroup (inSampling (s.flow k).entry)) r)
    (wanted : (s.flow k).skip ≠ some f.rtpTs) (p : Nat) :
    FlowOnly k { s.flow k with high := f.seq, skip := .none, pics := [s.firstPic k p f] } s (s.ingestPkt k p f) := by
  let fresh : IngPic := { rtpTs := f.rtpTs, frame0 := s.rxStamp p, firstSeq := f.seq }
  obtain ⟨a, ha⟩ : ∃ a, a = s.openIng k f p := ⟨_, rfl⟩
  obtain ⟨b, hb⟩ : ∃ b, b = a.setFlow k { a.flow k with high := max (a.flow k).high f.seq } := ⟨_, rfl⟩
  obtain ⟨c, hc⟩ : ∃ c, c = b.ingestRows k f := ⟨_, rfl⟩
  have opened : FlowOnly k { s.flow k with pics := [fresh], skip := .none } s a := by
    rw [ha, State.openIng_first none high depth]
    exact s.setFlow_flowOnly k _
  have noted : FlowOnly k { s.flow k with pics := [fresh], skip := .none, high := f.seq } s b := by
    rw [opened.own, high, Nat.zero_max] at hb
    exact hb ▸ opened.trans (a.setFlow_flowOnly k _)
  have sampled : b.fedPic k f fresh = { s.firstPic k p f with closed := false } := by
    simp [State.fedPic, State.firstPic, noted.own, noted.ses, fresh, IngPic.add]
  have fed : FlowOnly k { s.flow k with high := f.seq, skip := .none, pics := [{ s.firstPic k p f with closed := false }] } s c := by
    rw [State.ingestRows_idle (by rw [noted.own, noted.ses]; exact idle), noted.own, List.map_singleton, sampled] at hc
    exact hc ▸ noted.trans (b.setFlow_flowOnly k _)
  have run : s.ingestPkt k p f = if f.marker then c.closeWhere k fun q => q.rtpTs == f.rtpTs else c := by
    unfold State.ingestPkt
    extract_lets fl n x w h g outside known older s1 fl1 s2 s3
    have within : outside = false := by
      refine List.any_eq_false.2 fun r mem => ?_
      rcases inside r mem with empty | ⟨row, right, pairs⟩
      · simp [empty]
      · simp [h, w, g, x, n, fl, pairs, Nat.not_le.2 row, Nat.not_lt.2 right]
    have new_ : known = false := by simp [known, fl, none]
    have first : older = false := by simp [older, fl, none]
    have named : (inCheckSsrc fl.entry && f.ssrc.toNat != inSsrc fl.entry) = false := by
      by_cases asked : inCheckSsrc fl.entry = true
      · simp [fl, source asked]
      · simp [asked]
    have h1 : s1 = a := (if_neg (by simp [new_])).trans ha.symm
    have h2 : s2 = b := by rw [hb, ← h1]
    have h3 : s3 = c := by rw [hc, ← h2]
    have taken : fl1.skip = .none := by
      dsimp only [fl1]
      rw [h1, opened.own]
    rw [if_neg (by simp [whole, within, named]), if_neg (by simp [fl, high]), if_neg wanted, if_neg (by simp [first]),
      if_neg (by simp [taken]), h3]
  rw [run]
  split
  next marked =>
    have due : c.closeWhere k (fun q => q.rtpTs == f.rtpTs) = c.closeIng k { s.firstPic k p f with closed := false } := by
      rw [State.closeWhere, fed.own]
      simp [State.firstPic, IngPic.add]
    rw [due, State.closeIng_idle (by rw [fed.own, fed.ses]; exact idle) (by simp [State.firstPic, IngPic.add]), fed.own]
    have closes : s.firstPic k p f = { s.firstPic k p f with closed := true } := by
      simp [State.firstPic, marked]
    rw [closes]
    exact fed.trans (by simpa using c.setFlow_flowOnly k _)
  next more => 
    have stays : s.firstPic k p f = { s.firstPic k p f with closed := false } := by
      simp [State.firstPic, more]
    rw [stays]
    exact fed

end Sys2Proof.Machine
end

section
/-!
O36: received frames (R201 to R206), and the time limit that closes ingest pictures (R206).
-/
namespace Sys2Proof.Machine

/-- From `s` to `t` session `n` stays in its group, the group gains no member, and no session outside it changes. -/
structure FeedsGroup (n : Nat) (s t : State) : Prop where
  group : (t.ses n).groupNo = (s.ses n).groupNo
  members : ∀ m ∈ t.members n, m = n ∨ m ∈ s.members n
  others : OtherSessions s t fun m => m = n ∨ m ∈ s.members n

theorem FeedsGroup.rfl {n : Nat} {s : State} : FeedsGroup n s s := ⟨Eq.refl _, fun _ => .inr, fun _ _ => Eq.refl _⟩

theorem FeedsGroup.trans {n : Nat} {s t u : State} (h : FeedsGroup n s t) (k : FeedsGroup n t u) : FeedsGroup n s u where
  group := k.group.trans h.group
  members m mem := (k.members m mem).elim .inl (h.members m)
  others m away := (k.others m fun mem => away (mem.elim .inl (h.members m))).trans (h.others m away)

theorem FeedsGroup.of_sessions {n : Nat} {s t : State} (h : t.sessions = s.sessions) : FeedsGroup n s t := by
  refine ⟨by rw [State.ses_of_sessions h], fun m mem => .inr ?_, fun m _ => State.ses_of_sessions h m⟩
  rwa [State.members, State.ses_of_sessions h, h, ← State.members] at mem

/-- A change of session `n` or of a member of the group that it had at the start. -/
theorem FeedsGroup.modSes {n m : Nat} {s t : State} (h : FeedsGroup n s t) (mem : m = n ∨ m ∈ s.members n) {f : Session → Session}
    (keeps : m = n → (f (t.ses n)).group = (t.ses n).group) : FeedsGroup n s (t.modSes m f) := by
  have group : ((t.modSes m f).ses n).groupNo = (t.ses n).groupNo := by
    rw [State.modSes_ses]
    split
    next same => subst same; exact congrArg (fld · 8 0) (keeps (Eq.refl _))
    next => exact Eq.refl _
  refine ⟨group.trans h.group, fun j joined => ?_, fun j away => ?_⟩
  · obtain ⟨e, listed, rfl⟩ := List.mem_map.1 joined
    obtain ⟨listed, belongs⟩ := List.mem_filter.1 listed
    rcases mem_tset listed with rfl | old
    · exact mem
    · exact h.members e.1 (List.mem_map.2 ⟨e, List.mem_filter.2 ⟨old, by rwa [group] at belongs⟩, Eq.refl _⟩)
  · rw [State.modSes_ses, if_neg]
    · exact h.others j away
    · rintro rfl
      exact away mem

theorem FeedsGroup.foldl_modSes {n : Nat} {s t : State} (h : FeedsGroup n s t) (f : Nat → Session → Session) {l : List Nat}
    (mem : ∀ m ∈ l, m ≠ n ∧ m ∈ s.members n) : FeedsGroup n s (l.foldl (fun s m => s.modSes m (f m)) t) := by
  induction l generalizing t with
  | nil => exact h
  | cons a l ih =>
    obtain ⟨ne, here⟩ := mem a List.mem_cons_self
    exact ih (h.modSes (.inr here) fun same => absurd same ne) fun m rest => mem m (List.mem_cons_of_mem a rest)

theorem State.emit_sessions (s : State) (e : Emit) : (s.emit e).sessions = s.sessions := (s.emit_posted e).sessions

theorem State.sourceIn_feeds (s : State) (n : Nat) (p : Pic) : FeedsGroup n s (s.sourceIn n p) := by
  unfold State.sourceIn
  extract_lets s1 s2
  have freed : FeedsGroup n s s1 := .modSes .rfl (.inl rfl) fun _ => rfl
  have cleared : FeedsGroup n s s2 := by
    dsimp only [s2]
    split
    · exact freed
    · exact freed.trans (.of_sessions (s1.emit_sessions _))
  split
  · split
    · exact cleared
    · exact cleared.trans (.of_sessions (s2.emit_sessions _))
  · exact cleared

theorem State.ingestSource_feeds (s : State) (k : Nat) (q : IngPic) : FeedsGroup (inSes (s.flow k).entry) s (s.ingestSource k q) := by
  unfold State.ingestSource
  extract_lets e n x
  split
  · exact .rfl
  next p found =>
    extract_lets w h src coded s1 lower
    have entered : FeedsGroup n s s1 := by
      refine .modSes .rfl (.inl rfl) fun _ => ?_
      dsimp only
      split <;> rfl
    refine entered.foldl_modSes _ fun m mem => ?_
    split at mem
    · obtain ⟨mem, ne⟩ := List.mem_filter.1 mem
      have away : m ≠ n := by simpa using ne
      exact ⟨away, (entered.members m mem).resolve_left away⟩
    · exact absurd mem List.not_mem_nil

/-- Picture `r` of a flow after those of the timestamps `l` have closed (R206). -/
def IngPic.closedBy (l : List Word) (r : IngPic) : IngPic := if r.rtpTs ∈ l then { r with closed := true } else r

theorem State.sourceIn_ingest (s : State) (n : Nat) (p : Pic) : (s.sourceIn n p).ingest = s.ingest := by
  have sent (s : State) (e : Emit) : (s.emit e).ingest = s.ingest := (congrArg State.ingest (s.emit_posted e) :)
  unfold State.sourceIn
  extract_lets s1 s2
  have cleared : s2.ingest = s.ingest := by
    dsimp only [s2]
    split
    · rfl
    · exact sent s1 _
  split
  · split
    · exact cleared
    · exact (sent s2 _).trans cleared
  · exact cleared

theorem State.ingestSource_ingest (s : State) (k : Nat) (q : IngPic) : (s.ingestSource k q).ingest = s.ingest := by
  unfold State.ingestSource
  extract_lets e n x
  split
  · rfl
  · exact foldl_keeps State.ingest _ (fun s m => s.modSes_ingest m _) _ _

/-- An ingest picture closes: every picture of its timestamp is closed, and only the sessions that it feeds change. -/
theorem State.closeIng_spec (s : State) (k : Nat) (q : IngPic) : let t := s.closeIng k q
    FeedsGroup (inSes (s.flow k).entry) s t ∧
      t.flow k = { s.flow k with pics := (s.flow k).pics.map (IngPic.closedBy [q.rtpTs]) } ∧ ∀ j, j ≠ k → t.flow j = s.flow j := by
  let y : Ingest := { s.flow k with pics := (s.flow k).pics.map (IngPic.closedBy [q.rtpTs]) }
  have closing : (fun r : IngPic => if r.rtpTs = q.rtpTs then { r with closed := true } else r) = IngPic.closedBy [q.rtpTs] := by
    funext r
    simp [IngPic.closedBy]
  have marked : FlowOnly k y s (s.setFlow k y) := s.setFlow_flowOnly k y
  unfold State.closeIng
  extract_lets f n lost s1 s2 x t
  have h1 : s1 = s.setFlow k y := by dsimp only [s1]; rw [closing]
  obtain ⟨u, hu⟩ : ∃ u, u = if lost = 0 then s1 else s1.bump (ethCnt (inPort f.entry) 9) lost := ⟨_, rfl⟩
  have counted : u.sessions = s.sessions ∧ u.ingest = (s.setFlow k y).ingest := by
    rw [hu, h1]
    split <;> exact ⟨rfl, rfl⟩
  have entry : (u.flow k).entry = f.entry := by rw [State.flow_of_ingest counted.2, marked.own]
  have h2 : s2 = u.ingestSource k q := by rw [hu]
  have source : s2.ingest = (s.setFlow k y).ingest := h2 ▸ (u.ingestSource_ingest k q).trans counted.2
  have fed : FeedsGroup n s s2 := by
    have sourced := u.ingestSource_feeds k q
    rw [entry, ← h2] at sourced
    exact (FeedsGroup.of_sessions counted.1).trans sourced
  have ended : FeedsGroup n s t ∧ t.ingest = (s.setFlow k y).ingest := by
    dsimp only [t]
    split
    · exact ⟨fed, source⟩
    next p _ =>
      exact ⟨fed.trans (.trans (.modSes .rfl (.inl rfl) fun _ => rfl) (State.sourceIn_feeds _ n p)),
        (State.sourceIn_ingest _ n p).trans source⟩
  exact ⟨ended.1, (State.flow_of_ingest ended.2 k).trans marked.own,
    fun j ne => (State.flow_of_ingest ended.2 j).trans (marked.others j ne)⟩

/-- The pictures of a flow that close one after another (R206). -/
theorem State.foldl_closeIng_spec (k : Nat) (l : List IngPic) (s : State) : let t := l.foldl (fun s q => s.closeIng k q) s
    FeedsGroup (inSes (s.flow k).entry) s t ∧
      t.flow k = { s.flow k with pics := (s.flow k).pics.map (IngPic.closedBy (l.map (·.rtpTs))) } ∧
      ∀ j, j ≠ k → t.flow j = s.flow j := by
  induction l generalizing s with
  | nil =>
    have same : (s.flow k).pics.map (IngPic.closedBy []) = (s.flow k).pics :=
      (List.map_congr_left fun r _ => if_neg List.not_mem_nil).trans (List.map_id _)
    refine ⟨.rfl, ?_, fun _ _ => rfl⟩
    rw [List.map_nil, same]
    rfl
  | cons q l ih =>
    obtain ⟨fed, own, others⟩ := s.closeIng_spec k q
    obtain ⟨fed', own', others'⟩ := ih (s.closeIng k q)
    rw [own] at fed' own'
    refine ⟨fed.trans fed', ?_, fun j ne => (others' j ne).trans (others j ne)⟩
    have both : IngPic.closedBy (l.map (·.rtpTs)) ∘ IngPic.closedBy [q.rtpTs] = IngPic.closedBy ((q :: l).map (·.rtpTs)) := by
      funext r
      by_cases first : r.rtpTs = q.rtpTs <;> simp [IngPic.closedBy, first]
    rw [← both, ← List.map_map]
    exact own'

/-- The time limit of flow `k` (R206): the pictures that are due close, and no other does. -/
theorem State.ingTimeoutOp_spec {s : State} (live : s.live = true) (k : Nat) :
    let x := s.ses (inSes (s.flow k).entry)
    let t := s.ingTimeoutOp k
    t = { s with ingest := t.ingest, regs := t.regs, sessions := t.sessions, outbox := t.outbox } ∧
      (∀ j, j ≠ k → t.flow j = s.flow j) ∧
      OtherSessions s t (fun m => m = inSes (s.flow k).entry ∨ m ∈ s.members (inSes (s.flow k).entry)) ∧
      (t.flow k).pics.map (·.rtpTs) = (s.flow k).pics.map (·.rtpTs) ∧ (t.flow k).entry = (s.flow k).entry ∧
      ∀ q ∈ (t.flow k).pics, q.closed = true ∨ s.now < s.ingReady k q + tBand x.cls x.cfg := by
  intro x
  let due (q : IngPic) : Bool := decide (s.ingReady k q + tBand x.cls x.cfg ≤ s.now)
  let l := (s.flow k).pics.filter fun q => !q.closed && due q
  have run : s.ingTimeoutOp k = l.foldl (fun s q => s.closeIng k q) s := if_pos live
  have only : IngestOnly s (s.ingTimeoutOp k) := run ▸ s.closeWhere_ingestOnly k due
  obtain ⟨fed, own, others⟩ := s.foldl_closeIng_spec k l
  rw [← run] at fed own others
  refine ⟨only, others, fed.others, ?_, by rw [own], fun q mem => ?_⟩
  · rw [own, List.map_map]
    refine List.map_congr_left fun r _ => ?_
    dsimp only [Function.comp, IngPic.closedBy]
    split <;> rfl
  · rw [own] at mem
    obtain ⟨r, here, rfl⟩ := List.mem_map.1 mem
    by_cases listed : r.rtpTs ∈ l.map (·.rtpTs)
    · exact .inl (by rw [IngPic.closedBy, if_pos listed])
    · rw [IngPic.closedBy, if_neg listed]
      have kept : ¬ (r ∈ l) := fun due => listed (List.mem_map.2 ⟨r, due, rfl⟩)
      have waits : r.closed = true ∨ due r = false := by
        by_contra none
        rw [not_or, Bool.not_eq_true, Bool.not_eq_false] at none
        exact kept (List.mem_filter.2 ⟨here, by simp [none]⟩)
      exact waits.imp_right fun late => by simpa [due] using late

section
variable {s : State} {p : Nat} {f : EthFrame} (live : s.live = true) (small : p < 2) (up : (s.eth p).link = true)
  (good : f.fcsOk = true) (length : ¬ s.lengthBad p f) (pause : f.isPause = false) (header : ¬ s.headerBad p f)
include live small up good length pause header

/-- A frame that passes and is of no flow is punted with its stamp (R202, R215). -/
theorem State.frameOp_punts (none : ∀ e ∈ s.ingest, flowMatch e.2.entry p f = false) (on : bit (s.reg (ethBase p)) 1 = true)
    (ring : s.ethRing p 0x30 ≠ 0)
    (room : ((s.eth p).puntTail + 1) % s.ethRing p 0x30 ≠ fld (s.reg (ethBase p + 0x3C)) 11 0 % s.ethRing p 0x30) :
    let t := s.frameOp p f
    t = { s with regs := t.regs, eths := t.eths, outbox := t.outbox } ∧ Tallied p s t [0, 4] ∧
      t.eth p = { s.eth p with puntTail := ((s.eth p).puntTail + 1) % s.ethRing p 0x30 } ∧ t.eth (1 - p) = s.eth (1 - p) ∧
      t.outbox = s.outbox ++ [.punt p (s.eth p).puntTail (min (f.length - 4) 2032) (p + 2 * b2n (decide (2032 < f.length - 4)))
        (s.rxStamp p) (f.payload.take (min (f.length - 4) 2032))] := by
  obtain ⟨a, ha⟩ : ∃ a, a = s.bump (ethCnt p 0) := ⟨_, rfl⟩
  have same : RegsOnly s a := ha ▸ s.bump_regsOnly _ 1
  have counted : Tallied p s a [0] := ha ▸ s.bump_tallied p 0
  have port {o : Nat} (low : o < 0x100) : a.reg (ethBase p + o) = s.reg (ethBase p + o) := ha ▸ s.bump_portReg p 0 low
  have eth (q : Nat) : a.eth q = s.eth q := State.eth_congr (by rw [same]) q
  have size : a.ethRing p 0x30 = s.ethRing p 0x30 := by
    simp only [State.ethRing, Nat.add_assoc, port (o := 0x30) (by decide), port (o := 0x30 + 4) (by decide),
      port (o := 0x30 + 8) (by decide)]
  have control : a.reg (ethBase p) = s.reg (ethBase p) := port (o := 0) (by decide)
  have stamp : a.rxStamp p = s.rxStamp p := State.rxStamp_congr (by rw [same]) (by rw [same]) (by rw [same]) p
  have outbox : a.outbox = s.outbox := by rw [same]
  have run : s.frameOp p f = a.punt p f := by
    rw [State.frameOp_passes live small up good length pause header, ← ha]
    exact State.acceptFrame_punt (by rw [same]; exact none)
  obtain ⟨frame, tallied, own, others, sent⟩ := State.punt_spec (s := a) (p := p) f (by rwa [control]) (by rwa [size])
    (by rw [size, eth, port (by decide)]; exact room)
  rw [size, eth] at own
  rw [stamp, eth, outbox] at sent
  rw [run]
  generalize a.punt p f = t at *
  refine ⟨?_, counted.then tallied (by decide), own, (others _ (by omega)).trans (eth _), sent⟩
  exact frame.trans (by rw [same])

/-- The first packet of a flow's picture (R205, R206). -/
theorem State.frameOp_opens {k : Nat} {e : Ingest} (found : s.ingest.find? (fun e => flowMatch e.2.entry p f) = some (k, e))
    (none : (s.flow k).pics = []) (high : (s.flow k).high = 0) (idle : (s.ses (inSes (s.flow k).entry)).pics = [])
    (depth : inDepth (s.flow k).entry ≠ 0) (whole : f.srdOverrun = false)
    (source : inCheckSsrc (s.flow k).entry = true → f.ssrc.toNat = inSsrc (s.flow k).entry)
    (inside : ∀ r ∈ f.srd, (s.ses (inSes (s.flow k).entry)).holds (pgroup (inSampling (s.flow k).entry)) r)
    (wanted : (s.flow k).skip ≠ some f.rtpTs) : let t := s.frameOp p f
    t = { s with regs := t.regs, ingest := t.ingest } ∧ Tallied p s t [0] ∧ (∀ j, j ≠ k → t.flow j = s.flow j) ∧
      t.flow k = { s.flow k with high := f.seq, skip := .none, pics := [s.firstPic k p f] } := by
  obtain ⟨a, ha⟩ : ∃ a, a = s.bump (ethCnt p 0) := ⟨_, rfl⟩
  have same : RegsOnly s a := ha ▸ s.bump_regsOnly _ 1
  have counted : Tallied p s a [0] := ha ▸ s.bump_tallied p 0
  have flow (j : Nat) : a.flow j = s.flow j := State.flow_of_ingest (by rw [same]) j
  have ses (n : Nat) : a.ses n = s.ses n := State.ses_of_sessions (by rw [same]) n
  have stamp : a.rxStamp p = s.rxStamp p := State.rxStamp_congr (by rw [same]) (by rw [same]) (by rw [same]) p
  have pic : a.firstPic k p f = s.firstPic k p f := by simp only [State.firstPic, flow, ses, stamp]
  have run : s.frameOp p f = a.ingestPkt k p f := by
    rw [State.frameOp_passes live small up good length pause header, ← ha]
    exact State.acceptFrame_flow (e := (k, e)) (by rw [same]; exact found)
  have took := State.ingestPkt_first (s := a) (k := k) (f := f) (by rwa [flow]) (by rwa [flow]) (by rwa [flow, ses])
    (by rwa [flow]) whole (by rwa [flow]) (by rwa [flow, ses]) (by rwa [flow]) p
  rw [flow, pic] at took
  rw [run]
  generalize a.ingestPkt k p f = t at *
  refine ⟨?_, counted.congr rfl (by rw [took.frame]), fun j ne => (took.others j ne).trans (flow j), took.own⟩
  have regs : t.regs = a.regs := by rw [took.frame]
  rw [regs]
  exact took.frame.trans (by rw [same])

end

/-- Settles O36, by the checks that a frame meets in their order, and by the pictures that the time limit closes. -/
theorem ethernetReceive : Obligations.EthernetReceive := by
  intro s p k frame live small up f cnt mtu badLength badHeader counted passes
  have length : s.lengthBad p f ↔ badLength := by
    rw [State.lengthBad, fld_low]
    rfl
  have run : exec (.ethFrameReceive p frame) s = .next (s.frameOp p f) := rfl
  clear_value f
  have tally {i : Nat} (new : i ∉ [0]) (t : State) (ht : t = (s.bump (ethCnt p 0)).bump (ethCnt p i)) :
      RegsOnly s t ∧ Tallied p s t [0, i] := by
    rw [ht]
    exact ⟨(s.bump_regsOnly _ 1).trans (State.bump_regsOnly _ _ 1), (s.bump_tallied p 0).then (State.bump_tallied _ p i) new⟩
  refine ⟨fun bad => ⟨_, run, ?_⟩, fun good bad => ⟨_, run, ?_⟩, fun good len pause => ⟨_, run, ?_⟩, ?_, ?_, ?_⟩
  · exact tally (by decide) _ (State.frameOp_fcs live small up bad)
  · exact tally (by decide) _ (State.frameOp_drop live small up good (bad.imp_left length.2))
  · exact tally (by decide) _ (State.frameOp_pause live small up good (mt length.1 len) pause)
  · rintro ⟨good, len, pause, header⟩ none on ring room
    have flags : (if 2032 < f.length - 4 then p + 2 else p) = p + 2 * b2n (decide (2032 < f.length - 4)) := by
      by_cases long : 2032 < f.length - 4 <;> simp [b2n, long]
    rw [flags]
    exact ⟨_, run, State.frameOp_punts live small up good (mt length.1 len) pause header none on ring (by rwa [fld_low])⟩
  · intro fl x g
    rintro ⟨good, len, pause, header⟩ ⟨e, found⟩ none high idle depth whole source inside wanted
    exact ⟨_, run, State.frameOp_opens live small up good (mt length.1 len) pause header found none high idle depth whole source
      inside wanted⟩
  · exact ⟨_, rfl, State.ingTimeoutOp_spec live k⟩

end Sys2Proof.Machine
end

section
/-!
SUPPORT. Words that select an entry of the mangle, register files that are copied, and buckets that restart (R219, R226, R241).
-/
namespace Sys2Proof.Machine

theorem bit_of_clear {v m : Word} {i : Nat} (clear : v &&& m = 0) (inside : bit m i = true) : bit v i = false := by
  have both : bit v i = (v &&& m).getLsbD i := by rw [BitVec.getLsbD_and, show m.getLsbD i = true from inside, Bool.and_true, bit]
  rw [both, clear]
  exact BitVec.getLsbD_zero

theorem bit_or (v m : Word) (i : Nat) : bit (v ||| m) i = (bit v i || bit m i) := BitVec.getLsbD_or

theorem bit_or_on (v : Word) {m : Word} {i : Nat} (on : bit m i = true) : bit (v ||| m) i = true := by rw [bit_or, on, Bool.or_true]

theorem bit_or_off (v : Word) {m : Word} {i : Nat} (off : bit m i = false) : bit (v ||| m) i = bit v i := by
  rw [bit_or, off, Bool.or_false]

theorem bit_or_idle {v m k : Word} {i : Nat} (idle : v &&& k = 0) (inside : bit k i = true) (off : bit m i = false) :
    bit (v ||| m) i = false := (bit_or_off v off).trans (bit_of_clear idle inside)

theorem fld_or_low (v : Word) {m : Word} {hi : Nat} (high : m.toNat % 2 ^ (hi + 1) = 0) :
    fld (v ||| m) hi 0 = v.toNat % 2 ^ (hi + 1) := by
  rw [fld_low, BitVec.toNat_or, Nat.or_mod_two_pow, high, Nat.or_zero]

theorem maskW_or (v : Word) {m : Word} {k : Nat} (outside : maskW k m = 0) : maskW k (v ||| m) = maskW k v := by
  have apart : maskW k (v ||| m) = maskW k v ||| maskW k m := by
    apply BitVec.eq_of_getLsbD_eq
    intro i _
    simp only [maskW, BitVec.getLsbD_and, BitVec.getLsbD_or, Bool.and_or_distrib_right]
  rw [apart, outside]
  exact BitVec.or_zero

theorem fld_maskW (w : Word) {m hi lo : Nat} (inside : m % 2 ^ 32 / 2 ^ lo % 2 ^ (hi + 1 - lo) = 2 ^ (hi + 1 - lo) - 1) :
    fld (maskW m w) hi lo = fld w hi lo := by
  rw [fld, nfld, maskW, BitVec.toNat_and, BitVec.toNat_ofNat, Nat.and_div_two_pow, Nat.and_mod_two_pow, inside,
    Nat.and_two_pow_sub_one_eq_mod, Nat.mod_mod]
  rfl

theorem bit_maskW (w : Word) {m i : Nat} (inside : bit (BitVec.ofNat 32 m) i = true) : bit (maskW m w) i = bit w i := by
  rw [bit, maskW, BitVec.getLsbD_and, show (BitVec.ofNat 32 m).getLsbD i = true from inside, Bool.and_true, bit]

/-- A mask that leaves the rate, the depth and whole_unit leaves the settings of a bucket. -/
theorem shapeOf_maskW (w d : Word) {m : Nat} (rate : m % 2 ^ 32 / 2 ^ 0 % 2 ^ 16 = 2 ^ 16 - 1)
    (depth : m % 2 ^ 32 / 2 ^ 16 % 2 ^ 12 = 2 ^ 12 - 1) (whole : bit (BitVec.ofNat 32 m) 28 = true) :
    shapeOf (maskW m w) d = shapeOf w d := by
  rw [shapeOf, fld_maskW w rate, fld_maskW w depth, bit_maskW w whole, shapeOf]

/-- Registers from `base` on, one after another, take the words `f i`. -/
def State.setFile (s : State) (base n : Nat) (f : Nat → Word) : State := (upto n).foldl (fun t i => t.setReg (base + 4 * i) (f i)) s

theorem State.setFile_spec (s : State) (base n : Nat) (f : Nat → Word) : let t := s.setFile base n f
    RegsOnly s t ∧ (∀ i < n, t.reg (base + 4 * i) = f i) ∧ RegsKept s t ((upto n).map fun i => base + 4 * i) := by
  induction n with
  | zero => exact ⟨.rfl, fun i none => absurd none (Nat.not_lt_zero i), fun _ _ => rfl⟩
  | succ n ih =>
    obtain ⟨only, sets, kept⟩ := ih
    have step : s.setFile base (n + 1) f = (s.setFile base n f).setReg (base + 4 * n) (f n) := by
      rw [State.setFile, upto, List.range_succ, List.foldl_append]
      rfl
    rw [step]
    refine ⟨only.trans (State.setReg_regsOnly _ _ _), fun i small => ?_, fun o away => ?_⟩
    · rw [State.setReg_reg]
      split
      next same => rw [show i = n by omega]
      next other => exact sets i (by omega)
    · simp only [List.mem_map, mem_upto, not_exists, not_and] at away
      rw [State.setReg_reg, if_neg fun same => away n (by omega) same.symm, kept o ?_]
      simp only [List.mem_map, mem_upto, not_exists, not_and]
      exact fun i small => away i (by omega)

/-- What an accepted change of the settings leaves of a bucket (R226). -/
def Bucket.restart (now : Nat) (old new : Shape) (full : Bool) (b : Bucket) : Bucket :=
  if new = old then b else { c := if full then (new.depth : Int) else 0, a := 0, at_ := now }

/-- The bucket `b` restarts unless its settings are still `old` (R226). -/
def State.adopt (s : State) (b : BucketId) (old : Shape) (full : Bool) : State :=
  if s.shape b = old then s else s.resetBucket b full

theorem State.adopt_sub (s : State) (n : Nat) (old : Shape) (full : Bool) : let t := s.adopt (.sub n) old full
    t = { s with subs := t.subs } ∧ ∀ m, t.sub m =
      if m = n then { s.sub n with bucket := (s.sub n).bucket.restart s.now old (s.shape (.sub n)) full } else s.sub m := by
  unfold State.adopt Bucket.restart
  split
  · exact ⟨rfl, fun m => (ite_eq_right_iff.2 fun same => by rw [same]).symm⟩
  · exact ⟨rfl, fun m => State.setSub_sub _ _ _ _⟩

theorem State.adopt_svc (s : State) (k : Nat) (old : Shape) (full : Bool) : let t := s.adopt (.svc k) old full
    t = { s with svcs := t.svcs } ∧ ∀ m, t.svc m =
      if m = k then { s.svc k with bucket := (s.svc k).bucket.restart s.now old (s.shape (.svc k)) full } else s.svc m := by
  unfold State.adopt Bucket.restart
  split
  · exact ⟨rfl, fun m => (ite_eq_right_iff.2 fun same => by rw [same]).symm⟩
  · exact ⟨rfl, fun m => State.setSvc_svc _ _ _ _⟩

theorem State.adopt_port (s : State) (p : Nat) (old : Shape) (full : Bool) : let t := s.adopt (.port p) old full
    t = { s with portBkt := t.portBkt } ∧ ∀ q, t.bucket (.port q) =
      if q = p then (s.bucket (.port p)).restart s.now old (s.shape (.port p)) full else s.bucket (.port q) := by
  unfold State.adopt Bucket.restart
  split
  · exact ⟨rfl, fun m => (ite_eq_right_iff.2 fun same => by rw [same]).symm⟩
  · exact ⟨rfl, fun q => tget_tset _ _ _ _⟩

/-- Units that leave a queue (R233): the queue keeps the others, the pages go back, and each counts. -/
theorem State.flushWhere_spec (s : State) (n : Nat) (p : QUnit → Bool) : let t := s.flushWhere n p
    t.sub n = { s.sub n with queue := (s.sub n).queue.filter fun q => !p q } ∧ (∀ m, m ≠ n → t.sub m = s.sub m) ∧
      t.pat = s.pat ∧ (t.reg 0xE010C).toNat = min 0xFFFFFFFF ((s.reg 0xE010C).toNat + ((s.sub n).queue.filter p).length) := by
  let out := (s.sub n).queue.filter p
  let a := s.setSub n { s.sub n with queue := (s.sub n).queue.filter fun q => !p q }
  obtain ⟨b, hb⟩ : ∃ b, b = out.foldl State.dropUnit a := ⟨_, rfl⟩
  have freed : b.network = a.network := hb ▸ foldl_keeps State.network _ State.dropUnit_network out a
  have sub (m : Nat) : b.sub m = if m = n then { s.sub n with queue := (s.sub n).queue.filter fun q => !p q } else s.sub m :=
    (sub_of_network freed m).trans (s.setSub_sub n _ m)
  have pat : b.pat = a.pat := pat_of_network freed
  have reg : b.reg 0xE010C = s.reg 0xE010C := (reg_of_network freed (by decide) (by decide) : _ = a.reg 0xE010C)
  have run : s.flushWhere n p = if out.isEmpty then b else b.bump 0xE010C out.length := by
    rw [State.flushWhere, hb]
  have count : ((s.flushWhere n p).reg 0xE010C).toNat = min 0xFFFFFFFF ((s.reg 0xE010C).toNat + out.length) := by
    rw [run]
    split
    next none =>
      rw [reg, List.isEmpty_iff.1 none, List.length_nil]
      have := (s.reg 0xE010C).isLt
      omega
    next => rw [State.bump_reg, if_pos rfl, satIncW_toNat, reg]
  have subs (m : Nat) : (s.flushWhere n p).sub m = b.sub m := by
    rw [run]
    split <;> rfl
  have pats : (s.flushWhere n p).pat = b.pat := by
    rw [run]
    split <;> rfl
  exact ⟨by rw [subs, sub, if_pos rfl], fun m ne => by rw [subs, sub, if_neg ne], pats.trans pat, count⟩

end Sys2Proof.Machine
end

section
/-!
O37: the tables of the mangle (R219, R226, R233, R241).
-/
namespace Sys2Proof.Machine

section
variable {s t : State} (h : RegsOnly s t)
include h

theorem RegsOnly.sub (n : Nat) : t.sub n = s.sub n := by rw [h]; rfl
theorem RegsOnly.svc (k : Nat) : t.svc k = s.svc k := by rw [h]; rfl
theorem RegsOnly.flow (k : Nat) : t.flow k = s.flow k := by rw [h]; rfl

theorem RegsOnly.ingestBusy (k : Nat) (e : List Byte) : t.ingestBusy k e = s.ingestBusy k e := by
  rw [h]
  rfl

theorem RegsOnly.autoPaced (n : Nat) : t.autoPaced n = s.autoPaced n := by
  rw [h]
  rfl

theorem RegsOnly.shape_sub (n : Nat) : t.shape (.sub n) = s.shape (.sub n) := by rw [State.shape, h.sub, ← State.shape]

end

/-- DATA0 to DATA3 are judged alike whatever MGL_SUB_SEL reads (R241). -/
theorem State.setReg_subBars (s : State) (w : Word) (n : Nat) : (s.setReg 0xE1000 w).subBars n = s.subBars n := by
  have same : RegsOnly s (s.setReg 0xE1000 w) := s.setReg_regsOnly _ _
  unfold State.subBars State.subPort
  simp only [same.shape_sub, same.sub, same.autoPaced, State.setReg_reg]
  rfl

/-- DATA0 to DATA2 are judged alike whatever MGL_SVC_SEL reads (R241). -/
theorem State.setReg_svcBars (s : State) (w : Word) : (s.setReg 0xE2000 w).svcBars = s.svcBars := by
  unfold State.svcBars
  simp only [State.setReg_reg]
  rfl

/-- MGL_FLOW_DATA reads alike whatever MGL_FLOW_SEL does. -/
theorem State.setReg_flowData (s : State) (w : Word) : (s.setReg 0xEA000 w).flowData = s.flowData := by
  unfold State.flowData
  refine List.flatMap_congr fun i _ => ?_
  rw [State.setReg_reg, if_neg (by omega)]

section
variable {s : State} {v : Word} (idle : v &&& 0xE000 = 0)
include idle

/-- FLOW_LOAD of an entry that is there (R219). -/
theorem State.flowSel_load (inside : bit v 12 = false ∨ v.toNat % 4096 < 32) : s.flowSel (v ||| 0x2000) =
    (s.setReg 0xEA000 (v &&& 0x1FFF)).setFile 0xEA040 16 fun i =>
      w32 (leAt (if bit v 12 then (s.flow (v.toNat % 4096)).entry else (s.sub (v.toNat % 4096)).flowNext) (4 * i) 4) := by
  have index : fld (v ||| 0x2000) 11 0 = v.toNat % 4096 := fld_or_low v (by decide)
  have commit : bit (v ||| 0x2000) 14 = false := bit_or_idle idle (by decide) (by decide)
  have ingest : bit (v ||| 0x2000) 12 = bit v 12 := bit_or_off v (by decide)
  have load : bit (v ||| 0x2000) 13 = true := bit_or_on v (by decide)
  have word : maskW 0x1FFF (v ||| 0x2000) = v &&& 0x1FFF := maskW_or v (by decide)
  have there : ¬ (bit v 12 && decide (32 ≤ v.toNat % 4096)) = true := by
    rcases inside with off | small
    · simp [off]
    · simp [small]
  rw [State.flowSel]
  simp only [index, commit, ingest, load, word, if_true, Bool.false_and, Bool.or_false, Bool.not_false]
  rw [if_neg there]
  rfl

/-- FLOW_COMMIT by the kind of its entry (R219). -/
theorem State.flowSel_commit : s.flowSel (v ||| 0x4000) =
    let n := v.toNat % 4096
    if bit v 12 && (decide (32 ≤ n) || s.ingestBusy n s.flowData) then s.ignored 0xEA000 (v ||| 0x4000)
    else if bit v 12 then (s.setReg 0xEA000 (v &&& 0x1FFF)).setFlow n { entry := s.flowData }
    else (s.setReg 0xEA000 (v &&& 0x1FFF)).setSub n { s.sub n with flowNext := s.flowData, hasFlow := true } := by
  have index : fld (v ||| 0x4000) 11 0 = v.toNat % 4096 := fld_or_low v (by decide)
  have commit : bit (v ||| 0x4000) 14 = true := bit_or_on v (by decide)
  have ingest : bit (v ||| 0x4000) 12 = bit v 12 := bit_or_off v (by decide)
  have load : bit (v ||| 0x4000) 13 = false := bit_or_idle idle (by decide) (by decide)
  have word : maskW 0x1FFF (v ||| 0x4000) = v &&& 0x1FFF := maskW_or v (by decide)
  have same : RegsOnly s (s.setReg 0xEA000 (v &&& 0x1FFF)) := s.setReg_regsOnly _ _
  rw [State.flowSel]
  simp only [index, commit, ingest, load, word, Bool.true_and, Bool.not_true, Bool.false_eq_true, if_false, same.ingestBusy,
    State.setReg_flowData, same.sub]

/-- An ingest entry that is not there is neither loaded nor committed (R9, R219). -/
theorem State.flowSel_absent (ingest : bit v 12 = true) (high : 32 ≤ v.toNat % 4096) :
    s.flowSel (v ||| 0x4000) = s.ignored 0xEA000 (v ||| 0x4000) ∧ s.flowSel (v ||| 0x2000) = s.ignored 0xEA000 (v ||| 0x2000) := by
  constructor
  · rw [State.flowSel_commit idle]
    exact if_pos (by simp [ingest, high])
  · have index : fld (v ||| 0x2000) 11 0 = v.toNat % 4096 := fld_or_low v (by decide)
    have on : bit (v ||| 0x2000) 12 = true := (bit_or_off v (by decide)).trans ingest
    rw [State.flowSel]
    exact if_pos (by rw [on, index, decide_eq_true high, Bool.true_or, Bool.true_and])

/-- SUB_LOAD (R241). -/
theorem State.subSel_load : s.subSel (v ||| 0x2000) =
    (s.setReg 0xE1000 (v &&& 0xFFF)).setFile 0xE1010 4 fun i => tget 0 (s.sub (v.toNat % 4096)).d i := by
  have index : fld (v ||| 0x2000) 11 0 = v.toNat % 4096 := fld_or_low v (by decide)
  have load : bit (v ||| 0x2000) 13 = true := bit_or_on v (by decide)
  have commit : bit (v ||| 0x2000) 14 = false := bit_or_idle idle (by decide) (by decide)
  have flush : bit (v ||| 0x2000) 15 = false := bit_or_idle idle (by decide) (by decide)
  have word : maskW 0xFFF (v ||| 0x2000) = v &&& 0xFFF := maskW_or v (by decide)
  rw [State.subSel]
  simp only [index, load, commit, flush, word, if_true, Bool.false_and, Bool.false_eq_true, if_false]
  rfl

/-- SUB_COMMIT (R226, R241). -/
theorem State.subSel_commit : s.subSel (v ||| 0x4000) =
    if s.subBars (v.toNat % 4096) then s.ignored 0xE1000 (v ||| 0x4000)
    else (s.setReg 0xE1000 (v &&& 0xFFF)).subCommitTo (v.toNat % 4096) := by
  have index : fld (v ||| 0x4000) 11 0 = v.toNat % 4096 := fld_or_low v (by decide)
  have load : bit (v ||| 0x4000) 13 = false := bit_or_idle idle (by decide) (by decide)
  have commit : bit (v ||| 0x4000) 14 = true := bit_or_on v (by decide)
  have flush : bit (v ||| 0x4000) 15 = false := bit_or_idle idle (by decide) (by decide)
  have word : maskW 0xFFF (v ||| 0x4000) = v &&& 0xFFF := maskW_or v (by decide)
  rw [State.subSel]
  simp only [index, load, commit, flush, word, if_true, Bool.true_and, Bool.false_eq_true, if_false, State.setReg_subBars]

/-- SUB_FLUSH (R233). -/
theorem State.subSel_flush : s.subSel (v ||| 0x8000) = (s.setReg 0xE1000 (v &&& 0xFFF)).flushSub (v.toNat % 4096) := by
  have index : fld (v ||| 0x8000) 11 0 = v.toNat % 4096 := fld_or_low v (by decide)
  have load : bit (v ||| 0x8000) 13 = false := bit_or_idle idle (by decide) (by decide)
  have commit : bit (v ||| 0x8000) 14 = false := bit_or_idle idle (by decide) (by decide)
  have flush : bit (v ||| 0x8000) 15 = true := bit_or_on v (by decide)
  have word : maskW 0xFFF (v ||| 0x8000) = v &&& 0xFFF := maskW_or v (by decide)
  rw [State.subSel]
  simp only [index, load, commit, flush, word, if_true, Bool.false_and, Bool.false_eq_true, if_false]

end

section
variable {s : State} {v : Word} (idle : v &&& 0x6000 = 0)
include idle

/-- SVC_LOAD (R241). -/
theorem State.svcSel_load : s.svcSel (v ||| 0x2000) =
    let x := s.svc (v.toNat % 256)
    (((s.setReg 0xE2000 (v &&& 0xFF)).setReg 0xE2010 x.d0).setReg 0xE2014 x.d1).setReg 0xE2018 x.d2 := by
  have index : fld (v ||| 0x2000) 7 0 = v.toNat % 256 := fld_or_low v (by decide)
  have load : bit (v ||| 0x2000) 13 = true := bit_or_on v (by decide)
  have commit : bit (v ||| 0x2000) 14 = false := bit_or_idle idle (by decide) (by decide)
  have word : maskW 0xFF (v ||| 0x2000) = v &&& 0xFF := maskW_or v (by decide)
  rw [State.svcSel]
  simp only [index, load, commit, word, if_true, Bool.false_and, Bool.false_eq_true, if_false]

/-- SVC_COMMIT (R226, R241). -/
theorem State.svcSel_commit : s.svcSel (v ||| 0x4000) =
    if s.svcBars then s.ignored 0xE2000 (v ||| 0x4000)
    else (s.setReg 0xE2000 (v &&& 0xFF)).svcCommitTo (v.toNat % 256) := by
  have index : fld (v ||| 0x4000) 7 0 = v.toNat % 256 := fld_or_low v (by decide)
  have load : bit (v ||| 0x4000) 13 = false := bit_or_idle idle (by decide) (by decide)
  have commit : bit (v ||| 0x4000) 14 = true := bit_or_on v (by decide)
  have word : maskW 0xFF (v ||| 0x4000) = v &&& 0xFF := maskW_or v (by decide)
  rw [State.svcSel]
  simp only [index, load, commit, word, if_true, Bool.true_and, Bool.false_eq_true, if_false, State.setReg_svcBars]

end

/-- The words that a subscriber's commit applies (R241). -/
theorem State.subCommitTo_spec {s : State} {n : Nat} (on : bit (s.reg 0xE1010) 31 = true) : let t := s.subCommitTo n
    t = { s with subs := t.subs } ∧ (∀ m, m ≠ n → t.sub m = s.sub m) ∧ (t.sub n).queue = (s.sub n).queue ∧
      tget 0 (t.sub n).d 0 = s.reg 0xE1010 &&& 0x9FFFFFFF ∧ tget 0 (t.sub n).d 1 = s.reg 0xE1014 ∧
      tget 0 (t.sub n).d 2 = s.reg 0xE1018 &&& 0xFFFF ∧ tget 0 (t.sub n).d 3 = s.reg 0xE101C ∧
      (t.sub n).bucket = (s.sub n).bucket.restart s.now (s.shape (.sub n)) (shapeOf (s.reg 0xE1010) (s.reg 0xE1014))
        (bit (s.reg 0xE1010) 29) := by
  let words : Tbl Word := tset 0 0 (maskW 0x9FFFFFFF (s.reg 0xE1010)) (tset 0 1 (s.reg 0xE1014)
    (tset 0 2 (maskW 0xFFFF (s.reg 0xE1018)) (tset 0 3 (s.reg 0xE101C) [])))
  let x : Sub := { s.sub n with d := words, moved := (s.sub n).moved && fld (s.reg 0xE1018) 7 6 == s.subPort n }
  have own : (s.setSub n x).sub n = x := by rw [State.setSub_sub, if_pos rfl]
  have shape : (s.setSub n x).shape (.sub n) = shapeOf (s.reg 0xE1010) (s.reg 0xE1014) := by
    rw [State.shape, own, ← shapeOf_maskW (s.reg 0xE1010) (s.reg 0xE1014) (m := 0x9FFFFFFF) (by decide) (by decide) (by decide)]
    simp [x, words, tget_tset]
  have run : s.subCommitTo n = (s.setSub n x).adopt (.sub n) (s.shape (.sub n)) (bit (s.reg 0xE1010) 29) := by
    rw [State.subCommitTo, State.adopt, shape]
    exact if_pos on
  obtain ⟨frame, sub⟩ := (s.setSub n x).adopt_sub n (s.shape (.sub n)) (bit (s.reg 0xE1010) 29)
  rw [own, shape, ← run] at sub
  rw [← run] at frame
  refine ⟨frame, fun m ne => ?_, ?_⟩
  · rw [sub, if_neg ne, State.setSub_sub, if_neg ne]
  · rw [sub, if_pos rfl]
    refine ⟨rfl, ?_, ?_, ?_, ?_, rfl⟩ <;> simp [x, words, tget_tset, maskW]

/-- The words that a service's commit applies (R241). -/
theorem State.svcCommitTo_spec (s : State) (k : Nat) : let t := s.svcCommitTo k
    t = { s with svcs := t.svcs } ∧ (∀ m, m ≠ k → t.svc m = s.svc m) ∧ t.svc k = { s.svc k with
      d0 := s.reg 0xE2010 &&& 0xDFFFFFFF, d1 := s.reg 0xE2014, d2 := s.reg 0xE2018 &&& 0xFF77
      bucket := (s.svc k).bucket.restart s.now (s.shape (.svc k)) (shapeOf (s.reg 0xE2010) (s.reg 0xE2014))
        (bit (s.reg 0xE2010) 29) } := by
  let x : Svc := { s.svc k with
    d0 := maskW 0xDFFFFFFF (s.reg 0xE2010), d1 := s.reg 0xE2014, d2 := maskW 0xFF77 (s.reg 0xE2018) }
  have own : (s.setSvc k x).svc k = x := by rw [State.setSvc_svc, if_pos rfl]
  have shape : (s.setSvc k x).shape (.svc k) = shapeOf (s.reg 0xE2010) (s.reg 0xE2014) := by
    rw [State.shape, own]
    exact shapeOf_maskW _ _ (by decide) (by decide) (by decide)
  have run : s.svcCommitTo k = (s.setSvc k x).adopt (.svc k) (s.shape (.svc k)) (bit (s.reg 0xE2010) 29) := by
    rw [State.svcCommitTo, State.adopt, shape]
  obtain ⟨frame, svc⟩ := (s.setSvc k x).adopt_svc k (s.shape (.svc k)) (bit (s.reg 0xE2010) 29)
  rw [own, shape, ← run] at svc
  rw [← run] at frame
  refine ⟨frame, fun m ne => ?_, ?_⟩
  · rw [svc, if_neg ne, State.setSvc_svc, if_neg ne]
  · rw [svc, if_pos rfl]
    rfl

/-- A write of MGL_PORTn_SHAPE that is legal (R226). -/
theorem State.portShape_spec {s : State} {p : Nat} {v : Word} (legal : fld v 15 0 = 0 ∨ fld v 27 16 ≠ 0) :
    let off := 0xE3000 + 0x10 * p
    let t := s.portShape p false v
    t = { s with regs := t.regs, portBkt := t.portBkt } ∧ t.reg off = v &&& 0x8FFFFFFF ∧ RegsKept s t [off] ∧
      t.bucket (.port p) = (s.bucket (.port p)).restart s.now (s.shape (.port p)) (t.shape (.port p)) (bit v 31) ∧
      ∀ q, q ≠ p → t.bucket (.port q) = s.bucket (.port q) := by
  intro off t
  obtain ⟨a, ha⟩ : ∃ a, a = s.setReg off (maskW 0x8FFFFFFF v) := ⟨_, rfl⟩
  have only : RegsOnly s a := ha ▸ s.setReg_regsOnly _ _
  have reg (o : Nat) : a.reg o = if o = off then maskW 0x8FFFFFFF v else s.reg o := ha ▸ s.setReg_reg off _ o
  have full : bit (a.reg off) 31 = bit v 31 := by
    rw [reg, if_pos rfl]
    exact bit_maskW v (by decide)
  have run : t = a.adopt (.port p) (s.shape (.port p)) (bit v 31) := by
    rw [← full, ha]
    exact if_neg (by rcases legal with h | h <;> simp [h])
  obtain ⟨frame, bucket⟩ := a.adopt_port p (s.shape (.port p)) (bit v 31)
  rw [← run] at frame bucket
  have regs (o : Nat) : t.reg o = a.reg o := by rw [frame]; rfl
  have shape : t.shape (.port p) = a.shape (.port p) := by rw [State.shape, regs, regs, ← State.shape]
  have before (q : Nat) : a.bucket (.port q) = s.bucket (.port q) := by rw [only]; rfl
  have now : a.now = s.now := by rw [only]
  refine ⟨?_, ?_, fun o away => ?_, ?_, fun q ne => ?_⟩
  · have plain : t.regs = a.regs := by rw [frame]
    rw [plain]
    exact frame.trans (by rw [only])
  · rw [regs, reg, if_pos rfl]
    rfl
  · rw [regs, reg, if_neg (by simpa using away)]
  · rw [bucket, if_pos rfl, before, now, shape]
  · rw [bucket, if_neg ne, before]

/-- DATA0 to DATA3 that may become subscriber `n`'s entry (R241). -/
theorem State.subBars_legal {s : State} {n : Nat} (legal : shapeLegal (s.reg 0xE1010) (s.reg 0xE1014) = true)
    (weight : fld (s.reg 0xE1018) 15 8 ≠ 0) (port : fld (s.reg 0xE1018) 7 6 = s.subPort n) (free : s.autoPaced n = false) :
    s.subBars n = false := by
  simp [State.subBars, legal, weight, port, free]

theorem State.subBars_illegal {s : State} (n : Nat) (bad : shapeLegal (s.reg 0xE1010) (s.reg 0xE1014) = false ∨
    bit (s.reg 0xE1010) 31 = true ∧ fld (s.reg 0xE1018) 15 8 = 0) : s.subBars n = true := by
  rcases bad with h | ⟨on, weight⟩
  · simp [State.subBars, h]
  · simp [State.subBars, on, weight]

theorem State.svcBars_legal {s : State} (legal : shapeLegal (s.reg 0xE2010) (s.reg 0xE2014) = true)
    (live : bit (s.reg 0xE2010) 30 = false ∨ fld (s.reg 0xE2010) 15 0 = 0) (weight : fld (s.reg 0xE2018) 15 8 ≠ 0) :
    s.svcBars = false := by
  rcases live with h | h <;> simp [State.svcBars, shapeOf, legal, weight, h]

theorem State.svcBars_illegal {s : State} (bad : shapeLegal (s.reg 0xE2010) (s.reg 0xE2014) = false ∨
    (bit (s.reg 0xE2010) 30 = true ∧ fld (s.reg 0xE2010) 15 0 ≠ 0) ∨ fld (s.reg 0xE2018) 15 8 = 0) : s.svcBars = true := by
  rcases bad with h | ⟨live, rate⟩ | h
  · simp [State.svcBars, h]
  · simp [State.svcBars, shapeOf, live, rate]
  · simp [State.svcBars, h]

/-- An index register is written, then a file of data registers: what each reads. -/
theorem State.setReg_setFile (s : State) {o base n : Nat} (f : Nat → Word) (w : Word) (apart : o < base) :
    let t := (s.setReg o w).setFile base n f
    RegsOnly s t ∧ t.reg o = w ∧ (∀ i < n, t.reg (base + 4 * i) = f i) ∧
      RegsKept s t (o :: (upto n).map fun i => base + 4 * i) := by
  obtain ⟨only, sets, kept⟩ := (s.setReg o w).setFile_spec base n f
  refine ⟨(s.setReg_regsOnly o w).trans only, ?_, sets, fun k away => ?_⟩
  · rw [kept, State.setReg_reg, if_pos rfl]
    simp only [List.mem_map, not_exists, not_and]
    omega
  · rw [List.mem_cons, not_or] at away
    rw [kept k away.2, State.setReg_reg, if_neg away.1]

section
variable (s : State) (o n : Nat) (w : Word)

theorem State.setReg_setFlow_spec (f : Ingest) : let t := (s.setReg o w).setFlow n f
    t = { s with regs := t.regs, ingest := t.ingest } ∧ RegsKept s t [o] ∧ t.flow n = f ∧ ∀ m, m ≠ n → t.flow m = s.flow m :=
  ⟨rfl, fun k away => (s.setReg_reg o w k).trans (if_neg (by simpa using away)), (State.setFlow_flow _ n f n).trans (if_pos rfl),
    fun m ne => (State.setFlow_flow _ n f m).trans (if_neg ne)⟩

theorem State.setReg_setSub_spec (x : Sub) : let t := (s.setReg o w).setSub n x
    t = { s with regs := t.regs, subs := t.subs } ∧ RegsKept s t [o] ∧ (∀ m, m ≠ n → t.sub m = s.sub m) ∧ t.sub n = x :=
  ⟨rfl, fun k away => (s.setReg_reg o w k).trans (if_neg (by simpa using away)),
    fun m ne => (State.setSub_sub _ n x m).trans (if_neg ne), (State.setSub_sub _ n x n).trans (if_pos rfl)⟩

end

section
variable {s : State} {v : Word}

theorem State.subSel_commits (idle : v &&& 0xE000 = 0) {n : Nat} (index : v.toNat % 4096 = n) (fits : s.subBars n = false)
    (on : bit (s.reg 0xE1010) 31 = true) : let t := s.subSel (v ||| 0x4000)
    t = { s with regs := t.regs, subs := t.subs } ∧ RegsKept s t [0xE1000] ∧ (∀ m, m ≠ n → t.sub m = s.sub m) ∧
      (t.sub n).queue = (s.sub n).queue ∧ tget 0 (t.sub n).d 0 = s.reg 0xE1010 &&& 0x9FFFFFFF ∧
      tget 0 (t.sub n).d 1 = s.reg 0xE1014 ∧ tget 0 (t.sub n).d 2 = s.reg 0xE1018 &&& 0xFFFF ∧
      tget 0 (t.sub n).d 3 = s.reg 0xE101C ∧
      (t.sub n).bucket = (s.sub n).bucket.restart s.now (s.shape (.sub n)) (shapeOf (s.reg 0xE1010) (s.reg 0xE1014))
        (bit (s.reg 0xE1010) 29) := by
  obtain ⟨a, ha⟩ : ∃ a, a = s.setReg 0xE1000 (v &&& 0xFFF) := ⟨_, rfl⟩
  have only : RegsOnly s a := ha ▸ s.setReg_regsOnly _ _
  have reg {o : Nat} (ne : o ≠ 0xE1000) : a.reg o = s.reg o := ha ▸ (s.setReg_reg _ _ o).trans (if_neg ne)
  have run : s.subSel (v ||| 0x4000) = a.subCommitTo n := by
    rw [State.subSel_commit idle, index, if_neg (by simp [fits]), ha]
  rw [run]
  obtain ⟨frame, others, rest⟩ := State.subCommitTo_spec (s := a) (n := n) (by rwa [reg (by decide)])
  have now : a.now = s.now := by rw [only]
  simp only [only.sub, only.shape_sub, now, reg (show 0xE1010 ≠ 0xE1000 by decide), reg (show 0xE1014 ≠ 0xE1000 by decide),
    reg (show 0xE1018 ≠ 0xE1000 by decide), reg (show 0xE101C ≠ 0xE1000 by decide)] at others rest
  have regs : (a.subCommitTo n).regs = a.regs := by rw [frame]
  refine ⟨?_, fun o away => ?_, others, rest⟩
  · rw [regs]
    exact frame.trans (by rw [only])
  · rw [State.reg, regs, ← State.reg, reg (by simpa using away)]

theorem State.svcSel_commits (idle : v &&& 0x6000 = 0) {k : Nat} (index : v.toNat % 256 = k) (fits : s.svcBars = false) :
    let t := s.svcSel (v ||| 0x4000)
    t = { s with regs := t.regs, svcs := t.svcs } ∧ RegsKept s t [0xE2000] ∧ (∀ m, m ≠ k → t.svc m = s.svc m) ∧
      t.svc k = { s.svc k with
        d0 := s.reg 0xE2010 &&& 0xDFFFFFFF, d1 := s.reg 0xE2014, d2 := s.reg 0xE2018 &&& 0xFF77
        bucket := (s.svc k).bucket.restart s.now (s.shape (.svc k)) (shapeOf (s.reg 0xE2010) (s.reg 0xE2014))
          (bit (s.reg 0xE2010) 29) } := by
  obtain ⟨a, ha⟩ : ∃ a, a = s.setReg 0xE2000 (v &&& 0xFF) := ⟨_, rfl⟩
  have only : RegsOnly s a := ha ▸ s.setReg_regsOnly _ _
  have reg {o : Nat} (ne : o ≠ 0xE2000) : a.reg o = s.reg o := ha ▸ (s.setReg_reg _ _ o).trans (if_neg ne)
  have run : s.svcSel (v ||| 0x4000) = a.svcCommitTo k := by
    rw [State.svcSel_commit idle, index, if_neg (by simp [fits]), ha]
  rw [run]
  obtain ⟨frame, others, own⟩ := a.svcCommitTo_spec k
  have now : a.now = s.now := by rw [only]
  have shape : a.shape (.svc k) = s.shape (.svc k) := by rw [State.shape, only.svc, ← State.shape]
  simp only [only.svc, shape, now, reg (show 0xE2010 ≠ 0xE2000 by decide), reg (show 0xE2014 ≠ 0xE2000 by decide),
    reg (show 0xE2018 ≠ 0xE2000 by decide)] at others own
  have regs : (a.svcCommitTo k).regs = a.regs := by rw [frame]
  refine ⟨?_, fun o away => ?_, others, own⟩
  · rw [regs]
    exact frame.trans (by rw [only])
  · rw [State.reg, regs, ← State.reg, reg (by simpa using away)]

end

/-- Settles O37, by what a write of each selector does, and of a port's settings. -/
theorem mangleTables : Obligations.MangleTables := by
  intro s v p live n k w y others restart
  have runs (f : State → State) : Host.Outcome.next (s.whenLive f) = (Host.Outcome.next (f s) : Host.Outcome State Fault Refusal) :=
    congrArg _ (if_pos live)
  have does {c : Instr} {f : State → State} {P : State → Prop} (run : exec c s = .next (s.whenLive f)) (h : P (f s)) :
      Answers c s P := ⟨_, run.trans (runs f), h⟩
  have low (w : Word) : fld w 15 0 = w.toNat % 65536 := fld_low w 15
  refine ⟨fun idle inside => does rfl ?_, fun idle flow => does rfl ?_, fun idle ingest small free => does rfl ?_,
    fun idle ingest small busy => ?_, fun idle ingest high => ?_, fun idle => does rfl ?_,
    fun idle legal on weight port free => does rfl ?_,
    fun idle bad => ?_, fun idle => does rfl ?_, fun idle => does rfl ?_, fun idle legal rate weight => does rfl ?_, fun idle bad => ?_,
    fun small => ⟨fun legal => does rfl ?_, fun rate depth => ?_⟩⟩
  · rw [State.flowSel_load idle inside]
    exact s.setReg_setFile _ _ (by decide)
  · rw [State.flowSel_commit idle, show bit v 12 = false from flow]
    exact s.setReg_setSub_spec _ _ _ _
  · rw [State.flowSel_commit idle, show bit v 12 = true from ingest, if_neg (by simp [n, small, free])]
    exact s.setReg_setFlow_spec _ _ _ _
  · refine (runs _).trans (congrArg _ ?_)
    rw [State.flowSel_commit idle]
    exact if_pos (by rw [show bit v 12 = true from ingest, busy, Bool.or_true, Bool.true_and])
  · obtain ⟨commit, load⟩ := State.flowSel_absent (s := s) idle ingest high
    exact ⟨(runs _).trans (congrArg _ commit), (runs _).trans (congrArg _ load)⟩
  · rw [State.subSel_load idle]
    exact s.setReg_setFile _ _ (by decide)
  · exact State.subSel_commits idle rfl (State.subBars_legal legal weight port free) on
  · refine (runs _).trans (congrArg _ ?_)
    rw [State.subSel_commit idle]
    exact if_pos (State.subBars_illegal n bad)
  · rw [State.subSel_flush idle]
    obtain ⟨own, rest, pat, count⟩ := (s.setReg 0xE1000 (v &&& 0xFFF)).flushWhere_spec n fun _ => true
    refine ⟨?_, rest, pat, ?_⟩
    · rw [State.flushSub, own]
      simp
    · rw [State.setReg_reg, if_neg (by decide), List.filter_true] at count
      exact count
  · rw [State.svcSel_load idle]
    refine ⟨rfl, by simp, by simp [k], by simp [k], by simp [k], fun o away => ?_⟩
    simp only [List.mem_cons, List.not_mem_nil, or_false, not_or] at away
    obtain ⟨h0, h1, h2, h3⟩ := away
    simp [h0, h1, h2, h3]
  · exact State.svcSel_commits idle rfl (State.svcBars_legal legal (rate.imp_right (low _).trans) weight)
  · refine (runs _).trans (congrArg _ ?_)
    rw [State.svcSel_commit idle]
    exact if_pos (State.svcBars_illegal (by rwa [low]))
  · rw [if_pos small]
    exact State.portShape_spec (by rwa [low])
  · refine (runs _).trans (congrArg _ ?_)
    rw [if_pos small]
    exact if_pos (by simp [low, rate, show fld v 27 16 = 0 from depth])

end Sys2Proof.Machine
end

section
/-!
SUPPORT. The buckets of the mangle, what a charge and a packet that leaves its queue change, and which live packet goes first (R223 to
R227, R231, R232).
-/
namespace Sys2Proof.Machine

theorem State.setBucket_shape (s : State) (b l : BucketId) (x : Bucket) : (s.setBucket b x).shape l = s.shape l := by
  cases b with
  | sub n =>
    cases l with
    | sub m =>
      rw [State.shape, State.setBucket, State.setSub_sub, State.shape]
      split
      next same => rw [same]
      next => rfl
    | svc k => rfl
    | port p => rfl
  | svc k =>
    cases l with
    | sub m => rfl
    | svc j =>
      rw [State.shape, State.setBucket, State.setSvc_svc, State.shape]
      split
      next same => rw [same]
      next => rfl
    | port p => rfl
  | port p => cases l <;> rfl

theorem State.setBucket_bucket (s : State) (b l : BucketId) (x : Bucket) :
    (s.setBucket b x).bucket l = if l = b then x else s.bucket l := by
  cases b with
  | sub n =>
    cases l with
    | sub m =>
      rw [State.bucket, State.setBucket, State.setSub_sub, State.bucket]
      by_cases same : m = n <;> simp [same]
    | svc k => rfl
    | port p => rfl
  | svc k =>
    cases l with
    | sub m => rfl
    | svc j =>
      rw [State.bucket, State.setBucket, State.setSvc_svc, State.bucket]
      by_cases same : j = k <;> simp [same]
    | port p => rfl
  | port p =>
    cases l with
    | sub m => rfl
    | svc j => rfl
    | port q =>
      rw [State.bucket, State.setBucket, tget_tset, State.bucket]
      by_cases same : q = p <;> simp [same]

theorem State.setBucket_alarmed (s : State) (b : BucketId) (x : Bucket) : Alarmed s (s.setBucket b x) := by
  cases b <;> exact .of_regs rfl rfl rfl rfl rfl

/-- From `s` to `t` each level of `l` that has a bucket is charged one credit, of subscriber `n` and no other (R224). -/
structure Charged (n : Nat) (l : List BucketId) (s t : State) : Prop where
  alarmed : Alarmed s t
  others : ∀ m, m ≠ n → t.sub m = s.sub m
  own : ∃ y, t.sub n = { s.sub n with bucket := y }
  pat : t.pat = s.pat
  eths : t.eths = s.eths
  hif : t.hif = s.hif
  regs : RegsKept s t [0xE0100, 0xE0110]
  shape : ∀ b, t.shape b = s.shape b
  taken : ∀ b ∈ l, (s.shape b).has = true → (t.bucket b).c = (s.bucket b).c - 1
  kept : ∀ b, b ∉ l → t.bucket b = s.bucket b

theorem Charged.trans {n : Nat} {l m : List BucketId} {s t u : State} (h : Charged n l s t) (k : Charged n m t u)
    (apart : ∀ b ∈ l, b ∉ m) : Charged n (l ++ m) s u where
  alarmed := h.alarmed.trans k.alarmed
  others j ne := (k.others j ne).trans (h.others j ne)
  own := by
    obtain ⟨y, own⟩ := h.own
    obtain ⟨z, own'⟩ := k.own
    exact ⟨z, by rw [own', own]⟩
  pat := k.pat.trans h.pat
  eths := k.eths.trans h.eths
  hif := k.hif.trans h.hif
  regs := h.regs.trans k.regs
  shape b := (k.shape b).trans (h.shape b)
  taken b mem has := by
    by_cases first : b ∈ l
    · rw [k.kept b (apart b first), h.taken b first has]
    · have second : b ∈ m := (List.mem_append.1 mem).resolve_left first
      rw [k.taken b second (by rwa [h.shape]), h.kept b first]
  kept b away := by
    rw [List.mem_append, not_or] at away
    exact (k.kept b away.2).trans (h.kept b away.1)

/-- Counters that move charge nobody. -/
theorem Charged.of_bump {n : Nat} (s : State) {o : Nat} (k : Nat) (counter : o = 0xE0100 ∨ o = 0xE0110) :
    Charged n [] s (s.bump o k) where
  alarmed := s.bump_alarmed k (by omega)
  others _ _ := rfl
  own := ⟨_, rfl⟩
  pat := rfl
  eths := rfl
  hif := rfl
  regs i away := by
    rw [State.bump_reg, if_neg]
    rintro rfl
    exact away (by simpa using counter)
  shape b := by
    cases b with
    | sub m => rfl
    | svc k => rfl
    | port p => rw [State.shape, State.bump_reg, State.bump_reg, if_neg (by omega), if_neg (by omega), State.shape]
  taken _ mem := absurd mem List.not_mem_nil
  kept b _ := by cases b <;> rfl

theorem Charged.of_count {n : Nat} (s : State) (code unit k : Nat) : Charged n [] s (s.count code unit k) := by
  have same := s.count_offPmu code unit k
  have sub (m : Nat) : (s.count code unit k).sub m = s.sub m := (congrArg (State.sub · m) same :)
  have shape (b : BucketId) : (s.count code unit k).shape b = s.shape b :=
    (congrArg (State.shape · b) same :)
  have bucket (b : BucketId) : (s.count code unit k).bucket b = s.bucket b :=
    (congrArg (State.bucket · b) same :)
  exact {
    alarmed := s.count_alarmed code unit k
    others := fun m _ => sub m
    own := ⟨_, sub n⟩
    pat := (congrArg State.pat same :)
    eths := (congrArg State.eths same :)
    hif := (congrArg State.hif same :)
    regs := fun o _ => (congrArg (State.reg · o) same :)
    shape := shape
    taken := fun _ mem => absurd mem List.not_mem_nil
    kept := fun b _ => bucket b }

/-- The charge of one level (R224, R225). -/
theorem State.charge_charged (s : State) {n : Nat} {b : BucketId} (own : ∀ m, b = .sub m → m = n) : Charged n [b] s (s.charge b) := by
  unfold State.charge
  extract_lets h x y a
  split
  next has =>
    have sub (m : Nat) : m ≠ n → a.sub m = s.sub m := by
      intro ne
      cases b with
      | sub j => exact (s.setSub_sub j _ m).trans (if_neg fun same => ne (same.trans (own j rfl)))
      | svc k => rfl
      | port p => rfl
    have mine : ∃ z, a.sub n = { s.sub n with bucket := z } := by
      cases b with
      | sub j =>
        rw [← own j rfl]
        exact ⟨y, (s.setSub_sub j _ j).trans (if_pos rfl)⟩
      | svc k => exact ⟨_, rfl⟩
      | port p => exact ⟨_, rfl⟩
    have parts : a.pat = s.pat ∧ a.eths = s.eths ∧ a.hif = s.hif ∧ a.regs = s.regs := by
      dsimp only [a]
      cases b <;> exact ⟨rfl, rfl, rfl, rfl⟩
    obtain ⟨pat, eths, hif, regs⟩ := parts
    have less : y.c = x.c - 1 := by
      dsimp only [y]
      split <;> rfl
    have written : Charged n [b] s a := {
      alarmed := s.setBucket_alarmed b y
      others := sub
      own := mine
      pat := pat
      eths := eths
      hif := hif
      regs := fun o _ => by rw [State.reg, regs, ← State.reg]
      shape := fun l => s.setBucket_shape b l y
      taken := fun l mem _ => by rw [List.mem_singleton.1 mem, s.setBucket_bucket b b y, if_pos rfl, less]
      kept := fun l away => (s.setBucket_bucket b l y).trans (if_neg (by simpa using away)) }
    split
    · exact written.trans (.of_bump a 1 (.inr rfl)) fun _ _ => List.not_mem_nil
    · exact written
  next none =>
    exact ⟨.rfl, fun _ _ => rfl, ⟨_, rfl⟩, rfl, rfl, rfl, fun _ _ => rfl, fun _ => rfl,
      fun l mem has => absurd (by rwa [List.mem_singleton.1 mem] at has) none, fun _ _ => rfl⟩

/-- A packet is charged at each of its levels (R224). -/
theorem State.chargeAll_charged (s : State) (p : Nat) (c : Cand) :
    Charged c.sub [.sub c.sub, .svc c.svc, .port p] s (s.chargeAll p c) := by
  unfold State.chargeAll
  extract_lets a
  have sub : Charged c.sub [.sub c.sub] s (s.charge (.sub c.sub)) := s.charge_charged (by simp)
  have svc := sub.trans (State.charge_charged _ (n := c.sub) (b := .svc c.svc) (by simp)) (by simp)
  have port := svc.trans (State.charge_charged _ (n := c.sub) (b := .port p) (by simp)) (by simp)
  have all : Charged c.sub [.sub c.sub, .svc c.svc, .port p] s a := port.trans (.of_count _ 0x10 p 1) fun _ _ => List.not_mem_nil
  split
  · exact (all.trans (.of_bump a 1 (.inl rfl)) fun _ _ => List.not_mem_nil).trans (.of_count _ 0x11 p 1) fun _ _ => List.not_mem_nil
  · exact all

theorem State.pruneKept_alarmed (s : State) (n : Nat) : Alarmed s (s.pruneKept n) := State.setSes_alarmed rfl rfl

/-- The packet at the head of a queue leaves it (R166): of the network side only the queue changes. -/
theorem State.takePkt_spec {s : State} {n : Nat} {q : QUnit} {rest : List QUnit} {pk : EPkt} {more : List EPkt}
    (queue : (s.sub n).queue = q :: rest) (pkts : q.pkts = pk :: more) :
    Alarmed s (s.takePkt n) ∧ ∃ l, l.map (·.pkts) = (if more = [] then [] else [more]) ++ rest.map (·.pkts) ∧
      (s.takePkt n).network = (s.setSub n { s.sub n with queue := l }).network := by
  let left (k : Nat) : QUnit :=
    { q with pkts := more, sent := pk.at_ + pk.cover, fresh := false, pages := q.pages.drop k }
  obtain ⟨k, run⟩ : ∃ k, s.takePkt n =
      ((s.setSub n { s.sub n with queue := if more.isEmpty then rest else left k :: rest }).releasePages q.consumer
        (q.pages.take k)).pruneKept q.ses := by
    refine ⟨if more.isEmpty then q.pages.length else (pk.at_ + pk.cover) / 16384 - q.sent / 16384, ?_⟩
    unfold State.takePkt
    dsimp only
    rw [queue]
    simp only [pkts, List.headD_cons, List.tail_cons]
    rfl
  rw [run]
  refine ⟨.trans ?_ ((State.releasePages_alarmed _ _ _).trans (State.pruneKept_alarmed _ _)), _, ?_, State.releasePages_network _ _ _⟩
  · exact .of_regs rfl rfl rfl rfl rfl
  · cases more <;> rfl

theorem liveFirst_mem {l : List Cand} {c : Cand} (h : liveFirst l = some c) : c ∈ l := by
  induction l with
  | nil => simp [liveFirst] at h
  | cons a t ih =>
    rw [liveFirst] at h
    split at h
    next d found =>
      split at h
      · exact List.mem_cons_of_mem a (ih (found.trans h))
      · exact Option.some.inj h ▸ List.mem_cons_self
    next => exact Option.some.inj h ▸ List.mem_cons_self

/-- A candidate committed before all others goes first (R227). -/
theorem liveFirst_earliest {l : List Cand} {c : Cand} (mem : c ∈ l) (first : ∀ d ∈ l, d ≠ c → c.q.commit < d.q.commit) :
    liveFirst l = some c := by
  induction l with
  | nil => exact absurd mem List.not_mem_nil
  | cons a t ih =>
    rw [liveFirst]
    by_cases head : a = c
    · subst head
      split
      next d found =>
        have late : ¬ d.q.commit < a.q.commit := by
          by_cases same : d = a
          · rw [same]
            exact lt_irrefl _
          · exact (first d (List.mem_cons_of_mem a (liveFirst_mem found)) same).asymm
        exact if_neg late
      next => rfl
    · have tail : c ∈ t := (List.mem_cons.1 mem).resolve_left fun same => head same.symm
      rw [ih tail fun d mem => first d (List.mem_cons_of_mem a mem)]
      exact if_pos (first a List.mem_cons_self head)

end Sys2Proof.Machine
end

section
/-!
O39: the traffic of the mangle (R209, R216, R223 to R232, R343).
-/
namespace Sys2Proof.Machine

/-- What goes out without a function is never withheld. -/
theorem State.emit_own {s : State} {e : Emit} (own : s.emitFn e = 0) : s.emit e = { s with outbox := s.outbox ++ [e] } := by
  simp [State.emit, own]

/-- CREDIT_RISE (R223) of a bucket that has reached its period. -/
theorem State.riseOp_rises {s : State} (live : s.live = true) {b : BucketId} (rate : (s.shape b).rate ≠ 0)
    (period : (s.shape b).period ≠ 0) (low : (s.bucket b).c < (s.shape b).depth)
    (due : (s.shape b).period ≤ (s.bucket b).a + (s.shape b).rate * (s.now - (s.bucket b).at_)) :
    s.riseOp b = s.setBucket b {
      c := (s.bucket b).c + 1
      a := if (s.bucket b).c + 1 = (s.shape b).depth then 0
        else (s.bucket b).a + (s.shape b).rate * (s.now - (s.bucket b).at_) - (s.shape b).period
      at_ := s.now } :=
  if_pos (by simp [live, Shape.has, rate, period, low, due])

theorem State.riseOp_stays {s : State} {b : BucketId} (stays : (s.shape b).rate = 0 ∨ (s.shape b).period = 0 ∨
    (s.shape b).depth ≤ (s.bucket b).c ∨ (s.bucket b).a + (s.shape b).rate * (s.now - (s.bucket b).at_) < (s.shape b).period) :
    s.riseOp b = s := by
  refine if_neg ?_
  rcases stays with h | h | h | h
  · simp [Shape.has, h]
  · simp [Shape.has, h]
  · simp [h]
  · simp [h]

/-- A change of a subscriber's record leaves every level's settings where it leaves the subscriber's. -/
theorem State.setSub_shape {s : State} {n : Nat} {x : Sub} (same : x.d = (s.sub n).d) (b : BucketId) :
    (s.setSub n x).shape b = s.shape b := by
  cases b with
  | sub m =>
    rw [State.shape, State.setSub_sub, State.shape]
    split
    next here => rw [here, same]
    next => rfl
  | svc k => rfl
  | port p => rfl

theorem State.setSub_bucket {s : State} {n : Nat} {x : Sub} (same : x.bucket = (s.sub n).bucket) (b : BucketId) :
    (s.setSub n x).bucket b = s.bucket b := by
  cases b with
  | sub m =>
    rw [State.bucket, State.setSub_sub, State.bucket]
    split
    next here => rw [here, same]
    next => rfl
  | svc k => rfl
  | port p => rfl

theorem bucket_of_network {s t : State} (h : t.network = s.network) (b : BucketId) : t.bucket b = s.bucket b := by
  cases b with
  | sub n => rw [State.bucket, sub_of_network h, State.bucket]
  | svc k => rw [State.bucket, svc_of_network h, State.bucket]
  | port p => exact congrArg (fun w : Network => tget ({} : Bucket) w.portBkt p) h

theorem shape_of_network {s t : State} (h : t.network = s.network) {b : BucketId} (small : ∀ p, b = .port p → p < 4) :
    t.shape b = s.shape b := by
  cases b with
  | sub n => rw [State.shape, sub_of_network h, State.shape]
  | svc k => rw [State.shape, svc_of_network h, State.shape]
  | port p =>
    have low : p < 4 := small p rfl
    rw [State.shape, reg_of_network h (by omega) (by omega), reg_of_network h (by omega) (by omega), State.shape]

/-- From `s` to `t` the head packet of candidate `c` has left its queue at port `p` and is charged; `more` are its unit's other packets,
`rest` the other units, and `x` is the subscriber's record but for its queue and bucket (R166, R224). -/
structure Handed (p : Nat) (c : Cand) (x : Sub) (more : List EPkt) (rest : List QUnit) (s t : State) : Prop where
  alarmed : Alarmed s t
  others : ∀ m, m ≠ c.sub → t.sub m = s.sub m
  own : ∃ l y, l.map (·.pkts) = (if more = [] then [] else [more]) ++ rest.map (·.pkts) ∧
    t.sub c.sub = { x with queue := l, bucket := y }
  pat : t.pat = s.pat
  eth : ∀ q, t.eth q = s.eth q
  hprTail : ∀ m, (t.fn m).hprTail = (s.fn m).hprTail
  regs : ∀ o, 0xE1000 ≤ o → o < 0xF0000 → t.reg o = s.reg o
  charged : ∀ l ∈ [.sub c.sub, .svc c.svc, .port p], (s.shape l).has = true → (t.bucket l).c = (s.bucket l).c - 1

theorem State.takePkt_charged {s : State} {p : Nat} (small : p < 4) {c : Cand} {rest : List QUnit} {pk : EPkt} {more : List EPkt}
    (queue : (s.sub c.sub).queue = c.q :: rest) (pkts : c.q.pkts = pk :: more) :
    Handed p c (s.sub c.sub) more rest s ((s.takePkt c.sub).chargeAll p c) := by
  obtain ⟨alarmed, l, list, taken⟩ := State.takePkt_spec queue pkts
  have sub (m : Nat) : (s.takePkt c.sub).sub m = if m = c.sub then { s.sub c.sub with queue := l } else s.sub m :=
    (sub_of_network taken m).trans (s.setSub_sub c.sub _ m)
  have charged := (s.takePkt c.sub).chargeAll_charged p c
  generalize s.takePkt c.sub = a at *
  generalize a.chargeAll p c = t at *
  have eth (q : Nat) : a.eth q = s.eth q := eth_of_network taken q
  have tail (m : Nat) : (a.fn m).hprTail = (s.fn m).hprTail := hprTail_of_network taken m
  have reg {o : Nat} (lo : 0xE1000 ≤ o) (hi : o < 0xF0000) : a.reg o = s.reg o := reg_of_network taken (by omega) hi
  obtain ⟨y, own⟩ := charged.own
  refine ⟨alarmed.trans charged.alarmed, fun m ne => ?_, ⟨l, y, list, ?_⟩,
    charged.pat.trans (congrArg Network.pat taken :), fun q => ?_, fun m => ?_, fun o lo hi => ?_, fun b mem has => ?_⟩
  · rw [charged.others m ne, sub, if_neg ne]
  · rw [own, sub, if_pos rfl]
  · exact (State.eth_congr charged.eths q).trans (eth q)
  · rw [← tail m, State.fn, charged.hif, ← State.fn]
  · have away : o ∉ [0xE0100, 0xE0110] := by
      simp only [List.mem_cons, List.not_mem_nil, or_false, not_or]
      omega
    rw [charged.regs o away, reg lo hi]
  · have port (q : Nat) (is : b = .port q) : q < 4 := by
      subst is
      simp only [List.mem_cons, reduceCtorEq, BucketId.port.injEq, List.not_mem_nil, or_false, false_or] at mem
      omega
    have shape : a.shape b = s.shape b := (shape_of_network taken port).trans (State.setSub_shape (by rfl) b)
    have bucket : a.bucket b = s.bucket b := (bucket_of_network taken b).trans (State.setSub_bucket (by rfl) b)
    rw [charged.taken b mem (by rwa [shape]), bucket]

/-- A packet that is handed off once the subscriber's record is `x`, of the same bucket. -/
theorem Handed.of_record {p : Nat} {c : Cand} {x : Sub} {more : List EPkt} {rest : List QUnit} {s a t : State}
    (h : Handed p c x more rest a t) (frame : a = { s with subs := a.subs, hbm := a.hbm, pmu := a.pmu })
    (others : ∀ m, m ≠ c.sub → a.sub m = s.sub m) (settings : (a.sub c.sub).d = (s.sub c.sub).d)
    (bucket : (a.sub c.sub).bucket = (s.sub c.sub).bucket) : Handed p c x more rest s t := by
  have level (b : BucketId) : a.shape b = s.shape b ∧ a.bucket b = s.bucket b := by
    cases b with
    | sub m =>
      simp only [State.shape, State.bucket]
      by_cases same : m = c.sub
      · rw [same, settings, bucket]; exact ⟨rfl, rfl⟩
      · rw [others m same]; exact ⟨rfl, rfl⟩
    | svc k => rw [frame]; exact ⟨rfl, rfl⟩
    | port q => rw [frame]; exact ⟨rfl, rfl⟩
  have set : Alarmed s a := .of_regs (by rw [frame]) (by rw [frame]) (by rw [frame]) (by rw [frame]) (by rw [frame])
  have eth (q : Nat) : a.eth q = s.eth q := by rw [frame]; rfl
  have fn (m : Nat) : a.fn m = s.fn m := by rw [frame]; rfl
  have reg (o : Nat) : a.reg o = s.reg o := by rw [frame]; rfl
  have pat : a.pat = s.pat := by rw [frame]
  refine ⟨set.trans h.alarmed, fun m ne => (h.others m ne).trans (others m ne), h.own, h.pat.trans pat,
    fun q => (h.eth q).trans (eth q), fun m => ?_, fun o lo hi => (h.regs o lo hi).trans (reg o), fun b mem has => ?_⟩
  · rw [h.hprTail m, fn]
  · obtain ⟨shape, credit⟩ := level b
    rw [h.charged b mem (by rwa [shape]), credit]

/-- The port selects candidate `c` (R227): live, committed before every other live one, and the port has credit above the floor. -/
def State.selects (s : State) (p : Nat) (c : Cand) : Prop :=
  c ∈ s.cands p ∧ c.isLive = true ∧ (∀ d ∈ s.cands p, d.isLive = true → d ≠ c → c.q.commit < d.q.commit) ∧
    ((s.shape (.port p)).has = false ∨ -4095 < (s.bucket (.port p)).c)

theorem State.selectOp_live {s : State} {p : Nat} {c : Cand} (live : s.live = true) (small : p < 4) (on : p < 2 → s.laneMode p ≠ 0)
    (goes : s.selects p c) (htx : List Byte) (chk : EgressCheck) : s.selectOp p htx chk = (s.handOff p c chk).retestAll := by
  obtain ⟨mem, isLive, first, credit⟩ := goes
  have ready : ¬ (!s.live || decide (4 ≤ p) || (decide (p < 2) && s.laneMode p == 0)) = true := by
    by_cases port : p < 2
    · simp [live, small, on port]
    · simp [live, small, port]
  have floor : ¬ ((s.shape (.port p)).has && decide ((s.bucket (.port p)).c ≤ creditFloor)) = true := by
    rcases credit with none | above
    · simp [none]
    · simp [show ¬ (s.bucket (.port p)).c ≤ creditFloor from not_le.2 above]
  have head : liveFirst ((s.cands p).filter (·.isLive)) = some c :=
    liveFirst_earliest (List.mem_filter.2 ⟨mem, isLive⟩) fun d here =>
      first d (List.mem_filter.1 here).1 (List.mem_filter.1 here).2
  rw [State.selectOp, if_neg ready]
  dsimp only
  rw [if_neg floor, head]

/-- Only hamper lines and counters were read (R25). -/
def ReadOnly (s t : State) : Prop := t = { s with hbm := t.hbm, pmu := t.pmu }

section
variable {s t : State} (h : ReadOnly s t)
include h

theorem ReadOnly.alarmed : Alarmed s t := .of_regs (by rw [h]) (by rw [h]) (by rw [h]) (by rw [h]) (by rw [h])
theorem ReadOnly.sub (n : Nat) : t.sub n = s.sub n := by rw [h]; rfl
theorem ReadOnly.eth (p : Nat) : t.eth p = s.eth p := by rw [h]; rfl
theorem ReadOnly.fn (n : Nat) : t.fn n = s.fn n := by rw [h]; rfl
theorem ReadOnly.portMac (p : Nat) : t.portMac p = s.portMac p := by rw [h]; rfl
theorem ReadOnly.portIp (p : Nat) (ip6 : Bool) : t.portIp p ip6 = s.portIp p ip6 := by rw [h]; rfl

end

/-- The record of a subscriber whose next packet leaves port `p` as RTP, without a switch of slots (R209, R219). -/
def Sub.sending (x : Sub) (q : QUnit) : Sub :=
  { x with flow := x.nextEntry q, stopped := false, seq := (x.seq + 1) % 65536
           roc := if x.seq = 65535 then (x.roc + 1) % 2 ^ 32 else x.roc }

/-- The RTP packet of candidate `c` at port `p`, over its unit bytes `d` (R209 to R211). -/
def State.rtpEmit (s : State) (p : Nat) (c : Cand) (pk : EPkt) (more : List EPkt) (d : List Byte) : Emit :=
  let x := s.sub c.sub
  let e := x.nextEntry c.q
  let ts := (c.q.pts / 16016 + flTsOffset e) % 2 ^ 32
  let marker := c.q.lastOfPic && decide (more = [])
  let packet := rtpHdr e x.seq ts marker ++ payload c.q.codec (c.q.fresh && c.q.newSeq) marker pk.form d
  .rtp p c.sub x.seq ts marker pk.bytes none (flKeySlot e)
    (ethFrame e (beBytes 6 (s.portMac p)) (ipPart e (s.portIp p (flIp6 e)) packet (Config.ipIdent c.sub x.seq)
      (Config.flowLabel c.sub)))

/-- An Ethernet packet that needs no key goes out at a port that is up (R209, R212). -/
theorem State.handEth_sends {s : State} {p : Nat} (small : p < 4) {c : Cand} {rest : List QUnit} {pk : EPkt} {more : List EPkt}
    (queue : (s.sub c.sub).queue = c.q :: rest) (pkts : c.q.pkts = pk :: more) (up : (s.eth p).link = true)
    (stays : (s.sub c.sub).switches c.q = false) (plain : flSrtp ((s.sub c.sub).nextEntry c.q) = false) (d : List Byte) :
    ∃ b, Handed p c ((s.sub c.sub).sending c.q) more rest s b ∧ s.handEth p c .good d =
      { b.bump (ethCnt p 5) with outbox := b.outbox ++ [s.rtpEmit p c pk more d] } := by
  let x := s.sub c.sub
  let y : Sub := { x with flow := x.nextEntry c.q, stopped := false }
  let z : Sub := x.sending c.q
  obtain ⟨a, ha⟩ : ∃ a, a = (s.setSub c.sub y).setSub c.sub z := ⟨_, rfl⟩
  have own : (s.setSub c.sub y).sub c.sub = y := by rw [State.setSub_sub, if_pos rfl]
  have sub (m : Nat) : a.sub m = if m = c.sub then z else s.sub m := by
    rw [ha, State.setSub_sub, State.setSub_sub]
    split <;> rfl
  have mine : a.sub c.sub = z := by rw [sub, if_pos rfl]
  have handed : Handed p c z more rest s ((a.takePkt c.sub).chargeAll p c) := by
    have taken := State.takePkt_charged (s := a) small (c := c) (rest := rest) (by rw [mine]; exact queue) pkts
    rw [mine] at taken
    exact taken.of_record (by rw [ha]; rfl) (fun m ne => (sub m).trans (if_neg ne)) (by rw [mine]; rfl) (by rw [mine]; rfl)
  have start : s.handEth p c .good d = (s.setSub c.sub y).sendRtp p c d := by
    unfold State.handEth
    dsimp only
    rw [stays]
    simp only [State.setSub_sub, if_true, plain, Bool.false_eq_true, false_and, if_false, Bool.not_false, Bool.and_true]
    rfl
  have alone : decide (c.q.pkts.length ≤ 1) = decide (more = []) := by
    rw [pkts]
    cases more <;> simp
  have packet : Emit.rtp p c.sub y.seq ((c.q.pts / 16016 + flTsOffset y.flow) % 2 ^ 32)
      (c.q.lastOfPic && decide (c.q.pkts.length ≤ 1)) (c.q.pkts.headD {}).bytes none (flKeySlot y.flow)
      ((s.setSub c.sub y).rtpFrameOf p c.sub c.q ((c.q.pts / 16016 + flTsOffset y.flow) % 2 ^ 32) d) = s.rtpEmit p c pk more d := by
    unfold State.rtpFrameOf State.rtpEmit
    dsimp only
    rw [own, alone, pkts, protect, if_neg (by simp [y, x, plain])]
    rfl
  obtain ⟨b, hb⟩ : ∃ b, b = (a.takePkt c.sub).chargeAll p c := ⟨_, rfl⟩
  rw [← hb] at handed
  refine ⟨b, handed, start.trans ?_⟩
  have link : (b.eth p).link = true := by rw [handed.eth, up]
  unfold State.sendRtp
  dsimp only
  rw [own]
  have record : (s.setSub c.sub y).setSub c.sub { y with
      seq := (y.seq + 1) % 65536, roc := if y.seq = 65535 then (y.roc + 1) % 2 ^ 32 else y.roc } = a := ha.symm
  rw [record, ← hb, if_pos link, if_neg (by simp [y, x, plain]), packet]
  exact State.emit_own rfl

theorem Handed.post {p : Nat} {c : Cand} {x : Sub} {more : List EPkt} {rest : List QUnit} {s t : State}
    (h : Handed p c x more rest s t) (fn : Nat) (grp : Option Nat) (r : BktRec) : Handed p c x more rest s (t.post fn grp r) := by
  have posted : Posted t (t.post fn grp r) := t.post_posted fn grp r
  have alarmed := t.post_alarmed fn grp r
  have tail (m : Nat) : ((t.post fn grp r).fn m).hprTail = (t.fn m).hprTail := hprTail_of_network (t.post_network fn grp r) m
  generalize t.post fn grp r = u at *
  have sub (m : Nat) : u.sub m = t.sub m := by rw [posted]; rfl
  have pat : u.pat = t.pat := by rw [posted]
  have eth (q : Nat) : u.eth q = t.eth q := by rw [posted]; rfl
  have reg (o : Nat) : u.reg o = t.reg o := by rw [posted]; rfl
  have bucket (b : BucketId) : u.bucket b = t.bucket b := by rw [posted]; rfl
  obtain ⟨l, y, list, own⟩ := h.own
  exact ⟨h.alarmed.trans alarmed, fun m ne => (sub m).trans (h.others m ne), ⟨l, y, list, (sub _).trans own⟩, pat.trans h.pat,
    fun q => (eth q).trans (h.eth q), fun m => (tail m).trans (h.hprTail m), fun o lo hi => (reg o).trans (h.regs o lo hi),
    fun b mem has => by rw [bucket, h.charged b mem has]⟩

/-- A packet for the host goes to the packet ring of its function (R343). -/
theorem State.handHost_sends {s : State} (quiet : s.hif.flr = []) {c : Cand} {rest : List QUnit} {pk : EPkt} {more : List EPkt}
    (queue : (s.sub c.sub).queue = c.q :: rest) (pkts : c.q.pkts = pk :: more) (d : List Byte) :
    let x := s.sub c.sub
    let fn := leAt x.entry 0 2
    let entry := hprHeader x c ++ startCodes c.q.slots pk.at_ d
    ∃ a, Posted s a ∧ Alarmed s a ∧ (a.fn fn).hprTail = ((s.fn fn).hprTail + 1) % (s.fn fn).hprEntries ∧
      .hpr fn (s.fn fn).hprTail (entry ++ List.replicate (2048 - entry.length) 0) ∈ a.outbox ∧
      Handed 2 c { x with flow := x.nextEntry c.q } more rest a (s.handHost c true d) := by
  intro x fn entry
  obtain ⟨e, he⟩ : ∃ e, e = Emit.hpr fn (s.fn fn).hprTail (entry ++ List.replicate (2048 - entry.length) 0) := ⟨_, rfl⟩
  let tail := ((s.fn fn).hprTail + 1) % (s.fn fn).hprEntries
  obtain ⟨a, ha⟩ : ∃ a, a = (s.emit e).setFn fn { (s.emit e).fn fn with hprTail := tail } := ⟨_, rfl⟩
  have posted : Posted s a := ha ▸ (s.emit_posted e).trans (State.setFn_posted _ fn _)
  have alarmed : Alarmed s a := ha ▸ (s.emit_alarmed e).trans (State.setFn_alarmed _ fn _)
  have ring : (a.fn fn).hprTail = tail := by rw [ha, State.setFn_fn, if_pos rfl]
  have sent : e ∈ a.outbox := by
    rw [ha, State.emit_quiet quiet]
    exact List.mem_append_right _ List.mem_cons_self
  have sub (m : Nat) : a.sub m = s.sub m := by rw [posted]; rfl
  let z : Sub := { x with flow := x.nextEntry c.q }
  obtain ⟨b, hb⟩ : ∃ b, b = a.setSub c.sub z := ⟨_, rfl⟩
  have record (m : Nat) : b.sub m = if m = c.sub then z else a.sub m := hb ▸ a.setSub_sub c.sub z m
  have mine : b.sub c.sub = z := by rw [record, if_pos rfl]
  have handed : Handed 2 c z more rest a ((b.takePkt c.sub).chargeAll 2 c) := by
    have taken := State.takePkt_charged (s := b) (show 2 < 4 by decide) (c := c) (rest := rest) (by rw [mine]; exact queue) pkts
    rw [mine] at taken
    exact taken.of_record (by rw [hb]; rfl) (fun m ne => (record m).trans (if_neg ne)) (by rw [mine, sub]) (by rw [mine, sub])
  have run : s.handHost c true d = if c.q.pkts.length ≤ 1 then
      ((b.takePkt c.sub).chargeAll 2 c).post fn (some 6) (((b.takePkt c.sub).chargeAll 2 c).evRec 0x094 1 (w32 tail) c.q.ses)
      else (b.takePkt c.sub).chargeAll 2 c := by
    rw [hb, ha, he, State.handHost, if_neg (by decide), pkts]
    rfl
  refine ⟨a, posted, alarmed, ring, he ▸ sent, ?_⟩
  rw [run]
  split
  · exact handed.post _ _ _
  · exact handed

section
variable {s : State} {p : Nat} {c : Cand} {rest : List QUnit} {pk : EPkt} {more : List EPkt} {d : List Byte} (live : s.live = true)
  (goes : s.selects p c) (waits : NoneWaits s) (clean : ReadOnly s (s.readPkt c.q).1) (bytes : (s.readPkt c.q).2 = some d)
  (queue : (s.sub c.sub).queue = c.q :: rest) (pkts : c.q.pkts = pk :: more)
include live goes waits clean bytes queue pkts

/-- The packet that an Ethernet port selects goes out as RTP (R209, R227). -/
theorem State.selectOp_rtp (small : p < 2) (on : s.laneMode p ≠ 0) (up : (s.eth p).link = true)
    (stays : (s.sub c.sub).switches c.q = false) (plain : flSrtp ((s.sub c.sub).nextEntry c.q) = false) (htx : List Byte) :
    ∃ b, Handed p c ((s.sub c.sub).sending c.q) more rest s b ∧ s.selectOp p htx .good =
      { b.bump (ethCnt p 5) with outbox := b.outbox ++ [s.rtpEmit p c pk more d] } := by
  have run : s.selectOp p htx .good = (s.handOff p c .good).retestAll :=
    State.selectOp_live live (by omega) (fun _ => on) goes htx .good
  have off : s.handOff p c .good = (s.readPkt c.q).1.handEth p c .good d := by
    rw [State.handOff, bytes]
    exact if_pos small
  generalize (s.readPkt c.q).1 = r at *
  have sub := clean.sub c.sub
  obtain ⟨b, handed, sent⟩ := State.handEth_sends (s := r) (p := p) (by omega) (c := c) (rest := rest) (by rwa [sub]) pkts
    (by rwa [clean.eth]) (by rwa [sub]) (by rwa [sub]) d
  have emitted : r.rtpEmit p c pk more d = s.rtpEmit p c pk more d := by
    simp only [State.rtpEmit, sub, clean.portMac, clean.portIp]
  rw [sub] at handed
  have fromS : Handed p c ((s.sub c.sub).sending c.q) more rest s b :=
    handed.of_record (Eq.trans clean (by rw [clean])) (fun m _ => clean.sub m) (by rw [sub]) (by rw [sub])
  refine ⟨b, fromS, ?_⟩
  rw [run, off, sent, emitted]
  exact NoneWaits.retestAll (fromS.alarmed.waits waits)

/-- The packet that the host's port selects goes to its function's packet ring (R227, R343). -/
theorem State.selectOp_hpr (port : p = 2) (quiet : s.hif.flr = []) (htx : List Byte) :
    let x := s.sub c.sub
    let fn := leAt x.entry 0 2
    let entry := hprHeader x c ++ startCodes c.q.slots pk.at_ d
    ∃ a, a = { s with hbm := a.hbm, pmu := a.pmu, hif := a.hif, outbox := a.outbox } ∧
      (a.fn fn).hprTail = ((s.fn fn).hprTail + 1) % (s.fn fn).hprEntries ∧
      .hpr fn (s.fn fn).hprTail (entry ++ List.replicate (2048 - entry.length) 0) ∈ a.outbox ∧
      Handed p c { x with flow := x.nextEntry c.q } more rest a (s.selectOp p htx .good) := by
  subst port
  have run : s.selectOp 2 htx .good = (s.handOff 2 c .good).retestAll :=
    State.selectOp_live live (by decide) (fun low => absurd low (by decide)) goes htx .good
  have off : s.handOff 2 c .good = (s.readPkt c.q).1.handHost c true d := by
    rw [State.handOff, bytes]
    rfl
  generalize (s.readPkt c.q).1 = r at *
  have sub := clean.sub c.sub
  have fn := clean.fn
  have still : r.hif = s.hif := by rw [clean]
  obtain ⟨a, posted, alarmed, ring, sent, handed⟩ := State.handHost_sends (s := r) (by rwa [still]) (c := c) (rest := rest)
    (by rwa [sub]) pkts d
  rw [sub, fn] at ring sent
  rw [sub] at handed
  refine ⟨a, Eq.trans posted (by rw [clean, posted]), ring, sent, ?_⟩
  rw [run, off]
  rw [NoneWaits.retestAll (handed.alarmed.waits (alarmed.waits (clean.alarmed.waits waits)))]
  exact handed

end

/-- With nothing queued and no frame of the host to send, nothing goes (R227). -/
theorem State.selectOp_host {s : State} {p : Nat} (live : s.live = true) (small : p < 2) (on : s.laneMode p ≠ 0)
    (none : s.cands p = []) (htx : List Byte) (chk : EgressCheck) : s.selectOp p htx chk = s.handHtx p htx := by
  have idle : s.nonLive p [] = (s, .none) := rfl
  rw [State.selectOp, if_neg (by simp [live, on, show ¬ 4 ≤ p by omega]), none]
  simp only [List.filter_nil, liveFirst, ite_self, idle]
  exact if_pos small

/-- A host frame that is whole goes out (R216). -/
theorem State.handHtx_sends {s : State} {p : Nat} {htx : List Byte} (ring : s.ethRing p 0x48 ≠ 0)
    (filled : (s.eth p).htxHead % s.ethRing p 0x48 ≠ fld (s.reg (ethBase p + 0x54)) 11 0 % s.ethRing p 0x48)
    (length : 64 ≤ htx.length) (owned : ownerBit (htx.take 64) = true) (long : 60 ≤ leAt (htx.take 64) 8 2)
    (short : leAt (htx.take 64) 8 2 ≤ 9212) (gate : (s.gate p).on = false) (up : (s.eth p).link = true)
    (bare : leAt (htx.take 64) 10 2 % 2 = 0) :
    let len := leAt (htx.take 64) 8 2
    let i := (s.eth p).htxHead
    let data := (htx.drop 64).take len
    let t := s.handHtx p htx
    t = { s with
        eths := t.eths, regs := t.regs
        outbox := s.outbox ++ [.hostFrame p i none (withFcs (data ++ List.replicate (len - data.length) 0)), .htxDone p i 0] } ∧
      t.eth p = { s.eth p with htxHead := (i + 1) % s.ethRing p 0x48 } ∧ (∀ q, q ≠ p → t.eth q = s.eth q) ∧
      RegsKept s t [ethCnt p 5] ∧ (t.reg (ethCnt p 5)).toNat = min 0xFFFFFFFF ((s.reg (ethCnt p 5)).toNat + 1) := by
  intro len i data
  let e : Eth := { s.eth p with htxHead := (i + 1) % s.ethRing p 0x48 }
  obtain ⟨a, ha⟩ : ∃ a, a = s.setEth p e := ⟨_, rfl⟩
  obtain ⟨b, hb⟩ : ∃ b, b = a.bump (ethCnt p 5) := ⟨_, rfl⟩
  have eth (q : Nat) : a.eth q = if q = p then e else s.eth q := ha ▸ s.setEth_eth p e q
  have link : (a.eth p).link = true := by rw [eth, if_pos rfl, ← up]
  have opened : s.gateOpen p 0 (wireBytes len) = true := by simp [State.gateOpen, gate]
  have skip : (decide (len < 60) || decide (9212 < len)) = false := by simp [len, long, short]
  have stamp : nbit (leAt (htx.take 64) 10 2) 0 = false := by simp [nbit, bare]
  have run : s.handHtx p htx = (b.emit (.hostFrame p i none (withFcs (data ++ List.replicate (len - data.length) 0)))).emit
      (.htxDone p i 0) := by
    unfold State.handHtx
    dsimp only
    rw [if_neg (by simp [ring, filled, length, owned]), skip, opened, stamp, ← ha, if_pos link, hb]
    rfl
  have only : RegsOnly a b := hb ▸ a.bump_regsOnly _ 1
  have eths : b.eths = a.eths := by rw [only]
  have before : a.regs = s.regs ∧ a.outbox = s.outbox := by
    rw [ha]
    exact ⟨rfl, rfl⟩
  have reg (o : Nat) : b.reg o = if o = ethCnt p 5 then satIncW (s.reg (ethCnt p 5)) 1 else s.reg o := by
    have same (o : Nat) : a.reg o = s.reg o := by rw [State.reg, before.1, ← State.reg]
    rw [hb, State.bump_reg, same, same]
  have outbox : b.outbox = s.outbox := by rw [only, before.2]
  have frame : b = { s with regs := b.regs, eths := b.eths } := Eq.trans only (by rw [eths, ha]; rfl)
  rw [run, State.emit_own (s := b) rfl, State.emit_own rfl]
  dsimp only
  rw [outbox, List.append_assoc]
  refine ⟨?_, ?_, fun q ne => ?_, fun o away => (reg o).trans (if_neg (by simpa using away)), ?_⟩
  · rw [frame]
    rfl
  · exact (State.eth_congr eths p).trans ((eth p).trans (if_pos rfl))
  · exact (State.eth_congr eths q).trans ((eth q).trans (if_neg ne))
  · exact (congrArg BitVec.toNat ((reg _).trans (if_pos rfl))).trans (satIncW_toNat _ 1)

/-- Units that leave a queue as stale (R232): each counts, and no subscriber's record changes any more. -/
theorem State.dropStale_spec (l : List QUnit) (s : State) :
    let t := l.foldl (fun s q => ((s.dropUnit q).pruneKept q.ses).bump 0xE0108) s
    (∀ m, t.sub m = s.sub m) ∧ t.pat = s.pat ∧ (t.reg 0xE0108).toNat = min 0xFFFFFFFF ((s.reg 0xE0108).toNat + l.length) := by
  induction l generalizing s with
  | nil =>
    have := (s.reg 0xE0108).isLt
    refine ⟨fun _ => rfl, rfl, ?_⟩
    rw [List.foldl_nil, List.length_nil]
    omega
  | cons q l ih =>
    rw [List.foldl_cons]
    obtain ⟨sub, pat, count⟩ := ih (((s.dropUnit q).pruneKept q.ses).bump 0xE0108)
    have freed : ((s.dropUnit q).pruneKept q.ses).network = s.network := s.dropUnit_network q
    generalize (s.dropUnit q).pruneKept q.ses = a at *
    rw [State.bump_reg, if_pos rfl, satIncW_toNat, reg_of_network freed (by decide) (by decide)] at count
    refine ⟨fun m => (sub m).trans (sub_of_network freed m), pat.trans (pat_of_network freed : a.pat = s.pat), ?_⟩
    rw [count, List.length_cons]
    omega

/-- UNIT_STALE of a subscriber with a limit (R232). -/
theorem State.staleOp_spec {s : State} (live : s.live = true) {n : Nat} (limit : (tget 0 (s.sub n).d 3).toNat ≠ 0) :
    let lim := (tget 0 (s.sub n).d 3).toNat
    let t := s.staleOp n
    (t.sub n).queue = (s.sub n).queue.filter (fun q => decide (s.now < q.commit + lim)) ∧ (∀ m, m ≠ n → t.sub m = s.sub m) ∧
      t.pat = s.pat ∧ (t.reg 0xE0108).toNat =
        min 0xFFFFFFFF ((s.reg 0xE0108).toNat + ((s.sub n).queue.filter fun q => decide (q.commit + lim ≤ s.now)).length) := by
  intro lim
  let old (q : QUnit) : Bool := decide (q.commit + lim ≤ s.now)
  let a := s.setSub n { s.sub n with queue := (s.sub n).queue.filter fun q => !old q }
  have run : s.staleOp n = ((s.sub n).queue.filter old).foldl (fun s q => ((s.dropUnit q).pruneKept q.ses).bump 0xE0108) a :=
    if_pos (by simpa [live] using limit)
  have young : (fun q => !old q) = fun q : QUnit => decide (s.now < q.commit + lim) := by
    funext q
    simp only [old, ← not_lt, decide_not, Bool.not_not]
  obtain ⟨sub, pat, count⟩ := State.dropStale_spec ((s.sub n).queue.filter old) a
  rw [← run] at sub pat count
  refine ⟨?_, fun m ne => ?_, pat, count⟩
  · rw [sub, State.setSub_sub, if_pos rfl, ← young]
  · rw [sub, State.setSub_sub, if_neg ne]

theorem State.staleOp_none {s : State} {n : Nat} (none : (tget 0 (s.sub n).d 3).toNat = 0) : s.staleOp n = s :=
  if_neg (by simpa using fun _ => none)

/-- Settles O39, by what a rising credit, a packet that is handed off, a host frame and stale units change. -/
theorem mangleTraffic : Obligations.MangleTraffic := by
  intro s p n b c htx live
  refine ⟨⟨fun rate period low due => congrArg Host.Outcome.next (State.riseOp_rises live rate period low due),
    fun stays => congrArg Host.Outcome.next (State.riseOp_stays stays)⟩, ?_, ?_,
    ⟨fun limit => ⟨_, rfl, State.staleOp_spec live limit⟩, fun none => congrArg Host.Outcome.next (State.staleOp_none none)⟩⟩
  · intro goes x e charged moved read selected waits clean d bytes pk more rest queue pkts
    refine ⟨fun small on up stays plain => ?_, fun port fn is quiet => ?_⟩
    · obtain ⟨b, handed, run⟩ := State.selectOp_rtp live selected waits clean bytes queue pkts small on up stays plain htx
      obtain ⟨a, ha⟩ : ∃ a, a = b.bump (ethCnt p 5) := ⟨_, rfl⟩
      have only : RegsOnly b a := ha ▸ b.bump_regsOnly _ 1
      have sub (m : Nat) : a.sub m = b.sub m := only.sub m
      have bucket (l : BucketId) : a.bucket l = b.bucket l := by rw [only]; rfl
      have count : a.reg (ethCnt p 5) = satIncW (s.reg (ethCnt p 5)) 1 := by
        rw [ha, State.bump_reg, if_pos rfl, handed.regs _ (by unfold ethCnt ethBase; omega) (by unfold ethCnt ethBase; omega)]
      have pat : a.pat = b.pat := by rw [only]
      obtain ⟨l, y, list, own⟩ := handed.own
      rw [← ha] at run
      refine ⟨_, congrArg Host.Outcome.next run, ⟨?_, fun m ne => (sub m).trans (handed.others m ne), pat.trans handed.pat⟩,
        fun k mem has => (congrArg Bucket.c (bucket k)).trans (handed.charged k mem has), ?_, ?_, ?_,
        List.mem_append_right _ List.mem_cons_self⟩
      · rw [← list]
        exact congrArg (fun x : Sub => x.queue.map (·.pkts)) ((sub c.sub).trans own)
      · exact congrArg Sub.seq ((sub c.sub).trans own)
      · exact congrArg Sub.flow ((sub c.sub).trans own)
      · exact (congrArg BitVec.toNat count).trans (satIncW_toNat _ 1)
    · subst is
      obtain ⟨a, frame, ring, sent, handed⟩ := State.selectOp_hpr live selected waits clean bytes queue pkts port quiet htx
      have sub (m : Nat) : a.sub m = s.sub m := by rw [frame]; rfl
      have bucket (l : BucketId) : a.bucket l = s.bucket l := by rw [frame]; rfl
      have shape (l : BucketId) : a.shape l = s.shape l := by rw [frame]; rfl
      have pat : a.pat = s.pat := by rw [frame]
      obtain ⟨l, y, list, own⟩ := handed.own
      refine ⟨_, rfl, ⟨?_, fun m ne => (handed.others m ne).trans (sub m), handed.pat.trans pat⟩, fun k mem has => ?_,
        (handed.hprTail _).trans ring, handed.alarmed.sent _ sent⟩
      · rw [← list]
        exact congrArg (fun x : Sub => x.queue.map (·.pkts)) own
      · rw [← bucket]
        exact handed.charged k mem (by rwa [shape])
  · intro small on none size i entry len data
    have run : exec (.packetSelect p htx .good) s = .next (s.handHtx p htx) :=
      congrArg Host.Outcome.next (State.selectOp_host live small on none htx .good)
    refine ⟨fun ring filled length owned long short gate up bare => ?_,
      fun empty => run.trans (congrArg Host.Outcome.next (if_pos (.inl empty)))⟩
    obtain ⟨frame, own, others, kept, count⟩ := State.handHtx_sends ring (by rwa [fld_low]) length owned long short gate up bare
    exact ⟨_, run, frame, own, others _ (by omega), kept, count⟩

end Sys2Proof.Machine
end

section
/-!
O38: gate lists (R236 to R238). The rules of a port's gate record, then each command by the branch of its operation.
-/
namespace Sys2Proof.Machine

/-- Bits from 8 up of a word: the interval of a gate entry (R236). -/
theorem fld_interval (w : Word) : fld w 31 8 = w.toNat / 256 := by
  have := w.isLt
  simp only [fld, nfld]
  omega

/-- A table filled by one write per key of a list reads back what was written. -/
theorem tget_foldl_tset {α : Type} [DecidableEq α] (d : α) (f : Nat → α) (l : List Nat) (t : Tbl α) (i : Nat) :
    tget d (l.foldl (fun t k => tset d k (f k) t) t) i = if i ∈ l then f i else tget d t i := by
  induction l generalizing t with
  | nil => rfl
  | cons k l ih =>
    rw [List.foldl_cons, ih, tget_tset]
    by_cases here : i = k <;> simp [here]

@[simp] theorem State.setGate_gate (s : State) (p : Nat) (g : Gate) : (s.setGate p g).gate p = g := by
  simp [State.setGate, State.gate]

@[simp] theorem State.setGate_shape (s : State) (p : Nat) (g : Gate) (b : BucketId) : (s.setGate p g).shape b = s.shape b := by
  cases b <;> rfl

@[simp] theorem State.setGate_bucket (s : State) (p : Nat) (g : Gate) (b : BucketId) : (s.setGate p g).bucket b = s.bucket b := by
  cases b <;> rfl

theorem State.setGate_setBucket (s : State) (p : Nat) (g : Gate) (b : BucketId) (x : Bucket) :
    (s.setGate p g).setBucket b x = (s.setBucket b x).setGate p g := by
  cases b <;> rfl

/-- Credits rise alike whatever the gates do (R238). -/
theorem State.setGate_riseOp (s : State) (p : Nat) (g : Gate) (b : BucketId) :
    (s.setGate p g).riseOp b = (s.riseOp b).setGate p g := by
  simp only [State.riseOp, State.setGate_shape, State.setGate_bucket, State.setGate_setBucket, apply_ite (State.setGate · p g)]
  rfl

/-- A change of a legal list is pending until its time T (R237). -/
theorem State.gateCtl_change {s : State} {p : Nat} (legal : s.gateLegal p = true) (v : Word) :
    s.gateCtl p (v ||| 2) = s.setGate p { s.gate p with
      pending := true
      pendOn := bit v 0
      chg :=
        let base := joinW (s.reg (ethBase p + 0x144)) (s.reg (ethBase p + 0x148))
        if s.now < base then base else base + ((s.now - base) / s.gCycle p + 1) * s.gCycle p } := by
  rw [State.gateCtl, if_pos (bit_or_on v (by decide)), if_neg (by simp [legal]), bit_or_off v (by decide)]

/-- A change of an illegal list is ignored (R238). -/
theorem State.gateCtl_illegal {s : State} {p : Nat} (illegal : s.gateLegal p = false) (v : Word) :
    s.gateCtl p (v ||| 2) = s.ignored (ethBase p + 0x140) (v ||| 2) := by
  rw [State.gateCtl, if_pos (bit_or_on v (by decide)), if_pos (by simp [illegal])]

/-- A cancel withdraws a pending change (R238). -/
theorem State.gateCtl_cancel (s : State) (p : Nat) (v : Word) :
    s.gateCtl p (maskW 1 v ||| 4) = s.setGate p { s.gate p with pending := false } := by
  have change : bit (maskW 1 v) 1 = false := by
    rw [bit, maskW, BitVec.getLsbD_and, show (BitVec.ofNat 32 1).getLsbD 1 = false by decide, Bool.and_false]
  rw [State.gateCtl, if_neg (by rw [bit_or_off _ (by decide), change]; decide), if_pos (bit_or_on _ (by decide))]

/-- While a change is pending no write reaches the admin list, GBASE, GCYCLE or GLEN (R238). -/
theorem State.ethWrite_held {s : State} {p : Nat} (held : (s.gate p).pending = true) {r : Nat}
    (guarded : r ∈ [0x144, 0x148, 0x14C, 0x150] ∨ (0x400 ≤ r ∧ r < 0x800)) (v : Word) :
    s.ethWrite p r v = s.ignored (ethBase p + r) v := by
  simp only [List.mem_cons, List.not_mem_nil, or_false] at guarded
  unfold State.ethWrite
  dsimp only
  iterate 14 rw [if_neg (by omega)]
  simp only [held, true_or, if_true, ite_self]

/-- A word write into an Ethernet port's window (R219). -/
theorem exec_registerWrite_eth {s : State} (live : s.live = true) {p r : Nat} (port : p < 2) (inside : r < 0x1000)
    (aligned : r % 4 = 0) (v : Word) : exec (.registerWrite 0 (ethBase p + r) (.words [v])) s = .next (s.ethWrite p r v) := by
  have base : ethBase p = 0xE8000 + 0x1000 * p := rfl
  have window : (ignWindow (ethBase p + r)).1 = 0xE0030 := by
    have block : (ethBase p + r) / 0x10000 = 0xE := by omega
    simp [ignWindow, block, show ethBase p + r < 0x100000 by omega]
  rw [exec_registerWrite_word s 0 v (by omega), State.busWrite_pf live (by omega),
    s.pfWrite_block v (by omega) (.inr (by omega)) (.inr (by omega)), show (ethBase p + r) / 0x10000 = 0xE by omega,
    show (ethBase p + r) % 0x10000 = 0x8000 + 0x1000 * p + r by omega]
  show Host.Outcome.next (s.mglWrite (0x8000 + 0x1000 * p + r) v) = _
  unfold State.mglWrite
  iterate 10 rw [if_neg (by omega)]
  rw [if_pos (by omega), show (0x8000 + 0x1000 * p + r - 0x8000) / 0x1000 = p by omega,
    show (0x8000 + 0x1000 * p + r) % 0x1000 = r by omega]

section
variable {s : State} {p : Nat} (live : s.live = true) (port : p < 2)
include live port

/-- At T of an enabling change the admin list becomes the operating list (R237). -/
theorem State.gateStartOp_loads (pending : (s.gate p).pending = true) (due : (s.gate p).chg ≤ s.now)
    (on : (s.gate p).pendOn = true) :
    ∃ l, s.gateStartOp p = s.setGate p { s.gate p with
        oper := l, operLen := s.gLen p, operCycle := s.gCycle p, on := true, entry := 0, entryAt := (s.gate p).chg
        cycleAt := (s.gate p).chg, pending := false } ∧
      ∀ i, tget 0 l i = if i < s.gLen p then s.gAdm p i else 0 := by
  refine ⟨(upto (s.gLen p)).foldl (fun t k => tset 0 k (s.gAdm p k) t) [], ?_, fun i => ?_⟩
  · rw [State.gateStartOp, if_pos (by simp [live, port, pending, due]), if_pos on]
  · rw [tget_foldl_tset]
    simp only [mem_upto]
    rfl

/-- At T of a disabling change every gate opens (R237). -/
theorem State.gateStartOp_opens (pending : (s.gate p).pending = true) (due : (s.gate p).chg ≤ s.now)
    (off : (s.gate p).pendOn = false) :
    s.gateStartOp p = s.setGate p { s.gate p with oper := [], operLen := 0, on := false, entry := 0, pending := false } := by
  rw [State.gateStartOp, if_pos (by simp [live, port, pending, due]), if_neg (by simp [off])]

/-- An entry that has ended gives way to the one that follows it (R236). -/
theorem State.gateAdvanceOp_ended (on : (s.gate p).on = true) {stop : Nat}
    (ends : (s.gate p).endOf (s.gate p).entry (s.gate p).entryAt (s.gate p).cycleAt = stop) (due : stop ≤ s.now)
    {k start cycle : Nat} (next : (s.gate p).after (s.gate p).entry (s.gate p).entryAt (s.gate p).cycleAt = (k, start, cycle)) :
    s.gateAdvanceOp p = s.setGate p { s.gate p with entry := k, entryAt := start, cycleAt := cycle } := by
  rw [State.gateAdvanceOp, if_pos (by simp [live, port, on, ends, due]), next]

end

/-- Before T, or with no change pending, no list starts (R237). -/
theorem State.gateStartOp_stays {s : State} {p : Nat} (early : (s.gate p).pending = false ∨ s.now < (s.gate p).chg) :
    s.gateStartOp p = s := by
  refine if_neg ?_
  rcases early with none | before
  · simp [none]
  · simp [before]

/-- An entry that has not ended stays (R236). -/
theorem State.gateAdvanceOp_stays {s : State} {p : Nat}
    (early : s.now < (s.gate p).endOf (s.gate p).entry (s.gate p).entryAt (s.gate p).cycleAt) : s.gateAdvanceOp p = s :=
  if_neg (by simp [early])

section
variable {g : Gate} {k start cycle : Nat}

/-- An entry that is not the last holds for its interval, at most to the end of the cycle (R236). -/
theorem Gate.endOf_inner (inner : k + 1 < g.operLen) :
    g.endOf k start cycle = min (cycle + g.operCycle) (start + (tget 0 g.oper k).toNat / 256) := by
  rw [Gate.endOf, if_neg (by omega), fld_interval]

/-- The last entry, or one that outlasts the cycle, holds to its end (R236). -/
theorem Gate.endOf_outer
    (outer : g.operLen ≤ k + 1 ∨ cycle + g.operCycle ≤ start + (tget 0 g.oper k).toNat / 256) :
    g.endOf k start cycle = cycle + g.operCycle := by
  by_cases last : g.operLen ≤ k + 1
  · rw [Gate.endOf, if_pos last]
  · rw [Gate.endOf_inner (by omega), Nat.min_eq_left (outer.resolve_left last)]

theorem Gate.after_inner (inner : k + 1 < g.operLen) (ends : g.endOf k start cycle < cycle + g.operCycle) :
    g.after k start cycle = (k + 1, g.endOf k start cycle, cycle) := if_neg (by omega)

theorem Gate.after_outer (ends : g.endOf k start cycle = cycle + g.operCycle) :
    g.after k start cycle = (0, cycle + g.operCycle, cycle + g.operCycle) := if_pos (.inr ends.ge)

end

/-- Settles O38, by the branch of each gate command that the port's gate record selects. -/
theorem gateLists : Obligations.GateLists := by
  intro s p v live port g cycle len base at_
  have length : s.gLen p = len := fld_low _ 8
  have control (w : Word) : (s.whenLive fun s => if p < 2 then s.gateCtl p w else s) = s.gateCtl p w :=
    (if_pos live).trans (if_pos port)
  have change : exec (.gateChange p v) s = .next (s.gateCtl p (v ||| 2)) := congrArg Host.Outcome.next (control _)
  have cancel : exec (.gateCancel p v) s = .next (s.gateCtl p (maskW 1 v ||| 4)) := congrArg Host.Outcome.next (control _)
  refine ⟨fun legal => change.trans (congrArg _ (State.gateCtl_change legal v)),
    fun illegal => change.trans (congrArg _ (State.gateCtl_illegal illegal v)),
    cancel.trans (congrArg _ (s.gateCtl_cancel p v)), fun held r guarded => ?_, fun b h => ⟨_, rfl, _, rfl, ?_⟩,
    fun pending due on => ?_, fun pending due off => congrArg Host.Outcome.next (State.gateStartOp_opens live port pending due off),
    fun early => congrArg Host.Outcome.next (State.gateStartOp_stays early), fun on => ?_⟩
  · obtain ⟨inside, aligned⟩ : r < 0x1000 ∧ r % 4 = 0 := by
      simp only [List.mem_cons, List.not_mem_nil, or_false] at guarded
      omega
    rw [exec_registerWrite_eth live port inside aligned,
      State.ethWrite_held held (guarded.imp_right fun ⟨lo, hi, _⟩ => ⟨lo, hi⟩)]
  · rw [State.setGate_riseOp]
    exact ⟨State.setGate_bucket .., State.setGate_gate ..⟩
  · obtain ⟨l, start, list⟩ := State.gateStartOp_loads live port pending due on
    refine ⟨_, congrArg Host.Outcome.next start, ?_, ?_⟩
    · rw [State.setGate_gate, length]
      rfl
    · rw [State.setGate_gate, ← length]
      exact list
  · intro stop fin
    refine ⟨fun inner short due => congrArg Host.Outcome.next ?_, fun outer due => congrArg Host.Outcome.next ?_,
      fun inner early => congrArg Host.Outcome.next ?_⟩
    · have ends : g.endOf g.entry g.entryAt g.cycleAt = fin := (Gate.endOf_inner inner).trans (Nat.min_eq_right short.le)
      exact State.gateAdvanceOp_ended live port on ends due (ends ▸ Gate.after_inner inner (ends ▸ short))
    · have ends : g.endOf g.entry g.entryAt g.cycleAt = stop := Gate.endOf_outer outer
      exact State.gateAdvanceOp_ended live port on ends due (Gate.after_outer ends)
    · exact State.gateAdvanceOp_stays (early.trans_eq (Gate.endOf_inner inner).symm)

end Sys2Proof.Machine
end

section
/-!
O2: the canonical form of HBM contents. What holds of every command holds of every step (R9).
-/
namespace Sys2Proof.Machine

/-- Settles O2: an idle step keeps the state, and a step with a command does what the command does, which is sound. -/
theorem stepKeepsHbmForm : Obligations.StepKeepsHbmForm := by
  intro s t form run
  obtain ⟨takes, idles⟩ := stepTakesTheFrontCommand
  cases queue : s.pending with
  | nil =>
    cases (idles s queue).symm.trans run
    exact form
  | cons c rest =>
    obtain ⟨u, effect, -, -, -, keeps⟩ := commandsKeepQueueAndPart c { s with pending := rest }
    cases effect.symm.trans ((takes s c rest queue).symm.trans run)
    exact keeps form

end Sys2Proof.Machine
end

section
/-!
SUPPORT. What a fault that is raised leaves of the counts (R263 to R268): the sessions' replays, the registers from 0xF0030 up, where
no alarm counts, and with them the stacks and the record of the last uncorrectable line.
-/
namespace Sys2Proof.Machine

/-- The replays that the sessions count, the registers from 0xF0030 up, the stacks and DEP_LAST_UNC. -/
structure Reckoning where
  replays : Nat → Nat
  high : Nat → Word
  hbm : Tbl Stack
  lastUnc : Nat

def State.reckoning (s : State) : Reckoning where
  replays n := (s.ses n).replays
  high o := s.reg (0xF0030 + o)
  hbm := s.hbm
  lastUnc := s.lastUnc

section
variable {s t : State} (h : t.reckoning = s.reckoning)
include h

theorem replays_of_reckoning (n : Nat) : (t.ses n).replays = (s.ses n).replays := congrArg (·.replays n) h
theorem stack_of_reckoning (k : Nat) : t.stack k = s.stack k := congrArg (fun r : Reckoning => tget ({} : Stack) r.hbm k) h
theorem lastUnc_of_reckoning : t.lastUnc = s.lastUnc := congrArg Reckoning.lastUnc h

theorem reg_of_reckoning {o : Nat} (high : 0xF0030 ≤ o) : t.reg o = s.reg o := by
  have same : t.reg (0xF0030 + (o - 0xF0030)) = s.reg (0xF0030 + (o - 0xF0030)) := congrArg (·.high (o - 0xF0030)) h
  rwa [Nat.add_sub_cancel' high] at same

end

theorem State.setReg_reckoning (s : State) {o : Nat} (v : Word) (low : o < 0xF0030) : (s.setReg o v).reckoning = s.reckoning := by
  have high : (fun k => (s.setReg o v).reg (0xF0030 + k)) = fun k => s.reg (0xF0030 + k) :=
    funext fun k => (s.setReg_reg o v _).trans (if_neg (by omega))
  exact congrArg (fun f => { s.reckoning with high := f }) high

theorem State.bump_reckoning (s : State) {o : Nat} (k : Nat) (low : o < 0xF0030) : (s.bump o k).reckoning = s.reckoning :=
  s.setReg_reckoning _ low

theorem Posted.reckoning {s t : State} (h : Posted s t) : t.reckoning = s.reckoning := by rw [h]; rfl

theorem State.assertSrc_reckoning (s : State) {n : Nat} (small : n < 8) (detail : Word) (ses : Nat) :
    (s.assertSrc n detail ses).reckoning = s.reckoning := by
  unfold State.assertSrc
  extract_lets s1 old i hif s2
  have counted : s2.reckoning = s.reckoning := s.bump_reckoning 1 (by omega)
  split
  · exact counted
  split
  · exact (State.post_posted s2 _ _ _).reckoning.trans counted
  · exact counted

theorem State.sendFrame_reckoning (s : State) (p : Nat) (f : LFrame) : (s.sendFrame p f).reckoning = s.reckoning := by
  unfold State.sendFrame
  extract_lets x
  split
  · exact s.bump_reckoning 1 (by decide)
  split
  · exact (State.emit_posted _ _).reckoning
  · rfl

theorem State.note_reckoning (s : State) (a kind fig : Nat) : (s.note a kind fig).reckoning = s.reckoning := by
  unfold State.note
  extract_lets d mgr go
  have told (s : State) (dst : Nat) : (go s dst).reckoning = s.reckoning := by
    dsimp only [go]
    split
    · exact s.assertSrc_reckoning (by decide) d 0
    · exact s.sendFrame_reckoning _ _
  split
  · rfl
  split
  · exact told s mgr
  · exact (told _ 0).trans (told s mgr)

theorem State.safeNotice_reckoning (s : State) : s.safeNotice.reckoning = s.reckoning := by
  unfold State.safeNotice
  extract_lets s1
  have moved : s1.reckoning = s.reckoning := s.note_reckoning _ _ _
  split
  · exact moved
  · exact (s1.note_reckoning _ _ _).trans moved

theorem State.setSes_reckoning {s : State} {n : Nat} {x : Session} (h : x.replays = (s.ses n).replays) :
    (s.setSes n x).reckoning = s.reckoning := by
  have replays : (fun j => ((s.setSes n x).ses j).replays) = fun j => (s.ses j).replays := by
    funext j
    rw [State.setSes_ses]
    split
    next e => rw [h, e]
    next => rfl
  exact congrArg (fun f => { s.reckoning with replays := f }) replays

theorem State.publish_reckoning (s : State) (n : Nat) : (s.publish n).reckoning = s.reckoning := by
  unfold State.publish
  extract_lets x g f f'
  exact State.setSes_reckoning rfl

theorem State.toMigrating_reckoning (s : State) (n : Nat) (auto : Bool) : (s.toMigrating n auto).reckoning = s.reckoning := by
  unfold State.toMigrating
  extract_lets x s1
  have entered : s1.reckoning = s.reckoning := State.setSes_reckoning rfl
  exact (s1.publish_reckoning n).trans entered

theorem State.migrateOut_reckoning (s : State) (n : Nat) (auto : Bool) : (s.migrateOut n auto).reckoning = s.reckoning := by
  unfold State.migrateOut
  extract_lets x
  split
  · refine foldl_keeps State.reckoning _ (fun s m => ?_) _ s
    split
    · rfl
    · exact s.toMigrating_reckoning m auto
  · exact s.toMigrating_reckoning n auto

theorem State.askAbandon_reckoning (s : State) (c t : Nat) : (s.askAbandon c t).reckoning = s.reckoning := by
  unfold State.askAbandon
  split <;> rfl

theorem State.enterSafe_reckoning (s : State) : s.enterSafe.reckoning = s.reckoning := by
  unfold State.enterSafe
  extract_lets pwr ldr s1 s2 l lin s3 s4
  have asked : s3.reckoning = s.reckoning := foldl_keeps State.reckoning _ (fun s t => s.askAbandon_reckoning 1 t) _ s1
  have sent : s4.reckoning = s.reckoning :=
    (foldl_keeps State.reckoning _ (fun s n => s.migrateOut_reckoning n true) l s3).trans asked
  split
  · exact s4.safeNotice_reckoning.trans sent
  · exact sent

theorem State.reactDev_reckoning (s : State) (e : Settled) : (s.reactDev e).reckoning = s.reckoning := by
  unfold State.reactDev
  split
  · split
    · rfl
    · exact s.enterSafe_reckoning
  split <;> rfl

theorem State.signal_reckoning (s : State) (e : Settled) : (s.signal e).reckoning = s.reckoning := by
  unfold State.signal
  extract_lets cfg
  split
  · exact s.assertSrc_reckoning (by decide) _ _
  · rfl

theorem State.fireSlot_reckoning (s : State) {n : Nat} (small : n < 16) : (s.fireSlot n).reckoning = s.reckoning := by
  unfold State.fireSlot
  extract_lets w
  split
  · exact s.setReg_reckoning _ (by unfold trigReg; omega)
  · rfl

theorem State.lintPush_reckoning (s : State) (t : LintTrig) : (s.lintPush t).reckoning = s.reckoning := by
  unfold State.lintPush
  split
  · exact s.bump_reckoning 1 (by decide)
  · rfl

theorem State.lintFault_reckoning (s : State) (e : Settled) : (s.lintFault e).reckoning = s.reckoning := by
  unfold State.lintFault
  extract_lets slots word mk f s1 lnt s2
  have small : ∀ n ∈ slots, n < 16 := fun n mem => State.faultSlots_small mem
  have fired (l : List Nat) (sub : ∀ n ∈ l, n < 16) (s : State) :
      (l.foldl (fun s n => (s.lintPush (mk s n)).fireSlot n) s).reckoning = s.reckoning :=
    List.foldlRecOn (motive := fun t : State => t.reckoning = s.reckoning) l _ rfl fun t same n mem =>
      ((State.fireSlot_reckoning _ (sub n mem)).trans (t.lintPush_reckoning _)).trans same
  have first : s2.reckoning = s.reckoning := by
    show s1.reckoning = s.reckoning
    dsimp only [s1]
    split
    next n head => exact s.fireSlot_reckoning (small n (List.mem_of_mem_head? head))
    next => rfl
  split
  · exact (fired _ (fun n mem => small n (List.mem_of_mem_tail mem)) s2).trans first
  · exact fired slots small s

theorem State.recordFirst_reckoning (s : State) (e : Settled) : (s.recordFirst e).reckoning = s.reckoning := by
  unfold State.recordFirst
  split <;> rfl

/-- A device fault, whatever its class becomes. -/
theorem State.raiseDev_reckoning (s : State) (k : Nat) (detail : Word) (ses : Nat) :
    (s.raiseDev k detail ses).reckoning = s.reckoning := by
  unfold State.raiseDev
  extract_lets r e
  rw [State.reactDev_reckoning, State.signal_reckoning, State.lintFault_reckoning, State.recordFirst_reckoning]
  rfl

theorem State.refloor_reckoning (s : State) (p : Nat) : (s.refloor p).reckoning = s.reckoning := by
  unfold State.refloor
  split
  · exact s.setReg_reckoning _ (by omega)
  · rfl

theorem State.spareCheck_reckoning (s : State) (p : Nat) : (s.spareCheck p).reckoning = s.reckoning := by
  unfold State.spareCheck
  extract_lets a
  have floor : a.reckoning = s.reckoning := s.refloor_reckoning p
  split
  · exact (a.raiseDev_reckoning 14 0 0).trans floor
  · exact floor

/-- A tile without work that retires from a self-test (R254). -/
theorem State.retireTile_reckoning {s : State} {k : Nat} (testing : (s.tile k).role = .selfTest) (idle : (s.tile k).work = none) :
    (s.retireTile k).reckoning = s.reckoning := by
  have out : (s.takenOut k).reckoning = s.reckoning := State.bump_reckoning _ 1 (by decide)
  obtain none | ⟨j, -, promoted⟩ | waits := State.retireTile_cases testing idle
  · rw [none, State.spareCheck_reckoning, out]
  · have up : ((s.takenOut k).promote j).reckoning = (s.takenOut k).reckoning := State.bump_reckoning _ 1 (by decide)
    rw [promoted, State.spareCheck_reckoning, up, out]
  · rw [waits, State.refloor_reckoning]
    exact out

end Sys2Proof.Machine
end

section
/-!
SUPPORT. Faults of one tile that the collector takes together (R262 to R266): each latches, and the tile, out of work, stays in its
self-test or retires.
-/
namespace Sys2Proof.Machine

/-- Tile `k` runs nothing, and tests itself or is out of service. -/
def Tile.Withdrawn (x : Tile) : Prop := x.work = none ∧ (x.role = .selfTest ∨ x.role = .retired)

/-- `t` leaves what `KeepsPost` and the reckoning list as they are in `s`, and tile `k` withdrawn where it is withdrawn. -/
structure Withdraws (k : Nat) (s t : State) : Prop extends KeepsPost k s t where
  reckoning : t.reckoning = s.reckoning
  withdrawn : (s.tile k).Withdrawn → (t.tile k).Withdrawn

theorem Withdraws.trans {k : Nat} {s t u : State} (h : Withdraws k s t) (g : Withdraws k t u) : Withdraws k s u :=
  ⟨h.toKeepsPost.trans g.toKeepsPost, g.reckoning.trans h.reckoning, g.withdrawn ∘ h.withdrawn⟩

theorem Withdraws.of_still {k : Nat} {s t : State} {m : BitVec 64} (still : t.still = { s.still with status := s.flt.status ||| m })
    (reckoning : t.reckoning = s.reckoning) : Withdraws k s t := by
  obtain ⟨keeps, role⟩ := KeepsPost.of_still (k := k) still
  exact ⟨keeps, reckoning, fun ⟨idle, out⟩ => ⟨keeps.work.trans idle, by rwa [role]⟩⟩

theorem Withdraws.of_same {k : Nat} {s t : State} (still : t.still = s.still) (reckoning : t.reckoning = s.reckoning) :
    Withdraws k s t :=
  .of_still (m := 0#64) (by rw [still, BitVec.or_zero]; rfl) reckoning

theorem Withdraws.rfl {k : Nat} {s : State} : Withdraws k s s := .of_same (Eq.refl _) (Eq.refl _)

/-- A withdrawn tile that is to retire does, or has (R254). -/
theorem State.retireTile_withdraws {s : State} {k : Nat} (out : (s.tile k).Withdrawn) : Withdraws k s (s.retireTile k) := by
  obtain ⟨idle, testing | retired⟩ := out
  · obtain ⟨role, keeps⟩ := State.retireTile_spec testing idle
    exact ⟨keeps, State.retireTile_reckoning testing idle, fun _ => ⟨keeps.work.trans idle, .inr role⟩⟩
  · rw [State.retireTile_retired retired]
    exact .rfl

/-- The settled event is one of tile `k`. -/
def Settled.OfTile (k : Nat) (e : Settled) : Prop := scopeOf e.cls = .tile ∧ e.unit = k

/-- The reaction to a tile's event (Table 13.2). -/
theorem State.react_withdraws {s : State} {k : Nat} {e : Settled} (mine : e.OfTile k) (out : (s.tile k).Withdrawn) :
    Withdraws k s (s.react e) := by
  obtain ⟨scope, unit⟩ := mine
  unfold State.react
  rw [scope, unit]
  dsimp only
  split
  · exact State.retireTile_withdraws out
  · exact .rfl

/-- Steps that leave a withdrawn tile withdrawn, one after the other. -/
theorem Withdraws.foldl {α : Type} {k : Nat} (f : State → α → State) {l : List α}
    (h : ∀ s, ∀ a ∈ l, (s.tile k).Withdrawn → Withdraws k s (f s a)) {s : State} (out : (s.tile k).Withdrawn) :
    Withdraws k s (l.foldl f s) :=
  List.foldlRecOn (motive := Withdraws k s) l f .rfl fun t so a mem => so.trans (h t a mem (so.withdrawn out))

theorem mem_insSettled {e x : Settled} {l : List Settled} (h : x ∈ insSettled e l) : x = e ∨ x ∈ l := by
  induction l with
  | nil => exact .inl (List.mem_singleton.1 h)
  | cons y l ih =>
    rw [insSettled] at h
    split at h
    · exact List.mem_cons.1 h
    · obtain rfl | h := List.mem_cons.1 h
      · exact .inr List.mem_cons_self
      · exact (ih h).imp_right (List.mem_cons_of_mem y)

/-- The collector settles one event, unless its unit is out of scope (R263). -/
def settleNext (a : State × List Settled) (e : FaultEv) : State × List Settled :=
  if a.1.unitOk e.cls e.unit then ((a.1.settle e).1, insSettled (a.1.settle e).2 a.2) else a

/-- Events of tile `k` settle: each latches its class, and the settled ones are of the tile. -/
theorem foldl_settleNext {k : Nat} {evs : List FaultEv} (mine : ∀ e ∈ evs, scopeOf e.cls = .tile ∧ e.unit = k ∧ e.cls < 64)
    {a : State × List Settled} (small : k < a.1.nTiles) (own : ∀ e ∈ a.2, e.OfTile k) :
    let b := evs.foldl settleNext a
    Withdraws k a.1 b.1 ∧ (∀ e ∈ b.2, e.OfTile k) ∧ ∀ e ∈ evs, b.1.flt.status.getLsbD e.cls = true := by
  induction evs generalizing a with
  | nil => exact ⟨.rfl, own, List.forall_mem_nil _⟩
  | cons e evs ih =>
    obtain ⟨⟨scope, unit, narrow⟩, rest⟩ := List.forall_mem_cons.1 mine
    have ok : a.1.unitOk e.cls e.unit = true := by simp [State.unitOk, scope, unit, small]
    have step : settleNext a e = ((a.1.settle e).1, insSettled (a.1.settle e).2 a.2) := if_pos ok
    have settled : Withdraws k a.1 (a.1.settle e).1 := .of_still (a.1.settle_still e) rfl
    have latched : (a.1.settle e).1.flt.status.getLsbD e.cls = true := by
      rw [show (a.1.settle e).1.flt.status = a.1.flt.status ||| BitVec.ofNat 64 (2 ^ e.cls) from rfl, BitVec.getLsbD_or,
        BitVec.getLsbD_ofNat]
      simp [narrow]
    have next : ∀ x ∈ insSettled (a.1.settle e).2 a.2, x.OfTile k := fun x mem => by
      obtain rfl | mem := mem_insSettled mem
      · exact ⟨scope, unit⟩
      · exact own x mem
    obtain ⟨later, owns, on⟩ := ih rest (a := ((a.1.settle e).1, insSettled (a.1.settle e).2 a.2)) small next
    rw [List.foldl_cons, step]
    exact ⟨settled.trans later, owns, List.forall_mem_cons.2 ⟨later.status _ latched, on⟩⟩

/-- What is done with the settled events: the first is recorded, each is traced, signalled and acted on (R264 to R266). -/
def State.answered (s : State) (l : List Settled) : State :=
  let s := match l with
    | [] => s
    | e :: _ => s.recordFirst e
  let s := l.foldl (fun s e => s.lintFault e) s
  l.foldl (fun s e => (s.signal e).react e) s

theorem State.collect_eq (s : State) (evs : List FaultEv) :
    s.collect evs = ((mergeEvs [] evs).foldl settleNext (s, [])).1.answered ((mergeEvs [] evs).foldl settleNext (s, [])).2 := rfl

theorem State.answered_withdraws {s : State} {k : Nat} {l : List Settled} (mine : ∀ e ∈ l, e.OfTile k) (out : (s.tile k).Withdrawn) :
    Withdraws k s (s.answered l) := by
  unfold State.answered
  extract_lets a b
  have first : Withdraws k s a := by
    dsimp only [a]
    split
    · exact .rfl
    next e _ => exact .of_same (s.recordFirst_still e) (s.recordFirst_reckoning e)
  have traced : Withdraws k s b :=
    first.trans (.foldl _ (fun s e _ _ => .of_same (s.lintFault_still e) (s.lintFault_reckoning e)) (first.withdrawn out))
  refine traced.trans (.foldl _ (fun s e mem out => ?_) (traced.withdrawn out))
  have told : Withdraws k s (s.signal e) := .of_same (s.signal_still e) (s.signal_reckoning e)
  exact told.trans (State.react_withdraws (mine e mem) (told.withdrawn out))

/-- Faults of a withdrawn tile, once merged (R263): each latches its class, and the tile stays withdrawn. -/
theorem State.collect_withdraws {s : State} {k : Nat} {evs merged : List FaultEv} (merge : mergeEvs [] evs = merged)
    (mine : ∀ e ∈ merged, scopeOf e.cls = .tile ∧ e.unit = k ∧ e.cls < 64) (small : k < s.nTiles) (out : (s.tile k).Withdrawn) :
    Withdraws k s (s.collect evs) ∧ ∀ e ∈ merged, (s.collect evs).flt.status.getLsbD e.cls = true := by
  obtain ⟨settles, owns, on⟩ := foldl_settleNext mine (a := (s, [])) small (List.forall_mem_nil _)
  rw [State.collect_eq, merge]
  have answers := State.answered_withdraws owns (settles.withdrawn out)
  exact ⟨settles.trans answers, fun e mem => answers.status _ (on e mem)⟩

end Sys2Proof.Machine
end

section
/-!
O31: a failed commit check, a TRAP, an early YIELD and a wild fetch end a routine; a YIELD after the COMMIT rests its tile (R242, R247,
R276, R277).
-/
namespace Sys2Proof.Machine

/-- A unit that a failed check sends back: ready as a replay that avoids tile `k` (R247). -/
def WUnit.replaying (w : WUnit) (k : Nat) : WUnit := { w with st := .ready, replay := true, budget := false, failedOn := [k] }

/-- A unit goes back as a replay, counted in its session and in DEP_REPLAYS (R247). -/
def State.replayUnit (s : State) (u : UnitRef) (k : Nat) : State :=
  (((s.modUnit u (·.replaying k)).modSes u.ses Session.replayed).bump 0xF0010).count 5 0

theorem State.unitFailed_replays {s : State} {u : UnitRef} {p : Pic} {w : WUnit} (h : s.unitOf u = some (p, w))
    (left : w.attempts < fld (s.reg 0xF0000) 2 0) (k : Nat) : s.unitFailed u k true = s.replayUnit u k := by
  simp only [State.unitFailed, h, Nat.not_le.2 left, false_and, if_false, if_true]
  rfl

theorem State.replayUnit_spec {s : State} {u : UnitRef} {p : Pic} {w : WUnit} (h : s.unitOf u = some (p, w)) (k : Nat) :
    let t := s.replayUnit u k
    t.offUnits = s.offUnits ∧ RegsKept s t [0xF0010] ∧ (t.ses u.ses).replays = min 0xFFFFFFFF ((s.ses u.ses).replays + 1) ∧
      ∃ q, t.unitOf u = some (q, w.replaying k) := by
  extract_lets t
  let a := s.modUnit u (·.replaying k)
  let b := a.modSes u.ses Session.replayed
  have eq : t = (b.bump 0xF0010).count 5 0 := rfl
  have own : t.ses u.ses = (a.ses u.ses).replayed := by
    rw [eq, State.ses_of_sessions (State.count_sessions _ _ _ _), State.bump_ses, State.modSes_ses, if_pos rfl]
  have held : a.ses u.ses = (s.ses u.ses).modPic u.pic fun p => p.modUnit u.idx (·.replaying k) :=
    (s.modSes_ses _ _ _).trans (if_pos rfl)
  refine ⟨?_, fun o away => ?_, ?_, p.modUnit u.idx (·.replaying k), ?_⟩
  · rw [eq, State.count_offUnits, State.bump_offUnits, State.modSes_offUnits]
    exact s.modSes_offUnits _ _
  · rw [eq, State.count_reg, State.bump_reg, if_neg (List.ne_of_not_mem_cons away)]
    rfl
  · rw [own, held]
    rfl
  · rw [State.unitOf_congr (s := a) (congrArg Session.pics own :) (congrArg Session.kept own :)]
    exact State.modUnit_unitOf h fun _ => rfl

/-- A tile's routine ends on a failed check (R162, R247, R277): the check is recorded and counted, and the tile tests itself. -/
def State.trapped (s : State) (k : Nat) (u : UnitRef) (fails : Nat) (r : UnitResult) : State :=
  (((s.noteRct k u fails true r).bump (tileBase k + 0x2018)).bump 0xB0018).enterSelfTest k

theorem State.trapped_spec (s : State) (k : Nat) (u : UnitRef) (fails : Nat) (r : UnitResult) :
    let t := s.trapped k u fails r
    (t.tile k).Withdrawn ∧ t.offTiles = s.offTiles ∧ RegsKept s t [0x200000 + 0x8000 * k + 0x2018, 0xB0018] ∧
      t.reg (0x200000 + 0x8000 * k + 0x2018) = satIncW (s.reg (0x200000 + 0x8000 * k + 0x2018)) 1 := by
  intro t
  let a := s.noteRct k u fails true r
  let b := (a.bump (tileBase k + 0x2018)).bump 0xB0018
  obtain ⟨role, work, -, rest, regs⟩ := b.enterSelfTest_spec k
  have counts (o : Nat) : t.reg o = if o = 0xB0018 then satIncW ((a.bump (tileBase k + 0x2018)).reg 0xB0018) 1
      else if o = tileBase k + 0x2018 then satIncW (s.reg (tileBase k + 0x2018)) 1 else s.reg o := by
    have same : t.reg o = b.reg o := by rw [State.reg, show t.regs = b.regs from regs, ← State.reg]
    rw [same, State.bump_reg, State.bump_reg _ _ _ o]
    rfl
  refine ⟨⟨work, .inl role⟩, ?_, fun o away => ?_, ?_⟩
  · rw [show t.offTiles = b.offTiles from rest, State.bump_offTiles, State.bump_offTiles]
    exact s.setTile_offTiles _ _
  · simp only [List.mem_cons, List.not_mem_nil, or_false, not_or] at away
    rw [counts, if_neg away.2, if_neg (by simpa [tileBase] using away.1)]
  · rw [counts, if_neg (by omega), tileBase, if_pos rfl]

/-- The events of a failed check of a unit of session `n` on tile `k`: class 8, and class 20 with the bounds test (R187, R247). -/
def trapEvents (k n : Nat) (bounds : Bool) : List FaultEv :=
  { cls := 8, unit := k, ses := n } :: if bounds then [{ cls := 20, unit := k, ses := n }] else []

/-- The events of a failed check are of two classes, and none merges with another (R263). -/
theorem mergeEvs_trapEvents (k n : Nat) (bounds : Bool) : mergeEvs [] (trapEvents k n bounds) = trapEvents k n bounds := by
  cases bounds <;> rfl

theorem trapEvents_ofTile (k n : Nat) (bounds : Bool) :
    ∀ e ∈ trapEvents k n bounds, scopeOf e.cls = .tile ∧ e.unit = k ∧ e.cls < 64 := by
  have eight : scopeOf 8 = .tile := rfl
  have twenty : scopeOf 20 = .tile := rfl
  cases bounds <;> simp [trapEvents, eight, twenty]

theorem State.trapUnit_eq {s : State} {k : Nat} {u : UnitRef} (work : (s.tile k).work = some u)
    (uncommitted : (s.tile k).ndl.committed = false) (r : UnitResult) :
    ∃ fails bounds, s.trapUnit k r = ((s.trapped k u fails r).unitFailed u k true).collect (trapEvents k u.ses bounds) := by
  unfold State.trapUnit
  split
  next idle => exact absurd (work.symm.trans idle) (Option.some_ne_none u)
  next v runs =>
    obtain rfl := Option.some.inj (work.symm.trans runs)
    extract_lets fails done a b c d
    have failed : d = (s.trapped k u fails r).unitFailed u k true := if_neg (by simp [done, uncommitted])
    rw [failed]
    split
    · exact ⟨fails, true, rfl⟩
    · exact ⟨fails, false, rfl⟩

section
variable {s t : State} (h : t.offTiles = s.offTiles)
include h

theorem State.ses_of_offTiles (n : Nat) : t.ses n = s.ses n := (congrArg (State.ses · n) h :)

theorem State.nTiles_of_offTiles : t.nTiles = s.nTiles := (congrArg State.nTiles h :)

theorem State.unitOf_of_offTiles (u : UnitRef) : t.unitOf u = s.unitOf u :=
  State.unitOf_congr (congrArg Session.pics (State.ses_of_offTiles h u.ses)) (congrArg Session.kept (State.ses_of_offTiles h u.ses))

end

section
variable {s t : State} (h : t.offUnits = s.offUnits)
include h

theorem State.tile_of_offUnits (k : Nat) : t.tile k = s.tile k := (congrArg (State.tile · k) h :)

theorem State.nTiles_of_offUnits : t.nTiles = s.nTiles := (congrArg State.nTiles h :)

end

/-- The routine of a tile with an uncommitted unit ends on a failed check (R247, R277). -/
theorem State.trapUnit_spec {s : State} {k : Nat} {u : UnitRef} {p : Pic} {w : WUnit} (small : k < s.nTiles)
    (work : (s.tile k).work = some u) (unit : s.unitOf u = some (p, w)) (uncommitted : (s.tile k).ndl.committed = false)
    (left : w.attempts < fld (s.reg 0xF0000) 2 0) (r : UnitResult) :
    let t := s.trapUnit k r
    (t.tile k).Withdrawn ∧ t.flt.status.getLsbD 8 = true ∧
      t.reg (0x200000 + 0x8000 * k + 0x2018) = satIncW (s.reg (0x200000 + 0x8000 * k + 0x2018)) 1 ∧
      (t.ses u.ses).replays = min 0xFFFFFFFF ((s.ses u.ses).replays + 1) ∧ ∃ q, t.unitOf u = some (q, w.replaying k) := by
  obtain ⟨fails, bounds, trap⟩ := State.trapUnit_eq work uncommitted r
  rw [trap]
  obtain ⟨out, tested, regs, count⟩ := s.trapped_spec k u fails r
  generalize s.trapped k u fails r = a at *
  have found : a.unitOf u = some (p, w) := (State.unitOf_of_offTiles tested u).trans unit
  have limit : a.reg 0xF0000 = s.reg 0xF0000 := regs _ (by simp; omega)
  have ses : a.ses u.ses = s.ses u.ses := State.ses_of_offTiles tested u.ses
  have tiles : a.nTiles = s.nTiles := State.nTiles_of_offTiles tested
  rw [State.unitFailed_replays found (limit ▸ left) k]
  obtain ⟨failed, kept, replays, q, replay⟩ := State.replayUnit_spec found k
  generalize a.replayUnit u k = b at *
  have tile : b.tile k = a.tile k := State.tile_of_offUnits failed k
  have tiles' : b.nTiles = a.nTiles := State.nTiles_of_offUnits failed
  obtain ⟨withdraws, on⟩ := State.collect_withdraws (mergeEvs_trapEvents k u.ses bounds) (trapEvents_ofTile k u.ses bounds)
    (tiles'.trans tiles ▸ small) (tile ▸ out)
  generalize b.collect (trapEvents k u.ses bounds) = t at *
  have units := withdraws.units u.ses
  refine ⟨withdraws.withdrawn (tile ▸ out), on _ List.mem_cons_self, ?_, ?_, q, ?_⟩
  · rw [reg_of_reckoning withdraws.reckoning (by omega), kept _ (by simp; omega), count]
  · rw [replays_of_reckoning withdraws.reckoning, replays, ses]
  · rw [State.unitOf_congr (congrArg Prod.fst units) (congrArg (·.2.1) units), replay]

/-- What the needle counts as it fetches (R399, Table 21.1). -/
def State.fetched (s : State) (k : Nat) : State := if (s.tile k).ndl.state = 2 then s.countTile k 0x42 else s.countTile k 0x41

theorem State.fetched_eq (s : State) (k : Nat) : ∃ pmu, s.fetched k = { s with pmu := pmu } := by
  have same : (s.fetched k).offPmu = s.offPmu := by
    unfold State.fetched
    split <;> exact s.countTile_offPmu _ _
  exact ⟨_, congrArg (fun x : State => { x with pmu := (s.fetched k).pmu }) same⟩

theorem State.fetches_small {s : State} {k : Nat} (h : s.fetches k = true) : k < s.nTiles := by
  simp only [State.fetches, Bool.and_eq_true, decide_eq_true_eq] at h
  obtain ⟨⟨⟨⟨⟨-, small⟩, -⟩, -⟩, -⟩, -⟩ := h
  exact small

/-- A fetch outside the stores ends the routine (R276). -/
theorem State.needle_wild {s : State} {k : Nat} (fetches : s.fetches k = true) (wild : (s.tile k).wordAt (s.tile k).ndl.pc = none)
    (cl : Nat) (f : State → Word → State) : s.needle k cl f = ((s.fetched k).modTile k Tile.issue).trapUnit k {} := by
  rw [State.needle, if_pos fetches]
  dsimp only
  rw [wild]
  rfl

/-- A word of the command's class issues (log 41). -/
theorem State.needle_issues {s : State} {k : Nat} {v : Word} (fetches : s.fetches k = true)
    (word : (s.tile k).wordAt (s.tile k).ndl.pc = some v) {cl : Nat} (class_ : opClass v = cl) (f : State → Word → State) :
    s.needle k cl f = f (s.fetched k) v := by
  rw [State.needle, if_pos fetches]
  dsimp only
  rw [word]
  exact if_pos class_

/-- A COMMIT that fails its check ends as a TRAP (R242, R277). -/
theorem State.commitWord_traps {s : State} {k : Nat} {u : UnitRef} {p : Pic} {w : WUnit} {r : UnitResult}
    (work : (s.tile k).work = some u) (unit : s.unitOf u = some (p, w)) (uncommitted : (s.tile k).ndl.committed = false)
    (fails : s.checkUnit u p w r ≠ 0) : s.commitWord k r = (s.modTile k Tile.issue).trapUnit k r := by
  unfold State.commitWord
  simp only [work, unit, uncommitted, fails, ne_eq, not_false_eq_true, if_true, if_false, Bool.false_eq_true]

theorem State.issued_committed (s : State) (k : Nat) :
    ((s.modTile k Tile.issue).tile k).ndl.committed = (s.tile k).ndl.committed := by
  rw [State.modTile_tile, if_pos rfl]
  rfl

/-- A YIELD before the COMMIT ends as a TRAP (R277). -/
theorem State.yieldWord_traps {s : State} {k : Nat} (uncommitted : (s.tile k).ndl.committed = false) :
    s.yieldWord k = (s.modTile k Tile.issue).trapUnit k {} :=
  if_neg (by rw [State.issued_committed, uncommitted]; decide)

/-- A YIELD after the COMMIT rests the tile (R87, R277). -/
theorem State.yieldWord_rests {s : State} {k : Nat} (committed : (s.tile k).ndl.committed = true) :
    s.yieldWord k = (s.modTile k Tile.issue).modTile k (·.rest s.now) :=
  if_pos (by rw [State.issued_committed, committed])

/-- What a routine that ends as a TRAP leaves: the outcome of the first clause of O31. -/
theorem State.issued_trapUnit_spec {s : State} {k : Nat} {u : UnitRef} {p : Pic} {w : WUnit} (small : k < s.nTiles)
    (work : (s.tile k).work = some u) (unit : s.unitOf u = some (p, w)) (uncommitted : (s.tile k).ndl.committed = false)
    (left : w.attempts < fld (s.reg 0xF0000) 2 0) (r : UnitResult) :
    let t := (s.modTile k Tile.issue).trapUnit k r
    (t.tile k).work = none ∧ ((t.tile k).role = .selfTest ∨ (t.tile k).role = .retired) ∧ t.flt.status.getLsbD 8 = true ∧
      (t.reg (0x200000 + 0x8000 * k + 0x2018)).toNat =
        min 0xFFFFFFFF ((s.reg (0x200000 + 0x8000 * k + 0x2018)).toNat + 1) ∧
      (t.ses u.ses).replays = min 0xFFFFFFFF ((s.ses u.ses).replays + 1) ∧
      ∃ q v, t.unitOf u = some (q, v) ∧ v.st = .ready ∧ v.replay = true ∧ k ∈ v.failedOn := by
  have own : ((s.modTile k Tile.issue).tile k).work = some u := by
    rw [State.modTile_tile, if_pos rfl]
    exact work
  obtain ⟨⟨idle, out⟩, on, count, replays, q, replay⟩ :=
    State.trapUnit_spec (s := s.modTile k Tile.issue) small own unit ((s.issued_committed k).trans uncommitted) left r
  exact ⟨idle, out, on, by rw [count, satIncW_toNat]; rfl, replays, q, _, replay, rfl, rfl, List.mem_singleton.2 rfl⟩

/-- Settles O31: whatever ends the routine, the word issues and the unit traps; a YIELD after the COMMIT touches its tile alone. -/
theorem trapAndYield : Obligations.TrapAndYield := by
  intro s k u p w c fetches work unit _ at_
  have small := State.fetches_small fetches
  obtain ⟨pmu, frame⟩ := s.fetched_eq k
  refine ⟨fun uncommitted left how => ?_, fun committed v yields word class_ => ?_⟩
  · suffices traps : ∃ r, exec c s = .next (((s.fetched k).modTile k Tile.issue).trapUnit k r) by
      obtain ⟨r, run⟩ := traps
      refine ⟨_, run, ?_⟩
      rw [frame]
      exact State.issued_trapUnit_spec (s := { s with pmu := pmu }) small work unit uncommitted left r
    obtain ⟨r, v, rfl, word, class_⟩ | ⟨v, rfl, word, class_⟩ | ⟨r, v, rfl, word, class_, fails⟩ | ⟨r, rfl, wild⟩ := how
    · exact ⟨r, congrArg Host.Outcome.next (State.needle_issues fetches word class_ _)⟩
    · refine ⟨{}, congrArg Host.Outcome.next ((State.needle_issues fetches word class_ _).trans ?_)⟩
      rw [frame]
      exact State.yieldWord_traps uncommitted
    · refine ⟨r, congrArg Host.Outcome.next ((State.needle_issues fetches word class_ _).trans ?_)⟩
      rw [frame]
      exact State.commitWord_traps work unit uncommitted fails
    · exact ⟨{}, congrArg Host.Outcome.next (State.needle_wild fetches wild _ _)⟩
  · subst yields
    have run : exec (.yield k) s = .next (((s.fetched k).modTile k Tile.issue).modTile k (·.rest s.now)) := by
      refine congrArg Host.Outcome.next ((State.needle_issues fetches word class_ _).trans ?_)
      rw [frame]
      exact State.yieldWord_rests committed
    have tile (j : Nat) : (((s.fetched k).modTile k Tile.issue).modTile k (·.rest s.now)).tile j =
        if j = k then (s.tile k).issue.rest s.now else s.tile j := by
      rw [frame, State.modTile_tile, State.modTile_tile, State.modTile_tile]
      split
      · rw [if_pos rfl]
        rfl
      · rfl
    have own := (tile k).trans (if_pos rfl)
    refine ⟨_, run, ?_, fun j ne => (tile j).trans (if_neg ne), congrArg Tile.work own, congrArg Tile.power own,
      congrArg Tile.since own, congrArg (·.ndl.state) own, congrArg (·.ndl.gpr) own⟩
    rw [frame]
    rfl

end Sys2Proof.Machine
end

section
/-!
SUPPORT. A line of HBM (R256, R257): the 72 symbols that it holds, what a store writes and leaves, and what a read of it leaves.
-/
namespace Sys2Proof.Machine

theorem length_rsStep {r : List Byte} (h : r.length = 4) (c : Byte) : (rsStep r c).length = 4 := by
  have gen : rsGen.length = 4 := by decide
  simp [rsStep, h, gen]

theorem length_rsChecks (info : List Byte) : (rsChecks info).length = 4 :=
  List.foldlRecOn (motive := fun r : List Byte => r.length = 4) info rsStep rfl fun _ h c _ => length_rsStep h c

theorem State.length_codeword (s : State) (a : Nat) : (s.codeword a).length = 72 := by
  simp [State.codeword, State.bytes, upto]

theorem length_rsFlip (cs : List Byte) (errs : List (Nat × Byte)) : (rsFlip cs errs).length = cs.length :=
  List.foldlRecOn (motive := fun l : List Byte => l.length = cs.length) errs _ rfl fun _ h _ _ => List.length_set.trans h

theorem State.codeword_congr {s t : State} (mem : t.mem = s.mem) (side : t.side = s.side) (a : Nat) :
    t.codeword a = s.codeword a := by
  simp only [State.codeword, State.bytes, State.byte, State.sideAt, mem, side]

/-- Every byte and side symbol away from a line reads as before. -/
def OtherLines (line : Nat) (s t : State) : Prop :=
  (∀ b, b / 64 ≠ line → t.byte b = s.byte b) ∧ ∀ l i, l ≠ line → i < 8 → t.sideAt l i = s.sideAt l i

/-- A line holds 72 symbols: its bytes, then its side symbols. -/
def State.HoldsLine (t : State) (line : Nat) (cs : List Byte) : Prop :=
  (∀ i, i < 64 → t.byte (line * 64 + i) = cs.getD i 0) ∧ ∀ i, i < 8 → t.sideAt line i = cs.getD (64 + i) 0

theorem State.setBytes_side (s : State) (a : Nat) (bs : List Byte) : (s.setBytes a bs).side = s.side := by
  induction bs generalizing s a with
  | nil => rfl
  | cons b bs ih => exact ih (s.setByte a b) (a + 1)

theorem State.setSide_outside (s : State) (line i : Nat) (bs : List Byte) {n : Nat}
    (away : n < line * 8 + i ∨ line * 8 + i + bs.length ≤ n) : tget 0 (s.setSide line i bs).side n = tget 0 s.side n := by
  induction bs generalizing s i with
  | nil => rfl
  | cons b bs ih =>
    rw [List.length_cons] at away
    rw [State.setSide, ih _ _ (by omega), tget_tset, if_neg (by omega)]

theorem State.setSide_inside (s : State) (line i : Nat) (bs : List Byte) {j : Nat} (inside : j < bs.length) :
    (s.setSide line i bs).sideAt line (i + j) = bs.getD j 0 := by
  induction bs generalizing s i j with
  | nil => exact absurd inside (Nat.not_lt_zero j)
  | cons b bs ih =>
    rw [State.setSide]
    cases j with
    | zero =>
      rw [State.sideAt, State.setSide_outside _ _ _ _ (.inl (by omega)), Nat.add_zero, tget_tset, if_pos rfl]
      rfl
    | succ j =>
      rw [show i + (j + 1) = i + 1 + j by omega, ih _ _ (Nat.lt_of_succ_lt_succ inside)]
      rfl

theorem State.storeLine_others (s : State) (a : Nat) {cs : List Byte} (full : cs.length = 72) :
    OtherLines (a / 64) s (s.storeLine a cs) := by
  refine ⟨fun b ne => ?_, fun l i ne small => ?_⟩
  · rw [State.storeLine, State.setSide_byte, State.setBytes_byte]
    rw [List.length_take]
    omega
  · rw [State.sideAt, State.storeLine, State.setSide_outside, State.setBytes_side, ← State.sideAt]
    rw [List.length_drop]
    omega

theorem State.storeLine_holds (s : State) (a : Nat) {cs : List Byte} (full : cs.length = 72) :
    (s.storeLine a cs).HoldsLine (a / 64) cs := by
  refine ⟨fun i small => ?_, fun i small => ?_⟩
  · rw [State.storeLine, State.setSide_byte, State.setBytes_byte_in _ _ _ _ (by rw [List.length_take]; omega)]
    simp [List.getD_eq_getElem?_getD, small]
  · rw [State.storeLine, ← Nat.zero_add i, State.setSide_inside _ _ _ _ (by rw [List.length_drop]; omega), Nat.zero_add]
    simp [List.getD_eq_getElem?_getD, List.getElem?_drop]

/-- A store writes HBM contents alone. -/
theorem State.storeLine_frame (s : State) (a : Nat) (cs : List Byte) :
    s.storeLine a cs = { s with mem := (s.storeLine a cs).mem, side := (s.storeLine a cs).side } := by
  have bytes (a : Nat) (bs : List Byte) (s : State) : s.setBytes a bs = { s with mem := (s.setBytes a bs).mem } := by
    induction bs generalizing s a with
    | nil => rfl
    | cons b bs ih => exact ih (a + 1) (s.setByte a b)
  have side (line i : Nat) (bs : List Byte) (s : State) : s.setSide line i bs = { s with side := (s.setSide line i bs).side } := by
    induction bs generalizing s i with
    | nil => rfl
    | cons b bs ih => exact ih (i + 1) _
  rw [State.storeLine, side, bytes]

theorem ReadOnly.trans {s t u : State} (h : ReadOnly s t) (g : ReadOnly t u) : ReadOnly s u := by
  unfold ReadOnly at *
  exact Eq.trans g (by rw [h])

theorem State.setStack_readOnly (s : State) (k : Nat) (x : Stack) : ReadOnly s (s.setStack k x) := rfl

theorem State.count_eq (s : State) (code unit k : Nat) : ∃ pmu, s.count code unit k = { s with pmu := pmu } :=
  ⟨_, congrArg (fun x : State => { x with pmu := (s.count code unit k).pmu }) (s.count_offPmu code unit k)⟩

theorem State.count_readOnly (s : State) (code unit k : Nat) : ReadOnly s (s.count code unit k) := by
  obtain ⟨pmu, frame⟩ := s.count_eq code unit k
  rw [frame]
  rfl

/-- An access of a row moves the state of its stack's banks (R296), and counts a hit. -/
theorem State.access_spec (s : State) (p : LinePos) :
    ReadOnly s (s.access p) ∧ (∀ j, j ≠ p.stack → (s.access p).stack j = s.stack j) ∧
      ∀ j, ((s.access p).stack j).scrubPos = (s.stack j).scrubPos := by
  unfold State.access
  extract_lets x y k b hit n mode keep b' x' clr t
  have moved : ReadOnly s t := s.setStack_readOnly _ _
  have stack (j : Nat) : t.stack j = if j = p.stack then { x' with sr := clr x'.sr, pd := clr x'.pd } else s.stack j :=
    s.setStack_stack _ _ j
  have others (j : Nat) (ne : j ≠ p.stack) : t.stack j = s.stack j := (stack j).trans (if_neg ne)
  have scrub (j : Nat) : (t.stack j).scrubPos = (s.stack j).scrubPos := by
    rw [stack]
    split
    next e => rw [e]; rfl
    next => rfl
  clear_value t
  split
  · obtain ⟨pmu, frame⟩ := t.count_eq 0x23 p.stack 1
    refine ⟨moved.trans (t.count_readOnly _ _ _), ?_⟩
    rw [frame]
    exact ⟨others, scrub⟩
  · exact ⟨moved, others, scrub⟩

/-- `t` leaves the pattern, HBM contents and the place of every stack's scrubber as they are in `s`. -/
structure Undisturbed (s t : State) : Prop where
  pat : t.pat = s.pat
  mem : t.mem = s.mem
  side : t.side = s.side
  scrub : ∀ k, (t.stack k).scrubPos = (s.stack k).scrubPos

theorem Undisturbed.trans {s t u : State} (h : Undisturbed s t) (g : Undisturbed t u) : Undisturbed s u :=
  ⟨g.pat.trans h.pat, g.mem.trans h.mem, g.side.trans h.side, fun k => (g.scrub k).trans (h.scrub k)⟩

theorem Undisturbed.sameLines {s t : State} (h : Undisturbed s t) :
    (∀ b, t.byte b = s.byte b) ∧ ∀ l i, t.sideAt l i = s.sideAt l i :=
  ⟨fun b => by rw [State.byte, h.mem, ← State.byte], fun l i => by rw [State.sideAt, h.side, ← State.sideAt]⟩

theorem State.bump_undisturbed (s : State) (off k : Nat) : Undisturbed s (s.bump off k) := ⟨rfl, rfl, rfl, fun _ => rfl⟩

theorem State.lastUnc_undisturbed (s : State) (v : Nat) : Undisturbed s { s with lastUnc := v } := ⟨rfl, rfl, rfl, fun _ => rfl⟩

theorem State.count_undisturbed (s : State) (code unit k : Nat) : Undisturbed s (s.count code unit k) := by
  obtain ⟨pmu, frame⟩ := s.count_eq code unit k
  rw [frame]
  exact ⟨rfl, rfl, rfl, fun _ => rfl⟩

theorem State.access_undisturbed (s : State) (p : LinePos) : Undisturbed s (s.access p) := by
  obtain ⟨only, -, scrub⟩ := s.access_spec p
  unfold ReadOnly at only
  refine ⟨?_, ?_, ?_, scrub⟩ <;> rw [only]

theorem State.countLanes_undisturbed (s : State) (k c : Nat) (errs : List (Nat × Byte)) : Undisturbed s (s.countLanes k c errs) := by
  refine ⟨rfl, rfl, rfl, fun j => ?_⟩
  rw [State.countLanes, State.setStack_stack]
  split
  next e => rw [e]; rfl
  next => rfl

theorem State.raiseDev_undisturbed (s : State) (k : Nat) (detail : Word) (ses : Nat) :
    Undisturbed s (s.raiseDev k detail ses) := by
  have kept := s.raiseDev_kept k detail ses
  exact ⟨s.raiseDev_pat k detail ses, congrArg (·.2.2.2.1) kept, congrArg (·.2.2.2.2.1) kept,
    fun j => congrArg Stack.scrubPos (stack_of_reckoning (s.raiseDev_reckoning k detail ses) j)⟩

/-- A device fault latches its class (R264). -/
theorem State.raiseDev_latched (s : State) {k : Nat} (narrow : k < 64) (detail : Word) (ses : Nat) :
    (s.raiseDev k detail ses).flt.status.getLsbD k = true := by
  have status : (s.raiseDev k detail ses).flt.status = s.flt.status ||| BitVec.ofNat 64 (2 ^ k) :=
    congrArg Still.status (s.raiseDev_still k detail ses)
  rw [status, BitVec.getLsbD_or, BitVec.getLsbD_ofNat]
  simp [narrow]

/-- Corrected symbols are counted, and class 22 is raised (R257, R305). -/
def State.corrected (s : State) (p : LinePos) (es : List (Nat × Byte)) : State :=
  (((s.bump 0xF0044).bump (chanBase p.stack p.chan)).countLanes p.stack p.chan es).raiseDev 22

/-- An uncorrectable line is counted and recorded, and class 23 is raised (R257, R261, R305). -/
def State.uncorrected (s : State) (p : LinePos) (rec : Nat) : State :=
  ({ (s.bump 0xF0048).bump (chanBase p.stack p.chan + 4) with lastUnc := rec } : State).raiseDev 23

theorem State.countLanes_reg (s : State) (k c : Nat) (errs : List (Nat × Byte)) (o : Nat) :
    (s.countLanes k c errs).reg o = s.reg o := rfl

theorem State.lastUnc_reg (s : State) (v o : Nat) : ({ s with lastUnc := v } : State).reg o = s.reg o := rfl

/-- A count of DEP is counted once, whatever a line channel counts beside it. -/
theorem State.bump_bump_reg (s : State) {o c : Nat} (ne : o ≠ c) : ((s.bump o).bump c).reg o = satIncW (s.reg o) 1 := by
  rw [State.bump_reg, if_neg ne, State.bump_reg, if_pos rfl]

theorem State.corrected_spec (s : State) (p : LinePos) (es : List (Nat × Byte)) :
    Undisturbed s (s.corrected p es) ∧ (s.corrected p es).flt.status.getLsbD 22 = true ∧
      (s.corrected p es).reg 0xF0044 = satIncW (s.reg 0xF0044) 1 := by
  have high := chanBase_high p.stack p.chan
  refine ⟨?_, State.raiseDev_latched _ (by decide) _ _, ?_⟩
  · exact (((s.bump_undisturbed _ 1).trans (State.bump_undisturbed _ _ 1)).trans (State.countLanes_undisturbed _ _ _ _)).trans
      (State.raiseDev_undisturbed _ 22 0 0)
  · rw [State.corrected, reg_of_reckoning (State.raiseDev_reckoning _ 22 0 0) (by omega), State.countLanes_reg]
    exact s.bump_bump_reg (by omega)

theorem State.uncorrected_spec (s : State) (p : LinePos) (rec : Nat) :
    Undisturbed s (s.uncorrected p rec) ∧ (s.uncorrected p rec).flt.status.getLsbD 23 = true ∧
      (s.uncorrected p rec).reg 0xF0048 = satIncW (s.reg 0xF0048) 1 ∧ (s.uncorrected p rec).lastUnc = rec := by
  have high := chanBase_high p.stack p.chan
  refine ⟨?_, State.raiseDev_latched _ (by decide) _ _, ?_, ?_⟩
  · exact (((s.bump_undisturbed _ 1).trans (State.bump_undisturbed _ _ 1)).trans (State.lastUnc_undisturbed _ rec)).trans
      (State.raiseDev_undisturbed _ 23 0 0)
  · rw [State.uncorrected, reg_of_reckoning (State.raiseDev_reckoning _ 23 0 0) (by omega), State.lastUnc_reg]
    exact s.bump_bump_reg (by omega)
  · rw [State.uncorrected, lastUnc_of_reckoning (State.raiseDev_reckoning _ 23 0 0)]

section
variable {s : State} {a : Nat} {errs : List (Nat × Byte)} (scrub : Bool)

theorem State.readLine_clean (h : rsDecode (rsFlip (s.codeword a) errs) = .clean) :
    s.readLine a errs scrub = s.count 0x21 (decodeLine a).stack := by
  simp only [State.readLine, h]

theorem State.readLine_fixed {es : List (Nat × Byte)} (h : rsDecode (rsFlip (s.codeword a) errs) = .fixed es) :
    s.readLine a errs scrub =
      let t := (s.count 0x21 (decodeLine a).stack).corrected (decodeLine a) es
      if scrub ∨ 2 ≤ es.length then t.storeLine a (rsFlip (rsFlip (s.codeword a) errs) es) else t := by
  simp only [State.readLine, h]
  rfl

theorem State.readLine_lost (h : rsDecode (rsFlip (s.codeword a) errs) = .lost) :
    s.readLine a errs scrub =
      (s.count 0x21 (decodeLine a).stack).uncorrected (decodeLine a) (uncRecord a scrub) := by
  simp only [State.readLine, h]
  rfl

end

end Sys2Proof.Machine
end

section
/-!
O42: line requests and the reads of the scrubber (R257, R258, R292 to R295, R305, R378).
-/
namespace Sys2Proof.Machine

/-- The stack takes requests: it is up and awake, and no frequency change and no provisional set holds them. -/
def State.Serves (s : State) (k : Nat) : Prop :=
  s.stackUp k = true ∧ (s.stack k).chg = none ∧ (s.stack k).provisional = false ∧ (s.dom k).st ≠ 1

theorem State.memRequestOp_none {s : State} {addr : Nat} (live : s.live = true) (none : s.lineOf addr = none) (op : LineOp) (ca : Nat) :
    s.memRequestOp addr op ca = s.bump (memBase (s.decErrStack addr) + 0x2C) := by
  simp [State.memRequestOp, live, none]

theorem State.memRequestOp_wakes {s : State} {addr a : Nat} (live : s.live = true) (line : s.lineOf addr = some a)
    (asleep : (s.dom (decodeLine a).stack).st = 1) (op : LineOp) (ca : Nat) :
    s.memRequestOp addr op ca =
      s.setDom (decodeLine a).stack { s.dom (decodeLine a).stack with st := 4, sleep := false, force := false } := by
  simp [State.memRequestOp, live, line, asleep, State.wakeStack]

/-- A request that its stack serves accesses the row; two parity errors end it (R305). -/
theorem State.memRequestOp_serves {s : State} {addr a : Nat} (live : s.live = true) (line : s.lineOf addr = some a)
    (up : s.Serves (decodeLine a).stack) :
    (∀ errs, s.memRequestOp addr (.read errs) 0 = (s.access (decodeLine a)).readLine a errs false) ∧
      (∀ data label, data.length = 64 →
        s.memRequestOp addr (.write data label) 0 = (s.access (decodeLine a)).writeLine a data label) ∧
      ∀ op, s.memRequestOp addr op 2 =
        ((s.access (decodeLine a)).bump (chanBase (decodeLine a).stack (decodeLine a).chan + 0x14)).raiseDev 23 := by
  obtain ⟨stack, steady, settled, awake⟩ := up
  refine ⟨fun errs => ?_, fun data label full => ?_, fun op => ?_⟩
  · simp [State.memRequestOp, live, line, awake, stack, steady, settled]
  · simp [State.memRequestOp, live, line, awake, stack, steady, settled, full]
  · simp [State.memRequestOp, live, line, awake, stack, steady, settled]

/-- A write stores the data, its label and the check symbols (R257). -/
theorem State.writeLine_spec (s : State) (a : Nat) {data : List Byte} (label : Word) (full : data.length = 64) :
    let t := s.writeLine a data label
    t = { s with mem := t.mem, side := t.side, pmu := t.pmu } ∧ OtherLines (a / 64) s t ∧
      t.HoldsLine (a / 64) (data ++ leBytes 4 label.toNat ++ rsChecks (data ++ leBytes 4 label.toNat)) := by
  obtain ⟨pmu, frame⟩ := s.count_eq 0x22 (a / stackSpan) 1
  have symbols : (data ++ leBytes 4 label.toNat ++ rsChecks (data ++ leBytes 4 label.toNat)).length = 72 := by
    simp [full, length_rsChecks]
  unfold State.writeLine
  rw [frame]
  have others := State.storeLine_others { s with pmu := pmu } a symbols
  refine ⟨?_, others, State.storeLine_holds _ a symbols⟩
  dsimp only
  rw [State.storeLine_frame]

/-- A store of line `a` after a step that leaves lines and scrubbers alone. -/
theorem Undisturbed.storeLine {s u : State} (h : Undisturbed s u) (a : Nat) {cs : List Byte} (full : cs.length = 72) :
    let t := u.storeLine a cs
    OtherLines (a / 64) s t ∧ t.HoldsLine (a / 64) cs ∧ t.pat = s.pat ∧ ∀ k, (t.stack k).scrubPos = (s.stack k).scrubPos := by
  obtain ⟨bytes, sides⟩ := h.sameLines
  obtain ⟨others, others'⟩ := u.storeLine_others a full
  have frame := u.storeLine_frame a cs
  refine ⟨⟨fun b ne => (others b ne).trans (bytes b), fun l i ne small => (others' l i ne small).trans (sides l i)⟩,
    u.storeLine_holds a full, ?_, fun k => ?_⟩
  · rw [frame]
    exact h.pat
  · rw [frame]
    exact h.scrub k

section
variable (s : State) (a : Nat) (errs : List (Nat × Byte)) (scrub : Bool)

theorem State.access_codeword (p : LinePos) : (s.access p).codeword a = s.codeword a :=
  State.codeword_congr (s.access_undisturbed p).mem (s.access_undisturbed p).side a

/-- What is counted as a line is read, before it decodes (R296). -/
def State.opened (s : State) (a : Nat) : State := (s.access (decodeLine a)).count 0x21 (decodeLine a).stack

theorem State.opened_undisturbed : Undisturbed s (s.opened a) := (s.access_undisturbed _).trans (State.count_undisturbed _ _ _ 1)

theorem State.opened_reg (o : Nat) : (s.opened a).reg o = s.reg o := by
  obtain ⟨only, -⟩ := s.access_spec (decodeLine a)
  unfold ReadOnly at only
  rw [State.opened, State.count_reg, only]
  rfl

/-- A clean line (R257). -/
theorem State.read_clean (h : rsDecode (rsFlip (s.codeword a) errs) = .clean) :
    let t := (s.access (decodeLine a)).readLine a errs scrub
    ReadOnly s t ∧ (∀ j, j ≠ (decodeLine a).stack → t.stack j = s.stack j) ∧ Undisturbed s t := by
  obtain ⟨only, others, -⟩ := s.access_spec (decodeLine a)
  obtain ⟨pmu, frame⟩ := (s.access (decodeLine a)).count_eq 0x21 (decodeLine a).stack 1
  rw [← s.access_codeword a (decodeLine a)] at h
  rw [State.readLine_clean scrub h]
  refine ⟨only.trans (State.count_readOnly _ _ _ 1), ?_, s.opened_undisturbed a⟩
  rw [frame]
  exact others

/-- A correctable line (R257, R305): it is counted, class 22 latches, and the corrected line is stored where it is to be. -/
theorem State.read_fixed {es : List (Nat × Byte)} (h : rsDecode (rsFlip (s.codeword a) errs) = .fixed es) :
    ∃ u, (s.access (decodeLine a)).readLine a errs scrub =
        (if scrub ∨ 2 ≤ es.length then u.storeLine a (rsFlip (rsFlip (s.codeword a) errs) es) else u) ∧
      Undisturbed s u ∧ u.flt.status.getLsbD 22 = true ∧ u.reg 0xF0044 = satIncW (s.reg 0xF0044) 1 := by
  obtain ⟨calm, on, count⟩ := (s.opened a).corrected_spec (decodeLine a) es
  have same := s.access_codeword a (decodeLine a)
  refine ⟨_, ?_, (s.opened_undisturbed a).trans calm, on, by rw [count, State.opened_reg]⟩
  rw [State.readLine_fixed scrub (same.symm ▸ h), same]
  rfl

/-- A line that does not decode (R257, R261, R305): it is counted and recorded, and class 23 latches. -/
theorem State.read_lost (h : rsDecode (rsFlip (s.codeword a) errs) = .lost) :
    let t := (s.access (decodeLine a)).readLine a errs scrub
    Undisturbed s t ∧ t.flt.status.getLsbD 23 = true ∧ t.reg 0xF0048 = satIncW (s.reg 0xF0048) 1 ∧
      t.lastUnc = uncRecord a scrub := by
  obtain ⟨calm, on, count, record⟩ := (s.opened a).uncorrected_spec (decodeLine a) (uncRecord a scrub)
  rw [State.readLine_lost scrub ((s.access_codeword a (decodeLine a)).symm ▸ h)]
  exact ⟨(s.opened_undisturbed a).trans calm, on, by rw [← State.opened_reg s a]; exact count, record⟩

end

theorem State.storeLine_flt (s : State) (a : Nat) (cs : List Byte) : (s.storeLine a cs).flt = s.flt := by rw [s.storeLine_frame a cs]

theorem State.storeLine_reg (s : State) (a : Nat) (cs : List Byte) (o : Nat) : (s.storeLine a cs).reg o = s.reg o := by
  rw [s.storeLine_frame a cs]
  rfl

/-- A corrected line has its 72 symbols. -/
theorem State.length_fixed (s : State) (a : Nat) (errs es : List (Nat × Byte)) :
    (rsFlip (rsFlip (s.codeword a) errs) es).length = 72 := by
  rw [length_rsFlip, length_rsFlip, State.length_codeword]

/-- The scrubber's next place (R258). -/
def scrubNext (n : Nat) : Nat := if n + 1 < stackLines then n + 1 else 0

/-- The scrubber of stack `k` has stepped on. -/
def State.scrubbed (s : State) (k : Nat) : State :=
  s.setStack k { s.stack k with scrubPos := scrubNext (s.stack k).scrubPos }

theorem State.scrubbed_pos (s : State) (k : Nat) : ((s.scrubbed k).stack k).scrubPos = scrubNext (s.stack k).scrubPos := by
  rw [State.scrubbed, State.setStack_stack, if_pos rfl]

/-- SCRUB_READ of a stack whose scrubber runs (R258). -/
theorem State.scrubOp_eq {s : State} {k : Nat} (live : s.live = true) (up : s.Serves k) (on : s.reg 0xF0040 ≠ 0)
    (idle : (s.stack k).sweep = none) {a : Nat} (place : a = k * stackSpan + (s.stack k).scrubPos * 64) (errs : List (Nat × Byte)) :
    s.scrubOp k errs =
      if nbit (s.stack k).pd (decodeLine a).rank = true ∨ nbit (s.stack k).sr (decodeLine a).rank = true then
        (s.scrubbed k).bump 0xF004C
      else ((s.scrubbed k).access (decodeLine a)).readLine a errs true := by
  obtain ⟨stack, steady, settled, -⟩ := up
  unfold State.scrubOp
  rw [if_pos (by simpa [live, stack, idle, steady, settled] using on), place]
  rfl

/-- Settles O42, by how a request or the scrubber reaches its line, and by what the line decodes to. -/
theorem memoryLines : Obligations.MemoryLines := by
  intro s addr a k data label errs live line p up got sameLines otherLines holds
  have run (op : LineOp) (ca : Nat) {t : State} (h : s.memRequestOp addr op ca = t) : exec (.memRequest addr op ca) s = .next t :=
    congrArg Host.Outcome.next h
  refine ⟨fun none => ?_, fun named asleep => congrArg Host.Outcome.next (State.memRequestOp_wakes live named asleep _ _),
    fun named served full => ?_, fun named served => ?_, ?_⟩
  · refine ⟨_, run _ _ (State.memRequestOp_none live none _ _), rfl, fun o away => ?_, ?_⟩
    · rw [State.bump_reg, if_neg (List.ne_of_not_mem_cons away)]
    · rw [State.bump_reg, if_pos rfl, satIncW_toNat]
  · obtain ⟨-, write, -⟩ := State.memRequestOp_serves live named served
    obtain ⟨only, others, -⟩ := s.access_spec p
    obtain ⟨frame, away, here⟩ := (s.access p).writeLine_spec a label full
    obtain ⟨bytes, sides⟩ := (s.access_undisturbed p).sameLines
    refine ⟨_, run _ _ (write data label full), ?_, ⟨fun b ne => (away.1 b ne).trans (bytes b),
      fun l i ne small => (away.2 l i ne small).trans (sides l i)⟩, here, fun j ne => ?_⟩
    · unfold ReadOnly at only
      rw [frame, only]
    · rw [frame]
      exact others j ne
  · obtain ⟨read, -, twice⟩ := State.memRequestOp_serves live named served
    refine ⟨fun clean => ?_, fun es fixed => ?_, fun lost => ?_, fun op => ?_⟩
    · obtain ⟨only, others, -⟩ := s.read_clean a errs false clean
      exact ⟨_, run _ _ (read errs), only, others⟩
    · obtain ⟨u, stored, calm, on, count⟩ := s.read_fixed a errs false fixed
      obtain ⟨others, here, pat, -⟩ := calm.storeLine a (s.length_fixed a errs es)
      by_cases two : 2 ≤ es.length
      · rw [if_pos (.inr two)] at stored
        refine ⟨_, run _ _ ((read errs).trans stored), ?_, ?_, fun one => absurd two (Nat.not_le.2 one),
          fun _ => ⟨others, here⟩, pat⟩
        · rw [State.storeLine_flt, on]
        · rw [State.storeLine_reg, count, satIncW_toNat]
      · rw [if_neg (by simpa using two)] at stored
        exact ⟨_, run _ _ ((read errs).trans stored), on, by rw [count, satIncW_toNat], fun _ => calm.sameLines,
          fun more => absurd more two, calm.pat⟩
    · obtain ⟨calm, on, count, record⟩ := s.read_lost a errs false lost
      exact ⟨_, run _ _ (read errs), on, by rw [count, satIncW_toNat], calm.sameLines, record, calm.pat⟩
    · have calm := ((s.access_undisturbed p).trans (State.bump_undisturbed _ (chanBase p.stack p.chan + 0x14) 1)).trans
        (State.raiseDev_undisturbed _ 23 0 0)
      exact ⟨_, run _ _ (twice op), State.raiseDev_latched _ (by decide) _ _, calm.sameLines, calm.pat⟩
  · intro x served on idle _ place moved
    have steps := State.scrubOp_eq live served on idle place errs
    have pos := s.scrubbed_pos k
    have only : ReadOnly s (s.scrubbed k) := s.setStack_readOnly k _
    have same : (s.scrubbed k).codeword a = s.codeword a := State.codeword_congr rfl rfl a
    have decodes : rsDecode (rsFlip ((s.scrubbed k).codeword a) errs) = rsDecode got := by rw [same]
    refine ⟨fun away => ?_, fun pd sr => ?_⟩
    · refine ⟨_, congrArg Host.Outcome.next (steps.trans (if_pos away)), rfl, ⟨pos, rfl⟩, fun o off => ?_, ?_⟩
      · rw [State.bump_reg, if_neg (List.ne_of_not_mem_cons off)]
        rfl
      · rw [State.bump_reg, if_pos rfl, satIncW_toNat]
        rfl
    · have awake : ¬ (nbit x.pd p.rank = true ∨ nbit x.sr p.rank = true) := by simp [pd, sr]
      replace steps := steps.trans (if_neg awake)
      refine ⟨fun clean => ?_, fun es fixed => ?_, fun lost => ?_⟩
      · obtain ⟨read, -, calm⟩ := (s.scrubbed k).read_clean a errs true (decodes.trans clean)
        exact ⟨_, congrArg Host.Outcome.next steps, only.trans read, (calm.scrub k).trans pos, calm.pat⟩
      · obtain ⟨u, stored, calm, latched, -⟩ := (s.scrubbed k).read_fixed a errs true (decodes.trans fixed)
        rw [if_pos (.inl rfl), same] at stored
        obtain ⟨others, here, pat, scrub⟩ := calm.storeLine a (s.length_fixed a errs es)
        refine ⟨_, congrArg Host.Outcome.next (steps.trans stored), ⟨(scrub k).trans pos, pat⟩, others, here, ?_⟩
        rw [State.storeLine_flt, latched]
      · obtain ⟨calm, latched, -, record⟩ := (s.scrubbed k).read_lost a errs true (decodes.trans lost)
        exact ⟨_, congrArg Host.Outcome.next steps, ⟨(calm.scrub k).trans pos, calm.pat⟩, calm.sameLines, record, latched⟩

end Sys2Proof.Machine
end

section
/-!
SUPPORT. What an assertion of a pending-bit source does (R352): its count, its bit, and what the host port sends.
-/
namespace Sys2Proof.Machine

theorem State.setFn_pend (s : State) (fn : Nat) (f : Func) : (s.setFn fn f).hif.pend = s.hif.pend := rfl

theorem State.emit_pend (s : State) (e : Emit) : (s.emit e).hif.pend = s.hif.pend := by
  unfold State.emit
  split <;> rfl

theorem State.message_pend (s : State) (fn : Nat) : (s.message fn).hif.pend = s.hif.pend := by
  unfold State.message
  extract_lets f wait
  split
  · exact s.setFn_pend fn _
  split
  · exact (State.emit_pend _ _).trans (s.setFn_pend fn _)
  · exact s.setFn_pend fn _

theorem State.writeRec_pend (s : State) (fn : Nat) (r : BktRec) : (s.writeRec fn r).hif.pend = s.hif.pend := by
  unfold State.writeRec
  extract_lets f s1 wrap s2
  have advanced : s2.hif.pend = s.hif.pend := s.emit_pend _
  split
  · exact (s2.message_pend fn).trans advanced
  · exact advanced

/-- An event that is posted leaves the pending bits (R346, R347). -/
theorem State.post_pend (s : State) (fn : Nat) (grp : Option Nat) (r : BktRec) : (s.post fn grp r).hif.pend = s.hif.pend := by
  unfold State.post
  extract_lets f masked
  split
  · exact s.setFn_pend fn _
  split
  · exact s.setFn_pend fn _
  split
  · exact s.writeRec_pend fn r
  split
  · exact s.setFn_pend fn _
  split <;> exact s.setFn_pend fn _

/-- An assertion of a source (R352): it is counted, pending is set unless it is in service, and the host port alone tells of it. -/
structure Asserted (n : Nat) (s t : State) : Prop where
  frame : t = { s with hif := t.hif, regs := t.regs, outbox := t.outbox }
  regs : RegsKept s t [0x30280 + 4 * n]
  pend : nbit s.hif.inService n = false → nbit t.hif.pend n = true

theorem Asserted.posted {n : Nat} {s t : State} (h : Asserted n s t) (r : BktRec) : Asserted n s (t.post 0 none r) := by
  have posted := t.post_posted 0 none r
  have pend := t.post_pend 0 none r
  unfold Posted at posted
  generalize t.post 0 none r = u at *
  have same : u.regs = t.regs := (congrArg State.regs posted :)
  refine ⟨?_, fun o away => ?_, fun free => pend ▸ h.pend free⟩
  · rw [same]
    exact posted.trans (congrArg (fun x : State => { x with hif := u.hif, outbox := u.outbox }) h.frame)
  · rw [State.reg, same, ← State.reg]
    exact h.regs o away

theorem State.assertSrc_asserted (s : State) (n : Nat) (detail : Word) (ses : Nat) : Asserted n s (s.assertSrc n detail ses) := by
  unfold State.assertSrc
  extract_lets s1 old i hif s2
  have regs : RegsKept s s1 [0x30280 + 4 * n] := fun o away => by
    dsimp only [s1]
    rw [State.bump_reg, if_neg (List.ne_of_not_mem_cons away)]
  have set : nbit s2.hif.pend n = true := by
    show (s1.hif.pend ||| 2 ^ n).testBit n = true
    rw [Nat.testBit_or, Nat.testBit_two_pow_self, Bool.or_true]
  have held : Asserted n s s2 := ⟨rfl, regs, fun _ => set⟩
  split
  next serving => exact ⟨rfl, regs, fun free => absurd (serving.symm.trans free) Bool.noConfusion⟩
  split
  · exact held.posted _
  · exact held

end Sys2Proof.Machine
end

section
/-!
O57: the commands of the security engine, their ends, and the reload of the control cores (R260, R385 to R398).
-/
namespace Sys2Proof.Machine

theorem fld_or_small (v : Word) {m : Word} {hi lo : Nat} (small : m.toNat < 2 ^ lo) : fld (v ||| m) hi lo = fld v hi lo := by
  rw [fld, nfld, BitVec.toNat_or, Nat.or_div_two_pow, Nat.div_eq_of_lt small, Nat.or_zero]
  rfl

section
variable {cmd : Nat} (h : cmd < 16) (v : Word)
include h

/-- The fields of SEC_CMD from bit 4 up are those that were written (R398). -/
theorem fld_secAsk {hi lo : Nat} (above : 4 ≤ lo)
    (inside : 0xFFFFFFF0 % 2 ^ 32 / 2 ^ lo % 2 ^ (hi + 1 - lo) = 2 ^ (hi + 1 - lo) - 1) : fld (secAsk cmd v) hi lo = fld v hi lo := by
  have low : cmd % 2 ^ 32 < 2 ^ lo :=
    (Nat.mod_le _ _).trans_lt (h.trans_le (Nat.pow_le_pow_right (n := 2) (by decide) above))
  rw [secAsk, fld_or_small _ (by rwa [w32, BitVec.toNat_ofNat]), fld_maskW v inside]

theorem secCmd_secAsk : secCmd (secAsk cmd v) = cmd := by
  have clear : (maskW 0xFFFFFFF0 v).toNat % 2 ^ 4 = 0 := by
    rw [maskW, BitVec.toNat_and, BitVec.toNat_ofNat, Nat.and_mod_two_pow]
    exact Nat.and_zero _
  rw [secCmd, fld_low, secAsk, BitVec.toNat_or, Nat.or_mod_two_pow, clear, Nat.zero_or, w32, BitVec.toNat_ofNat]
  omega

theorem secVk_secAsk : secVk (secAsk cmd v) = v.toNat / 16 % 8 := fld_secAsk h v (by decide) (by decide)

theorem secSlot_secAsk : secSlot (secAsk cmd v) = v.toNat / 256 % 8192 := fld_secAsk h v (by decide) (by decide)

theorem bit_secAsk : bit (secAsk cmd v) 7 = v.getLsbD 7 := by
  have off : bit (w32 cmd) 7 = false := by
    rw [bit, w32, BitVec.getLsbD_ofNat, Nat.testBit_lt_two_pow (h.trans (by decide)), Bool.and_false]
  exact (bit_or_off _ off).trans (bit_maskW v (by decide))

end

/-- The engine is free to take a command: none runs, and none waits (R398). -/
def Sec.Free (x : Sec) : Prop := x.busy = none ∧ x.waiting = none

section
variable {s : State} (free : s.sec.Free)
include free

theorem State.secCommand_waits (reloading : s.sec.reloading = true) {v : Word} (kind : secCmd v = 1 ∨ secCmd v = 2) :
    s.secCommand v = { s with sec := { s.sec with waiting := some v } } := by
  obtain ⟨idle, none⟩ := free
  obtain kind | kind := kind <;> simp [State.secCommand, idle, none, reloading, kind, State.setSec]

theorem State.secCommand_starts {v : Word} (now : s.sec.reloading = false ∨ 3 ≤ secCmd v) : s.secCommand v = s.secStart v := by
  obtain ⟨idle, none⟩ := free
  have goes : ¬ (s.sec.reloading && (secCmd v == 1 || secCmd v == 2)) = true := by
    simp only [Bool.and_eq_true, Bool.or_eq_true, beq_iff_eq, not_and, not_or]
    rintro on
    obtain off | high := now
    · exact absurd (on.symm.trans off) Bool.noConfusion
    · omega
  rw [State.secCommand, if_neg (by simp [idle, none]), if_neg goes]

end

/-- A command that the engine cannot take is ignored (R398). -/
theorem State.secCommand_ignored {s : State} (h : s.sec.busy ≠ none ∨ s.sec.waiting ≠ none) (v : Word) :
    s.secCommand v = s.ignored 0x80004 v :=
  if_pos (by simpa [Option.isSome_iff_ne_none] using h)

/-- Each command word starts its command (R398). -/
theorem State.secStart_secAsk (s : State) (v : Word) :
    s.secStart (secAsk 1 v) = s.secImport (secAsk 1 v) ∧ s.secStart (secAsk 2 v) = s.secClear (secAsk 2 v) ∧
      s.secStart (secAsk 3 v) = s.secProvision (secAsk 3 v) ∧ s.secStart (secAsk 4 v) = s.secRevoke (secAsk 4 v) ∧
      s.secStart (secAsk 5 v) = s.secSvn ∧ s.secStart (secAsk 6 v) = s.secLock (secAsk 6 v) ∧
      s.secStart (secAsk 7 v) = s.secUnlock (secAsk 7 v) := by
  refine ⟨?_, ?_, ?_, ?_, ?_, ?_, ?_⟩ <;> simp [State.secStart, secCmd_secAsk]

theorem State.secImport_runs {s : State} {v : Word} (safe : s.pwr.safe = false) (unused : s.slotUsed (secSlot v) = false) :
    s.secImport v = s.secRun v := if_neg (by simp [safe, unused])

theorem State.secRun_eq (s : State) (v : Word) :
    s.secRun v = { s with sec := { s.sec with busy := some v, len := (s.reg 0x80010).toNat % 256 } } := by
  rw [State.secRun, fld_low]
  rfl

/-- What the engine does with a command when it is free and the control cores run (R385 to R398). -/
theorem State.secCommands_free {s : State} (live : s.live = true) (free : s.sec.Free) (v : Word) :
    (s.sec.reloading = false → exec (.importKey v) s = .next (s.secImport (secAsk 1 v)) ∧
      exec (.clearSlot v) s = .next (s.secClear (secAsk 2 v))) ∧
    (s.sec.reloading = true → exec (.importKey v) s = .next { s with sec := { s.sec with waiting := some (secAsk 1 v) } } ∧
      exec (.clearSlot v) s = .next { s with sec := { s.sec with waiting := some (secAsk 2 v) } }) ∧
    exec (.provision v) s = .next (s.secProvision (secAsk 3 v)) ∧ exec (.revoke v) s = .next (s.secRevoke (secAsk 4 v)) ∧
    exec (.svnCommit v) s = .next s.secSvn ∧ exec (.lockDebug v) s = .next (s.secLock (secAsk 6 v)) ∧
    exec (.unlockDebug v) s = .next (s.secUnlock (secAsk 7 v)) := by
  obtain ⟨one, two, three, four, five, six, seven⟩ := s.secStart_secAsk v
  have kind {cmd : Nat} (small : cmd < 16) := secCmd_secAsk small v
  have command (cmd : Nat) : s.whenLive (·.secCommand (secAsk cmd v)) = s.secCommand (secAsk cmd v) := if_pos live
  have late {cmd : Nat} (small : cmd < 16) (high : 3 ≤ cmd) : s.whenLive (·.secCommand (secAsk cmd v)) = s.secStart (secAsk cmd v) :=
    (command cmd).trans (State.secCommand_starts free (.inr (by rwa [kind small])))
  refine ⟨fun now => ⟨?_, ?_⟩, fun reloading => ⟨?_, ?_⟩, ?_, ?_, ?_, ?_, ?_⟩ <;> refine congrArg Host.Outcome.next ?_
  · exact (command 1).trans ((State.secCommand_starts free (.inl now)).trans one)
  · exact (command 2).trans ((State.secCommand_starts free (.inl now)).trans two)
  · exact (command 1).trans (State.secCommand_waits free reloading (.inl (kind (by decide))))
  · exact (command 2).trans (State.secCommand_waits free reloading (.inr (kind (by decide))))
  · exact (late (by decide) (by decide)).trans three
  · exact (late (by decide) (by decide)).trans four
  · exact (late (by decide) (by decide)).trans five
  · exact (late (by decide) (by decide)).trans six
  · exact (late (by decide) (by decide)).trans seven

/-- A command that the engine cannot take is ignored, whichever it is (R398). -/
theorem State.secCommands_busy {s : State} (live : s.live = true) (h : s.sec.busy ≠ none ∨ s.sec.waiting ≠ none) (v : Word) :
    let ignored (cmd : Nat) : Host.Outcome State Fault Refusal := .next (s.ignored 0x80004 (secAsk cmd v))
    exec (.importKey v) s = ignored 1 ∧ exec (.clearSlot v) s = ignored 2 ∧ exec (.provision v) s = ignored 3 ∧
      exec (.revoke v) s = ignored 4 ∧ exec (.svnCommit v) s = ignored 5 ∧ exec (.lockDebug v) s = ignored 6 ∧
      exec (.unlockDebug v) s = ignored 7 := by
  have run (cmd : Nat) : Host.Outcome.next (φ := Fault) (ρ := Refusal) (s.whenLive (·.secCommand (secAsk cmd v))) =
      .next (s.ignored 0x80004 (secAsk cmd v)) :=
    congrArg Host.Outcome.next ((if_pos live).trans (State.secCommand_ignored h _))
  exact ⟨run 1, run 2, run 3, run 4, run 5, run 6, run 7⟩

/-- The end of a command that runs (R386, R391, R397). -/
theorem State.secCommandDone_eq {s : State} (live : s.live = true) (blob : List Byte) (nonce : Word) :
    exec (.secCommandDone blob nonce) s = .next (s.secDoneOp blob nonce) := congrArg Host.Outcome.next (if_pos live)

section
variable {s : State} {v : Word} (runs : s.sec.busy = some v) (blob : List Byte) (nonce : Word)
include runs

theorem State.secDoneOp_import (kind : secCmd v = 1) :
    (∀ key, s.sec.importKey blob = some key →
      s.secDoneOp blob nonce = s.secEnd { s.sec with keys := tset [] (secSlot v) key s.sec.keys } 1) ∧
    (s.sec.importKey blob = none → s.secDoneOp blob nonce = s.importFail v) := by
  refine ⟨fun key sound => ?_, fun broken => ?_⟩
  · simp [State.secDoneOp, runs, kind, sound]
  · simp [State.secDoneOp, runs, kind, broken]

theorem State.secDoneOp_key (kind : secCmd v = 3) (vk : bit v 7 = false) : s.secDoneOp blob nonce =
    s.secEnd { s.sec with
      vk := tset 0 (secVk v) (0x10 + (blob.getD 49 0).toNat % 16) s.sec.vk
      vkKey := tset [] (secVk v) (blob.take 49) s.sec.vkKey } 1 := by
  simp [State.secDoneOp, runs, kind, vk]

theorem State.secDoneOp_otk (kind : secCmd v = 3) (otk : bit v 7 = true) :
    (∀ key, unwrap s.sec.patchKey (blob.take 40) = some key →
      s.secDoneOp blob nonce = s.secEnd { s.sec with otk := true, otkKey := key } 1) ∧
    (unwrap s.sec.patchKey (blob.take 40) = none →
      s.secDoneOp blob nonce = (s.setSec { s.sec with busy := none }).secIgn v) := by
  refine ⟨fun key sound => ?_, fun broken => ?_⟩
  · simp [State.secDoneOp, runs, kind, otk, sound]
  · simp [State.secDoneOp, runs, kind, otk, broken]

theorem State.secDoneOp_unlock (kind : secCmd v = 7) : s.secDoneOp blob nonce =
    if s.certOk blob then
      (s.secEnd { s.sec with nonce := nonce, debug := 2, keys := [], otkOff := true } 1).secEvent 2 (secSlot v)
    else (s.secEnd { s.sec with nonce := nonce } 2).secEvent 3 (secSlot v) := by
  simp [State.secDoneOp, runs, kind]

end

/-- A content key blob that unwraps soundly under a usable OTK (R391). -/
theorem Sec.importKey_some {x : Sec} {blob plain : List Byte} (otk : x.otk = true) (shut : x.otkOff = false)
    (len : x.len = 40 ∨ x.len = 56) (sound : unwrap x.otkKey (blob.take x.len) = some plain)
    (padded : zerosAt plain (plain.length - 4) 4 = true) :
    x.importKey blob = some (plain.take (plain.length - 4)) := by
  have ok : (x.otkUsable && (x.len == 40 || x.len == 56)) = true := by simp [Sec.otkUsable, otk, shut, len]
  rw [Sec.importKey, if_pos ok, sound]
  exact if_pos padded

/-- A blob that no OTK unwraps, or that is of another length, imports nothing (R391). -/
theorem Sec.importKey_none {x : Sec} {blob : List Byte} (h : x.otk = false ∨ x.otkOff = true ∨ (x.len ≠ 40 ∧ x.len ≠ 56) ∨
    unwrap x.otkKey (blob.take x.len) = none) : x.importKey blob = none := by
  rw [Sec.importKey]
  obtain h | h | h | h := h
  · exact if_neg (by simp [Sec.otkUsable, h])
  · exact if_neg (by simp [Sec.otkUsable, h])
  · exact if_neg (by simp [h])
  · rw [h]
    exact ite_self _

/-- The end of a command with an event (R398): its record, and source 4 as it asserts. -/
theorem State.secEnd_event (s : State) (y : Sec) (result code slot : Nat) :
    let t := (s.secEnd y result).secEvent code slot
    t.sec = { y with busy := none, result := result } ∧
      t = { s with sec := t.sec, hif := t.hif, regs := t.regs, outbox := t.outbox } ∧ t.sec.busy = none ∧
      RegsKept s t [0x30290] ∧ (nbit s.hif.inService 4 = false → nbit t.hif.pend 4 = true) := by
  intro t
  obtain ⟨frame, regs, pend⟩ := (s.secEnd y result).assertSrc_asserted 4 (mkWord [(0, code), (16, slot)]) 0
  have sec : t.sec = { y with busy := none, result := result } := congrArg State.sec frame
  exact ⟨sec, frame.trans (by rw [sec]; rfl), congrArg Sec.busy sec, regs, pend⟩

/-- No training command waits for the control cores: their reload touches no stack (R260). -/
theorem State.trainResume_idle {s : State} (idle : ∀ k, (s.stack k).trainWait = []) :
    s.trainResume = { s with hbm := s.trainResume.hbm } ∧ ∀ k, s.trainResume.stack k = s.stack k := by
  refine List.foldlRecOn (motive := fun t : State => t = { s with hbm := t.hbm } ∧ ∀ k, t.stack k = s.stack k) (upto s.nStacks) _
    ⟨rfl, fun _ => rfl⟩ fun t same k _ => ?_
  obtain ⟨frame, each⟩ := same
  have none : (t.stack k).trainWait = [] := (congrArg Stack.trainWait (each k)).trans (idle k)
  dsimp only
  rw [none]
  refine ⟨?_, fun j => ?_⟩
  · exact congrArg (fun x : State => { x with hbm := tset {} k { t.stack k with trainWait := [] } t.hbm }) frame
  · show (t.setStack k _).stack j = s.stack j
    rw [State.setStack_stack]
    split
    next e => rw [e, ← each k, ← none]
    next => exact each j

/-- What bars an import: SAFE, and a slot that an enabled egress flow uses (R391, R392). -/
theorem State.secImport_barred {s : State} {v : Word} (h : s.pwr.safe = true ∨ s.slotUsed (secSlot v) = true) :
    s.secImport v = s.ignored 0x80004 v := if_pos h

/-- A slot that is cleared is empty, and no other changes (R392). -/
theorem State.secClear_clears {s : State} (v : Word) (safe : s.pwr.safe = false) :
    s.secClear v = { s with sec := { s.sec with keys := tset [] (secSlot v) [] s.sec.keys, result := 1 } } :=
  if_neg (by simp [safe])

/-- What a provisioning writes: the OTK with bit 7 of the command, else a verification key (R386). -/
theorem State.secProvision_eq {s : State} {v : Word} {written : Bool}
    (h : (if bit v 7 then s.sec.otk else nbit (tget 0 s.sec.vk (secVk v)) 4) = written) :
    (s.mode = .primed → written = false → s.secProvision v = s.secRun v) ∧
    (s.mode ≠ .primed ∨ written = true → s.secProvision v = s.ignored 0x80004 v) := by
  rw [State.secProvision, h]
  refine ⟨fun primed unwritten => if_neg ?_, fun barred => if_pos ?_⟩
  · simp [primed, unwritten]
  · simpa using barred

theorem State.secLock_eq (s : State) (v : Word) :
    (s.sec.debug = 0 → s.secLock v = { s with sec := { s.sec with debug := 1, result := 1 } }) ∧
    (s.sec.debug = 1 → s.secLock v = { s with sec := { s.sec with debug := 3, result := 1 } }) ∧
    (s.sec.debug ≠ 0 → s.sec.debug ≠ 1 → s.secLock v = s.ignored 0x80004 v) := by
  refine ⟨fun opened => if_pos opened, fun locked => ?_, fun shut sealed => ?_⟩
  · exact (if_neg (by simp [locked])).trans (if_pos locked)
  · exact (if_neg shut).trans (if_neg sealed)

/-- A debug certificate is good when it names this part and its nonce and its signature verifies (R397). -/
theorem State.certOk_iff (s : State) (blob : List Byte) : s.certOk blob = true ↔
    leAt (blob.take 192) 0 4 = 0x4D564442 ∧ leAt (blob.take 192) 4 8 = s.serial.toNat ∧
      leAt (blob.take 192) 12 4 = s.sec.nonce.toNat ∧ zerosAt (blob.take 192) 16 48 = true ∧
      trailerForm (blob.take 192) = true ∧ s.sec.verifies (trailerSlot (blob.take 192)) 3 = true ∧
      s.sec.signed (blob.take 192) = true := by
  simp only [State.certOk, Bool.and_eq_true, beq_iff_eq, and_assoc]

/-- The reload of the control cores ends: what waited for them proceeds (R260). -/
theorem State.coreOp_reloading {s : State} (reloading : s.sec.reloading = true) (idle : ∀ k, (s.stack k).trainWait = []) :
    ∃ t : State, s.coreOp = t.secResume ∧ t = { s with sec := { s.sec with reloading := false }, hbm := t.hbm } ∧
      ∀ k, t.stack k = s.stack k := by
  obtain ⟨frame, each⟩ := State.trainResume_idle (s := { s with sec := { s.sec with reloading := false } }) idle
  exact ⟨_, if_pos reloading, frame, each⟩

/-- An import that waited for the control cores runs (R391, R392). -/
theorem State.secResume_import {s : State} {v : Word} (waits : s.sec.waiting = some v) (kind : secCmd v = 1)
    (safe : s.pwr.safe = false) (unused : s.slotUsed (secSlot v) = false) :
    s.secResume = { s with sec := { s.sec with waiting := none, busy := some v, len := (s.reg 0x80010).toNat % 256 } } := by
  rw [State.secResume, waits]
  dsimp only
  rw [State.secStart, if_pos kind]
  exact (State.secImport_runs (s := s.setSec { s.sec with waiting := none }) safe unused).trans (State.secRun_eq _ v)

/-- Settles O57: each command by what the engine does when it is free, each end by the command that runs. -/
theorem securityEngine : Obligations.SecurityEngine := by
  refine ⟨fun s v live => ⟨fun idle none => ?_, fun h => State.secCommands_busy live h v⟩, fun s v nonce live => ?_⟩
  · obtain ⟨now, later, provision, revoke, svn, lock, unlock⟩ := State.secCommands_free live ⟨idle, none⟩ v
    have runs (cmd : Nat) := s.secRun_eq (secAsk cmd v)
    have importSlot : secSlot (secAsk 1 v) = v.toNat / 256 % 8192 := secSlot_secAsk (by decide) v
    have clearSlot : secSlot (secAsk 2 v) = v.toNat / 256 % 8192 := secSlot_secAsk (by decide) v
    have revoked : secVk (secAsk 4 v) = v.toNat / 16 % 8 := secVk_secAsk (by decide) v
    obtain ⟨provides, provided⟩ := State.secProvision_eq (s := s) (v := secAsk 3 v) rfl
    rw [bit_secAsk (cmd := 3) (by decide), secVk_secAsk (cmd := 3) (by decide)] at provides provided
    obtain ⟨opens, locks, sealed⟩ := s.secLock_eq (secAsk 6 v)
    refine ⟨fun loaded safe unused => ?_, fun loaded barred => ?_, later, fun loaded safe => ?_, fun loaded safe => ?_,
      ⟨fun primed unwritten => ?_, fun barred => ?_⟩, fun key => ?_, fun root => ?_, svn, fun opened => ?_, fun locked => ?_,
      fun shut closed => ?_, fun locked => ?_, fun other => ?_⟩
    · exact (now loaded).1.trans (congrArg _ ((State.secImport_runs safe (importSlot ▸ unused)).trans (runs 1)))
    · exact (now loaded).1.trans (congrArg _ (State.secImport_barred (importSlot ▸ barred)))
    · refine ⟨_, (now loaded).2.trans (congrArg _ (State.secClear_clears _ safe)), rfl, fun k => ?_⟩
      rw [← clearSlot]
      exact tget_tset s.sec.keys _ k []
    · exact (now loaded).2.trans (congrArg _ (if_pos safe))
    · exact provision.trans (congrArg _ ((provides primed unwritten).trans (runs 3)))
    · exact provision.trans (congrArg _ (provided barred))
    · exact revoke.trans (congrArg _ ((if_neg (revoked ▸ key)).trans (by rw [revoked]; rfl)))
    · exact revoke.trans (congrArg _ (if_pos (revoked.trans root)))
    · exact lock.trans (congrArg _ (opens opened))
    · exact lock.trans (congrArg _ (locks locked))
    · exact lock.trans (congrArg _ (sealed shut closed))
    · exact unlock.trans (congrArg _ ((if_pos locked).trans (runs 7)))
    · exact unlock.trans (congrArg _ (if_neg other))
  · have ends (blob : List Byte) {t : State} (h : s.secDoneOp blob nonce = t) : exec (.secCommandDone blob nonce) s = .next t :=
      (State.secCommandDone_eq live blob nonce).trans (congrArg _ h)
    have cmd : v.toNat % 16 = secCmd v := (fld_low v 3).symm
    refine ⟨fun idle e => ?_, fun run kind => ⟨fun blob plain otk shut len sound padded => ?_, fun blob broken => ?_⟩,
      fun run kind => ⟨fun vk blob => ?_, fun otk blob key sound => ?_, fun otk blob broken => ?_⟩, fun run kind blob => ?_,
      fun loaded => ?_, fun reloading still => ?_⟩
    · exact ends e (by rw [State.secDoneOp, idle])
    · have key := Sec.importKey_some otk shut len sound padded
      exact ⟨_, ends blob ((State.secDoneOp_import run blob nonce (cmd ▸ kind)).1 _ key), rfl, fun k => tget_tset ..⟩
    · refine ⟨_, ends blob ((State.secDoneOp_import run blob nonce (cmd ▸ kind)).2 (Sec.importKey_none broken)), ?_⟩
      obtain ⟨sec, told⟩ := s.secEnd_event s.sec 2 1 (secSlot v)
      exact ⟨told, (congrArg Sec.result sec :), (congrArg Sec.keys sec :)⟩
    · exact ⟨_, ends blob (State.secDoneOp_key run blob nonce (cmd ▸ kind) vk), rfl, tget_tset_self .., tget_tset_self ..,
        fun k other => tget_tset_ne _ _ other⟩
    · exact ends blob ((State.secDoneOp_otk run blob nonce (cmd ▸ kind) otk).1 key sound)
    · exact ends blob ((State.secDoneOp_otk run blob nonce (cmd ▸ kind) otk).2 broken)
    · extract_lets cert good
      have judged : s.certOk blob = true ↔ good := s.certOk_iff blob
      refine ⟨_, ends blob (State.secDoneOp_unlock run blob nonce (cmd ▸ kind)), ?_⟩
      split
      next ok =>
        obtain ⟨sec, told⟩ := s.secEnd_event { s.sec with nonce := nonce, debug := 2, keys := [], otkOff := true } 1 2 (secSlot v)
        have unlocked : ∀ _ : good, _ ∧ _ ∧ _ ∧ _ := fun _ =>
          ⟨(congrArg Sec.debug sec :), (congrArg Sec.keys sec :), (congrArg Sec.otkOff sec :), (congrArg Sec.result sec :)⟩
        exact ⟨told, (congrArg Sec.nonce sec :), unlocked, fun bad => absurd (judged.1 ok) bad⟩
      next fails =>
        obtain ⟨sec, told⟩ := s.secEnd_event { s.sec with nonce := nonce } 2 3 (secSlot v)
        exact ⟨told, (congrArg Sec.nonce sec :), fun ok => absurd (judged.2 ok) fails,
          fun _ => ⟨(congrArg Sec.debug sec :), (congrArg Sec.keys sec :), (congrArg Sec.result sec :)⟩⟩
    · exact congrArg Host.Outcome.next (if_neg (by simp [loaded]))
    · obtain ⟨t, resumes, frame, each⟩ := State.coreOp_reloading reloading still
      have sec : t.sec = { s.sec with reloading := false } := congrArg State.sec frame
      refine ⟨fun none => ⟨t, ?_, frame, each⟩, fun waits kind safe unused => ?_⟩
      · refine congrArg Host.Outcome.next (resumes.trans ?_)
        rw [State.secResume, sec, none]
      · have waits : t.sec.waiting = some v := (congrArg Sec.waiting sec :).trans waits
        have safe : t.pwr.safe = false := (congrArg (·.pwr.safe) frame).trans safe
        have unused : t.slotUsed (secSlot v) = false := (congrArg (·.slotUsed (secSlot v)) frame).trans unused
        have resumed := State.secResume_import waits (cmd ▸ kind) safe unused
        refine ⟨_, congrArg Host.Outcome.next (resumes.trans resumed), ?_, each⟩
        exact congrArg (fun u : State => { u with sec := { u.sec with
          waiting := none, busy := some v, len := (u.reg 0x80010).toNat % 256 } }) frame

end Sys2Proof.Machine
end

section
/-!
SUPPORT. What raising a fault leaves alone of the lint trap, of the claims in service and of SAFE (R268, R352, R365).
-/
namespace Sys2Proof.Machine

/-- The lint trap, SAFE, and the pending-bit sources in service. -/
structure Watch where
  lnt : Lint
  safe : Bool
  inService : Nat

def State.watch (s : State) : Watch := ⟨s.lnt, s.pwr.safe, s.hif.inService⟩

section
variable {s t : State} (h : t.watch = s.watch)
include h

theorem lnt_of_watch : t.lnt = s.lnt := congrArg Watch.lnt h
theorem inService_of_watch : t.hif.inService = s.hif.inService := congrArg Watch.inService h

end

theorem State.setFn_watch (s : State) (fn : Nat) (f : Func) : (s.setFn fn f).watch = s.watch := rfl

theorem State.emit_watch (s : State) (e : Emit) : (s.emit e).watch = s.watch := by
  unfold State.emit
  split <;> rfl

theorem State.message_watch (s : State) (fn : Nat) : (s.message fn).watch = s.watch := by
  unfold State.message
  extract_lets f wait
  split
  · exact s.setFn_watch fn _
  split
  · exact (State.emit_watch _ _).trans (s.setFn_watch fn _)
  · exact s.setFn_watch fn _

theorem State.writeRec_watch (s : State) (fn : Nat) (r : BktRec) : (s.writeRec fn r).watch = s.watch := by
  unfold State.writeRec
  extract_lets f s1 wrap s2
  have advanced : s2.watch = s.watch := s.emit_watch _
  split
  · exact (s2.message_watch fn).trans advanced
  · exact advanced

theorem State.post_watch (s : State) (fn : Nat) (grp : Option Nat) (r : BktRec) : (s.post fn grp r).watch = s.watch := by
  unfold State.post
  extract_lets f masked
  split
  · exact s.setFn_watch fn _
  split
  · exact s.setFn_watch fn _
  split
  · exact s.writeRec_watch fn r
  split
  · exact s.setFn_watch fn _
  split <;> exact s.setFn_watch fn _

theorem State.assertSrc_watch (s : State) (n : Nat) (detail : Word) (ses : Nat) : (s.assertSrc n detail ses).watch = s.watch := by
  unfold State.assertSrc
  extract_lets s1 old i hif s2
  split
  · rfl
  split
  · exact s2.post_watch _ _ _
  · rfl

theorem State.sendFrame_watch (s : State) (p : Nat) (f : LFrame) : (s.sendFrame p f).watch = s.watch := by
  unfold State.sendFrame
  extract_lets x
  split
  · rfl
  split
  · exact State.emit_watch _ _
  · rfl

theorem State.note_watch (s : State) (a kind fig : Nat) : (s.note a kind fig).watch = s.watch := by
  unfold State.note
  extract_lets d mgr go
  have told (s : State) (dst : Nat) : (go s dst).watch = s.watch := by
    dsimp only [go]
    split
    · exact s.assertSrc_watch 2 d 0
    · exact s.sendFrame_watch _ _
  split
  · rfl
  split
  · exact told s mgr
  · exact (told _ 0).trans (told s mgr)

theorem State.safeNotice_watch (s : State) : s.safeNotice.watch = s.watch := by
  unfold State.safeNotice
  extract_lets s1
  have moved : s1.watch = s.watch := s.note_watch _ _ _
  split
  · exact moved
  · exact (s1.note_watch _ _ _).trans moved

theorem RecordsOnly.watch {p : Nat → Prop} {s t : State} (h : RecordsOnly p s t) : t.watch = s.watch := by
  rw [h.frame]
  rfl

theorem State.migrateOut_watch (s : State) (n : Nat) (auto : Bool) : (s.migrateOut n auto).watch = s.watch := by
  by_cases member : (s.ses n).member = true
  · rw [s.migrateOut_group n auto member]
    exact (State.foldl_joinMigrating_spec auto _ s).1.watch
  · rw [s.migrateOut_alone n auto (Bool.eq_false_of_not_eq_true member)]
    exact (s.toMigrating_spec n auto).1.watch

theorem State.askAbandon_watch (s : State) (c t : Nat) : (s.askAbandon c t).watch = s.watch :=
  (congrArg State.watch (s.askAbandon_offFabric c t) :)

/-- Entering SAFE leaves the trap and the claims alone (R268, R365). -/
theorem State.enterSafe_watch (s : State) : s.enterSafe.watch = { s.watch with safe := true } := by
  unfold State.enterSafe
  extract_lets pwr ldr s1 s2 l lin s3 s4
  have asked : s3.watch = s1.watch := foldl_keeps State.watch _ (fun s t => s.askAbandon_watch 1 t) _ s1
  have sent : s4.watch = s1.watch := (foldl_keeps State.watch _ (fun s n => s.migrateOut_watch n true) l s3).trans asked
  split
  · exact s4.safeNotice_watch.trans sent
  · exact sent

/-- A reaction of the device may begin SAFE alone (Table 13.2). -/
theorem State.reactDev_watch (s : State) (e : Settled) : (s.reactDev e).watch = { s.watch with safe := (s.reactDev e).pwr.safe } := by
  unfold State.reactDev
  split
  · split
    · rfl
    · exact s.enterSafe_watch.trans (congrArg (fun w : Watch => { s.watch with safe := w.safe }) s.enterSafe_watch.symm)
  split <;> rfl

/-- A fatal event of a live device is followed by SAFE (R268). -/
theorem State.reactDev_safe {s : State} {e : Settled} (up : s.pwr.life = .up) (fatal : e.lvl = 4) :
    (s.reactDev e).pwr.safe = true := by
  rw [State.reactDev, if_pos fatal]
  split
  next h => exact h.resolve_right (not_not_intro up)
  next => exact congrArg Watch.safe s.enterSafe_watch

theorem State.signal_watch (s : State) (e : Settled) : (s.signal e).watch = s.watch := by
  unfold State.signal
  extract_lets cfg
  split
  · exact s.assertSrc_watch _ _ _
  · rfl

end Sys2Proof.Machine
end

section
/-!
SUPPORT. What the collector does with one event (R263 to R266): its count, its level, what it latches, traces and signals.
-/
namespace Sys2Proof.Machine

/-- A window opens with the event: none is open, or the open one is over (R263). -/
abbrev State.OpensWindow (s : State) (e : FaultEv) : Prop :=
  (s.fltUnit e.cls e.unit).cnt = 0 ∨ s.fltWin e.cls ≤ s.now - (s.fltUnit e.cls e.unit).opened

/-- The unit with the event counted in its window (R263). -/
def State.fltCounted (s : State) (e : FaultEv) : FltUnit :=
  let x := s.fltUnit e.cls e.unit
  { x with
    cnt := if s.fltWin e.cls = 0 then x.cnt else if s.OpensWindow e then min e.n 255 else min (x.cnt + e.n) 255
    opened := if s.fltWin e.cls ≠ 0 ∧ s.OpensWindow e then s.now else x.opened }

/-- The level before escalation: the base, raised to 3 by the count (R263). -/
def State.fltBase (s : State) (e : FaultEv) : Nat :=
  let cfg := s.fltCfg e.cls
  if s.fltWin e.cls ≠ 0 ∧ fld cfg 15 8 ≤ (s.fltCounted e).cnt then max (fld cfg 2 0) 3 else fld cfg 2 0

/-- The level of an event: above that of an unacknowledged predecessor, up to the top level (R263). -/
def State.fltLevel (s : State) (e : FaultEv) : Nat :=
  let x := s.fltUnit e.cls e.unit
  if x.unacked then max (s.fltBase e) (min (x.last + 1) (fld (s.fltCfg e.cls) 5 3)) else s.fltBase e

/-- The counting that settles an event (R263). -/
theorem State.fltCounted_eq (s : State) (e : FaultEv) : s.fltCounted e =
    (let x := s.fltUnit e.cls e.unit
     if s.fltWin e.cls = 0 then x
     else
      let x := if s.OpensWindow e then { x with opened := s.now, cnt := 0 } else x
      { x with cnt := min (x.cnt + e.n) 255 }) := by
  unfold State.fltCounted
  by_cases off : s.fltWin e.cls = 0
  · simp [off]
  · by_cases opens : s.OpensWindow e <;> simp [off, opens]

/-- An event settled (R263, R264): its level, and what its class and unit keep of it. -/
theorem State.settle_spec (s : State) (e : FaultEv) :
    (s.settle e).2.lvl = s.fltLevel e ∧
      (s.settle e).1.fltUnit e.cls e.unit = { s.fltCounted e with last := s.fltLevel e, unacked := true } := by
  have unacked : (s.fltCounted e).unacked = (s.fltUnit e.cls e.unit).unacked := rfl
  have last : (s.fltCounted e).last = (s.fltUnit e.cls e.unit).last := rfl
  have level : (s.settle e).2.lvl = s.fltLevel e := by
    unfold State.settle State.fltLevel State.fltBase
    dsimp only
    rw [← s.fltCounted_eq e]
    simp [unacked, last]
  refine ⟨level, ?_⟩
  rw [← level]
  refine (tget_tset_self s.flt.units _ _).trans ?_
  rw [State.settle]
  dsimp only
  rw [← s.fltCounted_eq e]

/-- The state without its lint trap and registers, which the triggers of an event write (R271). -/
def State.offTrace (s : State) : State := { s with lnt := {}, regs := [] }

theorem State.fireSlot_offTrace (s : State) (n : Nat) : (s.fireSlot n).offTrace = s.offTrace := by
  unfold State.fireSlot
  extract_lets w
  split <;> rfl

theorem State.lintPush_offTrace (s : State) (t : LintTrig) : (s.lintPush t).offTrace = s.offTrace := by
  unfold State.lintPush
  split <;> rfl

theorem State.lintFault_offTrace (s : State) (e : Settled) : (s.lintFault e).offTrace = s.offTrace := by
  unfold State.lintFault
  extract_lets slots word mk f s1 lnt s2
  have fired (l : List Nat) (s : State) : (l.foldl (fun s n => (s.lintPush (mk s n)).fireSlot n) s).offTrace = s.offTrace :=
    foldl_keeps State.offTrace _ (fun s n => (State.fireSlot_offTrace _ n).trans (s.lintPush_offTrace _)) l s
  have first : s2.offTrace = s.offTrace := by
    show s1.offTrace = s.offTrace
    dsimp only [s1]
    split
    · exact s.fireSlot_offTrace _
    · rfl
  split
  · exact (fired _ s2).trans first
  · exact fired slots s

theorem State.lintFault_hif (s : State) (e : Settled) : (s.lintFault e).hif = s.hif := (congrArg State.hif (s.lintFault_offTrace e) :)

theorem State.lintFault_flt (s : State) (e : Settled) : (s.lintFault e).flt = s.flt := (congrArg State.flt (s.lintFault_offTrace e) :)

theorem State.signal_flt (s : State) (e : Settled) : (s.signal e).flt = s.flt := by
  unfold State.signal
  extract_lets cfg
  split
  · exact (congrArg State.flt (s.assertSrc_asserted 0 _ _).frame :)
  · rfl

/-- The events of which Table 13.2 signals (R266). -/
theorem State.signal_pend {s : State} {e : Settled} (free : nbit s.hif.inService 0 = false)
    (h : 3 ≤ e.lvl ∨ (e.lvl = 2 ∧ bit (s.fltCfg e.cls) 7 = true) ∨ (e.lvl < 2 ∧ bit (s.fltCfg e.cls) 6 = true)) :
    nbit (s.signal e).hif.pend 0 = true := by
  rw [State.signal, if_pos h]
  exact (s.assertSrc_asserted 0 _ _).pend free

theorem State.told_signalled (s : State) (e : FaultEv) : Signalled s (s.told e) :=
  .trans (Eq.refl _ : Signalled s (s.settle e).1) (.trans (State.recordFirst_signalled _ _)
    (.trans (State.lintFault_signalled _ _) (State.signal_signalled _ _)))

/-- Telling of an event reaches the collector, the trap, the host port, registers and what is sent. -/
theorem State.told_frame (s : State) (e : FaultEv) : s.told e = { s with
    flt := (s.told e).flt, lnt := (s.told e).lnt, regs := (s.told e).regs, hif := (s.told e).hif
    outbox := (s.told e).outbox } := by
  have told := s.told_signalled e
  have cfg : (s.told e).flt = { (s.told e).flt with cfg := s.flt.cfg } := (congrArg State.flt told :)
  exact Eq.trans told (congrArg (fun f => { s with
    flt := f, lnt := (s.told e).lnt, regs := (s.told e).regs, hif := (s.told e).hif, outbox := (s.told e).outbox }) cfg.symm)

theorem State.told_flt (s : State) (e : FaultEv) : (s.told e).flt = ((s.settle e).1.recordFirst (s.settle e).2).flt :=
  (State.signal_flt _ _).trans (State.lintFault_flt _ _)

theorem State.told_status (s : State) (e : FaultEv) : (s.told e).flt.status = s.flt.status ||| BitVec.ofNat 64 (2 ^ e.cls) :=
  congrArg Still.status (s.told_still e)

/-- A bit that is set in a word of 64 reads 1. -/
theorem getLsbD_or_two_pow (m : BitVec 64) {k : Nat} (narrow : k < 64) : (m ||| BitVec.ofNat 64 (2 ^ k)).getLsbD k = true := by
  rw [BitVec.getLsbD_or, BitVec.getLsbD_ofNat]
  simp [narrow]

/-- An event that has been told stands in FLT_STATUS (R264). -/
theorem State.told_latched (s : State) {e : FaultEv} (narrow : e.cls < 64) : (s.told e).flt.status.getLsbD e.cls = true := by
  rw [State.told_status]
  exact getLsbD_or_two_pow _ narrow

theorem State.recordFirst_frame (s : State) (e : Settled) : s.recordFirst e = { s with flt := (s.recordFirst e).flt } := by
  unfold State.recordFirst
  split <;> rfl

/-- FLT_FIRST takes an event while valid is clear, and keeps it (R264). -/
theorem State.recordFirst_flt (s : State) (e : Settled) :
    (s.recordFirst e).flt.units = s.flt.units ∧ (s.recordFirst e).flt.cfg = s.flt.cfg ∧
    (bit s.flt.firstWord 31 = false → (s.recordFirst e).flt =
      { s.flt with firstWord := e.word false ||| 0x80000000, firstTime := s.now, firstDetail := e.detail }) ∧
    (bit s.flt.firstWord 31 = true → (s.recordFirst e).flt = s.flt) := by
  unfold State.recordFirst
  split
  next held => exact ⟨rfl, rfl, fun free => absurd (held.symm.trans free) Bool.noConfusion, fun _ => rfl⟩
  next free => exact ⟨rfl, rfl, fun _ => rfl, fun held => absurd held free⟩

theorem State.told_unit (s : State) (e : FaultEv) :
    (s.told e).fltUnit e.cls e.unit = { s.fltCounted e with last := s.fltLevel e, unacked := true } := by
  have units : (s.told e).flt.units = (s.settle e).1.flt.units :=
    (congrArg Collector.units (s.told_flt e)).trans (State.recordFirst_flt _ _).1
  rw [State.fltUnit, units]
  exact (s.settle_spec e).2

/-- The word of FLT_FIRST: class, level and unit (R269). -/
theorem Settled.word_plain (e : Settled) : e.word false = mkWord [(0, e.cls), (8, e.lvl), (16, e.unit)] := by
  simp [Settled.word, mkWord, b2n]

/-- FLT_FIRST, its time and its detail after an event (R264). -/
theorem State.told_first (s : State) (e : FaultEv) :
    (bit s.flt.firstWord 31 = false →
      (s.told e).flt.firstWord = mkWord [(0, e.cls), (8, s.fltLevel e), (16, e.unit)] ||| 0x80000000 ∧
      (s.told e).flt.firstTime = s.now ∧ (s.told e).flt.firstDetail = e.detail) ∧
    (bit s.flt.firstWord 31 = true →
      (s.told e).flt.firstWord = s.flt.firstWord ∧ (s.told e).flt.firstTime = s.flt.firstTime) := by
  obtain ⟨-, -, free, held⟩ := State.recordFirst_flt (s.settle e).1 (s.settle e).2
  have level : (s.settle e).2.lvl = s.fltLevel e := (s.settle_spec e).1
  rw [State.told_flt, ← level]
  refine ⟨fun h => ?_, fun h => ?_⟩
  · rw [free h, Settled.word_plain]
    exact ⟨rfl, rfl, rfl⟩
  · rw [held h]
    exact ⟨rfl, rfl⟩

/-- A told event pends where its level signals (R266). -/
theorem State.told_pend {s : State} {e : FaultEv} (free : nbit s.hif.inService 0 = false)
    (h : 3 ≤ s.fltLevel e ∨ (s.fltLevel e = 2 ∧ bit (s.fltCfg e.cls) 7 = true) ∨
      (s.fltLevel e < 2 ∧ bit (s.fltCfg e.cls) 6 = true)) : nbit (s.told e).hif.pend 0 = true := by
  have recorded : (s.settle e).1.recordFirst (s.settle e).2 = { s with flt := ((s.settle e).1.recordFirst (s.settle e).2).flt } :=
    State.recordFirst_frame _ _
  obtain ⟨-, cfg, -⟩ := State.recordFirst_flt (s.settle e).1 (s.settle e).2
  refine State.signal_pend ?_ ?_
  · rw [State.lintFault_hif, recorded]
    exact free
  · rw [(s.settle_spec e).1, show (s.settle e).2.cls = e.cls from rfl, State.fltCfg, State.lintFault_flt, cfg]
    exact h

theorem State.collect_one (s : State) (e : FaultEv) :
    s.collect [e] = if s.unitOk e.cls e.unit then (s.told e).react (s.settle e).2 else s := by
  have merged : mergeEvs [] [e] = [e] := rfl
  rw [State.collect_eq, merged, List.foldl_cons, List.foldl_nil, settleNext]
  split <;> rfl

/-- Nothing reacts to an event below level 3 (Table 13.2). -/
theorem State.react_low {s : State} {e : Settled} (low : e.lvl < 3) : s.react e = s := by
  have retire : ¬ e.lvl = 3 := by omega
  have safe : ¬ e.lvl = 4 := by omega
  have device : s.reactDev e = s := by rw [State.reactDev, if_neg safe, if_neg fun h => retire h.1]
  unfold State.react
  split
  · exact if_neg retire
  · exact if_neg retire
  · exact device

/-- A class that has a unit in scope is one of the 64 (Table 13.1). -/
theorem narrow_of_scope {k : Nat} (h : scopeOf k ≠ .reserved) : k < 64 := by
  by_contra wide
  exact h (by rw [scopeOf, if_neg (by omega), if_neg (by omega), if_neg (by omega)])

/-- Leaving its unit does not reach the collector. -/
theorem State.leftUnit_flt (s : State) (k : Nat) : (s.leftUnit k).flt = s.flt := by
  obtain ⟨-, -, rest, -, -⟩ := s.stopRoutine_spec k 2
  have stopped : (s.stopRoutine k 2).flt = s.flt := (congrArg State.flt rest :)
  unfold State.leftUnit
  split
  next u _ =>
    split
    · exact stopped
    · exact (congrArg State.flt ((s.stopRoutine k 2).patchMove_rest u (some k)).1 :).trans stopped
  next => rfl

/-- What has latched stays so while a tile retires (R254, R264). -/
theorem State.retireTile_status {s : State} {k : Nat} (retired : (s.tile k).role ≠ .retired) (unused : (s.tile k).role ≠ .unused)
    {i : Nat} (on : s.flt.status.getLsbD i = true) : (s.retireTile k).flt.status.getLsbD i = true := by
  have out : ((s.leftUnit k).takenOut k).flt = s.flt := s.leftUnit_flt k
  have checked (t : State) (same : t.flt = s.flt) (p : Nat) : (t.spareCheck p).flt.status.getLsbD i = true :=
    (t.spareCheck_keeps p k).1.status i (by rwa [same])
  have floored (t : State) (same : t.flt = s.flt) (p : Nat) : (t.refloor p).flt.status.getLsbD i = true :=
    (KeepsPost.of_same (k := k) (t.refloor_still p)).1.status i (by rwa [same])
  obtain none | ⟨j, -, promoted⟩ | waits := State.retireTile_outcomes retired unused
  · rw [none]
    exact checked _ out _
  · rw [promoted]
    refine checked _ ?_ _
    exact out
  · rw [waits]
    refine floored _ ?_ _
    exact out

/-- A tile's fault at level 3 retires a tile in service (R254, Table 13.2). -/
theorem State.react_tile {s : State} {e : Settled} (scope : scopeOf e.cls = .tile) (retires : e.lvl = 3)
    (role : (s.tile e.unit).role = .active ∨ (s.tile e.unit).role = .spare) {i : Nat} (on : s.flt.status.getLsbD i = true) :
    Retires e.unit s (s.react e) ∧ (s.react e).flt.status.getLsbD i = true := by
  have inService : (s.tile e.unit).role ≠ .retired ∧ (s.tile e.unit).role ≠ .unused := by
    obtain h | h := role <;> rw [h] <;> decide
  have reacts : s.react e = s.retireTile e.unit := by
    rw [State.react, scope]
    exact if_pos retires
  rw [reacts]
  exact ⟨State.retireTile_retires inService.1 inService.2, State.retireTile_status inService.1 inService.2 on⟩

/-- The start of a panel's reset asks its tiles to abandon, and marks the panel (R267). -/
theorem State.panelReset_offFabric {s : State} {p : Nat} (runs : nbit s.resetting p = false) :
    (s.panelReset p).offFabric = { s with resetting := s.resetting ||| 2 ^ p }.offFabric := by
  rw [State.panelReset, if_neg (Bool.eq_false_iff.1 runs)]
  refine foldl_keeps State.offFabric _ (fun s t => ?_) _ _
  split
  · split
    · exact s.askAbandon_offFabric 3 t
    · rfl
  · rfl

/-- A panel that resets, from now or already (R267). -/
theorem State.panelReset_spec (s : State) (p : Nat) :
    nbit (s.panelReset p).resetting p = true ∧ (s.panelReset p).flt = s.flt ∧ (s.panelReset p).pat = s.pat := by
  cases resets : nbit s.resetting p
  · have asked := State.panelReset_offFabric resets
    have marked : (s.panelReset p).resetting = s.resetting ||| 2 ^ p := (congrArg State.resetting asked :)
    refine ⟨?_, (congrArg State.flt asked :), (congrArg State.pat asked :)⟩
    rw [marked, nbit, Nat.testBit_or, Nat.testBit_two_pow_self, Bool.or_true]
  · rw [State.panelReset, if_pos resets]
    exact ⟨resets, rfl, rfl⟩

/-- A panel's fault at level 3 rolls back a press of the panel and resets it (R50, R267). -/
theorem State.react_panel {s : State} {e : Settled} (scope : scopeOf e.cls = .panel) (resets : e.lvl = 3) :
    nbit (s.react e).resetting e.unit = true ∧ (s.react e).flt = s.flt ∧ (s.react e).pat = s.pat := by
  obtain ⟨u, rest, ends⟩ := s.rollBack_ends 0x10
  have flt : (s.rollBack 0x10).flt = s.flt := (congrArg State.flt ends :).trans (congrArg State.flt rest :)
  have pat : (s.rollBack 0x10).pat = s.pat := ends.pat.trans (congrArg State.pat rest :)
  have reacts : s.react e = State.panelReset
      (if nbit s.ldr.pressing e.unit && !nbit s.resetting e.unit then s.rollBack 0x10 else s) e.unit := by
    rw [State.react, scope]
    exact if_pos resets
  rw [reacts]
  obtain ⟨on, flt', pat'⟩ := State.panelReset_spec
    (if nbit s.ldr.pressing e.unit && !nbit s.resetting e.unit then s.rollBack 0x10 else s) e.unit
  refine ⟨on, flt'.trans ?_, pat'.trans ?_⟩
  · split
    · exact flt
    · rfl
  · split
    · exact pat
    · rfl

/-- A device's fault at level 4 begins SAFE (R268). -/
theorem State.react_fatal {s : State} {e : Settled} (scope : scopeOf e.cls = .device) (up : s.pwr.life = .up) (fatal : e.lvl = 4) :
    (s.react e).pwr.safe = true ∧ (s.react e).still = s.still := by
  have reacts : s.react e = s.reactDev e := by rw [State.react, scope]
  rw [reacts]
  exact ⟨State.reactDev_safe up fatal, s.reactDev_still e⟩

end Sys2Proof.Machine
end

section
/-!
SUPPORT. The collector's registers (R264, R265, R269): a write that reaches every unit of a class.
-/
namespace Sys2Proof.Machine

/-- One unit of class `k` is written; one that never counted stays so. -/
def unitWritten (k : Nat) (f : FltUnit → FltUnit) (t : Tbl FltUnit) (u : Nat) : Tbl FltUnit :=
  if tget {} t (k * 64 + u) = {} then t else tset {} (k * 64 + u) (f (tget {} t (k * 64 + u))) t

/-- The state with the counting state `units` of classes and units. -/
def State.setUnits (s : State) (units : Tbl FltUnit) : State := { s with flt := { s.flt with units := units } }

theorem State.setUnits_fltUnit (s : State) (units : Tbl FltUnit) (k u : Nat) :
    (s.setUnits units).fltUnit k u = tget {} units (k * 64 + u) := rfl

/-- The state without the counting state of classes and units. -/
def State.offCounts (s : State) : State := { s with flt := { s.flt with units := [] } }

theorem State.setUnits_offCounts (s : State) (units : Tbl FltUnit) : (s.setUnits units).offCounts = s.offCounts := rfl

theorem State.mapUnits_eq (s : State) (k : Nat) (f : FltUnit → FltUnit) :
    s.mapUnits k f = s.setUnits ((upto 64).foldl (unitWritten k f) s.flt.units) := by
  unfold State.mapUnits
  rfl

section
variable {f : FltUnit → FltUnit} (zero : f {} = {})
include zero

theorem tget_unitWritten (k : Nat) (t : Tbl FltUnit) (u i : Nat) :
    tget {} (unitWritten k f t u) i = if i = k * 64 + u then f (tget {} t i) else tget {} t i := by
  unfold unitWritten
  split
  next idle =>
    split
    next here => rw [here, idle, zero]
    next => rfl
  next =>
    rw [tget_tset]
    split
    next here => rw [here]
    next => rfl

theorem tget_foldl_unitWritten (k i : Nat) {l : List Nat} (once : l.Nodup) (t : Tbl FltUnit) :
    tget {} (l.foldl (unitWritten k f) t) i = if i ∈ l.map (k * 64 + ·) then f (tget {} t i) else tget {} t i := by
  induction l generalizing t with
  | nil => rfl
  | cons u l ih =>
    obtain ⟨away, once⟩ := List.nodup_cons.1 once
    rw [List.foldl_cons, ih once, tget_unitWritten zero]
    by_cases here : i = k * 64 + u
    · have later : i ∉ l.map (k * 64 + ·) := by
        rw [here, List.mem_map]
        rintro ⟨v, mem, same⟩
        exact away (Nat.add_left_cancel same ▸ mem)
      rw [if_neg later, if_pos here, if_pos (by simp [here])]
    · simp [here]

/-- A write of class `k` reaches its units and no other class's (R265, R269). -/
theorem State.mapUnits_fltUnit (s : State) (k j : Nat) {u : Nat} (small : u < 64) :
    (s.mapUnits k f).fltUnit j u = if j = k then f (s.fltUnit j u) else s.fltUnit j u := by
  rw [State.mapUnits_eq, State.setUnits_fltUnit, tget_foldl_unitWritten zero k _ (nodup_upto 64)]
  refine if_congr ?_ rfl rfl
  simp only [List.mem_map, mem_upto]
  constructor
  · rintro ⟨v, mem, same⟩
    omega
  · rintro rfl
    exact ⟨u, small, rfl⟩

end

theorem State.mapUnits_offCounts (s : State) (k : Nat) (f : FltUnit → FltUnit) : (s.mapUnits k f).offCounts = s.offCounts := by
  rw [State.mapUnits_eq, State.setUnits_offCounts]

/-- The units of class `k` are acknowledged where the mask has its bit (R265). -/
def State.ackClass (m : BitVec 64) (s : State) (k : Nat) : State :=
  if m.getLsbD k then s.mapUnits k fun x => { x with unacked := false } else s

theorem State.ackClass_offCounts (m : BitVec 64) (s : State) (k : Nat) : (s.ackClass m k).offCounts = s.offCounts := by
  unfold State.ackClass
  split
  · exact s.mapUnits_offCounts k _
  · rfl

theorem State.ackClass_fltUnit (m : BitVec 64) (s : State) (k j : Nat) {u : Nat} (small : u < 64) :
    (s.ackClass m k).fltUnit j u =
      if j = k ∧ m.getLsbD k = true then { s.fltUnit j u with unacked := false } else s.fltUnit j u := by
  unfold State.ackClass
  split
  next on =>
    rw [State.mapUnits_fltUnit rfl s k j small]
    exact if_congr (by simp [on]) rfl rfl
  next off => rw [if_neg fun h => off h.2]

theorem eq_of_offCounts {s t : State} (h : t.offCounts = s.offCounts) : t = { s with flt := { s.flt with units := t.flt.units } } :=
  congrArg (fun x : State => { x with flt := { x.flt with units := t.flt.units } }) h

/-- An acknowledgment clears FLT_STATUS and the classes' unacknowledged events (R265). -/
theorem State.ackFaults_spec (s : State) (hi : Bool) (v : Word) :
    let m : BitVec 64 := if hi then BitVec.ofNat 64 (v.toNat * 2 ^ 32) else BitVec.ofNat 64 v.toNat
    let t := s.ackFaults hi v
    t = { s with flt := { s.flt with status := s.flt.status &&& ~~~m, units := t.flt.units } } ∧
      ∀ k u, k < 64 → u < 64 →
        t.fltUnit k u = if m.getLsbD k then { s.fltUnit k u with unacked := false } else s.fltUnit k u := by
  intro m t
  let s1 : State := { s with flt := { s.flt with status := s.flt.status &&& ~~~m } }
  have each : t = (upto 64).foldl (State.ackClass m) s1 := rfl
  refine ⟨?_, fun k u narrow small => ?_⟩
  · exact eq_of_offCounts (s := s1) (each ▸ foldl_keeps State.offCounts _ (State.ackClass_offCounts m) _ s1)
  · obtain ⟨s', -, before, after⟩ := foldl_at (fun (x : State) k => x.fltUnit k u) State.offCounts _ (State.ackClass_offCounts m)
      (fun x k j ne => (x.ackClass_fltUnit m k j small).trans (if_neg fun h => ne h.1)) (nodup_upto 64) (mem_upto.2 narrow) s1
    rw [each, after, State.ackClass_fltUnit m s' k k small, before]
    exact if_congr (by simp) rfl rfl

/-- A legal configuration applies whole, and the class counts from 0 (R269). -/
theorem State.writeFltCfg_legal {s : State} {v : Word} (legal : cfgLegal s.fltSel v = true) :
    s.writeFltCfg v = ({ s with flt := { s.flt with cfg := tset (fltCfgReset s.fltSel) s.fltSel (maskW 0xFFFF v) s.flt.cfg } } :
      State).mapUnits s.fltSel fun x => { x with cnt := 0 } := if_pos legal

/-- The window that the second write applies (R269). -/
theorem State.writeFltWin_held {s : State} (v : Word) {lo : Word} (scope : scopeOf s.fltSel ≠ .reserved) (held : s.flt.winLo = some lo) :
    s.writeFltWin v = ({ s with flt := { s.flt with
      window := tset (fltWinReset s.fltSel) s.fltSel (lo.toNat + v.toNat % 65536 * 2 ^ 32) s.flt.window, winLo := none } } :
        State).mapUnits s.fltSel fun x => { x with cnt := 0 } := by
  rw [State.writeFltWin, if_neg scope, held, fld_low v 15]
  rfl

/-- A class starts to count from 0, and no other class is touched (R269). -/
theorem State.uncount_spec (s : State) (k : Nat) :
    let t := s.mapUnits k fun x => { x with cnt := 0 }
    t.offCounts = s.offCounts ∧ (∀ u, u < 64 → t.fltUnit k u = { s.fltUnit k u with cnt := 0 }) ∧
      ∀ j u, j ≠ k → u < 64 → t.fltUnit j u = s.fltUnit j u := by
  refine ⟨s.mapUnits_offCounts k _, fun u small => ?_, fun j u ne small => ?_⟩
  · rw [State.mapUnits_fltUnit rfl s k k small, if_pos rfl]
  · rw [State.mapUnits_fltUnit rfl s k j small, if_neg ne]

/-- FLT_CFG with a new word, and the class's counts cleared (R269). -/
theorem State.newCfg_spec (s : State) (k : Nat) (w : Word) :
    let t := ({ s with flt := { s.flt with cfg := tset (fltCfgReset k) k w s.flt.cfg } } : State).mapUnits k
      fun x => { x with cnt := 0 }
    t = { s with flt := { s.flt with cfg := t.flt.cfg, units := t.flt.units } } ∧ t.fltCfg k = w ∧
      (∀ j, j ≠ k → t.fltCfg j = s.fltCfg j) ∧ (∀ u, u < 64 → t.fltUnit k u = { s.fltUnit k u with cnt := 0 }) ∧
      ∀ j u, j ≠ k → u < 64 → t.fltUnit j u = s.fltUnit j u := by
  intro t
  obtain ⟨rest, own, others⟩ := State.uncount_spec { s with flt := { s.flt with cfg := tset (fltCfgReset k) k w s.flt.cfg } } k
  have cfg : t.flt.cfg = tset (fltCfgReset k) k w s.flt.cfg := (congrArg (·.flt.cfg) rest :)
  refine ⟨(eq_of_offCounts rest).trans (by rw [cfg]), ?_, fun j ne => ?_, own, others⟩
  · rw [State.fltCfg, cfg, tget_tset_self]
  · rw [State.fltCfg, cfg, tget_tset_other _ _ _ _ ne, ← State.fltCfg]

/-- FLT_WINDOW with a new window, and the class's counts cleared (R269). -/
theorem State.newWindow_spec (s : State) (k w : Nat) :
    let t := ({ s with flt := { s.flt with window := tset (fltWinReset k) k w s.flt.window, winLo := none } } : State).mapUnits k
      fun x => { x with cnt := 0 }
    t = { s with flt := { s.flt with window := t.flt.window, winLo := none, units := t.flt.units } } ∧
      t.fltWin k = w ∧ (∀ j, j ≠ k → t.fltWin j = s.fltWin j) ∧
      (∀ u, u < 64 → t.fltUnit k u = { s.fltUnit k u with cnt := 0 }) ∧
      ∀ j u, j ≠ k → u < 64 → t.fltUnit j u = s.fltUnit j u := by
  intro t
  obtain ⟨rest, own, others⟩ := State.uncount_spec
    { s with flt := { s.flt with window := tset (fltWinReset k) k w s.flt.window, winLo := none } } k
  have window : t.flt.window = tset (fltWinReset k) k w s.flt.window := (congrArg (·.flt.window) rest :)
  refine ⟨(eq_of_offCounts rest).trans (by rw [window]), ?_, fun j ne => ?_, own, others⟩
  · rw [State.fltWin, window, tget_tset_self]
  · rw [State.fltWin, window, tget_tset_other _ _ _ _ ne, ← State.fltWin]

/-- FLT_INJECT (R269): an event where the write is armed and names a class and unit in scope, else an ignored write. -/
theorem State.injectFault_spec (s : State) (v : Word) :
    let k := v.toNat % 64
    let u := v.toNat / 65536 % 128
    (v.getLsbD 31 = true → 5 ≤ k → s.unitOk k u = true → s.injectFault v = s.collect [{ cls := k, unit := u }]) ∧
    (v.getLsbD 31 = false ∨ k < 5 ∨ s.unitOk k u = false → s.injectFault v = s.ignored 0x4002C v) := by
  have cls : fld v 5 0 = v.toNat % 64 := fld_low v 5
  have unit : fld v 22 16 = v.toNat / 65536 % 128 := rfl
  intro k u
  rw [State.injectFault, cls, unit]
  refine ⟨fun armed high ok => if_pos ?_, fun bad => if_neg ?_⟩
  · simp only [bit, Bool.and_eq_true, decide_eq_true_eq]
    exact ⟨⟨armed, high⟩, ok⟩
  · simp only [bit, Bool.and_eq_true, decide_eq_true_eq]
    rintro ⟨⟨armed, high⟩, ok⟩
    obtain off | low | out := bad
    · exact absurd (armed.symm.trans off) Bool.noConfusion
    · omega
    · exact absurd (ok.symm.trans out) Bool.noConfusion

end Sys2Proof.Machine
end

section
/-!
O40: the fault collector (R263 to R269).
-/
namespace Sys2Proof.Machine

/-- Settles O40, by what one event does to the collector and by what each register's write does. -/
theorem faultCollector : Obligations.FaultCollector := by
  intro s e v hi live
  have up : s.pwr.life = .up := by
    simp only [State.live, Bool.and_eq_true, beq_iff_eq] at live
    exact live.1
  have runs (f : State → State) : Host.Outcome.next (s.whenLive f) = (Host.Outcome.next (f s) : Host.Outcome State Fault Refusal) :=
    congrArg _ (if_pos live)
  refine ⟨fun out => ?_, fun ok => ?_, ?_, fun valid => ?_, fun invalid => ?_, ⟨fun legal => ?_, fun illegal => ?_,
    fun scope lo held => ?_, fun reserved => ?_⟩, fun armed high ok => ?_, fun bad => ?_⟩
  · exact (runs _).trans (congrArg _ ((s.collect_one e).trans (if_neg (by simp [out]))))
  · extract_lets cfg x win new cnt lvl1 lvl w
    have level : (s.settle e).2.lvl = lvl := (s.settle_spec e).1
    have reacts : exec (.faultEvent [e]) s = .next ((s.told e).react (s.settle e).2) :=
      (runs _).trans (congrArg _ ((s.collect_one e).trans (if_pos ok)))
    have latched (known : scopeOf e.cls ≠ .reserved) := s.told_latched (narrow_of_scope known)
    have pat : (s.told e).pat = s.pat := (congrArg State.pat (s.told_frame e) :)
    refine ⟨fun low => ?_, fun retires scope role => ?_, fun resets scope => ?_, fun fatal scope => ?_⟩
    · obtain ⟨free, held⟩ := s.told_first e
      refine ⟨_, reacts.trans (congrArg _ (State.react_low (level ▸ low))), s.told_frame e, s.told_status e, s.told_unit e, free, held,
        fun idle deg quiet => State.told_pend idle ?_⟩
      have shown : s.fltLevel e = 2 ∨ s.fltLevel e < 2 := by
        have low : s.fltLevel e < 3 := low
        omega
      exact .inr (shown.imp (fun two => ⟨two, deg two⟩) fun less => ⟨less, quiet less.ne⟩)
    · have known : scopeOf e.cls ≠ .reserved := by rw [scope]; decide
      have tile := s.told_tile e e.unit
      obtain ⟨out, on⟩ := State.react_tile (s := s.told e) (e := (s.settle e).2) scope (level.trans retires)
        (by rwa [show (s.settle e).2.unit = e.unit from rfl, tile]) (latched known)
      exact ⟨_, reacts, out.role, out.power, out.work, on, out.pat.trans pat⟩
    · have known : scopeOf e.cls ≠ .reserved := by rw [scope]; decide
      obtain ⟨on, flt, kept⟩ := State.react_panel (s := s.told e) (e := (s.settle e).2) scope (level.trans resets)
      exact ⟨_, reacts, on, flt ▸ latched known, kept.trans pat⟩
    · have known : scopeOf e.cls ≠ .reserved := by rw [scope]; decide
      have alive : (s.told e).pwr.life = .up := (congrArg (·.pwr.life) (s.told_frame e) :).trans up
      obtain ⟨safe, still⟩ := State.react_fatal (s := s.told e) (e := (s.settle e).2) scope alive (level.trans fatal)
      have status : ((s.told e).react (s.settle e).2).flt.status = (s.told e).flt.status := congrArg Still.status still
      exact ⟨_, reacts, safe, status ▸ latched known, (congrArg Still.pat still :).trans pat⟩
  · exact ⟨_, runs _, s.ackFaults_spec hi v⟩
  · exact (runs _).trans (congrArg _ (if_pos valid))
  · exact (runs _).trans (congrArg _ (if_neg (Bool.eq_false_iff.1 invalid)))
  · exact ⟨_, (runs _).trans (congrArg _ (State.writeFltCfg_legal legal)), s.newCfg_spec _ _⟩
  · exact (runs _).trans (congrArg _ (if_neg (by simp [illegal])))
  · exact ⟨_, (runs _).trans (congrArg _ (State.writeFltWin_held v scope held)), s.newWindow_spec _ _⟩
  · exact (runs _).trans (congrArg _ (if_pos reserved))
  · exact (runs _).trans ((congrArg _ ((s.injectFault_spec v).1 armed high ok)).trans (runs (·.collect _)).symm)
  · exact (runs _).trans (congrArg _ ((s.injectFault_spec v).2 bad))

end Sys2Proof.Machine
end

section
/-!
SUPPORT. The lint trap (R270 to R274): what a write of LNT_CTL asks for, what a freeze discards, and what an entry changes.
-/
namespace Sys2Proof.Machine

/-- The control bits of a LNT_CTL write that asks for `b`. -/
theorem fld_lintAsk {b : Nat} (small : b < 16) (v : Word) : fld (lintAsk b v) 3 0 = v.toNat % 16 ||| b := by
  have wide : b % 2 ^ 32 = b := Nat.mod_eq_of_lt (small.trans (by decide))
  rw [fld_low, lintAsk, BitVec.toNat_or, Nat.or_mod_two_pow, w32, BitVec.toNat_ofNat, wide, Nat.mod_eq_of_lt small]

/-- Control bits that are clear in a write. -/
theorem control_clear_iff {m : Nat} (small : m < 16) (v : Word) : v &&& BitVec.ofNat 32 m = 0 ↔ v.toNat % 16 &&& m = 0 := by
  have wide : m % 2 ^ 32 = m := Nat.mod_eq_of_lt (small.trans (by decide))
  have narrow : m % 2 ^ 4 = m := Nat.mod_eq_of_lt small
  have low : v.toNat &&& m = v.toNat % 16 &&& m :=
    calc v.toNat &&& m
      _ = (v.toNat &&& m) % 2 ^ 4 := (Nat.mod_eq_of_lt (Nat.and_le_right.trans_lt small)).symm
      _ = v.toNat % 16 &&& m := by rw [Nat.and_mod_two_pow, narrow]
  rw [← BitVec.toNat_inj, BitVec.toNat_and, BitVec.toNat_ofNat, wide, low]
  rfl

/-- A write of LNT_CTL that asks for one thing does it (R271, R272). -/
theorem State.lintCtl_one (s : State) (v : Word) :
    ((v &&& 0xE) = 0 → s.lintCtl (lintAsk 1 v) = s.lintFreeze) ∧
    ((v &&& 0xD) = 0 → s.lintCtl (lintAsk 2 v) = s.lintUnfreeze (lintAsk 2 v)) ∧
    ((v &&& 0xB) = 0 → s.lintCtl (lintAsk 4 v) = s.lintSnap) ∧
    ((v &&& 0x7) = 0 → s.lintCtl (lintAsk 8 v) = s.lintWipe (lintAsk 8 v)) := by
  have alone {b m : Nat} (low : b < 16) (others : m < 16) (only : ∀ n < 16, n &&& m = 0 → n ||| b = b)
      (clear : v &&& BitVec.ofNat 32 m = 0) : fld (lintAsk b v) 3 0 = b := by
    rw [fld_lintAsk low]
    exact only _ (Nat.mod_lt _ (by decide)) ((control_clear_iff others v).1 clear)
  unfold State.lintCtl
  refine ⟨fun clear => ?_, fun clear => ?_, fun clear => ?_, fun clear => ?_⟩
  · simp [alone (b := 1) (m := 0xE) (by decide) (by decide) (by decide) clear]
  · simp [alone (b := 2) (m := 0xD) (by decide) (by decide) (by decide) clear]
  · simp [alone (b := 4) (m := 0xB) (by decide) (by decide) (by decide) clear]
  · simp [alone (b := 8) (m := 0x7) (by decide) (by decide) (by decide) clear]

/-- A write that asks for a freeze and something else is ignored (R272). -/
theorem State.lintCtl_two (s : State) {v : Word} (more : (v &&& 0xE) ≠ 0) :
    s.lintCtl (lintAsk 1 v) = s.ignored 0x50000 (lintAsk 1 v) := by
  have several : ∀ n < 16, n &&& 0xE ≠ 0 → n ||| 1 ≠ 1 ∧ n ||| 1 ≠ 2 ∧ n ||| 1 ≠ 4 ∧ n ||| 1 ≠ 8 ∧ n ||| 1 ≠ 0 := by decide
  have asked : v.toNat % 16 &&& 0xE ≠ 0 := fun clear => more ((control_clear_iff (m := 0xE) (by decide) v).2 clear)
  obtain ⟨freeze, unfreeze, snap, clear, none⟩ := several _ (Nat.mod_lt _ (by decide)) asked
  rw [State.lintCtl, fld_lintAsk (by decide)]
  simp only [freeze, unfreeze, snap, clear, none, if_false]

/-- No waiting trigger is the first fatal event's. -/
def Lint.NoneFatal (l : Lint) : Prop := ∀ q ∈ l.queue, q.fatal = false

/-- A freeze discards what waits, and counts it as missed (R272). -/
theorem State.lintFreeze_spec {s : State} (runs : s.lnt.frozen = false) (plain : s.lnt.NoneFatal) :
    let t := s.lintFreeze
    t = { s with lnt := { s.lnt with frozen := true, queue := [] }, regs := t.regs } ∧ RegsKept s t [0x50008] ∧
      (t.reg 0x50008).toNat = min 0xFFFFFFFF ((s.reg 0x50008).toNat + s.lnt.queue.length) := by
  have dropped : s.lnt.queue.filter (·.fatal) = [] := List.filter_eq_nil_iff.2 fun q mem => by simp [plain q mem]
  unfold State.lintFreeze
  rw [if_neg (by simp [runs]), dropped]
  dsimp only
  split
  next none =>
    have small := (s.reg 0x50008).isLt
    refine ⟨rfl, fun _ _ => rfl, ?_⟩
    show (s.reg 0x50008).toNat = _
    rw [show s.lnt.queue.length = 0 from none]
    omega
  next =>
    refine ⟨rfl, fun o away => ?_, ?_⟩
    · rw [State.bump_reg, if_neg (List.ne_of_not_mem_cons away)]
      rfl
    · rw [State.bump_reg, if_pos rfl, satIncW_toNat]
      rfl

/-- A freeze leaves the entries and ends with the trap frozen (R272). -/
theorem State.lintFreeze_frozen (s : State) : ∃ queue regs,
    s.lintFreeze = { s with lnt := { s.lnt with frozen := true, queue := queue }, regs := regs } := by
  unfold State.lintFreeze
  split
  next frozen => exact ⟨s.lnt.queue, s.regs, by rw [← frozen]⟩
  next =>
    dsimp only
    split <;> exact ⟨_, _, rfl⟩

/-- A trigger that finds room waits, and one that finds none is counted as missed (R271). -/
theorem State.lintPush_spec (s : State) (g : LintTrig) :
    (s.lnt.frozen = false → s.lnt.queue.length < 4 → s.lnt.NoneFatal →
      s.lintPush g = { s with lnt := { s.lnt with queue := s.lnt.queue ++ [g] } }) ∧
    (s.lnt.frozen = true ∨ 4 ≤ s.lnt.queue.length → s.lintPush g = s.bump 0x50008) := by
  refine ⟨fun runs room plain => if_neg ?_, fun missed => if_pos (missed.imp_right .inl)⟩
  have unfatal : (s.lnt.queue.any fun q => q.fatal) = false := List.any_eq_false.2 fun q mem => by simp [plain q mem]
  simp [runs, unfatal, room]

/-- A count of one register (R10). -/
theorem State.bump_counts (s : State) (o : Nat) :
    let t := s.bump o
    t = { s with regs := t.regs } ∧ RegsKept s t [o] ∧ (t.reg o).toNat = min 0xFFFFFFFF ((s.reg o).toNat + 1) := by
  refine ⟨s.bump_regsOnly o 1, fun r away => ?_, ?_⟩
  · rw [State.bump_reg, if_neg (List.ne_of_not_mem_cons away)]
  · rw [State.bump_reg, if_pos rfl, satIncW_toNat]

/-- Clearing the sequence number of every listed entry clears that of every entry (R272). -/
theorem tget_unnumbered (t : Tbl LintEntry) (i : Nat) :
    tget ({} : LintEntry) (t.map fun e => (e.1, { e.2 with seq := 0 })) i = { tget {} t i with seq := 0 } := by
  induction t with
  | nil => rfl
  | cons e t ih =>
    rw [List.map_cons, tget, tget]
    split
    · rfl
    · exact ih

/-- The entry that a waiting trigger becomes (R270, R271). -/
def State.lintEntry (s : State) (g : LintTrig) : LintEntry :=
  { vals := s.lintSample g.set, time := g.time, trig := g.trig, seq := nextSeq s.lnt.seq }

/-- The state with the oldest trigger's entry written. -/
def State.lintWritten (s : State) (g : LintTrig) (rest : List LintTrig) : State :=
  { s with lnt := { s.lnt with queue := rest }.put (s.lintEntry g) }

/-- An entry goes to the next place of the SRAM (R270). -/
theorem Lint.put_sram {l : Lint} (sram : l.pocket = false) (e : LintEntry) :
    tget {} (l.put e).sram l.next = e ∧ (∀ i, i ≠ l.next → tget {} (l.put e).sram i = tget {} l.sram i) ∧
      (l.put e).next = (l.next + 1) % 1024 ∧ (l.put e).queue = l.queue ∧ (l.put e).frozen = l.frozen := by
  rw [Lint.put, if_neg (by simp [sram])]
  exact ⟨tget_tset_self .., fun i ne => tget_tset_ne _ _ ne, rfl, rfl, rfl⟩

/-- LINT_ENTRY_WRITE with a trigger that waits (R271, R272). -/
theorem State.lintWriteOp_eq {s : State} (live : s.live = true) {g : LintTrig} {rest : List LintTrig} (waits : s.lnt.queue = g :: rest) :
    s.lintWriteOp = if g.fatal && !s.lnt.frozen then (s.lintWritten g rest).lintFreeze.assertSrc 3 1 0 else s.lintWritten g rest := by
  rw [State.lintWriteOp, waits]
  exact if_pos live

/-- A trap that a fatal event freezes tells so (R272): source 3, and nothing beyond the trap, the host port and registers. -/
theorem State.lintFreeze_assert (s : State) : let t := s.lintFreeze.assertSrc 3 1 0
    t = { s with lnt := t.lnt, hif := t.hif, regs := t.regs, outbox := t.outbox } ∧
      ∃ queue, t.lnt = { s.lnt with frozen := true, queue := queue } := by
  intro t
  obtain ⟨queue, regs, frozen⟩ := s.lintFreeze_frozen
  have frame := (s.lintFreeze.assertSrc_asserted 3 1 0).frame
  have lnt : t.lnt = { s.lnt with frozen := true, queue := queue } :=
    (congrArg State.lnt frame :).trans (congrArg State.lnt frozen :)
  rw [lnt]
  exact ⟨frame.trans (congrArg (fun x : State => { x with regs := t.regs, hif := t.hif, outbox := t.outbox }) frozen), queue, rfl⟩

/-- An entry written, with the first fatal event's freeze or without one (R271, R272). -/
theorem State.lintWriteOp_spec {s : State} (live : s.live = true) {g : LintTrig} {rest : List LintTrig}
    (waits : s.lnt.queue = g :: rest) (sram : s.lnt.pocket = false) :
    let t := s.lintWriteOp
    tget {} t.lnt.sram s.lnt.next = s.lintEntry g ∧
      (∀ i, i ≠ s.lnt.next → tget {} t.lnt.sram i = tget {} s.lnt.sram i) ∧ t.lnt.next = (s.lnt.next + 1) % 1024 ∧
      (g.fatal = false → t = { s with lnt := t.lnt } ∧ t.lnt.queue = rest ∧ t.lnt.frozen = s.lnt.frozen) ∧
      (g.fatal = true → t = { s with lnt := t.lnt, hif := t.hif, regs := t.regs, outbox := t.outbox } ∧ t.lnt.frozen = true) := by
  intro t
  obtain ⟨own, others, next, queue, frozen⟩ := Lint.put_sram (l := { s.lnt with queue := rest }) sram (s.lintEntry g)
  have eq : t = if g.fatal && !s.lnt.frozen then (s.lintWritten g rest).lintFreeze.assertSrc 3 1 0 else s.lintWritten g rest :=
    State.lintWriteOp_eq live waits
  clear_value t
  split at eq
  next freezes =>
    obtain ⟨frame, _, lnt⟩ := (s.lintWritten g rest).lintFreeze_assert
    rw [← eq] at frame lnt
    rw [Bool.and_eq_true] at freezes
    refine ⟨?_, fun i ne => ?_, ?_, fun plain => absurd (freezes.1.symm.trans plain) Bool.noConfusion, fun _ => ⟨frame, ?_⟩⟩ <;>
      rw [lnt]
    · exact own
    · exact others i ne
    · exact next
  next stays =>
    subst eq
    refine ⟨own, others, next, fun _ => ⟨rfl, queue, frozen⟩, fun fatal => ⟨rfl, frozen.trans ?_⟩⟩
    simpa [fatal] using stays

/-- The pocket with entry 0 alone, the record of a class 30 event (R273). -/
def Lint.pocketed (l : Lint) (n : LintEntry) : Lint :=
  { l with pocket := true, pocketE := tset {} 0 n [], pnext := 1, seq := n.seq }

/-- The trap switches to its pocket; a fatal class 30 event freezes it besides (R272, R273). -/
theorem State.pocketSwitch_spec (s : State) (e : Settled) :
    let t := s.pocketSwitch e
    t = { s with lnt := t.lnt, hif := t.hif, regs := t.regs, outbox := t.outbox } ∧ t.hif.inService = s.hif.inService ∧
      ∃ frozen queue fatal,
        t.lnt = { s.lnt.pocketed (s.pocketEntry e.lvl) with frozen := frozen, queue := queue, fatalSeen := fatal } := by
  intro t
  by_cases fatal : e.lvl = 4 ∧ ¬ s.lnt.fatalSeen
  · let s1 : State := { s with lnt := { s.lnt.pocketed (s.pocketEntry e.lvl) with fatalSeen := true } }
    have eq : t = s1.lintFreeze.assertSrc 3 1 0 := if_pos fatal
    obtain ⟨frame, queue, lnt⟩ := s1.lintFreeze_assert
    obtain ⟨_, _, frozen⟩ := s1.lintFreeze_frozen
    have before : s1.lintFreeze.hif.inService = s.hif.inService := (congrArg (·.hif.inService) frozen :)
    have inService := inService_of_watch (s1.lintFreeze.assertSrc_watch 3 1 0)
    rw [← eq] at frame lnt inService
    exact ⟨frame, inService.trans before, true, queue, true, lnt⟩
  · have eq : t = { s with lnt := s.lnt.pocketed (s.pocketEntry e.lvl) } := if_neg fatal
    rw [eq]
    exact ⟨rfl, rfl, s.lnt.frozen, s.lnt.queue, s.lnt.fatalSeen, rfl⟩

/-- The first SRAM error of the trap (R273). -/
theorem State.lintErrorOp_spec {s : State} (live : s.live = true) (sram : s.lnt.pocket = false) :
    let t := s.lintErrorOp
    (∃ n frozen queue fatal, n.time = s.now ∧ n.seq = nextSeq s.lnt.seq ∧
      t.lnt = { s.lnt.pocketed n with frozen := frozen, queue := queue, fatalSeen := fatal }) ∧
    t.still = { s.still with status := s.flt.status ||| BitVec.ofNat 64 (2 ^ 30) } ∧
    (nbit s.hif.inService 3 = false → nbit t.hif.pend 3 = true) := by
  intro t
  let r := s.settle { cls := 30, unit := 0, n := 1 }
  let a := r.1.recordFirst r.2
  let b := a.pocketSwitch r.2
  let d := (b.signal r.2).reactDev r.2
  have eq : t = d.assertSrc 3 2 0 := (if_neg (by simp [live])).trans (if_neg (by simp [sram]))
  have recorded : a = { s with flt := a.flt } := r.1.recordFirst_frame r.2
  obtain ⟨frame, inService, frozen, queue, fatal, lnt⟩ := a.pocketSwitch_spec r.2
  have reacted := (b.signal r.2).reactDev_watch r.2
  have told := b.signal_watch r.2
  have lnt' : t.lnt = b.lnt :=
    calc t.lnt
      _ = d.lnt := eq ▸ lnt_of_watch (d.assertSrc_watch 3 2 0)
      _ = (b.signal r.2).lnt := (congrArg Watch.lnt reacted :)
      _ = b.lnt := lnt_of_watch told
  have before : a.lnt = s.lnt := (congrArg State.lnt recorded :)
  have switched : b.still = a.still := (congrArg State.still frame :)
  have inService' : d.hif.inService = s.hif.inService :=
    calc d.hif.inService
      _ = (b.signal r.2).hif.inService := (congrArg Watch.inService reacted :)
      _ = b.hif.inService := inService_of_watch told
      _ = a.hif.inService := inService
      _ = s.hif.inService := (congrArg (·.hif.inService) recorded :)
  refine ⟨⟨a.pocketEntry r.2.lvl, frozen, queue, fatal, (congrArg State.now recorded :), ?_, ?_⟩, ?_, fun free => ?_⟩
  · exact congrArg (fun x : Lint => nextSeq x.seq) before
  · rw [lnt', show b.lnt = _ from lnt, before]
  · rw [eq, State.assertSrc_still, State.reactDev_still, State.signal_still, switched, State.recordFirst_still]
    exact s.settle_still _
  · rw [eq]
    exact (d.assertSrc_asserted 3 2 0).pend (inService' ▸ free)

end Sys2Proof.Machine
end

section
/-!
O41: the lint trap (R270 to R274).
-/
namespace Sys2Proof.Machine

/-- Settles O41, by what an entry, a write of LNT_CTL and an SRAM error do to the trap. -/
theorem lintTrap : Obligations.LintTrap := by
  intro s v live l
  have runs (f : State → State) : Host.Outcome.next (s.whenLive f) = (Host.Outcome.next (f s) : Host.Outcome State Fault Refusal) :=
    congrArg _ (if_pos live)
  have control (b : Nat) {t : State} (h : s.lintCtl (lintAsk b v) = t) :
      Host.Outcome.next (s.whenLive (·.lintCtl (lintAsk b v))) = (Host.Outcome.next t : Host.Outcome State Fault Refusal) :=
    (runs _).trans (congrArg _ h)
  obtain ⟨freeze, unfreeze, snap, clear⟩ := s.lintCtl_one v
  refine ⟨fun g rest waits sram => ?_, fun none => ?_, fun alone => ⟨fun running plain => ?_, fun frozen => ?_⟩,
    fun alone => ⟨fun calm frozen => ?_, fun safe => ?_⟩, fun alone => ⟨fun running room plain => ?_, fun missed => ?_⟩,
    fun alone => ⟨fun frozen sram => ?_, fun running => ?_⟩, fun more => ?_, fun sram => ?_⟩
  · exact ⟨_, rfl, State.lintWriteOp_spec live waits sram⟩
  · exact congrArg Host.Outcome.next (by rw [State.lintWriteOp, show s.lnt.queue = [] from none])
  · exact ⟨_, control 1 (freeze alone), State.lintFreeze_spec running plain⟩
  · exact control 1 ((freeze alone).trans (if_pos frozen))
  · exact control 2 ((unfreeze alone).trans ((if_neg (by simp [calm])).trans (if_pos frozen)))
  · exact control 2 ((unfreeze alone).trans (if_pos safe))
  · exact control 4 ((snap alone).trans ((s.lintPush_spec _).1 running room plain))
  · exact ⟨_, control 4 ((snap alone).trans ((s.lintPush_spec _).2 missed)), s.bump_counts 0x50008⟩
  · have running : ¬ (!s.lnt.frozen) = true := by simp [show s.lnt.frozen = true from frozen]
    have pocket : ¬ s.lnt.pocket = true := Bool.eq_false_iff.1 sram
    exact ⟨_, control 8 ((clear alone).trans ((if_neg running).trans (if_neg pocket))), rfl, tget_unnumbered s.lnt.sram⟩
  · exact control 8 ((clear alone).trans (if_pos (by simp [show s.lnt.frozen = false from running])))
  · exact control 1 (s.lintCtl_two more)
  · obtain ⟨⟨n, frozen, queue, fatal, time, seq, lnt⟩, still, pend⟩ := State.lintErrorOp_spec live sram
    have status : s.lintErrorOp.flt.status = s.flt.status ||| BitVec.ofNat 64 (2 ^ 30) := congrArg Still.status still
    have pat : s.lintErrorOp.pat = s.pat := (congrArg Still.pat still :)
    have entry : tget {} s.lintErrorOp.lnt.pocketE 0 = n := by
      rw [lnt]
      exact tget_tset_self ..
    have latched : s.lintErrorOp.flt.status.getLsbD 30 = true := status ▸ getLsbD_or_two_pow _ (by decide)
    refine ⟨_, rfl, by rw [lnt]; rfl, by rw [lnt]; rfl, latched, pat, by rw [lnt]; rfl, pend, ?_, ?_⟩
    · rw [entry, time]
    · rw [entry, seq]
      rfl

end Sys2Proof.Machine
end
